-- ==== Sys2Proof/Word.lean ====
section
/-! DEFINITION. The words of the TH2: bytes, the fixed-width fields of its formats, wheel positions (R4) and
64-byte descriptors (R52). Nothing here depends on a choice of the model. -/

namespace Sys2Proof

abbrev Byte := BitVec 8
abbrev U16 := BitVec 16
abbrev U32 := BitVec 32
abbrev U64 := BitVec 64

/-- A wheel position in the binary layout of R4. -/
abbrev WPos := BitVec 64

/-- A 64-byte command descriptor or work request, little-endian (R7, R52, R367). -/
abbrev Desc := BitVec 512

/-- A byte string, byte 0 first (R7). -/
abbrev Bytes := List Byte

end Sys2Proof
end

