-- ==== Sys2Proof/Syntax.lean ====
section
/-! DEFINITION. The commands of the block, one constructor of Instr per row of spec/opcode_table.json, with the
messages they carry. Operands hold what arrives from outside: message fields, unit numbers, and the outcome of a
check whose inputs the model does not hold (a signature, an authentication tag, a measured level). -/

namespace Sys2Proof

/-- The transport on which a dictionary message arrives (R30, R32): an operator session, an MCTP message of type 0x7E with the
endpoint it is sent to and its vendor identifier (R76), or a tenant mailbox slot. -/
inductive Via where
  | session (id : U32)
  | mctp (eid : Byte) (vendor : U16)
  | mailbox (slot : Nat)
  deriving DecidableEq, Repr, Inhabited

/-- A dictionary message (R30). -/
structure DictMsg where
  op : Byte
  flags : Byte := 0
  index : U16
  sub : Byte
  typ : Byte := 0
  length : U16 := 0
  tag : U32
  status : Byte := 0
  block : U16 := 0
  value : Bytes := []
  deriving DecidableEq, Repr, Inhabited

/-- A command queue: queue `q` (0 to 3) of partition `p`, or the admin queue. -/
inductive QRef where
  | part (p q : Nat)
  | admin
  deriving DecidableEq, Repr, Inhabited

/-- A TPP message (R64); `args` are header bytes 16 to 31. -/
structure TppMsg where
  typ : Byte
  flags : Byte := 3
  partition : Byte
  status : Byte := 0
  length : U16 := 0
  msgSeq : U16
  wpos : WPos := 0
  args : BitVec 128 := 0
  payload : Bytes := []
  deriving DecidableEq, Repr, Inhabited

/-- A peer packet (R372, R373). `body` is the plaintext of the body; `authentic` is whether the authentication tag
verifies under the key that the receiver holds (always read as true for BUSY, which carries no tag). -/
structure Pkt where
  version : Byte := 1
  ptype : Byte
  flags : Byte := 3
  hops : Byte
  dstNode : U16
  srcNode : U16
  dstQp : U16
  srcQp : U16
  psn : BitVec 24
  epoch : Byte := 0
  counter : U64 := 0
  sched : Byte := 0
  body : Bytes := []
  authentic : Bool := true
  deriving DecidableEq, Repr, Inhabited

/-- A lease control message (R315), its `type` given by the command that carries it. -/
structure LeaseMsg where
  lease : U16 := 0
  notice : U32 := 0
  bytes : U64
  lender : BitVec 128
  borrower : BitVec 128
  base : U64 := 0
  deriving DecidableEq, Repr, Inhabited

/-- A received Isver frame (R398, R399): header, decrypted payload, and the outcome of its error correction
(`fecOk`, bytes `corrected` on each lane in `corrected`) and of its authentication. -/
structure Frame where
  ftype : Byte
  flags : Byte := 0
  ctrLo : U16
  startOff : U16 := 0xFFFF
  payload : Bytes := []
  fecOk : Bool := true
  authOk : Bool := true
  corrected : Nat := 0
  deriving DecidableEq, Repr, Inhabited

/-- The operator certificate of R430 with the outcome of its signature check under OD 0x9010:01. -/
structure OpCert where
  magic : U32
  opKey : BitVec 256
  serial : U64
  scope : BitVec 128
  reservedZero : Bool := true
  sigOk : Bool
  deriving DecidableEq, Repr, Inhabited

/-- What a neighbour says at step 4 of bring-up (R395, R404). -/
structure LinkCaps where
  heath : Bool
  unit : BitVec 128
  node : U16
  lanes : Byte
  grants : List Nat
  deriving DecidableEq, Repr, Inhabited

/-- The header of a bridge message that answers a request (R328): `flags` with its response bit, `length` the data bytes that
follow. `data` is what follows a PARAM response; other responses have an operand of their own for it. -/
structure BridgeHdr where
  flags : Byte := 1
  tag : U16
  channel : Byte
  lun : Byte
  status : Byte
  block : U32 := 0
  page : U32 := 0
  length : U32 := 0
  corrected : U16 := 0
  capability : U16 := 0
  data : Bytes := []
  deriving DecidableEq, Repr, Inhabited

/-- The shelf record of R332. -/
structure ShelfRec where
  bridgeId : BitVec 128
  channels : Nat
  luns : Nat
  blocks : Nat
  pages : Nat
  pageBytes : Nat
  metaBytes : Nat
  tRead : Nat
  tProg : Nat
  tErase : Nat
  endurance : Nat
  deriving DecidableEq, Repr, Inhabited

/-- A page record (R329): 16,384 data bytes and 128 metadata bytes. -/
structure PageRec where
  data : Bytes := []
  spare : Bytes := []
  deriving DecidableEq, Repr, Inhabited

/-- What bytes 0 to 23 of a page header say (R338). -/
structure PageHdr where
  seq : Nat
  unit : Nat
  kind : Nat
  cls : Bool := false
  keyId : Nat := 0
  deriving DecidableEq, Repr, Inhabited

/-- A superblock that the flash holds, as a shelf that comes up finds it: its ID, group, blocks by position, stream (R343). How a
device finds the superblocks that no checkpoint names is not in the spec (log entry 26). -/
structure SbFound where
  id : Nat
  group : Nat
  blocks : List Nat
  stream : Nat
  deriving DecidableEq, Repr, Inhabited

/-- The result of a tier copy (R301): done, source not readable, target not writable. -/
inductive CopyResult where
  | done
  | srcFail
  | dstFail
  deriving DecidableEq, Repr, Inhabited

/-- The repair record as found at boot (R463): valid, or why it is not. -/
inductive RepairState where
  | valid
  | missing
  | badSignature
  | unitMismatch
  deriving DecidableEq, Repr, Inhabited

/-- What the device finds outside itself when it boots (R460): modules left with 32 lanes (R41), straps, PUF, image
slot, repair record with its lane repair or the cores that pass analysis, stored values, kiln store, supply and MRAM, the
certificate chain in NOR (R426), and the endpoint ID that the bus owner of the sideband assigns (R76). -/
structure BootWorld where
  lanes32 : BitVec 48 := 0
  nodeSel : Nat
  pufOk : Bool
  identityKey : Bytes
  imageOk : Bool
  fwVersion : U32
  imageDigest : BitVec 256
  repair : RepairState
  repairDigest : BitVec 256
  vddMv : Nat
  coreMap : List Nat
  passing : List Bool
  pufRoot : BitVec 256 := 0
  ucieRepair : Bytes := []
  hbmRepair : Bytes := []
  chain : Bytes := []
  kilnVinMv : Nat
  mramOk : Bool
  wavelengths : List (List Int)
  eid : Byte := 0
  deriving DecidableEq, Repr, Inhabited

/-- Why a cold reset happens (R467). -/
inductive ColdCause where
  | rstN
  | powerOn
  | recoveryImage
  deriving DecidableEq, Repr, Inhabited

/-- What starts a supply sag (R475), numbered as `cause` of R479. -/
inductive SagCause where
  | pwrWarn
  | vinDroop
  | thermalTrip
  deriving DecidableEq, Repr, Inhabited

/-- One regulator's answer to a poll (R470): whether it answered, mV, 0.1 A, W. -/
structure RegReading where
  answered : Bool
  mv : U16
  deciAmp : U16
  watts : U16
  deriving DecidableEq, Repr, Inhabited

/-- An SPDM request of the responder of R432 other than those with rows of their own. -/
inductive SpdmReq where
  | getVersion
  | getCapabilities
  | negotiateAlgorithms
  | getDigests
  | getCertificate (slot off len : Nat)
  | challenge
  | keyExchange (session : Nat)
  | vendorDefined (session : Nat) (op : Byte)
  | other
  deriving DecidableEq, Repr, Inhabited

/-- What a tile that lands was fetched for (R112, R212, R222, R224): a job, with the item and its page or weight slice; a MOVE
firing, by cluster, step, sequence and layer, with the head group and page; a half of a core's purpose 3 regions, with the core and
the half. -/
inductive TileRef where
  | page (job : Nat)
  | planned (cluster step seq layer : Nat)
  | weights
  deriving DecidableEq, Repr, Inhabited

/-- How the granules of a meadow read meet their tags (R229): at once, at the second read, or not at all. -/
inductive ReadCheck where
  | clean
  | retried
  | failed
  deriving DecidableEq, Repr, Inhabited

/-- The commands of the block (spec/opcode_table.json), one constructor per row. -/
inductive Instr where
  | read (via : Via) (m : DictMsg)
  | write (via : Via) (m : DictMsg)
  | readBlock (via : Via) (m : DictMsg)
  | writeBlock (via : Via) (m : DictMsg)
  | blockWriteTimeout (via : Via)
  | commit (via : Via) (m : DictMsg)
  | cancelPendingCommit (via : Via) (m : DictMsg)
  | discardStagedSet (via : Via) (m : DictMsg)
  | hello (nonce : BitVec 256) (ek : Bytes)
  | auth (sid : U32) (cert : OpCert) (sigOk : Bool)
  | record (sid : U32) (ctr : U64) (authOk : Bool) (body : Option DictMsg)
  | sessionSetupTimeout (sid : U32)
  | sessionIdleTimeout (sid : U32)
  | commandTailDoorbell (q : QRef) (tail : U32) (adminRing : List Desc)
  | completionHeadDoorbell (q : QRef) (head : U32)
  | eventHeadDoorbell (ring : Nat) (head : U32)
  | mbxSubmit (slot : U32) (m : DictMsg)
  | mbxDone (bits : U32)
  | deferredCommandStart (id : Nat)
  | seqOpen (q : QRef)
  | seqClose (q : QRef)
  | seqFork (q : QRef)
  | seqTruncate (q : QRef)
  | kvAppend (q : QRef)
  | colSeal (q : QRef)
  | colMove (q : QRef)
  | colPin (q : QRef)
  | colUnpin (q : QRef)
  | colDiscard (q : QRef)
  | pfxLookup (q : QRef)
  | pfxCommit (q : QRef)
  | pfxEvict (q : QRef)
  | objCreate (q : QRef)
  | objWrite (q : QRef)
  | objRead (q : QRef)
  | objMove (q : QRef)
  | objPolicy (q : QRef)
  | attn (q : QRef)
  | attnBwd (q : QRef)
  | specConfirm (q : QRef)
  | compaction (id : Nat)
  | tableBuild (q : QRef)
  | tableLoad (q : QRef)
  | compress (q : QRef)
  | waitCount (q : QRef)
  | fence (q : QRef)
  | cxlMemRead (p : Nat) (line : Nat) (check : ReadCheck)
  | cxlMemWrite (p : Nat) (line : Nat) (data : BitVec 512)
  | beat (m : TppMsg)
  | beatHoldRelease
  | sheet (m : TppMsg)
  | submit (m : TppMsg)
  | window (m : TppMsg)
  | credit (m : TppMsg)
  | sync (m : TppMsg)
  | beatSilence
  | wheelRestart (via : Via) (m : DictMsg)
  | tileLanded (t : TileRef) (owner index : Nat) (check : ReadCheck)
  | itemComplete (job : Nat) (item : Nat)
  | jobComplete (job : Nat)
  | moveCommit (mv : Nat) (res : CopyResult)
  | moduleLinkDown (mod : Nat) (retrainFailed : Bool)
  | moduleRetrain (mod : Nat) (lanes32 : Bool)
  | sidebandFailure (mod : Nat)
  | configure (via : Via) (m : DictMsg)
  | qpConnect (via : Via) (m : DictMsg)
  | drain (via : Via) (m : DictMsg)
  | qpReset (via : Via) (m : DictMsg)
  | qpRelease (via : Via) (m : DictMsg)
  | connectTimeout (qp : Nat)
  | peerSendTailDoorbell (p : Nat) (value : U32)
  | peerCompletionHeadDoorbell (p : Nat) (value : U32)
  | wrWrite (qp : Nat)
  | wrWriteImm (qp : Nat)
  | wrRead (qp : Nat)
  | wrWaitCount (qp : Nat)
  | peerWrite (port : Nat) (k : Pkt)
  | peerWriteImm (port : Nat) (k : Pkt)
  | readReq (port : Nat) (k : Pkt)
  | readResp (port : Nat) (k : Pkt)
  | ack (port : Nat) (k : Pkt)
  | nak (port : Nat) (k : Pkt)
  | connect (port : Nat) (k : Pkt)
  | connectAck (port : Nat) (k : Pkt)
  | disconnect (port : Nat) (k : Pkt)
  | busy (port : Nat) (k : Pkt)
  | busyResend (qp : Nat)
  | retransmissionTimeout (qp : Nat)
  | peerRekey (qp : Nat)
  | contextFetch (qp : Nat)
  | relayedPacket (port : Nat) (k : Pkt)
  | leaseRequest (port : Nat) (m : LeaseMsg)
  | leaseGrant (port : Nat) (m : LeaseMsg)
  | leaseRefuse (port : Nat) (m : LeaseMsg)
  | leaseReturn (port : Nat) (m : LeaseMsg)
  | leaseRecall (port : Nat) (m : LeaseMsg)
  | leaseDone (port : Nat) (m : LeaseMsg)
  | borrowerHoldExpiry (lease : Nat)
  | portBringUp (port : Nat) (caps : LinkCaps)
  | bringupStepTimeout (port : Nat)
  | linkKey (port : Nat) (unit : BitVec 128) (pub : Bytes) (ek : Bytes)
  | linkCt (port : Nat) (unit : BitVec 128) (pub : Bytes) (ct : Bytes)
  | linkProof (port : Nat) (sigOk : Bool)
  | dataFrame (port : Nat) (f : Frame)
  | creditFrame (port : Nat) (f : Frame)
  | nakFrame (port : Nat) (f : Frame)
  | lane (port : Nat) (f : Frame)
  | laneFault (port : Nat) (laneNo : Nat)
  | laneFrameRepeat (port : Nat)
  | laneAgreementTimeout (port : Nat)
  | laneRetrain (port : Nat) (laneNo : Nat) (passed : Bool)
  | laserCheck (powers : List (List Int))
  | nakRepeat (port : Nat)
  | replayTimeout (port : Nat)
  | creditFrameTimer (port : Nat)
  | linkRekey (port : Nat)
  | packetBoundary (port : Nat)
  | identify (shelf : Nat) (h : BridgeHdr) (r : ShelfRec)
  | param (shelf : Nat) (h : BridgeHdr)
  | badmap (shelf : Nat) (h : BridgeHdr) (bad : List Nat)
  | bridgeRead (shelf : Nat) (h : BridgeHdr) (rec : PageRec)
  | readMeta (shelf : Nat) (h : BridgeHdr) (spare : Bytes)
  | program (shelf : Nat) (h : BridgeHdr)
  | erase (shelf : Nat) (h : BridgeHdr)
  | bridgeReset (shelf : Nat) (h : BridgeHdr)
  | bridgeResponseTimeout (shelf : Nat) (tag : U16)
  | portDownWaitExpiry (shelf : Nat)
  | journalHalfFull (shelf : Nat)
  | checkpoint (shelf : Nat)
  | garbageCollection (shelf : Nat)
  | shelfStartup (shelf : Nat) (found : List SbFound)
  | startFullScan (via : Via) (m : DictMsg)
  | formatShelf (via : Via) (m : DictMsg)
  | startRebuild (via : Via) (m : DictMsg)
  | spdmRequest (r : SpdmReq)
  | finish (session : Nat) (mutualAuth : Bool) (leafKey : Bytes)
  | getMeasurements (session : Option Nat) (index : Byte) (sign : Bool)
  | spdmSessionEnd (session : Nat)
  | own (session : Nat)
  | setSecret (session : Nat) (setId : U64) (secret : BitVec 256)
  | tenancySecret (session : Nat) (secret : BitVec 256)
  | status (session : Nat)
  | ownershipWaitExpiry
  | releaseRequest (via : Via) (m : DictMsg)
  | releaseStepEnd
  | weightKeyWrite (via : Via) (m : DictMsg)
  | scanRequest (via : Via) (m : DictMsg)
  | testRequest (via : Via) (m : DictMsg)
  | trigEdge
  | testComplete (signature : U64) (micros : Nat)
  | linkTestStart (via : Via) (m : DictMsg)
  | linkTestStop (via : Via) (m : DictMsg)
  | coldReset (cause : ColdCause)
  | boot (w : BootWorld)
  | warmReset (via : Via) (m : DictMsg)
  | partitionReset (via : Via) (m : DictMsg)
  | mgpFault (address : U32)
  | firmwareUpdate (via : Via) (m : DictMsg) (imageOk : Bool)
  | recoveryBlockWrite (via : Via) (m : DictMsg) (imageOk : Bool)
  | supplySag (cause : SagCause) (vinMv : Nat)
  | kilnIsolation
  | saveEnd (micros : Nat)
  | discardHeldSave (via : Via) (m : DictMsg)
  | thermalSample (readings : List Int)
  | pmbusPoll (regs : List RegReading) (stepUp : Option Bool)
  | pmbusTimeout (reg : Nat)
  | powerCheck
  | logFlush
  | escalation (code : U16) (unit : U16)
  | clearTheLog (via : Via) (m : DictMsg)
  | counterValueWrite (via : Via) (m : DictMsg)
  | counterSample (id : U16) (job item : Nat) (microOp : Nat)
  | saveRingCopyEnd
  | coreFailure (core : Nat)
  | rtpDomainFailure (kiln : Bool)
  | slotProgrammed (ok : Bool)
  | storedValuesWritten
  | blockEncoded (id : Nat) (core : Nat) (lost : Bool)
  | borrowerLeaseRequest (port : Nat) (bytes : U64)
  | idleFrame (port : Nat) (f : Frame)
  | checkerLock (laneNo : Nat)
  | checkerLockLoss (laneNo : Nat)
  | checkerError (laneNo : Nat) (bits : Nat)
  deriving DecidableEq, Repr

end Sys2Proof
end

