-- ==== Sys2Proof/Decode.lean ====
section
/-! DEFINITION. The command that a word of spec/opcode_table.json spells. No row of that table gives bits (the commands
are messages, doorbells, descriptors and events of several forms), so no word spells one. -/

namespace Sys2Proof

/-- The command spelled by a word under the table's bits: none, since no row has bits. -/
def decodeTableWord (_nbits _w : Nat) : Option Instr := none

end Sys2Proof
end

