-- ==== Sys2Proof/Config.lean ====
section
/-! DEFINITION. The free values: constants with no body, so that no proof can see what they are. Each stands for a
value or a choice that the spec leaves open, or for a standard outside the spec (log entries 2 and 3). -/

namespace Sys2Proof.Config

/-- A value the spec leaves open, `w` bits wide; `n` numbers the draws (State.fresh). Session identifiers, nonces, keys
and connection generations are of this kind (log entry 2). -/
opaque free (w n : Nat) : BitVec w

/-- SHA-256, a standard the spec names and does not define (log entry 3). -/
opaque sha256 : Bytes → BitVec 256

/-- Digest of the RTP ROM, OD 0x9030:01: the ROM's content lies outside the spec (log entry 3). -/
opaque romDigest : BitVec 256

/-- Whether a firmware image's public key is the one whose digest the RTP ROM holds and its signature verifies, where the command does
not say (R461; log entry 3). -/
opaque imageSigned : Bytes → Bool

/-- HKDF-SHA-256 of key, salt and info, giving a string of the length asked (R424, R444, R453; log entry 3). -/
opaque hkdf (key salt info : Bytes) (len : Nat) : Bytes

/-- AES-256-GCM opening: key, nonce, additional data, ciphertext, tag; `none` where the tag fails (R445, R446). -/
opaque gcmOpen (key nonce aad ct tag : Bytes) : Option Bytes

/-- AES-256-GCM sealing: key, nonce, additional data, plaintext; ciphertext, then the 16-byte tag (R385; log entry 3). -/
opaque gcmSeal (key nonce aad plain : Bytes) : Bytes

/-- The sealed body and tag of a packet for another node, which a relay passes on as they came and cannot read (R388), by its header with
`hops` zero and its plaintext (log entry 3). -/
opaque relayedBody (header plain : Bytes) : Bytes

/-- HMAC-SHA-256 of key and message (R448, R453, R478; log entry 3). -/
opaque hmac (key msg : Bytes) : BitVec 256

/-- AES-256 of one block, GHASH of a string under a hash key, and AES-256-XTS of a data unit under a key pair and a tweak, in both
directions (R450, R453; log entry 3). -/
opaque aes (key : BitVec 256) (block : BitVec 128) : BitVec 128
opaque ghash (h : BitVec 128) (data : Bytes) : BitVec 128
opaque xtsEnc (keys : BitVec 512) (tweak : BitVec 128) (data : Bytes) : Bytes
opaque xtsDec (keys : BitVec 512) (tweak : BitVec 128) (data : Bytes) : Bytes

/-- The signature the firmware expects of a self-test kind (R504). -/
opaque misrExpected : Nat → BitVec 64

/-- exp2 of the vector engine on binary32 arguments: the spec bounds its error in [-126, 0], and says nothing of positive ones (R195). -/
opaque exp2 : BitVec 32 → BitVec 32

/-- The vector engine's reciprocal on binary32: the spec bounds its error only (R195). -/
opaque recip : BitVec 32 → BitVec 32

/-- Whether the vector engine rounds a multiply-add once, and its sum of several numbers: the spec gives the formulas
and no order or rounding of them (R173, R192, R197). -/
opaque vecFused : Bool
opaque vecSum : List (BitVec 32) → BitVec 32

/-- 4 KiB units of the pool on stack `c`, with `n` stacks in service: the spec gives their sum only (R305, R508). -/
opaque stackUnits (n c : Nat) : Nat

/-- The code lengths TABLE_BUILD chooses for symbol counts (R251). -/
opaque tableChoice (counts : List Nat) : List Nat

/-- The payload COMPRESS chooses for a block under code lengths, mode, lane and base (R253). -/
opaque codedChoice (lens : List Nat) (mode lane : Nat) (base raw : Bytes) : Bytes

/-- The public key that identity derivation yields is an input of BOOT; this is the order in which the device picks a
4 KiB address in a tier (R138): unit, index of the allocation. -/
opaque addressIn (unit index : Nat) : Nat

/-- The address in the device reserved region of the coil directory made as the n-th (R120, R133). -/
opaque reservedAt (n : Nat) : Nat

/-- The value and sticky bit that a counter of an event inside the chip shows at a time (R488; log entry 107). -/
opaque openCount (counter now : Nat) : BitVec 49

/-- The module that carries the n-th message of a class (R64). -/
opaque moduleFor (cls n : Nat) : Nat

end Sys2Proof.Config
end

