-- ==== Sys2Proof/Machine/Bits.lean ====
section
/-! DEFINITION. Fields of bit strings, little-endian bytes (R7), wheel positions (R4 to R6) and small list helpers. -/

namespace Sys2Proof.Machine

/-- Little-endian number of a byte string (R7). -/
def leNat : Bytes → Nat
  | [] => 0
  | b :: bs => b.toNat + 256 * leNat bs

/-- The `n` little-endian bytes of a number (R7). -/
def natLe : Nat → Nat → Bytes
  | 0, _ => []
  | n + 1, v => BitVec.ofNat 8 v :: natLe n (v / 256)

/-- A record: little-endian fields in order, each a width in bytes and a value (R7). -/
def recordOf (fs : List (Nat × Nat)) : Bytes := fs.flatMap (fun f => natLe f.1 f.2)

/-- A bit of a flags byte. -/
def flagBit (b : Bool) (i : Nat) : Nat := if b then 2 ^ i else 0

/-- Bits `[hi:lo]` of a number. -/
def bitsOf (v hi lo : Nat) : Nat := v / 2 ^ lo % 2 ^ (hi + 1 - lo)

/-- Bit `i` of a number. -/
def bitOf (v i : Nat) : Bool := v.testBit i

/-- Bytes `off` to `off + n - 1` of a byte string, as a little-endian number; bytes past the end read as zero. -/
def fieldAt (bs : Bytes) (off n : Nat) : Nat := leNat ((bs.drop off).take n)

/-- Bytes `off` to `off + n - 1` of a descriptor, as a number (R52). -/
def dfield (d : Desc) (off n : Nat) : Nat := d.toNat / 256 ^ off % 256 ^ n

/-- The descriptor that 64 bytes spell. -/
def descOf (bs : Bytes) : Desc := BitVec.ofNat 512 (leNat (bs.take 64))

def ceilDiv (a b : Nat) : Nat := (a + (b - 1)) / b

def isPow2 (n : Nat) : Bool := n != 0 && (2 ^ n.log2 == n)

/-- The smallest power of two that is at least `n`. -/
def pow2Up (n : Nat) : Nat := if n ≤ 1 then 1 else 2 ^ ((n - 1).log2 + 1)

/-- Value of a key in an association list, or a default. -/
def lookupD (l : List (Nat × Nat)) (k d : Nat) : Nat :=
  match l.find? (fun e => e.1 == k) with
  | some e => e.2
  | none => d

/-- The list with key `k` bound to `v`, keys kept in rising order. -/
def insertKey (k v : Nat) : List (Nat × Nat) → List (Nat × Nat)
  | [] => [(k, v)]
  | e :: es =>
    if k < e.1 then (k, v) :: e :: es
    else if k = e.1 then (k, v) :: es
    else e :: insertKey k v es

def eraseKey (k : Nat) (l : List (Nat × Nat)) : List (Nat × Nat) := l.filter (fun e => e.1 != k)

/-- Replace the elements that satisfy `p`. -/
def mapIf {α : Type} (p : α → Bool) (f : α → α) (l : List α) : List α := l.map (fun x => if p x then f x else x)

def sumBy {α : Type} (f : α → Nat) (l : List α) : Nat := l.foldl (fun a x => a + f x) 0

/-- Element `i` of a list of numbers, 0 past its end. -/
def nth (l : List Nat) (i : Nat) : Nat := l.getD i 0

def addAt (l : List Nat) (i n : Nat) : List Nat := l.set i (nth l i + n)

/-- Insert into a list kept in rising order under `lt`; equal elements keep their order. -/
def insertBy {α : Type} (lt : α → α → Bool) (x : α) : List α → List α
  | [] => [x]
  | y :: ys => if lt x y then x :: y :: ys else y :: insertBy lt x ys

/-- Stable insertion sort. -/
def sortBy {α : Type} (lt : α → α → Bool) (l : List α) : List α := l.foldl (fun acc x => insertBy lt x acc) []

/-- Distance from `a` up to `b` modulo `m`. -/
def modSub (b a m : Nat) : Nat := (b + m - a % m) % m

/-- The first `n` bytes of a SHA-256 digest, its first byte the most significant of the 256-bit value. -/
def digestBytes (d : BitVec 256) (n : Nat) : Bytes :=
  (List.range n).map (fun i => BitVec.ofNat 8 (d.toNat / 256 ^ (31 - i)))

namespace Pos

/-- The position of a step, layer and phase (R4). -/
def mk (step layer phase : Nat) : WPos := BitVec.ofNat 64 (step * 2 ^ 24 + layer * 2 ^ 16 + phase * 2 ^ 12)

def step (w : WPos) : Nat := w.toNat / 2 ^ 24
def layer (w : WPos) : Nat := w.toNat / 2 ^ 16 % 256
def phase (w : WPos) : Nat := w.toNat / 2 ^ 12 % 16

/-- Well formed: no reserved phase code and no reserved bit set (R6). -/
def ok (w : WPos) : Bool := phase w < 4 && w.toNat % 2 ^ 12 == 0

/-- The next position in the order of R113, under a given `last`. -/
def succ (last : Nat) (w : WPos) : WPos :=
  if phase w < 3 then mk (step w) (layer w) (phase w + 1)
  else if layer w < last then mk (step w) (layer w + 1) 0
  else mk (step w + 1) 0 0

/-- The first position of layer 0 and phase OPEN that is later than `w` (R113). -/
def nextStepStart (w : WPos) : WPos := mk (step w + 1) 0 0

end Pos

end Sys2Proof.Machine
end

