-- ==== Sys2Proof/Machine/State.lean ====
section
/-! DEFINITION. The state of the TH2: everything the spec gives the device, as plain data, and the state right after a
cold reset. Registers of the object dictionary stand in one store under their own numbers (R17); every other structure
has the spec's own shape. -/

namespace Sys2Proof.Machine

/-! ## Names the spec fixes -/

/-- Status codes (R513). -/
inductive Status where
  | ok | okLate | okEmptyRows
  | badDescriptor | badObject | quota | noSpace | conflict | rejectedSheet
  | poisoned | media | sherdLength | sherdCode | tableMismatch | integrity
  | deadline | prefetchLate | modeSplit
  | peerUnreachable | peerRecall
  | notOwned | keyAbsent
  | aborted | specExpired
  deriving DecidableEq, Repr, Inhabited

/-- Fault codes (R517). -/
inductive FaultCode where
  | wheelBackward | beatEarly | deadline | prefetchLate | modeSplit
  | poison | sherd | pastureLate
  | heathBridge | heathScan | heathProgram | heathErase | heathLun | heathPort
  | peerQp | laser | isverLink | isverAuth | isverLane
  | ucieModule
  | mgp | storedValues | repairRecord | thermalWarn | thermalTrip | pmbus | power | kilnNotArmed | supplySag
  | kilnIncomplete
  | puf | bistFail | escalated | logOverflow | logCleared
  deriving DecidableEq, Repr, Inhabited

/-- The two roles that act on the device (R13). -/
inductive Role where
  | operator
  | tenant
  deriving DecidableEq, Repr, Inhabited

/-- The tiers of R292. -/
inductive Tier where
  | meadow
  | pasture
  | heath
  deriving DecidableEq, Repr, Inhabited

/-- Tenancy states (R437). -/
inductive Tenancy where
  | unowned
  | attesting
  | owned
  | releasing
  deriving DecidableEq, Repr, Inhabited

/-- States of the root-of-trust processor (R421). -/
inductive RtpState where
  | rom
  | run
  | recovery
  | safe
  | scanOpen
  deriving DecidableEq, Repr, Inhabited

/-- Device states (OD 0xC000:01, R484). -/
inductive DevState where
  | rom
  | booting
  | ready
  | recovery
  | saving
  | saved
  | safe
  | scanOpen
  deriving DecidableEq, Repr, Inhabited

/-- Durability states (R279). -/
inductive Dur where
  | none
  | queued
  | ring
  | heath
  | failed
  deriving DecidableEq, Repr, Inhabited

/-- Where an item lies: its tier, the stack, lease or shelf, and the address there in 4 KiB units (R121, R138). -/
structure Loc where
  tier : Tier
  unit : Nat := 0
  addr : Nat := 0
  deriving DecidableEq, Repr, Inhabited

/-! ## Host link -/

/-- A completion record (R54). -/
structure Completion where
  tag : U32
  opcode : Nat
  status : Status
  queue : Nat
  phase : Bool
  wpos : WPos
  result : Nat
  deriving DecidableEq, Repr, Inhabited

/-- An event record (R56) before it is written; `partition` is 255 when no partition is concerned. -/
structure Event where
  timeNs : Nat
  wpos : WPos
  status : Status
  partition : Nat
  fault : Nat
  unit : Nat
  overflow : Bool := false
  phase : Bool := false
  detail : Nat
  deriving DecidableEq, Repr, Inhabited

/-- The body of a device-to-host TPP message (R65). -/
inductive HostMsg where
  | output (window off seq layer row0 rows partition : Nat) (status : Status) (payload : Bytes)
  | completion (window off partition : Nat) (rec : Completion)
  | event (window off partition : Nat) (rec : Event)
  | wpush (window off obj tile partition : Nat) (status : Status) (last : Bool) (payload : Bytes)
  deriving DecidableEq, Repr, Inhabited

/-- A device-to-host message that the host has not acknowledged (R68): class 2 or 3, number in its class, the position and
the fragment flags of its header (R64), whether it has been sent, on which module, payload length, and the vector to send
once it is acknowledged (R63). -/
structure TxMsg where
  cls : Nat
  seq : U16
  wpos : WPos := 0
  first : Bool := true
  final : Bool := true
  sent : Bool
  module : Nat
  len : Nat
  body : HostMsg
  vector : Option Nat
  deriving DecidableEq, Repr, Inhabited

/-- A registered receive window (R65). -/
structure Window where
  id : Nat
  cls : Nat
  bytes : Nat
  deriving DecidableEq, Repr, Inhabited

/-- A CXL.mem read that waits (R46): for its heath port, or, once asked, for the page of its unit. -/
structure CxlWait where
  part : Nat
  line : Nat
  shelf : Nat
  unit : Nat
  since : Nat
  asked : Bool
  deriving DecidableEq, Repr, Inhabited

/-- An entry of the MSI-X table (R48, R62), with the fields that the PCI standard gives it: where its message goes, what it
carries, whether it is masked. -/
structure MsixEntry where
  addr : U64 := 0
  data : U32 := 0
  masked : Bool := false
  deriving DecidableEq, Repr, Inhabited

/-- The host link (R38 to R79): `modules` in service; `retraining` those that have changed group and not joined their new one,
since `cxlSince` (R39); `eid` the MCTP endpoint ID (R76); `grant0` and `grant1` the credit units that the host has left in
classes 0 and 1 (R67); `hdm` the host address of each HDM decoder (R42); `msix` and `msixPending` the MSI-X table and its
pending bits (R48); `doorbells` the last value written to each doorbell of BAR0 by its offset, which it reads back (R48). -/
structure HostLink where
  modules : BitVec 48 := BitVec.allOnes 48
  degraded : BitVec 48 := 0
  retraining : BitVec 48 := 0
  cxlSince : Option Nat := none
  sidebands : BitVec 48 := BitVec.allOnes 48
  mctpModule : Nat := 0
  eid : Byte := 0
  grant0 : Nat := 64
  grant1 : Nat := 8192
  hdm : List U64 := List.replicate 32 0
  msix : List MsixEntry := List.replicate 272 {}
  msixPending : List Nat := []
  rx0 : U16 := 0
  rx1 : U16 := 0
  held0 : List TppMsg := []
  held1 : List TppMsg := []
  heldSubmits : List TppMsg := []
  tx2 : U16 := 0
  tx3 : U16 := 0
  cred2 : Nat := 1024
  cred3 : Nat := 2048
  unacked : List TxMsg := []
  windows : List Window := []
  winPend : List Window := []
  vectorsHeld : List Nat := []
  cxlWaiting : List CxlWait := []
  doorbells : List (Nat × Nat) := []
  discarded : Nat := 0
  deriving DecidableEq, Repr, Inhabited

/-- A command queue (R50, R53, R60): the doorbells' values, completions so far, descriptors submitted and not started,
those that end with ST_ABORTED as their ring has slots for it (R12, R53), and whether a bad doorbell stopped it (R51). -/
structure Queue where
  tail : Nat := 0
  compHead : Nat := 0
  completed : Nat := 0
  waiting : List Desc := []
  aborting : List Desc := []
  stopped : Bool := false
  deriving DecidableEq, Repr, Inhabited

/-- An event ring (R56, R57): events written, the head doorbell, events held back, events lost. -/
structure EvRing where
  written : Nat := 0
  head : Nat := 0
  held : List Event := []
  lost : Nat := 0
  overflow : Bool := false
  deriving DecidableEq, Repr, Inhabited

/-- Progress of a TABLE_BUILD or COMPRESS (R255): number of blocks, blocks under way by core, blocks done, and the
generation its table slot had at the start (R253). -/
structure Coding where
  total : Nat
  busy : List (Nat × Nat)
  done : List Nat
  gen : Nat
  deriving DecidableEq, Repr, Inhabited

/-- What a started and uncompleted command is waiting for; `held` waits as a prefix command does, with no effect on later ones
(R289, R473), as does `full`, a commit beyond the columns in state 1 (R282), `stalled` waits for a heath port out of service (R354), `placing`
has ended but for bytes that wait in `heldWrites` (R74), and `moves` waits for tier copies, with how many items it acts on, a status that it met, and the columns it has read (R156). -/
inductive CmdWork where
  | deferred
  | atPos (pos : WPos)
  | count (kind queue qp value : Nat)
  | fence
  | job (id : Nat)
  | moves (left : List Nat) (acted : Nat) (failed : Option Status) (read : List Nat)
  | coding (c : Coding)
  | confirm
  | durable (cols : List Nat) (result : Nat)
  | held
  | full
  | stalled (shelf : Nat)
  | placing (st : Status) (result : Nat)
  | starting
  deriving DecidableEq, Repr, Inhabited

/-- A started and uncompleted command; `id` grows in start order. -/
structure Cmd where
  id : Nat
  q : QRef
  part : Nat
  desc : Desc
  work : CmdWork
  since : Nat
  deriving DecidableEq, Repr, Inhabited

structure Queues where
  qs : List Queue := List.replicate 129 {}
  evs : List EvRing := List.replicate 33 {}
  cmds : List Cmd := []
  nextCmd : Nat := 1
  deriving DecidableEq, Repr, Inhabited

/-! ## Wheel, plans, sheets -/

/-- A gate list entry (R414). -/
structure GateEntry where
  layer : Nat
  phase : Nat
  mask : Nat
  deriving DecidableEq, Repr, Inhabited

/-- A layer group of a plan (R88). -/
structure Group where
  first : Nat
  final : Nat
  headGroups : Nat
  kind : Nat
  window : Nat
  format : Nat
  pageBytes : Nat
  deriving DecidableEq, Repr, Inhabited

/-- A firing table entry (R89); `operands` are entry bytes 12 to 31, little-endian. -/
structure Firing where
  period : Nat
  residue : Nat
  layer : Nat
  phase : Nat
  action : Nat
  partition : Nat
  flags : Nat
  operands : Nat
  deriving DecidableEq, Repr, Inhabited

/-- A partition entry of the resource declaration (R92). -/
structure PartRes where
  maxSeq : Nat
  maxSplit : Nat
  maxPages : Nat
  maxCand : Nat
  subBytes : Nat
  cores : Nat
  deriving DecidableEq, Repr, Inhabited

structure SplitLayout where
  partition : Nat
  k : Nat
  merge : Nat
  cores : List Nat
  deriving DecidableEq, Repr, Inhabited

structure Claim where
  kind : Nat
  purpose : Nat
  unit : Nat
  deriving DecidableEq, Repr, Inhabited

/-- A plan image read into its parts (R87 to R94, R96, R414). -/
structure Plan where
  planId : Nat
  modelTag : Nat
  layers : Nat
  groups : List Group
  slices : List Nat
  depth : Nat
  minStep : Nat
  dueStep : Int
  dueLayer : Nat
  duePhase : Nat
  lead : Nat
  firings : List Firing
  templates : List Desc
  splits : List SplitLayout
  gates : List (Nat × List GateEntry)
  streamModules : Nat
  pinRate : Nat
  parts : List PartRes
  claims : List Claim
  deriving DecidableEq, Repr, Inhabited

/-- A plan in a slot: object, image, digest, and which half of the submission area it uses (R85, R105). -/
structure PlanSlot where
  obj : Nat
  plan : Plan
  digest : BitVec 256
  half : Bool
  deriving DecidableEq, Repr, Inhabited

/-- The next slot: takeover step and image, `none` for the empty plan (R85, R116). -/
structure NextPlan where
  takeover : Nat
  slot : Option PlanSlot
  deriving DecidableEq, Repr, Inhabited

/-- A mode change armed at a position and not yet in force for good (R113, R114). `who`: 1 operator commit, 2 tenant
commit, 3 plan; `units` are the unit identifiers (R514) of what it waits for, `firstJob` the first job number released at or
after `pos`, `check` and `revert` the positions of its acknowledgement check and its revert boundary; of one that split, `lags` are the
units that had not acknowledged and `checkJob` the first job number released since. -/
structure ModeChange where
  pos : WPos
  who : Nat
  changes : List (Nat × Nat)
  olds : List (Nat × Nat)
  units : List Nat
  firstJob : Nat
  check : WPos
  revert : WPos
  failed : Bool
  lags : List Nat := []
  checkJob : Nat := 0
  deriving DecidableEq, Repr, Inhabited

/-- A beat held as early, or behind a held beat (R83). -/
structure HeldBeat where
  wpos : WPos
  c1 : U16
  deriving DecidableEq, Repr, Inhabited

/-- A firing of the plan in `slot`, or a due check, that waits until every class 1 message before `c1` has been handed
on (R70, R99). -/
structure Blocked where
  pos : WPos
  c1 : U16
  firing : Option Firing
  slot : Option PlanSlot
  deriving DecidableEq, Repr, Inhabited

/-- The wheel (R80 to R84) with its plan slots (R85); `dues` says when DUE positions took effect, by step and layer (R111). -/
structure Wheel where
  cur : WPos := 0
  floor : WPos := 0
  fresh : Bool := true
  stepStart : Option Nat := none
  held : List HeldBeat := []
  lastBeat : Nat := 0
  silent : Bool := false
  blocked : List Blocked := []
  active : Option PlanSlot := none
  next : Option NextPlan := none
  tookOver : Nat := 0
  modes : List ModeChange := []
  dues : List (Nat × Nat × Nat) := []
  deriving DecidableEq, Repr, Inhabited

/-- A sheet entry (R100) with what the step has found out about it: why it cannot be served (R103, R149, R163),
the columns set aside for it (R151, R190) with their places, whether its provisional tail has been made (R183), the layers
whose verify job is over, and whether one failed (R187). -/
structure Entry where
  seq : Nat
  split : Bool
  lenMax : Nat
  cand : Nat
  tree : Nat
  subOff : Nat
  outOff : Nat
  bad : Option Status := none
  setAside : Nat := 0
  asideAt : List Loc := []
  tailMade : Bool := false
  overLayers : List Nat := []
  verifyFailed : Bool := false
  deriving DecidableEq, Repr, Inhabited

/-- An admitted sheet (R99 to R104); `modes` holds, for each layer group whose jobs have begun to be released, whether its
assignment was made in bucket mode (R117). -/
structure Sheet where
  partition : Nat
  step : Nat
  planId : Nat
  outWindow : Nat
  outStride : Nat
  entries : List Entry
  trees : List (List Nat)
  modes : List (Nat × Bool) := []
  deriving DecidableEq, Repr, Inhabited

/-- A sheet whose fragments are arriving. -/
structure PartialSheet where
  partition : Nat
  total : Nat
  bytes : Bytes
  deriving DecidableEq, Repr, Inhabited

/-- Bytes of a submission buffer (R105): plan half, partition, buffer number, offset. -/
structure SubBytes where
  half : Bool
  partition : Nat
  buffer : Nat
  off : Nat
  bytes : Bytes
  deriving DecidableEq, Repr, Inhabited

structure Sheets where
  arriving : List PartialSheet := []
  admitted : List Sheet := []
  subs : List SubBytes := []
  refusedSteps : List (Nat × Nat) := []
  deriving DecidableEq, Repr, Inhabited

/-! ## Dictionary, roles and sessions -/

/-- A commit that waits for its position (R22, R25). `pool` tells a comparator drawn from the pool from one of the
plan's APPLY_COMMIT firings; `kept` marks the latter once its plan has left its slot (R115); `load` is the takeover step
and the plan that it loads, as its check read it; `units` are the units of its mode changes when it was armed (R113). -/
structure PendCommit where
  pos : WPos
  content : List (Nat × Nat)
  pool : Bool
  kept : Bool := false
  load : Option (Nat × Option PlanSlot) := none
  units : List Nat := []
  deriving DecidableEq, Repr, Inhabited

/-- What the device keeps for each role: staged set (R22), pending commit (R26), commit result and conflict detail
(R28), read cursor (R524). -/
structure RoleState where
  staged : List (Nat × Nat) := []
  pend : Option PendCommit := none
  resState : Nat := 0
  resStatus : Nat := 0
  resSeq : U16 := 0
  conflict : Nat := 0
  cursor : Nat := 0
  deriving DecidableEq, Repr, Inhabited

/-- A block write in progress (R31). -/
structure BlockWrite where
  via : Via
  index : U16
  sub : Byte
  next : Nat
  bytes : Bytes
  lastAt : Nat
  deriving DecidableEq, Repr, Inhabited

/-- An operator session (R429, R431): being set up until `up`; `secret` is the shared secret of its set-up, `keys` the 72 bytes
derived from it. -/
structure OpSession where
  id : U32
  up : Bool
  helloAt : Nat
  lastAt : Nat
  rxCtr : Option Nat
  secret : BitVec 256 := 0
  keys : Bytes := []
  deriving DecidableEq, Repr, Inhabited

/-- A mailbox slot (R48, R49): the request submitted and not yet answered, the response, its MBX_DONE bit. -/
structure MbxSlot where
  req : Option DictMsg := none
  rsp : Option DictMsg := none
  done : Bool := false
  deriving DecidableEq, Repr, Inhabited

/-- Tags and responses the device keeps for one requester, newest first, at most 16 (R32). -/
structure KeptTags where
  via : Via
  tags : List (U32 × DictMsg)
  deriving DecidableEq, Repr, Inhabited

/-- Dictionary access (R13 to R33): roles, kept tags, block writes, operator sessions, mailbox slots with the order in which
they were submitted (R32), and submissions ignored (R49). -/
structure Mgmt where
  op : RoleState := {}
  ten : RoleState := {}
  kept : List KeptTags := []
  blocks : List BlockWrite := []
  sessions : List OpSession := []
  mbx : List MbxSlot := List.replicate 16 {}
  mbxOrder : List Nat := []
  mbxIgnored : Nat := 0
  deriving DecidableEq, Repr, Inhabited

/-! ## Jobs -/

inductive ItemState where
  | waiting
  | running
  | done
  deriving DecidableEq, Repr, Inhabited

/-- A head group item, or a split part of a job, on its core (R117, R191, R214); `rank` is its place in the order of
assignment. -/
structure Item where
  headGroup : Nat
  core : Nat
  state : ItemState
  cycles : Nat
  wasted : Nat
  rank : Nat := 0
  deriving DecidableEq, Repr, Inhabited

/-- What made a job (R159). -/
inductive JobKind where
  | planned
  | attn
  | backward
  deriving DecidableEq, Repr, Inhabited

/-- A released and incomplete job (R110, R112, R169). `cols` is the column list as it stood at release; `missing` the
tiles that have not landed, by item and list index; `dueAt` the time its DUE beat took effect; `held` whether it waits
for a compaction; `fetching` the missing tiles whose fetch is under way (R207); `groups` the head groups of its layer group, `split` the cores of its split layout, `merge` the one
that merges, `half` the half of the submission area it reads, `batch` the first job released with it, `bucket` whether it
runs in bucket mode (R113), `lastCore` the core of the last item to finish (R111), `weights` the plain bytes of the head groups'
slices that its items have expanded (R217). -/
structure Job where
  id : Nat
  kind : JobKind
  part : Nat
  seq : Nat
  layer : Nat
  step : Nat
  entry : Nat
  desc : Desc
  len : Nat
  rows : Nat
  tree : List Nat
  cols : List Nat
  items : List Item
  missing : List (Nat × Nat)
  fetching : List (Nat × Nat) := []
  status : Status
  window : Nat
  outOff : Nat
  dueAt : Option Nat
  held : Bool
  cmd : Nat
  skipped : Nat
  pages : Nat
  groups : Nat := 1
  split : List Nat := []
  merge : Nat := 0
  half : Bool := false
  batch : Nat := 0
  started : Bool := false
  bucket : Bool := false
  lastCore : Nat := 0
  weights : List (Nat × Bytes) := []
  deriving DecidableEq, Repr, Inhabited

/-- A page slice in a cluster cache (R223, R224): `planned` tells the planned area from the stream area, whose slices stand
in order of use, least recent first; `landed` whether its fetch has ended; `col` is the column, 0 for a page of a coil, and
`page` the list index or the coil's page. -/
structure Slice where
  planned : Bool
  cluster : Nat
  step : Nat
  seq : Nat
  layer : Nat
  headGroup : Nat
  col : Nat
  page : Nat
  bytes : Nat
  landed : Bool
  deriving DecidableEq, Repr, Inhabited

/-- A half of a core's purpose 3 regions (R211, R212): the up-projection slice in it, of which object, and whether it has
landed. `off` and `len` say which of the object's plain bytes these are, and `used` whether the slice has been expanded and no
item is to expand it again (R245). -/
structure WeightHalf where
  core : Nat
  half : Nat
  aux : Nat
  layer : Nat
  headGroup : Nat
  off : Nat
  len : Nat
  landed : Bool
  used : Bool := false
  deriving DecidableEq, Repr, Inhabited

/-- A job that is complete and whose OUTPUT messages, `count` of them from number `from_` on, have not all left (R71, R110). -/
structure Leaving where
  job : Job
  from_ : U16
  count : Nat
  deriving DecidableEq, Repr, Inhabited

structure Jobs where
  jobs : List Job := []
  leaving : List Leaving := []
  nextJob : Nat := 1
  slices : List Slice := []
  halves : List WeightHalf := []
  lines : List (Nat × Nat × Nat) := []
  settling : List (Nat × Nat × Nat × Nat) := []
  deriving DecidableEq, Repr, Inhabited

/-! ## Sequences, columns, objects -/

/-- One token's record of one layer in storage format (R123, R129): codes of the first region (keys or latent), of the
second (values or rotary part), and their block scales. -/
structure TokRec where
  a : List Nat
  b : List Nat
  sa : List Nat
  sb : List Nat
  deriving DecidableEq, Repr, Inhabited

/-- A row of a column, coil or tail: layer, row or position or candidate, and its record. -/
structure KvRow where
  layer : Nat
  row : Nat
  tok : TokRec
  deriving DecidableEq, Repr, Inhabited

/-- A coil (R130, R132): layer group, ring size, newest page, rows by position. -/
structure Coil where
  group : Nat
  ring : Nat
  newest : Option Nat
  rows : List KvRow
  loc : Loc
  deriving DecidableEq, Repr, Inhabited

/-- A provisional tail (R183): verify step, candidates, tree, records by candidate, whether a verify job failed, the layers
whose verify job has not completed, and the cores and layers of which a core copy stands beside the meadow copy (R213). -/
structure Tail where
  step : Nat
  count : Nat
  tree : List Nat
  rows : List KvRow
  failed : Bool
  left : List Nat := []
  copies : List (Nat × Nat) := []
  deriving DecidableEq, Repr, Inhabited

/-- A sequence (R133) with its column list and the root and list blocks that hold it (R136), its coils and the address of its
coil directory (R132); `stepRun` tells an append run that a step started (R162) from one of KV_APPEND. -/
structure Seq where
  id : Nat
  failed : Bool := false
  part : Nat
  model : Nat
  length : Nat := 0
  policy : Nat := 0
  cols : List Nat := []
  root : Option Loc := none
  blocks : List Loc := []
  coils : List Coil := []
  coilDir : Nat := 0
  prov : Option Tail := none
  lastUsed : Nat := 0
  pendCount : Nat := 0
  pendLayer : Nat := 0
  stepRun : Bool := false
  hostTag : Nat := 0
  deriving DecidableEq, Repr, Inhabited

/-- A column table entry (R138) with its durability state (R279) and its data. -/
structure Col where
  slot : Nat
  gen : Nat
  isSealed : Bool := false
  pinned : Bool := false
  poisoned : Bool := false
  moving : Bool := false
  part : Nat
  model : Nat
  fill : Nat := 0
  home : Loc
  image : Option Loc := none
  refs : Nat := 1
  policy : Nat := 0
  lastUsed : Nat := 0
  dur : Dur := .none
  rows : List KvRow := []
  deriving DecidableEq, Repr, Inhabited

structure Kv where
  seqs : List Seq := []
  lastSeq : Nat := 0
  cols : List Col := []
  lastSlot : Nat := 0
  gens : List (Nat × Nat) := []
  deriving DecidableEq, Repr, Inhabited

/-- An object extent (R295). -/
structure Ext where
  home : Loc
  image : Option Loc := none
  moving : Bool := false
  lastUsed : Nat := 0
  deriving DecidableEq, Repr, Inhabited

/-- An object of a partition range (R294 to R297, R320); `fresh` lists the byte spans rewritten since its poisoning. -/
structure Obj where
  id : Nat
  part : Nat
  kind : Nat
  size : Nat
  off : Nat
  policy : Nat := 0
  key : Nat := 0
  immutable : Bool := false
  poisoned : Bool := false
  rewritten : List (Nat × Nat) := []
  exts : List Ext
  deriving DecidableEq, Repr, Inhabited

/-- A policy record (R298). -/
structure Policy where
  part : Nat
  id : Nat
  stackMask : Nat
  spill : Nat
  opts : Nat
  deriving DecidableEq, Repr, Inhabited

/-- What a tier copy moves (R301). -/
inductive MoveItem where
  | col (slot : Nat)
  | ext (obj idx : Nat)
  | plain (obj : Nat)
  deriving DecidableEq, Repr, Inhabited

/-- Who asked for a tier copy. -/
inductive MoveBy where
  | cmd (id : Nat)
  | sweep
  | firing
  | recall (lease : Nat)
  | appendTo (id : Nat)
  deriving DecidableEq, Repr, Inhabited

/-- A tier copy in flight: what it moves, whose, how many 4 KiB units, to where, as an image or as the home; `places` the new
homes of a move that expands (R303), whose first is `dest`. -/
structure Move where
  id : Nat
  item : MoveItem
  part : Nat
  units : Nat
  dest : Loc
  image : Bool
  cause : MoveBy
  since : Nat
  places : List Loc := []
  deriving DecidableEq, Repr, Inhabited

/-- A meadow granule as the stack holds it (R450): 256 stored bytes and their tag. -/
structure Granule where
  cipher : Bytes
  tag : Bytes
  deriving DecidableEq, Repr, Inhabited

/-- A write into an object that waits for a tier copy of an extent that it touches (R301). -/
structure HeldWrite where
  obj : Nat
  off : Nat
  bytes : Bytes
  cmd : Option Nat := none
  deriving DecidableEq, Repr, Inhabited

/-- Objects, policies and tier copies; `heldWrites` wait for a copy of what they write to commit, `bring` lists what MOVE firings want in
meadow once a copy of it that is under way is over (R312, R313); `altered` lists, by physical address, meadow granules whose stored bytes are not those that
the protection engines last wrote there (R451). -/
structure Objs where
  objs : List Obj := []
  lastObj : Nat := 0
  policies : List Policy := []
  moves : List Move := []
  nextMove : Nat := 1
  heldWrites : List HeldWrite := []
  bring : List MoveItem := []
  altered : List (Nat × Granule) := []
  stacksUp : BitVec 24 := BitVec.allOnes 24
  deriving DecidableEq, Repr, Inhabited

/-! ## Prefix store -/

/-- A prefix index entry (R264); an entry is listed exactly when `valid` is set. -/
structure PEntry where
  no : Nat
  fp : Nat
  tag : Nat
  tokens : List U32
  column : Nat
  parent : Nat
  child : Nat := 0
  next : Nat := 0
  prev : Nat := 0
  part : Nat
  logged : Bool := false
  lastHit : Nat := 0
  hits : Nat := 0
  recNo : Nat := 0
  deriving DecidableEq, Repr, Inhabited

/-- A heath prefix record (R287); `rows` is the column data that lies at `addr`. -/
structure LogRec where
  fp : Nat
  tag : Nat
  tokens : List U32
  recNo : Nat
  target : Nat
  part : Nat
  withdrawal : Bool
  units : Nat
  addr : Nat
  rows : List KvRow := []
  deriving DecidableEq, Repr, Inhabited

/-- A fine unit of the heath prefix log (R324, R325): its place, and the records that it holds or is being written with. -/
structure LogUnit where
  place : Loc
  recs : List LogRec
  deriving DecidableEq, Repr, Inhabited

/-- What passes through the save ring (R280, R325, R473): a column's data with the place in heath that it goes to and its 4 KiB units,
the CLASS records of a column homed there, the column's record, a withdrawal record. -/
inductive RingItem where
  | data (slot : Nat) (place : Loc) (units : Nat)
  | cls (slot : Nat) (place : Loc) (units : Nat)
  | publish (slot : Nat) (r : LogRec)
  | withdraw (r : LogRec)
  deriving DecidableEq, Repr, Inhabited

/-- An entry of the save ring: the bytes of it in the ring, which heath has not programmed, and the 4 KiB units that have not
entered yet. -/
structure RingEntry where
  item : RingItem
  bytes : Nat
  left : Nat := 0
  deriving DecidableEq, Repr, Inhabited

/-- The prefix store: index entries, columns asked for durability in order, the save ring, withdrawals in the reference-count
tail (R473), the records that the heath prefix log holds and its fine units, the next record number, and a rebuild's state with the records read, those left to read and
the entries made so far by record number (R289). -/
structure PfxStore where
  entries : List PEntry := []
  durQueue : List Nat := []
  ring : List RingEntry := []
  rcTail : List LogRec := []
  log : List LogRec := []
  logUnits : List LogUnit := []
  nextRec : Nat := 1
  rebuildState : Nat := 0
  rebuildRead : Nat := 0
  rebuildLeft : List LogRec := []
  rebuilt : List (Nat × Nat) := []
  deriving DecidableEq, Repr, Inhabited

/-! ## Compression tables -/

/-- A table slot (R244, R245). -/
structure TableSlot where
  gen : Nat := 0
  image : Option Bytes := none
  deriving DecidableEq, Repr, Inhabited

/-! ## Leases -/

/-- A recall of part of a lease, due at a position of the borrower's wheel (R317). -/
structure Recall where
  bytes : Nat
  due : WPos
  late : Bool
  deriving DecidableEq, Repr, Inhabited

/-- A lease lent or borrowed (R315 to R318); `key` the borrower's pasture keys (R452). -/
structure Lease where
  id : Nat
  port : Nat
  lent : Bool
  bytes : Nat
  notice : Nat
  lender : BitVec 128
  borrower : BitVec 128
  base : Nat := 0
  recalls : List Recall := []
  lostAt : Option Nat := none
  key : BitVec 768 := 0
  deriving DecidableEq, Repr, Inhabited

structure Pasture where
  leases : List Lease := []
  lastLease : Nat := 0
  deriving DecidableEq, Repr, Inhabited

/-! ## Heath -/

/-- A bale or fine map entry (R340, R341): `key` the bale's or unit's number in its shelf, state 1 allocated unwritten, 2 mapped,
3 fine, 4 poisoned; `fine` the fine block of a bale in state 3; free entries are not listed. `keyId` is the key identifier in the
headers of the pages mapped (R338), by which TRIM_KEY finds them (R357). -/
structure MapEnt where
  key : Nat
  state : Nat
  cls : Bool
  sb : Nat := 0
  slot : Nat := 0
  fine : Nat := 0
  keyId : Nat := 0
  deriving DecidableEq, Repr, Inhabited

/-- A stripe with data pages programmed and no parity page yet (R336): how many of its data pages are, and the XOR of their data
bytes and of their metadata bytes 0 to 63. -/
structure Stripe where
  no : Nat
  pages : Nat := 0
  data : Bytes := []
  head : Bytes := []
  deriving DecidableEq, Repr, Inhabited

/-- A superblock (R343): `next` its next free data slot, `uses` its valid data slots, each with the unit it holds, `stripes` how
many stripes are programmed, `forming` those that are being programmed. -/
structure Superblock where
  id : Nat
  group : Nat
  blocks : List Nat
  state : Nat
  stream : Nat
  next : Nat := 0
  openSeq : Nat
  uses : List (Nat × Nat) := []
  stripes : Nat := 0
  forming : List Stripe := []
  deriving DecidableEq, Repr, Inhabited

/-- A block entry (R343): channel, LUN, block, erase count, reads since the last erase, state. -/
structure BlockEnt where
  channel : Nat
  lun : Nat
  block : Nat
  erases : Nat
  reads : Nat
  state : Nat
  deriving DecidableEq, Repr, Inhabited

/-- A journal record (R344); `unit` is a unit number with the shelf's bits in it (R323). -/
structure JRec where
  seq : Nat
  unit : Nat
  op : Nat
  cls : Bool := false
  sb : Nat := 0
  slot : Nat := 0
  deriving DecidableEq, Repr, Inhabited

/-- A page of the metadata stream (R345, R346): a journal page with its index in its log, or page `i` of the checkpoint that is
being written. -/
inductive MetaPage where
  | journal (idx : Nat) (recs : List JRec)
  | ckpt (i : Nat)
  deriving DecidableEq, Repr, Inhabited

/-- What a page is read for: a reader of its unit, the copy of a collection `victim`, the rewrite of what a retired block holds
(R354), the metadata that a start-up reads (R347). -/
inductive ReadFor where
  | host (unit : Nat)
  | gc (victim unit : Nat)
  | rescue (unit : Nat)
  | boot
  deriving DecidableEq, Repr, Inhabited

/-- What a bridge operation is for: `rebuild` is a page of the stripe of a slot that could not be read (R353), `victim` the
superblock that collection empties, `copy` whether the page is a collection copy; `idle` a page that nothing is made of any more;
`format` an erase of R335, `scanMeta` and `scanRead` the pages that a scan reads (R348). -/
inductive OpUse where
  | identify
  | param
  | badmap
  | read (w : ReadFor)
  | rebuild (w : ReadFor) (sb slot : Nat)
  | program (unit : Nat) (bale : Bool) (sb slot seq : Nat) (victim : Option Nat)
  | parity (sb stripe seq : Nat)
  | idle (sb : Nat) (copy : Bool)
  | mpage (sb slot seq : Nat) (page : MetaPage)
  | root (idx seq : Nat)
  | erase (sb : Nat)
  | rootErase
  | format
  | rootRead
  | scanMeta
  | scanRead
  | reset
  deriving DecidableEq, Repr, Inhabited

/-- An operation asked of the bridge and not yet answered (R328, R331); `data` is the page record of a PROGRAM that has been
sent. -/
structure BridgeOp where
  tag : Nat
  op : Nat
  channel : Nat
  lun : Nat
  block : Nat
  page : Nat
  use : OpUse
  at_ : Nat
  data : Bytes := []
  deriving DecidableEq, Repr, Inhabited

/-- A write that waits for a superblock or for an earlier program of its unit (R342, R350): its unit, whether it is a
whole bale, and the superblock that collection empties by it. -/
structure Unplaced where
  unit : Nat
  bale : Bool
  victim : Option Nat
  deriving DecidableEq, Repr, Inhabited

/-- A change of the maps on its way into the journal tail (R344, R345): a program's mapping, a discard, a poisoning, a change of
class, a TRIM_KEY. Units and bales by their numbers in the shelf. -/
inductive MapChange where
  | map (unit : Nat) (bale : Bool) (sb slot seq key : Nat) (copy : Bool)
  | freeBale (bale : Nat)
  | freeUnit (unit : Nat)
  | poison (unit : Nat)
  | cls (unit : Nat) (bale : Bool)
  | trim (key : Nat)
  deriving DecidableEq, Repr, Inhabited

/-- A LUN that did not respond (R354): asked to reset, or out of service. -/
structure LunState where
  channel : Nat
  lun : Nat
  out : Bool
  deriving DecidableEq, Repr, Inhabited

/-- The maps and tables that a checkpoint holds (R346), as they stand when it begins. -/
structure MapTables where
  blocks : List BlockEnt := []
  sbs : List Superblock := []
  bales : List MapEnt := []
  fines : List MapEnt := []
  deriving DecidableEq, Repr, Inhabited

/-- Where a checkpoint lies (R335, R346): its first `seq`, the superblock and slot of its first page, how many pages it has. -/
structure CkptAt where
  first : Nat := 0
  sb : Nat := 0
  slot : Nat := 0
  pages : Nat := 0
  deriving DecidableEq, Repr, Inhabited

/-- A checkpoint being written: where it lies, how many of its pages are programmed, what it holds. -/
structure Ckpt where
  at_ : CkptAt
  done : Nat := 0
  tabs : MapTables
  deriving DecidableEq, Repr, Inhabited

/-- How far a LUN's blocks have been gone through: those left, and the page of the first. -/
structure Cursor where
  channel : Nat
  lun : Nat
  blocks : List Nat
  page : Nat := 0
  deriving DecidableEq, Repr, Inhabited

/-- A page's header where it was found (R348). -/
structure PageAt where
  channel : Nat
  lun : Nat
  block : Nat
  page : Nat
  head : PageHdr
  deriving DecidableEq, Repr, Inhabited

/-- What a shelf that is coming up does, or one that is being scanned (R335, R347, R348, R356): reads the root blocks, formats,
reads checkpoint and journal, reads the headers of what was open, scans, programs the ring, writes its checkpoint. -/
inductive BootPhase where
  | none
  | roots
  | format
  | metas
  | opened
  | scan
  | ring
  | ckpt
  deriving DecidableEq, Repr, Inhabited

/-- A start-up or a scan under way: `cause` that of FLT_HEATH_SCAN (R517), 2 for the operator's; `cursors` what is still to be read
or erased by LUN; `root` the newest valid root page found with its `seq`, `marked` whether any root page is not erased; `found` the
superblocks that the flash holds and no checkpoint names; `todo` metadata superblocks left to read, the first from data slot `slot` on;
`image` the checkpoint's pages by index, `recs` the journal records, `heads` the headers scanned, `high` the highest `seq` found. -/
structure Boot where
  phase : BootPhase := .none
  cause : Nat := 0
  cursors : List Cursor := []
  root : Option (Nat × Bytes) := none
  marked : Bool := false
  found : List SbFound := []
  todo : List Superblock := []
  slot : Nat := 0
  image : List (Nat × Bytes) := []
  recs : List JRec := []
  heads : List PageAt := []
  high : Nat := 0
  deriving DecidableEq, Repr, Inhabited

/-- A shelf (R323 to R359): `no` its number; `state` as OD 0x6100+h:01, `reserve` OD 0x6000:03 and `capSum` S of R334 as they stood
at the last format (R354, R358), `eraseBase` the erase count of blocks that the block table does not list, `params` the parameter
page of each LUN, `ops` the operations at the bridge and `waiting` those behind them (R331), `gathered` the XOR so far of the pages of
a stripe that is read in place of one of its pages, `metaWait` pages of the metadata stream that wait for its next superblock,
`tail` the journal tail and `changes` the map changes that wait for room in it (R345), `journalNo` the index of the next journal page,
`journalPages` those since the last checkpoint, `named` the checkpoint that the newest root page names and `ckpt` the one being
written, `moved` the units that collection has mapped elsewhere with the superblock and slot they came from, `relocate` the superblocks
queued for relocation, `lunMoves` those of them queued because a LUN left service, `collecting` the victim being copied, `erasing`
superblocks copied and not yet erased, `wear` the one queued on wear grounds (R352), `discards` the units discarded, `sealed` the pages of
the save ring that are encrypted and tagged, by unit (R473), `trims` the keys that the shelf is to trim before it is ready (R443). -/
structure Shelf where
  no : Nat := 0
  state : Nat := 0
  downAt : Nat := 0
  geom : Option ShelfRec := none
  keyId : Nat := 0
  seqCtr : Nat := 0
  bales : List MapEnt := []
  fines : List MapEnt := []
  sbs : List Superblock := []
  blocks : List BlockEnt := []
  nextGroups : List Nat := [0, 0, 0]
  openBale : Option Nat := none
  openFine : Option Nat := none
  openMeta : Option Nat := none
  reserve : Nat := 16
  capSum : Nat := 0
  capability : Nat := 0
  eraseBase : Nat := 0
  params : List (Nat × Bytes) := []
  ops : List BridgeOp := []
  waiting : List BridgeOp := []
  gathered : List (ReadFor × Bytes × Bytes) := []
  unplaced : List Unplaced := []
  metaWait : List MetaPage := []
  nextTag : Nat := 0
  luns : List LunState := []
  tail : List JRec := []
  changes : List MapChange := []
  journalNo : Nat := 0
  journalPages : Nat := 0
  named : CkptAt := {}
  ckpt : Option Ckpt := none
  rootPages : Nat := 0
  relocate : List Nat := []
  lunMoves : List Nat := []
  wear : Option Nat := none
  collecting : Option Nat := none
  moved : List (Nat × Nat × Nat) := []
  erasing : List Nat := []
  badSeen : Nat := 0
  discards : Nat := 0
  sealed : List (Nat × PageRec) := []
  trims : List Nat := []
  boot : Boot := {}
  deriving DecidableEq, Repr, Inhabited

/-! ## Peer transport -/

/-- Queue pair states (R363). -/
inductive QpState where
  | free
  | configured
  | connecting
  | ready
  | draining
  | error
  deriving DecidableEq, Repr, Inhabited

/-- A started work request (R370): its descriptor, first PSN, packets, packets sent, response packets placed. -/
structure Wr where
  desc : Desc
  psn : Nat := 0
  pkts : Nat := 0
  out : Nat := 0
  got : List Nat := []
  done : Bool := false
  status : Status := .ok
  moved : Nat := 0
  deriving DecidableEq, Repr, Inhabited

/-- A queue pair (R362 to R383). `written` counts completion records, `rxEpoch` the epoch it receives under, `unacked`
the packets kept, `runs` run-outs of the timer with no ACK between, `nakFor` the E of its last NAK SEQ, `busy` when each
BUSY came and the PSN it named, `sinceAck` packets placed modulo 64, `ending` whether its own DISCONNECT is still to be
sent, `acked` the expected PSN of the last ACK, `remoteGen` the other end's connection generation, `secret` the secret that the two
ends agreed (R385, R448). -/
structure Qp where
  num : Nat
  state : QpState := .free
  part : Nat := 0
  remoteNode : Nat := 0
  remoteQp : Nat := 0
  cls : Nat := 0
  pin : Bool := false
  winBytes : Nat := 0
  winPkts : Nat := 0
  ring : Nat := 0
  cqWindow : Nat := 0
  ringOff : Nat := 0
  rkey : Nat := 0
  tail : Nat := 0
  compHead : Nat := 0
  written : Nat := 0
  count : Nat := 0
  gen : Nat := 0
  waiting : List Desc := []
  started : List Wr := []
  nextPsn : Nat := 0
  expPsn : Nat := 0
  epoch : Nat := 0
  rxEpoch : Nat := 0
  counter : Nat := 0
  unacked : List Pkt := []
  runs : Nat := 0
  timer : Option Nat := none
  nakFor : Option Nat := none
  busy : List (Nat × Nat) := []
  sinceAck : Nat := 0
  connectAt : Option Nat := none
  ending : Bool := false
  acked : Nat := 0
  remoteGen : Nat := 0
  secret : Option (BitVec 256) := none
  deriving DecidableEq, Repr, Inhabited

/-- Peer transport: pairs not free, contexts on die, least recently used first, packets in parking buffers by port; `heldPkts` the
packets whose bytes wait for a tier copy, with those of the same pairs behind them (R74, R375); `leaseOut` the payloads of lease
messages that a port's control pair has not sent yet (R389). -/
structure Peer where
  qps : List Qp := []
  onDie : List Nat := []
  parked : List (Nat × Pkt) := []
  heldPkts : List Pkt := []
  leaseOut : List (Nat × Bytes) := []
  deriving DecidableEq, Repr, Inhabited

/-! ## Isver links -/

/-- A packet of an egress queue with its tags (R413): a peer packet, or the bridge request of a tag; `wire` what goes onto the link of a
packet that this device makes, header, sealed body and tag (R385); `transit` is the port through which a relayed packet came, where that
port's buffer holds it (R384). -/
structure QPkt where
  len : Nat
  start : Nat := 0
  finish : Nat := 0
  pkt : Option Pkt := none
  wire : Bytes := []
  request : Nat := 0
  transit : Option Nat := none
  deriving DecidableEq, Repr, Inhabited

/-- A lane change being agreed (R411): new mask, switch counter, when it began. -/
structure LaneAgree where
  mask : Nat
  switchAt : Nat
  since : Nat
  lastSent : Nat
  deriving DecidableEq, Repr, Inhabited

/-- A frame that a port keeps the class of (R406), and a heath port the bytes of as well for replay (R403): counter, class (4 for LANE
frames), what went onto the lanes. -/
structure SentFrame where
  ctr : Nat
  cls : Nat
  wire : Bytes := []
  deriving DecidableEq, Repr, Inhabited

/-- An Isver port: 0 to 31 peer ports, 32 to 47 heath ports 0 to 15. `state` as R419; `step` the step of R395 in
progress, 0 when down or up; `secret` the link secret agreed at step 5 (R407, R447). -/
structure Port where
  state : Nat := 0
  step : Nat := 0
  stepAt : Nat := 0
  txLanes : Nat := 0
  rxLanes : Nat := 0
  neighbour : BitVec 128 := 0
  node : Nat := 0xFFFF
  keySent : Bool := false
  keyIn : Option (BitVec 128 × Bytes) := none
  peerPub : Bytes := []
  secret : Option (BitVec 256) := none
  proofSent : Bool := false
  txCtr : Nat := 0
  rxCtr : Option Nat := none
  txEpoch : Nat := 0
  rxEpoch : Nat := 0
  epochFrames : Nat := 0
  bad : Nat := 0
  grants : List Nat := [0, 0, 0, 0]
  sent : List Nat := [0, 0, 0, 0]
  sentTo : List SentFrame := []
  peerRcvd : List Nat := [0, 0, 0, 0]
  peerFreed : List Nat := [0, 0, 0, 0]
  heard : Nat := 0
  rcvd : List Nat := [0, 0, 0, 0]
  freed : List Nat := [0, 0, 0, 0]
  freedTold : List Nat := [0, 0, 0, 0]
  creditAt : Nat := 0
  nakAt : Option Nat := none
  nakFirst : Nat := 0
  rxLost : Bool := false
  laneSwitch : Option (Nat × Nat) := none
  agree : Option LaneAgree := none
  laneBad : List (Nat × Nat) := []
  queues : List (Nat × List QPkt) := []
  lastFinish : List (Nat × Nat) := []
  v : Nat := 0
  gates : List GateEntry := []
  gateSrc : Nat := 0
  mask : Nat := 0xF
  failed : Bool := false
  deriving DecidableEq, Repr, Inhabited

/-- A laser input's last measurement (R394): powers in 0.01 dBm, and since when each wavelength has been good. -/
structure Laser where
  powers : List Int := []
  low : List Nat := []
  goodSince : List (Nat × Nat) := []
  deriving DecidableEq, Repr, Inhabited

structure Links where
  ports : List Port := List.replicate 48 {}
  lasers : List Laser := List.replicate 12 {}
  deriving DecidableEq, Repr, Inhabited

/-! ## Security -/

/-- An SPDM session (R432, R437): whether FINISH completed with mutual authentication, the requester's leaf key, and the shared
secret of the key exchange. -/
structure SpdmSession where
  id : Nat
  finished : Bool := false
  leafKey : Bytes := []
  secret : BitVec 256 := 0
  deriving DecidableEq, Repr, Inhabited

/-- A weight key slot (R445). -/
structure WeightKey where
  slot : Nat
  label : Nat
  key : Bytes
  deriving DecidableEq, Repr, Inhabited

/-- Tenancy, secrets and the root of trust: `pufRoot` (R424), `meadowKey` the XTS pair and the tag key of meadow (R441, R450). -/
structure Sec where
  tenancy : Tenancy := .unowned
  rtp : RtpState := .rom
  identity : Option Bytes := none
  unitId : BitVec 128 := 0
  candidate : Option Nat := none
  attestSince : Nat := 0
  sessions : List SpdmSession := []
  ownerDigest : BitVec 256 := 0
  setSecret : Option (BitVec 256) := none
  tenSecret : Option (BitVec 256) := none
  heathKeyId : Nat := 0
  weightKeys : List WeightKey := []
  sealedWeights : List (Nat × BitVec 256) := []
  releaseStep : Nat := 0
  meadowKeyGen : Nat := 0
  pufRoot : Option (BitVec 256) := none
  meadowKey : BitVec 768 := 0
  releaseThenReset : Bool := false
  deriving DecidableEq, Repr, Inhabited

/-! ## Management, power, kiln, update, test -/

/-- A fault record (R515) with its slot. -/
structure FaultRec where
  slot : Nat
  timeNs : Nat
  wpos : WPos
  part : Nat
  sev : Nat
  code : Nat
  unit : Nat
  detail : Nat
  deriving DecidableEq, Repr, Inhabited

/-- The kiln store's content (R477 to R479). -/
structure KilnSave where
  saveNo : Nat
  wpos : WPos
  timeNs : Nat
  tenancy : Tenancy
  cause : SagCause
  vinMv : Nat
  heathKeyId : Nat
  tails : List (List JRec)
  pages : List (List (Nat × PageRec))
  rcTail : List LogRec
  ring : List RingEntry
  logTail : List FaultRec
  bytes : Nat
  trailer : Bool
  micros : Nat := 0
  image : List (Nat × Bytes) := []
  deriving DecidableEq, Repr, Inhabited

/-- A supply sag in progress (R475). -/
structure Sag where
  t0 : Nat
  cause : SagCause
  vinMv : Nat
  isolated : Bool := false
  partialSave : Bool := false
  deriving DecidableEq, Repr, Inhabited

/-- The kiln domain (R473 to R483): supply and MRAM check as last found, a sag in progress, the store's content, whether a
restored save is unconsumed, the log tail of the reserve area, the number of the last save, and what OD 0xC030:04 to :06 show of
the last save: number, duration and bytes. -/
structure Kiln where
  vinMv : Nat := 0
  mramOk : Bool := false
  sag : Option Sag := none
  save : Option KilnSave := none
  held : Bool := false
  reserve : List FaultRec := []
  saveNo : Nat := 0
  lastNo : Nat := 0
  lastMicros : Nat := 0
  lastBytes : Nat := 0
  deriving DecidableEq, Repr, Inhabited

/-- NOR: the stored dictionary values (R458), copies A and B with write counts, and values waiting to be written; the image slot;
the certificate chain of SPDM slot 0 (R426, R457). -/
structure Nor where
  copyA : Option (Nat × List (Nat × Nat)) := some (0, [])
  copyB : Option (Nat × List (Nat × Nat)) := none
  dirty : Option (List (Nat × Nat)) := none
  slotValid : Bool := true
  slotVersion : U32 := 0
  chain : Bytes := []
  deriving DecidableEq, Repr, Inhabited

/-- The block under self-test (R503 to R506). -/
structure Test where
  kind : Nat
  unit : Nat
  since : Nat
  deriving DecidableEq, Repr, Inhabited

/-- A link-test checker (R510). -/
structure Checker where
  locked : Bool := false
  bits : Nat := 0
  errors : Nat := 0
  deriving DecidableEq, Repr, Inhabited

/-- Power, temperatures, boot, self-test and stores. `samples` are the last die power sums (R471); `winSums` add up, in the
100 ms window `winAt` of the nanosecond clock, die power, VDD_CORE and the power of each regulator over `winN` polls, and
`lastSums` and `lastN` are those of the last completed window (R454). `resetAt` is when the last reset came, `resetHeld` a cold reset that waits for a save to
end (R534), `unplanned` a loss of power without a save (R481), `tailsLost` whether the boot came after one (R348), `regLost` the regulators found silent (R470), `overPower`
whether the last mean was above its threshold (R471). `coreMap`, `ucieRepair`, `hbmRepair` and `vddApplied` (`vdd_mv`) are
the repair record as applied (R463). -/
structure Power where
  dev : DevState := .booting
  bootCause : Nat := 0
  needsBoot : Bool := true
  warm : Bool := false
  temps : List Int := List.replicate 160 0
  warnArmed : Bool := true
  thermTrip : Bool := false
  pinRate : Nat := 0
  vddSet : Nat := 0
  vddApplied : Nat := 0
  vddStepAt : Option Nat := none
  vddMeasured : Nat := 0
  regSeen : List Nat := List.replicate 8 0
  samples : List Nat := []
  winAt : Nat := 0
  winN : Nat := 0
  winSums : List Nat := List.replicate 10 0
  lastN : Nat := 0
  lastSums : List Nat := List.replicate 10 0
  resetAt : Nat := 0
  resetHeld : Bool := false
  unplanned : Bool := false
  tailsLost : Bool := false
  regLost : List Nat := []
  overPower : Bool := false
  coreMap : List Nat := []
  ucieRepair : Bytes := []
  hbmRepair : Bytes := []
  coresOut : List Nat := []
  failedCores : List Nat := []
  failedCaches : List Nat := []
  failedCtrls : List Nat := []
  failedModules : List Nat := []
  test : Option Test := none
  linkTest : Option Nat := none
  checkers : List Checker := List.replicate 8 {}
  trigAt : Nat := 0
  nor : Nor := {}
  update : Bytes := []
  kiln : Kiln := {}
  deriving DecidableEq, Repr, Inhabited

/-! ## Fault log -/

structure Log where
  tail : List FaultRec := []
  ring : List FaultRec := []
  head : Nat := 0
  oldest : Nat := 0
  droppedSince : Nat := 0
  firstSlot : Nat := 0xFFFFFFFF
  windows : List (Nat × Nat × List Nat) := []
  latest : Option FaultRec := none
  deriving DecidableEq, Repr, Inhabited

/-- A programmable counter's down-count and the time of its last sample (R498). -/
structure Sampler where
  id : Nat
  down : Nat
  lastAt : Nat
  due : Bool
  deriving DecidableEq, Repr, Inhabited

/-! ## What the device sends outside TPP -/

/-- Transmissions, oldest first: dictionary responses and NOTIFY (R30, R31), MSI-X (R62), CREDIT messages (R68), CXL
read data (R44), session set-up and SPDM answers (R429, R432, R438), peer packets (R372), control frames (R399), link
key messages (R447), bridge requests (R328), lease messages (R315), pins (R535). -/
inductive Sent where
  | dict (via : Via) (m : DictMsg) (wire : Bytes)
  | notify (session : U32) (index : U16) (sub : Byte) (wire : Bytes)
  | msix (vector : Nat)
  | credit (acks : List U16) (units : List Nat)
  | cxlData (p line : Nat) (data : BitVec 512) (poison : Bool)
  | helloRsp (sid : U32)
  | authRsp (sid : U32) (status : Status)
  | spdm (session : Option Nat) (refused : Bool) (blocks : List (Nat × Bytes)) (isSigned : Bool)
  | spdmChain (portion : Bytes) (remainder : Nat)
  | spdmDigest (digest : BitVec 256)
  | spdmCaps (ctExponent transfer message : Nat)
  | vendor (session : Nat) (status : Status) (block : Bytes)
  | packet (port : Nat) (k : Pkt) (wire : Bytes)
  | frame (port : Nat) (ftype : Nat) (payload wire : Bytes)
  | replay (port : Nat) (ctr : Nat) (wire : Bytes)
  | linkMsg (port : Nat) (kind : Nat)
  | linkCaps (port : Nat) (caps : LinkCaps)
  | bridge (shelf : Nat) (msg : Bytes)
  | lease (port kind : Nat) (m : LeaseMsg)
  | thermTrip
  | trigLow
  deriving DecidableEq, Repr, Inhabited

/-! ## The state -/

/-- The whole state of the block. `pending` is the queue of waiting commands, `fresh` the number of free values drawn
so far, `tx` what has been sent: the model's own fields; every other field is the spec's. -/
structure State where
  pending : List Instr
  now : Nat
  fresh : Nat
  tx : List Sent
  od : List (Nat × Nat)
  mem : List Host.Cell
  mgmt : Mgmt
  host : HostLink
  queues : Queues
  wheel : Wheel
  sheets : Sheets
  jobs : Jobs
  kv : Kv
  objs : Objs
  pfx : PfxStore
  tables : List TableSlot
  pasture : Pasture
  shelves : List Shelf
  peer : Peer
  links : Links
  sec : Sec
  power : Power
  log : Log
  samplers : List Sampler
  deriving DecidableEq, Repr

/-- Right after a cold reset, before BOOT (R21, R421, R460, R467): every object at its default, nothing open, nothing
held; the RTP in ROM and the device booting. The 64 device queue pairs' contexts are on die (R382, R391). -/
def State.reset : State where
  pending := []
  now := 0
  fresh := 0
  tx := []
  od := []
  mem := []
  mgmt := {}
  host := {}
  queues := {}
  wheel := {}
  sheets := {}
  jobs := {}
  kv := {}
  objs := {}
  pfx := {}
  tables := List.replicate 16 {}
  pasture := {}
  shelves := (List.range 16).map (fun h => { no := h })
  peer := { onDie := List.range 64 }
  links := {}
  sec := {}
  power := {}
  log := {}
  samplers := []

/-- Why a step stops with a fault. -/
inductive Fault where
  /-- Raised by no meaning of this model: the spec names no condition on which the block stops for good, and every
  command ends in a next state. Safe: a stop where the hardware goes on would only make claims unprovable. -/
  | halted
  deriving DecidableEq, Repr

/-- Why a step has no meaning. -/
inductive Refusal where
  /-- Raised by an arm of exec whose row has no meaning yet. Safe: nothing is claimed of such a command. -/
  | notModelled (mnemonic : String)
  deriving DecidableEq, Repr

end Sys2Proof.Machine
end

