-- ==== Sys2Proof/Machine/Flags.lean ====
section
/-! DEFINITION. The numbers of the spec's code sets: status codes (R513), fault codes with their severities (R516,
R517), unit identifiers (R514), tenancy and device states (R455, R484), opcodes (R35), durability states (R279). -/

namespace Sys2Proof.Machine

/-- Status code numbers (R513). -/
def Status.code : Status → Nat
  | .ok => 0x00
  | .okLate => 0x01
  | .okEmptyRows => 0x02
  | .badDescriptor => 0x10
  | .badObject => 0x11
  | .quota => 0x12
  | .noSpace => 0x13
  | .conflict => 0x14
  | .rejectedSheet => 0x15
  | .poisoned => 0x20
  | .media => 0x21
  | .sherdLength => 0x22
  | .sherdCode => 0x23
  | .tableMismatch => 0x24
  | .integrity => 0x25
  | .deadline => 0x30
  | .prefetchLate => 0x31
  | .modeSplit => 0x32
  | .peerUnreachable => 0x40
  | .peerRecall => 0x41
  | .notOwned => 0x50
  | .keyAbsent => 0x51
  | .aborted => 0x60
  | .specExpired => 0x61

/-- Codes 0x00 to 0x0F report success, every other code an error or an end without result (R513). -/
def Status.isError (st : Status) : Bool := 0x10 ≤ st.code

/-- The status of the larger code: R167 ranks error codes by numeric value. -/
def Status.worse (a b : Status) : Status := if a.code < b.code then b else a

/-- Fault code numbers (R517). -/
def FaultCode.num : FaultCode → Nat
  | .wheelBackward => 0x0101
  | .beatEarly => 0x0102
  | .deadline => 0x0103
  | .prefetchLate => 0x0104
  | .modeSplit => 0x0105
  | .poison => 0x0201
  | .sherd => 0x0202
  | .pastureLate => 0x0203
  | .heathBridge => 0x0301
  | .heathScan => 0x0302
  | .heathProgram => 0x0303
  | .heathErase => 0x0304
  | .heathLun => 0x0305
  | .heathPort => 0x0306
  | .peerQp => 0x0401
  | .laser => 0x0402
  | .isverLink => 0x0403
  | .isverAuth => 0x0404
  | .isverLane => 0x0405
  | .ucieModule => 0x0501
  | .mgp => 0x0601
  | .storedValues => 0x0602
  | .repairRecord => 0x0603
  | .thermalWarn => 0x0604
  | .thermalTrip => 0x0605
  | .pmbus => 0x0606
  | .power => 0x0607
  | .kilnNotArmed => 0x0608
  | .supplySag => 0x0609
  | .kilnIncomplete => 0x060A
  | .puf => 0x0701
  | .bistFail => 0x0702
  | .escalated => 0x0703
  | .logOverflow => 0x0704
  | .logCleared => 0x0705

/-- Severities of R516 by the table of R517; FLT_ESCALATED takes the one R519 gives it. -/
def FaultCode.sev : FaultCode → Nat
  | .wheelBackward => 1
  | .beatEarly => 0
  | .deadline => 1
  | .prefetchLate => 1
  | .modeSplit => 2
  | .poison => 2
  | .sherd => 1
  | .pastureLate => 1
  | .heathBridge => 2
  | .heathScan => 0
  | .heathProgram => 1
  | .heathErase => 1
  | .heathLun => 2
  | .heathPort => 2
  | .peerQp => 1
  | .laser => 2
  | .isverLink => 1
  | .isverAuth => 2
  | .isverLane => 1
  | .ucieModule => 2
  | .mgp => 3
  | .storedValues => 2
  | .repairRecord => 1
  | .thermalWarn => 1
  | .thermalTrip => 3
  | .pmbus => 2
  | .power => 1
  | .kilnNotArmed => 2
  | .supplySag => 3
  | .kilnIncomplete => 2
  | .puf => 3
  | .bistFail => 2
  | .escalated => 0
  | .logOverflow => 1
  | .logCleared => 0

def allFaults : List FaultCode :=
  [.wheelBackward, .beatEarly, .deadline, .prefetchLate, .modeSplit, .poison, .sherd, .pastureLate, .heathBridge,
   .heathScan, .heathProgram, .heathErase, .heathLun, .heathPort, .peerQp, .laser, .isverLink, .isverAuth, .isverLane,
   .ucieModule, .mgp, .storedValues, .repairRecord, .thermalWarn, .thermalTrip, .pmbus, .power, .kilnNotArmed,
   .supplySag, .kilnIncomplete, .puf, .bistFail, .escalated, .logOverflow, .logCleared]

/-- The severity of a code by its number (R519 needs the repeated code's). -/
def sevOfCode (n : Nat) : Nat :=
  match allFaults.find? (fun c => c.num == n) with
  | some c => c.sev
  | none => 0

/-! ## Unit identifiers (R514) -/

def unitDevice : Nat := 0x0000
def unitCore (n : Nat) : Nat := 0x0100 + n
def unitPhysCore (n : Nat) : Nat := 0x0200 + n
def unitCluster (n : Nat) : Nat := 0x0300 + n
def unitPlot (n : Nat) : Nat := 0x0400 + n
def unitModule (n : Nat) : Nat := 0x0500 + n
def unitPeerPort (n : Nat) : Nat := 0x0600 + n
def unitHeathPort (n : Nat) : Nat := 0x0700 + n
def unitLaser (n : Nat) : Nat := 0x0800 + n
def unitSensor (n : Nat) : Nat := 0x0900 + n
def unitRegulator (n : Nat) : Nat := 0x0A00 + n
def unitMgp : Nat := 0x0B00
def unitRtp : Nat := 0x0B01
def unitKiln : Nat := 0x0B02
def unitMgmtSram : Nat := 0x0B03

/-- The unit of a port in this model's numbering: 0 to 31 peer ports, 32 to 47 heath ports. -/
def unitPort (n : Nat) : Nat := if n < 32 then unitPeerPort n else unitHeathPort (n - 32)

/-! ## States shown by objects -/

def Tenancy.code : Tenancy → Nat
  | .unowned => 0
  | .attesting => 1
  | .owned => 2
  | .releasing => 3

def RtpState.code : RtpState → Nat
  | .rom => 0
  | .run => 1
  | .recovery => 2
  | .safe => 3
  | .scanOpen => 4

def DevState.code : DevState → Nat
  | .rom => 0
  | .booting => 1
  | .ready => 2
  | .recovery => 3
  | .saving => 4
  | .saved => 5
  | .safe => 6
  | .scanOpen => 7

def QpState.code : QpState → Nat
  | .free => 0
  | .configured => 1
  | .connecting => 2
  | .ready => 3
  | .draining => 4
  | .error => 5

def Dur.code : Dur → Nat
  | .none => 0
  | .queued => 1
  | .ring => 2
  | .heath => 3
  | .failed => 4

def Tier.code : Tier → Nat
  | .meadow => 0
  | .pasture => 1
  | .heath => 2

def SagCause.code : SagCause → Nat
  | .pwrWarn => 0
  | .vinDroop => 1
  | .thermalTrip => 2

/-! ## Opcodes of commands (R35) -/

def opSeqOpen : Nat := 0x01
def opSeqClose : Nat := 0x02
def opSeqFork : Nat := 0x03
def opSeqTruncate : Nat := 0x04
def opKvAppend : Nat := 0x10
def opColSeal : Nat := 0x11
def opColMove : Nat := 0x12
def opColPin : Nat := 0x13
def opColUnpin : Nat := 0x14
def opColDiscard : Nat := 0x15
def opPrefixLookup : Nat := 0x20
def opPrefixCommit : Nat := 0x21
def opPrefixEvict : Nat := 0x22
def opObjCreate : Nat := 0x30
def opObjWrite : Nat := 0x31
def opObjRead : Nat := 0x32
def opObjMove : Nat := 0x33
def opObjPolicy : Nat := 0x34
def opAttn : Nat := 0x40
def opAttnBwd : Nat := 0x41
def opSpecConfirm : Nat := 0x42
def opTableBuild : Nat := 0x50
def opTableLoad : Nat := 0x51
def opCompress : Nat := 0x52
def opWaitCount : Nat := 0x60
def opFence : Nat := 0x61

def allOpcodes : List Nat :=
  [0x01, 0x02, 0x03, 0x04, 0x10, 0x11, 0x12, 0x13, 0x14, 0x15, 0x20, 0x21, 0x22, 0x30, 0x31, 0x32, 0x33, 0x34, 0x40,
   0x41, 0x42, 0x50, 0x51, 0x52, 0x60, 0x61]

end Sys2Proof.Machine
end

