-- ==== Sys2Proof/Machine/OdTable.lean ====
section
/-! DEFINITION. The object dictionary: one row per listing of the spec (R28, R34, R41, R47, R60, R118, R157, R203, R204,
R261, R290, R321, R322, R358, R359, R391, R418 to R420, R455, R484, R502, R512, R524), in index order. Values are the
numbers that the little-endian bytes spell (R18). -/

namespace Sys2Proof.Machine

/-- Types of R18 that objects have. -/
inductive OdTy where
  | bool | u8 | u16 | u32 | u64 | i32 | i64 | f32 | wpos | octets | string
  deriving DecidableEq, Repr

/-- Type codes (R18). -/
def OdTy.code : OdTy → Nat
  | .bool => 0x01
  | .u8 => 0x02
  | .u16 => 0x03
  | .u32 => 0x04
  | .u64 => 0x05
  | .i32 => 0x06
  | .i64 => 0x07
  | .f32 => 0x08
  | .wpos => 0x09
  | .octets => 0x0A
  | .string => 0x0B

/-- Access kinds (R19). -/
inductive OdAcc where
  | const | ro | rw | rws | wo
  deriving DecidableEq, Repr

/-- The range a value must lie in; `special` ranges are checked where the object is acted on. -/
inductive OdRange where
  | any
  | between (lo hi : Nat)
  | betweenOr (lo hi x : Nat)
  | oneOf (l : List Nat)
  | pow2 (lo hi : Nat)
  | mult (m lo hi : Nat)
  | wpos
  | special
  deriving DecidableEq, Repr

/-- A listing: indices base, base + stride, … (count of them), subindices sub0 to sub1; type and size in bytes; access;
owned by operator, by tenant; stored; default; range. -/
structure OdRow where
  base : Nat
  count : Nat
  stride : Nat
  sub0 : Nat
  sub1 : Nat
  ty : OdTy
  size : Nat
  acc : OdAcc
  op : Bool
  ten : Bool
  stored : Bool
  dflt : Nat
  range : OdRange
  deriving DecidableEq, Repr

/-- Area 0x1000: identity, communication, commit. -/
def odRows1a : List OdRow := [
  ⟨0x1000, 1, 1, 0, 0, .u8, 1, .const, false, false, false, 5, .any⟩,
  ⟨0x1000, 1, 1, 1, 1, .u16, 2, .const, false, false, false, 7896, .any⟩,
  ⟨0x1000, 1, 1, 2, 2, .u16, 2, .const, false, false, false, 9288, .any⟩,
  ⟨0x1000, 1, 1, 3, 3, .string, 4, .const, false, false, false, 12354, .any⟩,
  ⟨0x1000, 1, 1, 4, 4, .octets, 16, .ro, false, false, false, 0, .any⟩,
  ⟨0x1000, 1, 1, 5, 5, .u32, 4, .ro, false, false, false, 0, .any⟩,
  ⟨0x1100, 1, 1, 0, 0, .u8, 1, .const, false, false, false, 4, .any⟩,
  ⟨0x1100, 1, 1, 1, 1, .u16, 2, .rws, true, false, true, 41777, .between 1024 65535⟩,
  ⟨0x1100, 1, 1, 2, 2, .u8, 1, .ro, false, false, false, 0, .any⟩,
  ⟨0x1100, 1, 1, 3, 3, .u32, 4, .rw, true, false, true, 600000, .between 10000 86400000⟩,
  ⟨0x1100, 1, 1, 4, 4, .u8, 1, .const, false, false, false, 4, .any⟩,
  ⟨0x1200, 1, 1, 0, 0, .u8, 1, .const, false, false, false, 4, .any⟩,
  ⟨0x1200, 1, 1, 1, 1, .u8, 1, .rws, true, false, true, 8, .oneOf [4, 8, 12, 16]⟩,
  ⟨0x1200, 1, 1, 2, 2, .u64, 8, .ro, false, false, false, 281474976710655, .any⟩,
  ⟨0x1200, 1, 1, 3, 3, .u64, 8, .ro, false, false, false, 0, .any⟩,
  ⟨0x1200, 1, 1, 4, 4, .u32, 4, .ro, false, false, false, 0, .any⟩,
  ⟨0x1300, 32, 1, 0, 0, .u8, 1, .const, false, false, false, 14, .any⟩,
  ⟨0x1300, 32, 1, 1, 4, .u16, 2, .rws, false, true, false, 64, .pow2 16 4096⟩,
  ⟨0x1300, 32, 1, 5, 8, .u16, 2, .rws, false, true, false, 65535, .betweenOr 0 255 65535⟩,
  ⟨0x1300, 32, 1, 9, 9, .u16, 2, .rws, false, true, false, 65535, .betweenOr 0 255 65535⟩,
  ⟨0x1300, 32, 1, 10, 10, .u16, 2, .rws, false, true, false, 256, .pow2 16 4096⟩,
  ⟨0x1300, 32, 1, 11, 14, .u64, 8, .ro, false, false, false, 0, .any⟩,
  ⟨0x1320, 1, 1, 0, 0, .u8, 1, .const, false, false, false, 9, .any⟩,
  ⟨0x1320, 1, 1, 5, 5, .u16, 2, .rws, false, true, false, 65535, .betweenOr 0 255 65535⟩]

/-- Area 0x1000: identity, communication, commit. -/
def odRows1b : List OdRow := [
  ⟨0x1320, 1, 1, 9, 9, .u16, 2, .rws, false, true, false, 65535, .betweenOr 0 255 65535⟩,
  ⟨0x1F00, 1, 1, 0, 0, .u8, 1, .const, false, false, false, 7, .any⟩,
  ⟨0x1F00, 1, 1, 1, 1, .wpos, 8, .wo, true, true, false, 0, .wpos⟩,
  ⟨0x1F00, 1, 1, 2, 2, .u32, 4, .ro, false, false, false, 0, .any⟩,
  ⟨0x1F00, 1, 1, 3, 3, .wpos, 8, .ro, false, false, false, 0, .any⟩,
  ⟨0x1F00, 1, 1, 4, 4, .bool, 1, .wo, true, true, false, 0, .oneOf [1]⟩,
  ⟨0x1F00, 1, 1, 5, 5, .bool, 1, .wo, true, true, false, 0, .oneOf [1]⟩,
  ⟨0x1F00, 1, 1, 6, 6, .u16, 2, .ro, false, false, false, 0, .any⟩,
  ⟨0x1F00, 1, 1, 7, 7, .octets, 16, .ro, false, false, false, 0, .any⟩]

/-- Area 0x2000: wheel and plans. -/
def odRows2a : List OdRow := [
  ⟨0x2000, 1, 1, 0, 0, .u8, 1, .const, false, false, false, 5, .any⟩,
  ⟨0x2000, 1, 1, 1, 1, .wpos, 8, .ro, false, false, false, 0, .any⟩,
  ⟨0x2000, 1, 1, 2, 2, .wpos, 8, .rw, false, true, false, 0, .wpos⟩,
  ⟨0x2000, 1, 1, 3, 3, .u64, 8, .ro, false, false, false, 0, .any⟩,
  ⟨0x2000, 1, 1, 4, 4, .u64, 8, .ro, false, false, false, 0, .any⟩,
  ⟨0x2000, 1, 1, 5, 5, .u64, 8, .ro, false, false, false, 0, .any⟩,
  ⟨0x2010, 1, 1, 0, 0, .u8, 1, .const, false, false, false, 8, .any⟩,
  ⟨0x2010, 1, 1, 1, 1, .u32, 4, .rws, false, true, false, 0, .any⟩,
  ⟨0x2010, 1, 1, 2, 2, .u64, 8, .rws, false, true, false, 0, .between 1 (2 ^ 40 - 1)⟩,
  ⟨0x2010, 1, 1, 3, 3, .u32, 4, .ro, false, false, false, 0, .any⟩,
  ⟨0x2010, 1, 1, 4, 4, .octets, 32, .ro, false, false, false, 0, .any⟩,
  ⟨0x2010, 1, 1, 5, 5, .octets, 32, .ro, false, false, false, 0, .any⟩,
  ⟨0x2010, 1, 1, 6, 6, .u64, 8, .ro, false, false, false, 0, .any⟩,
  ⟨0x2010, 1, 1, 7, 7, .u32, 4, .ro, false, false, false, 0, .any⟩,
  ⟨0x2010, 1, 1, 8, 8, .u64, 8, .const, false, false, false, 8589934592, .any⟩,
  ⟨0x2020, 1, 1, 0, 0, .u8, 1, .const, false, false, false, 5, .any⟩,
  ⟨0x2020, 1, 1, 1, 1, .u8, 1, .ro, false, false, false, 64, .any⟩,
  ⟨0x2020, 1, 1, 2, 2, .u8, 1, .ro, false, false, false, 0, .any⟩,
  ⟨0x2020, 1, 1, 3, 3, .u8, 1, .ro, false, false, false, 0, .any⟩,
  ⟨0x2020, 1, 1, 4, 4, .u8, 1, .ro, false, false, false, 0, .any⟩,
  ⟨0x2020, 1, 1, 5, 5, .u8, 1, .ro, false, false, false, 0, .any⟩,
  ⟨0x2030, 1, 1, 0, 0, .u8, 1, .const, false, false, false, 7, .any⟩,
  ⟨0x2030, 1, 1, 1, 1, .u64, 8, .ro, false, false, false, 0, .any⟩,
  ⟨0x2030, 1, 1, 2, 2, .u64, 8, .ro, false, false, false, 0, .any⟩]

/-- Area 0x2000: wheel and plans. -/
def odRows2b : List OdRow := [
  ⟨0x2030, 1, 1, 3, 3, .u32, 4, .ro, false, false, false, 0, .any⟩,
  ⟨0x2030, 1, 1, 4, 4, .u64, 8, .ro, false, false, false, 0, .any⟩,
  ⟨0x2030, 1, 1, 5, 5, .u64, 8, .ro, false, false, false, 0, .any⟩,
  ⟨0x2030, 1, 1, 6, 6, .u64, 8, .ro, false, false, false, 0, .any⟩,
  ⟨0x2030, 1, 1, 7, 7, .u32, 4, .ro, false, false, false, 0, .any⟩]

/-- Area 0x3000: attention and formats. -/
def odRows3a : List OdRow := [
  ⟨0x3000, 1, 1, 0, 0, .u8, 1, .const, false, false, false, 8, .any⟩,
  ⟨0x3000, 1, 1, 1, 1, .u64, 8, .ro, false, false, false, 0, .any⟩,
  ⟨0x3000, 1, 1, 2, 2, .u64, 8, .ro, false, false, false, 0, .any⟩,
  ⟨0x3000, 1, 1, 3, 3, .u64, 8, .ro, false, false, false, 0, .any⟩,
  ⟨0x3000, 1, 1, 4, 4, .u64, 8, .ro, false, false, false, 0, .any⟩,
  ⟨0x3000, 1, 1, 5, 5, .u64, 8, .ro, false, false, false, 0, .any⟩,
  ⟨0x3000, 1, 1, 6, 6, .u64, 8, .ro, false, false, false, 0, .any⟩,
  ⟨0x3000, 1, 1, 7, 7, .u64, 8, .ro, false, false, false, 0, .any⟩,
  ⟨0x3000, 1, 1, 8, 8, .u64, 8, .ro, false, false, false, 0, .any⟩,
  ⟨0x3010, 1, 1, 0, 0, .u8, 1, .const, false, false, false, 32, .any⟩,
  ⟨0x3010, 1, 1, 1, 32, .u8, 1, .rws, false, true, false, 1, .between 0 1⟩,
  ⟨0x3020, 1, 1, 0, 0, .u8, 1, .const, false, false, false, 32, .any⟩,
  ⟨0x3020, 1, 1, 1, 32, .u8, 1, .rws, false, true, false, 0, .between 0 64⟩,
  ⟨0x3030, 1, 1, 0, 0, .u8, 1, .const, false, false, false, 2, .any⟩,
  ⟨0x3030, 1, 1, 1, 1, .u64, 8, .const, false, false, false, 4294967296, .any⟩,
  ⟨0x3030, 1, 1, 2, 2, .u64, 8, .ro, false, false, false, 0, .any⟩,
  ⟨0x3100, 16, 1, 0, 0, .u8, 1, .const, false, false, false, 6, .any⟩,
  ⟨0x3100, 16, 1, 1, 1, .octets, 8, .rws, false, true, false, 0, .any⟩,
  ⟨0x3100, 16, 1, 2, 2, .u16, 2, .rws, false, true, false, 0, .between 0 256⟩,
  ⟨0x3100, 16, 1, 3, 3, .u16, 2, .rws, false, true, false, 0, .between 0 256⟩,
  ⟨0x3100, 16, 1, 4, 4, .octets, 256, .rws, false, true, false, 0, .special⟩,
  ⟨0x3100, 16, 1, 5, 5, .octets, 2048, .rws, false, true, false, 0, .special⟩,
  ⟨0x3100, 16, 1, 6, 6, .u32, 4, .ro, false, false, false, 0, .any⟩]

/-- Area 0x4000: sequences, columns, prefix store. -/
def odRows4a : List OdRow := [
  ⟨0x4000, 1, 1, 0, 0, .u8, 1, .const, false, false, false, 8, .any⟩,
  ⟨0x4000, 1, 1, 1, 1, .u32, 4, .const, false, false, false, 268435456, .any⟩,
  ⟨0x4000, 1, 1, 2, 2, .u32, 4, .ro, false, false, false, 0, .any⟩,
  ⟨0x4000, 1, 1, 3, 3, .u32, 4, .ro, false, false, false, 0, .any⟩,
  ⟨0x4000, 1, 1, 4, 4, .u32, 4, .const, false, false, false, 8388608, .any⟩,
  ⟨0x4000, 1, 1, 5, 5, .u64, 8, .ro, false, false, false, 0, .any⟩,
  ⟨0x4000, 1, 1, 6, 6, .u64, 8, .ro, false, false, false, 0, .any⟩,
  ⟨0x4000, 1, 1, 7, 7, .u64, 8, .ro, false, false, false, 0, .any⟩,
  ⟨0x4000, 1, 1, 8, 8, .u64, 8, .ro, false, false, false, 0, .any⟩,
  ⟨0x4010, 1, 1, 0, 0, .u8, 1, .const, false, false, false, 32, .any⟩,
  ⟨0x4010, 1, 1, 1, 32, .u32, 4, .rws, false, true, false, 524288, .between 0 16777216⟩,
  ⟨0x4020, 1, 1, 0, 0, .u8, 1, .const, false, false, false, 13, .any⟩,
  ⟨0x4020, 1, 1, 1, 1, .u32, 4, .const, false, false, false, 67108863, .any⟩,
  ⟨0x4020, 1, 1, 2, 2, .u32, 4, .ro, false, false, false, 0, .any⟩,
  ⟨0x4020, 1, 1, 3, 3, .u64, 8, .ro, false, false, false, 0, .any⟩,
  ⟨0x4020, 1, 1, 4, 4, .u64, 8, .ro, false, false, false, 0, .any⟩,
  ⟨0x4020, 1, 1, 5, 5, .u64, 8, .ro, false, false, false, 0, .any⟩,
  ⟨0x4020, 1, 1, 6, 6, .u64, 8, .ro, false, false, false, 0, .any⟩,
  ⟨0x4020, 1, 1, 7, 7, .u16, 2, .ro, false, false, false, 0, .any⟩,
  ⟨0x4020, 1, 1, 8, 8, .u64, 8, .ro, false, false, false, 0, .any⟩,
  ⟨0x4020, 1, 1, 9, 9, .u64, 8, .ro, false, false, false, 0, .any⟩,
  ⟨0x4020, 1, 1, 10, 10, .bool, 1, .wo, false, true, false, 0, .oneOf [1]⟩,
  ⟨0x4020, 1, 1, 11, 11, .u64, 8, .ro, false, false, false, 0, .any⟩,
  ⟨0x4020, 1, 1, 12, 12, .u32, 4, .ro, false, false, false, 0, .any⟩]

/-- Area 0x4000: sequences, columns, prefix store. -/
def odRows4b : List OdRow := [
  ⟨0x4020, 1, 1, 13, 13, .u32, 4, .ro, false, false, false, 0, .any⟩,
  ⟨0x4030, 1, 1, 0, 0, .u8, 1, .const, false, false, false, 32, .any⟩,
  ⟨0x4030, 1, 1, 1, 32, .u32, 4, .rws, false, true, false, 2097151, .between 0 67108863⟩]

/-- Area 0x5000: tiers and pool. -/
def odRows5a : List OdRow := [
  ⟨0x5000, 1, 1, 0, 0, .u8, 1, .const, false, false, false, 14, .any⟩,
  ⟨0x5000, 1, 1, 1, 1, .u64, 8, .ro, false, false, false, 1529008357376, .any⟩,
  ⟨0x5000, 1, 1, 2, 2, .u64, 8, .ro, false, false, false, 1529008357376, .any⟩,
  ⟨0x5000, 1, 1, 3, 3, .u64, 8, .ro, false, false, false, 0, .any⟩,
  ⟨0x5000, 1, 1, 4, 4, .u64, 8, .ro, false, false, false, 0, .any⟩,
  ⟨0x5000, 1, 1, 5, 5, .u64, 8, .ro, false, false, false, 0, .any⟩,
  ⟨0x5000, 1, 1, 6, 6, .u64, 8, .ro, false, false, false, 0, .any⟩,
  ⟨0x5000, 1, 1, 7, 7, .u64, 8, .ro, false, false, false, 0, .any⟩,
  ⟨0x5000, 1, 1, 8, 8, .u64, 8, .ro, false, false, false, 0, .any⟩,
  ⟨0x5000, 1, 1, 9, 9, .u64, 8, .ro, false, false, false, 0, .any⟩,
  ⟨0x5000, 1, 1, 10, 10, .u64, 8, .ro, false, false, false, 0, .any⟩,
  ⟨0x5000, 1, 1, 11, 11, .u64, 8, .ro, false, false, false, 0, .any⟩,
  ⟨0x5000, 1, 1, 12, 12, .u64, 8, .ro, false, false, false, 0, .any⟩,
  ⟨0x5000, 1, 1, 13, 13, .u32, 4, .const, false, false, false, 1048576, .any⟩,
  ⟨0x5000, 1, 1, 14, 14, .u64, 8, .ro, false, false, false, 0, .any⟩,
  ⟨0x5010, 1, 1, 0, 0, .u8, 1, .const, false, false, false, 5, .any⟩,
  ⟨0x5010, 1, 1, 1, 1, .u64, 8, .rws, true, false, true, 0, .mult 1073741824 0 1529008357376⟩,
  ⟨0x5010, 1, 1, 2, 2, .u32, 4, .rws, true, false, true, 2500, .between 1 1000000⟩,
  ⟨0x5010, 1, 1, 3, 3, .u32, 4, .rw, true, false, true, 10000, .between 1000 600000⟩,
  ⟨0x5010, 1, 1, 4, 4, .bool, 1, .rws, true, false, true, 0, .between 0 1⟩,
  ⟨0x5010, 1, 1, 5, 5, .u16, 2, .ro, false, false, false, 0, .any⟩]

/-- Area 0x6000: heath. -/
def odRows6a : List OdRow := [
  ⟨0x6000, 1, 1, 0, 0, .u8, 1, .const, false, false, false, 17, .any⟩,
  ⟨0x6000, 1, 1, 1, 1, .u8, 1, .rw, true, false, true, 5, .between 2 64⟩,
  ⟨0x6000, 1, 1, 2, 2, .u8, 1, .rw, true, false, true, 10, .special⟩,
  ⟨0x6000, 1, 1, 3, 3, .u8, 1, .rw, true, false, true, 16, .between 8 128⟩,
  ⟨0x6000, 1, 1, 4, 4, .u32, 4, .rw, true, false, true, 2000, .between 100 100000⟩,
  ⟨0x6000, 1, 1, 5, 5, .u32, 4, .rw, true, false, true, 200000, .between 10000 10000000⟩,
  ⟨0x6000, 1, 1, 6, 6, .u8, 1, .rw, true, false, true, 60, .between 10 100⟩,
  ⟨0x6000, 1, 1, 7, 7, .u32, 4, .rw, true, false, true, 4096, .between 256 65536⟩,
  ⟨0x6000, 1, 1, 8, 8, .u32, 4, .rw, true, false, true, 1000, .between 10 60000⟩,
  ⟨0x6000, 1, 1, 9, 9, .u64, 8, .ro, false, false, false, 0, .any⟩,
  ⟨0x6000, 1, 1, 10, 10, .u64, 8, .ro, false, false, false, 0, .any⟩,
  ⟨0x6000, 1, 1, 11, 11, .u64, 8, .ro, false, false, false, 0, .any⟩,
  ⟨0x6000, 1, 1, 12, 12, .u64, 8, .ro, false, false, false, 0, .any⟩,
  ⟨0x6000, 1, 1, 13, 13, .u64, 8, .ro, false, false, false, 0, .any⟩,
  ⟨0x6000, 1, 1, 14, 14, .u64, 8, .ro, false, false, false, 0, .any⟩,
  ⟨0x6000, 1, 1, 15, 15, .u32, 4, .ro, false, false, false, 0, .any⟩,
  ⟨0x6000, 1, 1, 16, 16, .u64, 8, .ro, false, false, false, 0, .any⟩,
  ⟨0x6000, 1, 1, 17, 17, .u16, 2, .wo, true, false, false, 0, .any⟩,
  ⟨0x6100, 16, 1, 0, 0, .u8, 1, .const, false, false, false, 15, .any⟩,
  ⟨0x6100, 16, 1, 1, 1, .u8, 1, .ro, false, false, false, 0, .any⟩,
  ⟨0x6100, 16, 1, 2, 2, .u8, 1, .ro, false, false, false, 0, .any⟩,
  ⟨0x6100, 16, 1, 3, 3, .u8, 1, .ro, false, false, false, 0, .any⟩,
  ⟨0x6100, 16, 1, 4, 4, .u16, 2, .ro, false, false, false, 0, .any⟩,
  ⟨0x6100, 16, 1, 5, 5, .u16, 2, .ro, false, false, false, 0, .any⟩]

/-- Area 0x6000: heath. -/
def odRows6b : List OdRow := [
  ⟨0x6100, 16, 1, 6, 6, .u64, 8, .ro, false, false, false, 0, .any⟩,
  ⟨0x6100, 16, 1, 7, 7, .u64, 8, .ro, false, false, false, 0, .any⟩,
  ⟨0x6100, 16, 1, 8, 8, .u32, 4, .ro, false, false, false, 0, .any⟩,
  ⟨0x6100, 16, 1, 9, 9, .u32, 4, .ro, false, false, false, 0, .any⟩,
  ⟨0x6100, 16, 1, 10, 10, .u32, 4, .ro, false, false, false, 0, .any⟩,
  ⟨0x6100, 16, 1, 11, 11, .u32, 4, .ro, false, false, false, 0, .any⟩,
  ⟨0x6100, 16, 1, 12, 12, .u32, 4, .ro, false, false, false, 0, .any⟩,
  ⟨0x6100, 16, 1, 13, 13, .u16, 2, .ro, false, false, false, 0, .any⟩,
  ⟨0x6100, 16, 1, 14, 14, .bool, 1, .wo, true, false, false, 0, .oneOf [1]⟩,
  ⟨0x6100, 16, 1, 15, 15, .octets, 16, .ro, false, false, false, 0, .any⟩]

/-- Area 0x7000: peer transport and Isver links. -/
def odRows7a : List OdRow := [
  ⟨0x7000, 1, 1, 0, 0, .u8, 1, .const, false, false, false, 6, .any⟩,
  ⟨0x7000, 1, 1, 1, 1, .u16, 2, .rws, true, false, true, 65535, .betweenOr 0 4095 65535⟩,
  ⟨0x7000, 1, 1, 2, 2, .octets, 4096, .rws, true, false, true, 2 ^ 32768 - 1, .special⟩,
  ⟨0x7000, 1, 1, 3, 3, .u8, 1, .rw, true, false, true, 8, .between 1 16⟩,
  ⟨0x7000, 1, 1, 4, 4, .u64, 8, .ro, false, false, false, 0, .any⟩,
  ⟨0x7000, 1, 1, 5, 5, .u64, 8, .ro, false, false, false, 0, .any⟩,
  ⟨0x7000, 1, 1, 6, 6, .u64, 8, .ro, false, false, false, 0, .any⟩,
  ⟨0x7001, 1, 1, 0, 0, .u8, 1, .const, false, false, false, 32, .any⟩,
  ⟨0x7001, 1, 1, 1, 32, .u64, 8, .rws, false, true, false, 0, .any⟩,
  ⟨0x7002, 1, 1, 0, 0, .u8, 1, .const, false, false, false, 32, .any⟩,
  ⟨0x7002, 1, 1, 1, 32, .bool, 1, .rws, true, false, true, 1, .between 0 1⟩,
  ⟨0x7003, 1, 1, 0, 0, .u8, 1, .const, false, false, false, 32, .any⟩,
  ⟨0x7003, 1, 1, 1, 32, .bool, 1, .rws, true, false, true, 0, .between 0 1⟩,
  ⟨0x7010, 1, 1, 0, 0, .u8, 1, .const, false, false, false, 6, .any⟩,
  ⟨0x7010, 1, 1, 1, 1, .u32, 4, .rw, false, true, false, 16000, .between 2000 1000000⟩,
  ⟨0x7010, 1, 1, 2, 2, .u8, 1, .rw, false, true, false, 7, .between 1 15⟩,
  ⟨0x7010, 1, 1, 3, 3, .u32, 4, .rw, false, true, false, 4194304, .between 65536 16777216⟩,
  ⟨0x7010, 1, 1, 4, 4, .u16, 2, .rw, false, true, false, 1024, .between 16 4096⟩,
  ⟨0x7010, 1, 1, 5, 5, .u64, 8, .rw, false, true, false, 1099511627776, .between 1048576 281474976710656⟩,
  ⟨0x7010, 1, 1, 6, 6, .u16, 2, .rw, false, true, false, 1024, .between 0 2048⟩,
  ⟨0x7020, 1, 1, 0, 0, .u8, 1, .const, false, false, false, 4, .any⟩,
  ⟨0x7020, 1, 1, 1, 1, .octets, 64, .wo, false, true, false, 0, .special⟩,
  ⟨0x7020, 1, 1, 2, 2, .u64, 8, .ro, false, false, false, 0, .any⟩,
  ⟨0x7020, 1, 1, 3, 3, .u16, 2, .rw, false, true, false, 64, .between 64 65535⟩]

/-- Area 0x7000: peer transport and Isver links. -/
def odRows7b : List OdRow := [
  ⟨0x7020, 1, 1, 4, 4, .octets, 64, .ro, false, false, false, 0, .any⟩,
  ⟨0x7030, 1, 1, 0, 0, .u8, 1, .const, false, false, false, 9, .any⟩,
  ⟨0x7030, 1, 1, 1, 1, .u16, 2, .ro, false, false, false, 64, .any⟩,
  ⟨0x7030, 1, 1, 2, 2, .u64, 8, .ro, false, false, false, 0, .any⟩,
  ⟨0x7030, 1, 1, 3, 3, .u64, 8, .ro, false, false, false, 0, .any⟩,
  ⟨0x7030, 1, 1, 4, 4, .u64, 8, .ro, false, false, false, 0, .any⟩,
  ⟨0x7030, 1, 1, 5, 5, .u64, 8, .ro, false, false, false, 0, .any⟩,
  ⟨0x7030, 1, 1, 6, 6, .u64, 8, .ro, false, false, false, 0, .any⟩,
  ⟨0x7030, 1, 1, 7, 7, .u32, 4, .ro, false, false, false, 0, .any⟩,
  ⟨0x7030, 1, 1, 8, 8, .u64, 8, .ro, false, false, false, 0, .any⟩,
  ⟨0x7030, 1, 1, 9, 9, .u64, 8, .ro, false, false, false, 0, .any⟩,
  ⟨0x7100, 1, 1, 0, 0, .u8, 1, .const, false, false, false, 5, .any⟩,
  ⟨0x7100, 1, 1, 1, 1, .u64, 8, .rw, true, false, true, 4294967296, .between 1048576 1099511627776⟩,
  ⟨0x7100, 1, 1, 2, 2, .u8, 1, .rw, true, false, true, 4, .between 1 8⟩,
  ⟨0x7100, 1, 1, 3, 3, .u8, 1, .rw, true, false, true, 2, .between 1 4⟩,
  ⟨0x7100, 1, 1, 4, 4, .u32, 4, .rw, true, false, true, 1000, .between 100 1000000⟩,
  ⟨0x7100, 1, 1, 5, 5, .u32, 4, .rw, true, false, true, 1000000, .between 1000 100000000⟩,
  ⟨0x7110, 1, 1, 0, 0, .u8, 1, .const, false, false, false, 128, .any⟩,
  ⟨0x7110, 1, 1, 1, 128, .u8, 1, .rws, false, true, false, 16, .between 1 255⟩,
  ⟨0x7111, 1, 1, 0, 0, .u8, 1, .const, false, false, false, 128, .any⟩,
  ⟨0x7111, 1, 1, 1, 128, .u8, 1, .rws, false, true, false, 16, .between 1 255⟩,
  ⟨0x7120, 48, 1, 0, 0, .u8, 1, .const, false, false, false, 15, .any⟩,
  ⟨0x7120, 48, 1, 1, 1, .u8, 1, .ro, false, false, false, 0, .any⟩,
  ⟨0x7120, 48, 1, 2, 2, .u16, 2, .ro, false, false, false, 0, .any⟩]

/-- Area 0x7000: peer transport and Isver links. -/
def odRows7c : List OdRow := [
  ⟨0x7120, 48, 1, 3, 3, .octets, 16, .ro, false, false, false, 0, .any⟩,
  ⟨0x7120, 48, 1, 4, 4, .u16, 2, .ro, false, false, false, 65535, .any⟩,
  ⟨0x7120, 48, 1, 5, 5, .u64, 8, .ro, false, false, false, 0, .any⟩,
  ⟨0x7120, 48, 1, 6, 6, .u64, 8, .ro, false, false, false, 0, .any⟩,
  ⟨0x7120, 48, 1, 7, 7, .u64, 8, .ro, false, false, false, 0, .any⟩,
  ⟨0x7120, 48, 1, 8, 8, .u64, 8, .ro, false, false, false, 0, .any⟩,
  ⟨0x7120, 48, 1, 9, 9, .u64, 8, .ro, false, false, false, 0, .any⟩,
  ⟨0x7120, 48, 1, 10, 10, .u64, 8, .ro, false, false, false, 0, .any⟩,
  ⟨0x7120, 48, 1, 11, 11, .u64, 8, .ro, false, false, false, 0, .any⟩,
  ⟨0x7120, 48, 1, 12, 12, .u32, 4, .ro, false, false, false, 0, .any⟩,
  ⟨0x7120, 48, 1, 13, 13, .octets, 520, .rws, false, true, false, 0, .special⟩,
  ⟨0x7120, 48, 1, 14, 14, .u8, 1, .ro, false, false, false, 15, .any⟩,
  ⟨0x7120, 48, 1, 15, 15, .u8, 1, .ro, false, false, false, 0, .any⟩,
  ⟨0x7160, 1, 1, 0, 0, .u8, 1, .const, false, false, false, 12, .any⟩,
  ⟨0x7160, 1, 1, 1, 12, .u64, 8, .ro, false, false, false, 0, .any⟩]

/-- Area 0x8000: compression. -/
def odRows8a : List OdRow := [
  ⟨0x8000, 1, 1, 0, 0, .u8, 1, .const, false, false, false, 7, .any⟩,
  ⟨0x8000, 1, 1, 1, 1, .u64, 8, .ro, false, false, false, 0, .any⟩,
  ⟨0x8000, 1, 1, 2, 2, .u64, 8, .ro, false, false, false, 0, .any⟩,
  ⟨0x8000, 1, 1, 3, 3, .u64, 8, .ro, false, false, false, 0, .any⟩,
  ⟨0x8000, 1, 1, 4, 4, .u64, 8, .ro, false, false, false, 0, .any⟩,
  ⟨0x8000, 1, 1, 5, 5, .u64, 8, .ro, false, false, false, 0, .any⟩,
  ⟨0x8000, 1, 1, 6, 6, .u32, 4, .ro, false, false, false, 0, .any⟩,
  ⟨0x8000, 1, 1, 7, 7, .u64, 8, .ro, false, false, false, 0, .any⟩,
  ⟨0x8010, 1, 1, 0, 0, .u8, 1, .const, false, false, false, 16, .any⟩,
  ⟨0x8010, 1, 1, 1, 16, .u64, 8, .ro, false, false, false, 0, .any⟩]

/-- Area 0x9000: security and tenancy. -/
def odRows9a : List OdRow := [
  ⟨0x9000, 1, 1, 0, 0, .u8, 1, .const, false, false, false, 10, .any⟩,
  ⟨0x9000, 1, 1, 1, 1, .u8, 1, .ro, false, false, false, 0, .any⟩,
  ⟨0x9000, 1, 1, 2, 2, .bool, 1, .wo, true, false, false, 0, .oneOf [1]⟩,
  ⟨0x9000, 1, 1, 3, 3, .octets, 32, .ro, false, false, false, 0, .any⟩,
  ⟨0x9000, 1, 1, 4, 4, .u64, 8, .rws, true, false, true, 0, .any⟩,
  ⟨0x9000, 1, 1, 5, 5, .u8, 1, .ro, false, false, false, 0, .any⟩,
  ⟨0x9000, 1, 1, 6, 6, .u32, 4, .ro, false, false, false, 0, .any⟩,
  ⟨0x9000, 1, 1, 7, 7, .u32, 4, .rw, true, false, true, 10000, .between 1000 600000⟩,
  ⟨0x9000, 1, 1, 8, 8, .u8, 1, .ro, false, false, false, 1, .any⟩,
  ⟨0x9000, 1, 1, 9, 9, .u32, 4, .ro, false, false, false, 0, .any⟩,
  ⟨0x9000, 1, 1, 10, 10, .u8, 1, .ro, false, false, false, 0, .any⟩,
  ⟨0x9010, 1, 1, 0, 0, .u8, 1, .const, false, false, false, 4, .any⟩,
  ⟨0x9010, 1, 1, 1, 1, .octets, 32, .rw, true, false, true, 0, .any⟩,
  ⟨0x9010, 1, 1, 2, 2, .u64, 8, .rw, true, false, true, 0, .any⟩,
  ⟨0x9010, 1, 1, 3, 3, .u8, 1, .ro, false, false, false, 0, .any⟩,
  ⟨0x9010, 1, 1, 4, 4, .u32, 4, .ro, false, false, false, 0, .any⟩,
  ⟨0x9020, 1, 1, 0, 0, .u8, 1, .const, false, false, false, 255, .any⟩,
  ⟨0x9020, 1, 1, 1, 255, .octets, 80, .wo, false, true, false, 0, .special⟩,
  ⟨0x9021, 1, 1, 0, 0, .u8, 1, .const, false, false, false, 255, .any⟩,
  ⟨0x9021, 1, 1, 1, 255, .u64, 8, .ro, false, false, false, 0, .any⟩,
  ⟨0x9030, 1, 1, 0, 0, .u8, 1, .const, false, false, false, 7, .any⟩,
  ⟨0x9030, 1, 1, 1, 1, .octets, 32, .const, false, false, false, 0, .any⟩,
  ⟨0x9030, 1, 1, 2, 2, .octets, 32, .ro, false, false, false, 0, .any⟩,
  ⟨0x9030, 1, 1, 3, 3, .octets, 32, .ro, false, false, false, 0, .any⟩]

/-- Area 0x9000: security and tenancy. -/
def odRows9b : List OdRow := [
  ⟨0x9030, 1, 1, 4, 4, .octets, 32, .ro, false, false, false, 0, .any⟩,
  ⟨0x9030, 1, 1, 5, 5, .u32, 4, .ro, false, false, false, 0, .any⟩,
  ⟨0x9030, 1, 1, 6, 6, .octets, 32, .ro, false, false, false, 0, .any⟩,
  ⟨0x9030, 1, 1, 7, 7, .octets, 37748736, .ro, false, false, false, 0, .any⟩,
  ⟨0x9040, 1, 1, 0, 0, .u8, 1, .const, false, false, false, 64, .any⟩,
  ⟨0x9040, 1, 1, 1, 64, .octets, 16, .rws, true, false, true, 0, .any⟩,
  ⟨0x9050, 1, 1, 0, 0, .u8, 1, .const, false, false, false, 3, .any⟩,
  ⟨0x9050, 1, 1, 1, 1, .u64, 8, .ro, false, false, false, 0, .any⟩,
  ⟨0x9050, 1, 1, 2, 2, .u64, 8, .ro, false, false, false, 0, .any⟩,
  ⟨0x9050, 1, 1, 3, 3, .u64, 8, .ro, false, false, false, 0, .any⟩]

/-- Area 0xA000: counters. -/
def odRowsAa : List OdRow := [
  ⟨0xA000, 1, 1, 0, 0, .u8, 1, .const, false, false, false, 2, .any⟩,
  ⟨0xA000, 1, 1, 1, 1, .bool, 1, .rw, true, false, true, 0, .between 0 1⟩,
  ⟨0xA000, 1, 1, 2, 2, .u64, 8, .ro, false, false, false, 0, .any⟩,
  ⟨0xA010, 1, 1, 0, 0, .u8, 1, .const, false, false, false, 8, .any⟩,
  ⟨0xA010, 1, 1, 1, 8, .u64, 8, .rw, true, true, false, 0, .special⟩,
  ⟨0xA100, 96, 1, 0, 0, .u8, 1, .const, false, false, false, 30, .any⟩,
  ⟨0xA100, 96, 1, 1, 8, .u64, 8, .rw, true, true, false, 0, .special⟩,
  ⟨0xA100, 96, 1, 9, 16, .u32, 4, .rw, true, true, false, 1000000, .between 1 (2 ^ 32 - 1)⟩,
  ⟨0xA100, 96, 1, 17, 24, .u64, 8, .rw, true, true, false, 0, .oneOf [0]⟩,
  ⟨0xA100, 96, 1, 25, 29, .u64, 8, .ro, false, false, false, 0, .any⟩,
  ⟨0xA100, 96, 1, 30, 30, .u64, 8, .ro, false, false, false, 0, .any⟩,
  ⟨0xA200, 24, 1, 0, 0, .u8, 1, .const, false, false, false, 24, .any⟩,
  ⟨0xA200, 24, 1, 1, 8, .u64, 8, .rw, true, true, false, 0, .special⟩,
  ⟨0xA200, 24, 1, 9, 16, .u32, 4, .rw, true, true, false, 1000000, .between 1 (2 ^ 32 - 1)⟩,
  ⟨0xA200, 24, 1, 17, 24, .u64, 8, .rw, true, true, false, 0, .oneOf [0]⟩,
  ⟨0xA300, 48, 1, 0, 0, .u8, 1, .const, false, false, false, 12, .any⟩,
  ⟨0xA300, 48, 1, 1, 4, .u64, 8, .rw, true, true, false, 0, .special⟩,
  ⟨0xA300, 48, 1, 5, 8, .u32, 4, .rw, true, true, false, 1000000, .between 1 (2 ^ 32 - 1)⟩,
  ⟨0xA300, 48, 1, 9, 12, .u64, 8, .rw, true, true, false, 0, .oneOf [0]⟩]

/-- Area 0xB000: self-test. -/
def odRowsBa : List OdRow := [
  ⟨0xB000, 1, 1, 0, 0, .u8, 1, .const, false, false, false, 4, .any⟩,
  ⟨0xB000, 1, 1, 1, 1, .u64, 8, .wo, true, false, false, 0, .special⟩,
  ⟨0xB000, 1, 1, 2, 2, .bool, 1, .rws, true, false, true, 0, .between 0 1⟩,
  ⟨0xB000, 1, 1, 3, 3, .u64, 8, .rws, true, false, true, 0, .special⟩,
  ⟨0xB000, 1, 1, 4, 4, .u32, 4, .ro, false, false, false, 0, .any⟩,
  ⟨0xB010, 1, 1, 0, 0, .u8, 1, .const, false, false, false, 6, .any⟩,
  ⟨0xB010, 1, 1, 1, 1, .u64, 8, .ro, false, false, false, 0, .any⟩,
  ⟨0xB010, 1, 1, 2, 2, .u64, 8, .ro, false, false, false, 0, .any⟩,
  ⟨0xB010, 1, 1, 3, 3, .u64, 8, .ro, false, false, false, 0, .any⟩,
  ⟨0xB010, 1, 1, 4, 4, .u32, 4, .ro, false, false, false, 0, .any⟩,
  ⟨0xB010, 1, 1, 5, 5, .u32, 4, .ro, false, false, false, 0, .any⟩,
  ⟨0xB010, 1, 1, 6, 6, .u32, 4, .ro, false, false, false, 0, .any⟩,
  ⟨0xB020, 1, 1, 0, 0, .u8, 1, .const, false, false, false, 7, .any⟩,
  ⟨0xB020, 1, 1, 1, 1, .octets, 12, .ro, false, false, false, 0, .any⟩,
  ⟨0xB020, 1, 1, 2, 2, .octets, 15, .ro, false, false, false, 0, .any⟩,
  ⟨0xB020, 1, 1, 3, 3, .u32, 4, .ro, false, false, false, 0, .any⟩,
  ⟨0xB020, 1, 1, 4, 4, .u32, 4, .ro, false, false, false, 0, .any⟩,
  ⟨0xB020, 1, 1, 5, 5, .u32, 4, .ro, false, false, false, 0, .any⟩,
  ⟨0xB020, 1, 1, 6, 6, .u16, 2, .ro, false, false, false, 0, .any⟩,
  ⟨0xB020, 1, 1, 7, 7, .u64, 8, .ro, false, false, false, 0, .any⟩,
  ⟨0xB022, 1, 1, 0, 0, .u8, 1, .const, false, false, false, 96, .any⟩,
  ⟨0xB022, 1, 1, 1, 96, .u8, 1, .ro, false, false, false, 0, .any⟩,
  ⟨0xB030, 1, 1, 0, 0, .u8, 1, .const, false, false, false, 2, .any⟩,
  ⟨0xB030, 1, 1, 1, 1, .bool, 1, .wo, true, false, false, 0, .oneOf [1]⟩]

/-- Area 0xB000: self-test. -/
def odRowsBb : List OdRow := [
  ⟨0xB030, 1, 1, 2, 2, .u32, 4, .const, false, false, false, 306482603, .any⟩,
  ⟨0xB040, 1, 1, 0, 0, .u8, 1, .const, false, false, false, 6, .any⟩,
  ⟨0xB040, 1, 1, 1, 1, .u16, 2, .rw, true, false, false, 65535, .special⟩,
  ⟨0xB040, 1, 1, 2, 2, .u8, 1, .rw, true, false, false, 4, .between 1 5⟩,
  ⟨0xB040, 1, 1, 3, 3, .u64, 8, .rw, true, false, false, 0, .any⟩,
  ⟨0xB040, 1, 1, 4, 4, .u8, 1, .rw, true, false, false, 255, .special⟩,
  ⟨0xB040, 1, 1, 5, 5, .bool, 1, .rws, true, false, true, 0, .between 0 1⟩,
  ⟨0xB040, 1, 1, 6, 6, .bool, 1, .rw, true, false, false, 0, .between 0 1⟩,
  ⟨0xB041, 1, 1, 0, 0, .u8, 1, .const, false, false, false, 8, .any⟩,
  ⟨0xB041, 1, 1, 1, 8, .octets, 24, .ro, false, false, false, 0, .any⟩]

/-- Area 0xC000: power, thermal, kiln. -/
def odRowsCa : List OdRow := [
  ⟨0xC000, 1, 1, 0, 0, .u8, 1, .const, false, false, false, 10, .any⟩,
  ⟨0xC000, 1, 1, 1, 1, .u8, 1, .ro, false, false, false, 1, .any⟩,
  ⟨0xC000, 1, 1, 2, 2, .u8, 1, .ro, false, false, false, 0, .any⟩,
  ⟨0xC000, 1, 1, 3, 3, .u32, 4, .ro, false, false, false, 0, .any⟩,
  ⟨0xC000, 1, 1, 4, 4, .f32, 4, .ro, false, false, false, 0, .any⟩,
  ⟨0xC000, 1, 1, 5, 5, .u16, 2, .rw, true, false, true, 1500, .between 300 1500⟩,
  ⟨0xC000, 1, 1, 6, 6, .u16, 2, .ro, false, false, false, 0, .any⟩,
  ⟨0xC000, 1, 1, 7, 7, .u16, 2, .ro, false, false, false, 0, .any⟩,
  ⟨0xC000, 1, 1, 8, 8, .bool, 1, .rw, true, false, true, 1, .between 0 1⟩,
  ⟨0xC000, 1, 1, 9, 9, .i32, 4, .ro, false, false, false, 0, .any⟩,
  ⟨0xC000, 1, 1, 10, 10, .u16, 2, .rw, true, false, true, 6400, .oneOf [6400, 8000]⟩,
  ⟨0xC010, 1, 1, 0, 0, .u8, 1, .const, false, false, false, 160, .any⟩,
  ⟨0xC010, 1, 1, 1, 160, .i32, 4, .ro, false, false, false, 0, .any⟩,
  ⟨0xC011, 1, 1, 0, 0, .u8, 1, .const, false, false, false, 6, .any⟩,
  ⟨0xC011, 1, 1, 1, 6, .i32, 4, .ro, false, false, false, 0, .any⟩,
  ⟨0xC012, 1, 1, 0, 0, .u8, 1, .const, false, false, false, 2, .any⟩,
  ⟨0xC012, 1, 1, 1, 1, .i32, 4, .rw, true, false, true, 10000, .between 7000 11000⟩,
  ⟨0xC012, 1, 1, 2, 2, .i32, 4, .rw, true, false, true, 11500, .between 10000 12000⟩,
  ⟨0xC020, 1, 1, 0, 0, .u8, 1, .const, false, false, false, 8, .any⟩,
  ⟨0xC020, 1, 1, 1, 8, .u64, 8, .rw, true, false, true, 0, .special⟩,
  ⟨0xC030, 1, 1, 0, 0, .u8, 1, .const, false, false, false, 8, .any⟩,
  ⟨0xC030, 1, 1, 1, 1, .u8, 1, .ro, false, false, false, 1, .any⟩,
  ⟨0xC030, 1, 1, 2, 2, .u16, 2, .ro, false, false, false, 0, .any⟩,
  ⟨0xC030, 1, 1, 3, 3, .u16, 2, .rw, true, false, true, 10800, .between 10800 11400⟩]

/-- Area 0xC000: power, thermal, kiln. -/
def odRowsCb : List OdRow := [
  ⟨0xC030, 1, 1, 4, 4, .u64, 8, .ro, false, false, false, 0, .any⟩,
  ⟨0xC030, 1, 1, 5, 5, .u32, 4, .ro, false, false, false, 0, .any⟩,
  ⟨0xC030, 1, 1, 6, 6, .u32, 4, .ro, false, false, false, 0, .any⟩,
  ⟨0xC030, 1, 1, 7, 7, .u32, 4, .ro, false, false, false, 0, .any⟩,
  ⟨0xC030, 1, 1, 8, 8, .bool, 1, .wo, true, false, false, 0, .oneOf [1]⟩,
  ⟨0xC040, 1, 1, 0, 0, .u8, 1, .const, false, false, false, 4, .any⟩,
  ⟨0xC040, 1, 1, 1, 1, .octets, 16777216, .wo, true, false, false, 0, .special⟩,
  ⟨0xC040, 1, 1, 2, 2, .u8, 1, .ro, false, false, false, 0, .any⟩,
  ⟨0xC040, 1, 1, 3, 3, .u8, 1, .ro, false, false, false, 0, .any⟩,
  ⟨0xC040, 1, 1, 4, 4, .u32, 4, .ro, false, false, false, 0, .any⟩,
  ⟨0xC050, 1, 1, 0, 0, .u8, 1, .const, false, false, false, 2, .any⟩,
  ⟨0xC050, 1, 1, 1, 1, .bool, 1, .wo, true, false, false, 0, .oneOf [1]⟩,
  ⟨0xC050, 1, 1, 2, 2, .u8, 1, .wo, false, true, false, 0, .between 0 31⟩]

/-- Area 0xD000: log. -/
def odRowsDa : List OdRow := [
  ⟨0xD000, 1, 1, 0, 0, .u8, 1, .const, false, false, false, 8, .any⟩,
  ⟨0xD000, 1, 1, 1, 1, .u32, 4, .ro, false, false, false, 0, .any⟩,
  ⟨0xD000, 1, 1, 2, 2, .u32, 4, .ro, false, false, false, 0, .any⟩,
  ⟨0xD000, 1, 1, 3, 3, .u16, 2, .ro, false, false, false, 0, .any⟩,
  ⟨0xD000, 1, 1, 4, 4, .u64, 8, .ro, false, false, false, 0, .any⟩,
  ⟨0xD000, 1, 1, 5, 5, .bool, 1, .wo, true, false, false, 0, .oneOf [1]⟩,
  ⟨0xD000, 1, 1, 6, 6, .u64, 8, .ro, false, false, false, 0, .any⟩,
  ⟨0xD000, 1, 1, 7, 7, .u32, 4, .ro, false, false, false, 4294967295, .any⟩,
  ⟨0xD000, 1, 1, 8, 8, .octets, 32, .ro, false, false, false, 0, .any⟩,
  ⟨0xD001, 1, 1, 0, 0, .u8, 1, .const, false, false, false, 2, .any⟩,
  ⟨0xD001, 1, 1, 1, 1, .u32, 4, .rw, true, true, false, 0, .between 0 1048575⟩,
  ⟨0xD001, 1, 1, 2, 2, .octets, 1024, .ro, false, false, false, 0, .any⟩,
  ⟨0xD010, 1, 1, 0, 0, .u8, 1, .const, false, false, false, 3, .any⟩,
  ⟨0xD010, 1, 1, 1, 1, .u16, 2, .rw, true, false, true, 16, .between 2 65535⟩,
  ⟨0xD010, 1, 1, 2, 2, .u32, 4, .rw, true, false, true, 1000, .between 10 3600000⟩,
  ⟨0xD010, 1, 1, 3, 3, .u32, 4, .ro, false, false, false, 0, .any⟩]

/-- Area 0xE000: partitions. -/
def odRowsEa : List OdRow := [
  ⟨0xE000, 32, 128, 0, 0, .u8, 1, .const, false, false, false, 13, .any⟩,
  ⟨0xE000, 32, 128, 1, 1, .u64, 8, .rws, false, true, false, 0, .mult 4096 0 1529008357376⟩,
  ⟨0xE000, 32, 128, 2, 2, .u64, 8, .rws, false, true, false, 1529008357376, .mult 4096 0 1529008357376⟩,
  ⟨0xE000, 32, 128, 3, 3, .u64, 8, .rws, false, true, false, 0, .between 0 1529008357376⟩,
  ⟨0xE000, 32, 128, 4, 4, .u64, 8, .rws, false, true, false, 1125899906842624, .mult 4096 0 (2 ^ 64 - 1)⟩,
  ⟨0xE000, 32, 128, 5, 5, .u64, 8, .rws, false, true, false, 0, .mult 4096 0 (2 ^ 64 - 1)⟩,
  ⟨0xE000, 32, 128, 6, 6, .u32, 4, .rws, false, true, false, 16777215, .between 1 0xFFFFFF⟩,
  ⟨0xE000, 32, 128, 7, 7, .u8, 1, .rws, false, true, false, 0, .between 0 2⟩,
  ⟨0xE000, 32, 128, 8, 8, .u8, 1, .rws, false, true, false, 0, .between 0 3⟩,
  ⟨0xE000, 32, 128, 9, 9, .u64, 8, .const, false, false, false, 70368744177664, .any⟩,
  ⟨0xE000, 32, 128, 10, 10, .u64, 8, .ro, false, false, false, 0, .any⟩,
  ⟨0xE000, 32, 128, 11, 11, .u64, 8, .ro, false, false, false, 0, .any⟩,
  ⟨0xE000, 32, 128, 12, 12, .u64, 8, .ro, false, false, false, 0, .any⟩,
  ⟨0xE000, 32, 128, 13, 13, .u32, 4, .ro, false, false, false, 0, .any⟩]

/-- The whole dictionary. -/
def odTable : List OdRow :=
  odRows1a ++ odRows1b ++ odRows2a ++ odRows2b ++ odRows3a ++ odRows4a ++ odRows4b ++ odRows5a ++
  odRows6a ++ odRows6b ++ odRows7a ++ odRows7b ++ odRows7c ++ odRows8a ++ odRows9a ++ odRows9b ++
  odRowsAa ++ odRowsBa ++ odRowsBb ++ odRowsCa ++ odRowsCb ++ odRowsDa ++ odRowsEa

/-- Whether a listing holds the object. -/
def OdRow.has (r : OdRow) (index sub : Nat) : Bool :=
  r.base ≤ index && index < r.base + r.count * r.stride && (index - r.base) % r.stride == 0 && r.sub0 ≤ sub && sub ≤ r.sub1

/-- The listing of an object; `none` where the address names no object (R17). -/
def odFind (index sub : Nat) : Option OdRow := odTable.find? (fun r => r.has index sub)

/-- Whether a value lies in a range. -/
def OdRange.ok : OdRange → Nat → Bool
  | .any, _ => true
  | .between lo hi, v => lo ≤ v && v ≤ hi
  | .betweenOr lo hi x, v => (lo ≤ v && v ≤ hi) || v == x
  | .oneOf l, v => l.contains v
  | .pow2 lo hi, v => isPow2 v && lo ≤ v && v ≤ hi
  | .mult m lo hi, v => v % m == 0 && lo ≤ v && v ≤ hi
  | .wpos, v => Pos.ok (BitVec.ofNat 64 v)
  | .special, _ => true

end Sys2Proof.Machine
end

