-- ==== Sys2Proof/Machine/Ops.lean ====
section
/-! DEFINITION. The operations every meaning is built from: dictionary objects, memory of the partition ranges, free
values, what is sent, and repetition over a list. -/

namespace Sys2Proof.Machine

/-! ## Repetition -/

/-- Act on the state once for each element, in order. -/
def forEach {α : Type} (f : α → State → State) : List α → State → State
  | [], s => s
  | x :: xs, s => forEach f xs (f x s)

/-- Act on the state if a condition holds. -/
def onlyIf (b : Bool) (f : State → State) (s : State) : State := if b then f s else s

/-! ## Free values -/

/-- The next free value of width `w`; the counter advances with `drawn`. -/
def freeOf (w : Nat) (s : State) : BitVec w := Config.free w s.fresh

def drawn (s : State) : State := { s with fresh := s.fresh + 1 }

/-! ## What is sent -/

def send (x : Sent) (s : State) : State := { s with tx := s.tx ++ [x] }

/-! ## Dictionary objects (R17 to R21) -/

def odKey (index sub : Nat) : Nat := index * 256 + sub

/-- The default of the object with a key (R21); zero where no object has it. -/
def odDefault (key : Nat) : Nat :=
  match odFind (key / 256) (key % 256) with
  | some r => r.dflt
  | none => 0

/-- Every entry of a store has a rising key and differs from its object's default. -/
abbrev OdStore.wf (m : List (Nat × Nat)) : Prop :=
  m.Pairwise (fun a b => a.1 < b.1) ∧ ∀ e ∈ m, e.2 ≠ odDefault e.1

/-- Bind a key in a store, dropping an entry that equals the default. -/
def odBind (key v : Nat) (m : List (Nat × Nat)) : List (Nat × Nat) :=
  if v = odDefault key then eraseKey key m else insertKey key v m

def odLook (m : List (Nat × Nat)) (key : Nat) : Nat := lookupD m key (odDefault key)

/-- The value held for an object. -/
def od (s : State) (index sub : Nat) : Nat := odLook s.od (odKey index sub)

/-- Give the object with a key a value. -/
def odPut (key v : Nat) (s : State) : State := { s with od := odBind key v s.od }

def odSet (index sub v : Nat) (s : State) : State := odPut (odKey index sub) v s

/-- Return the objects whose keys `p` does not pick to their defaults. -/
def odKeep (p : Nat → Bool) (s : State) : State := { s with od := s.od.filter (fun e => p e.1) }

/-- Count `n` occurrences in an object of `bits` bits, wrapping. -/
def odAdd (index sub bits n : Nat) (s : State) : State := odSet index sub ((od s index sub + n) % 2 ^ bits) s

/-- Count one occurrence in a U64 object. -/
def bump64 (index sub : Nat) (s : State) : State := odAdd index sub 64 1 s

/-- Count one occurrence in a U32 object. -/
def bump32 (index sub : Nat) (s : State) : State := odAdd index sub 32 1 s

/-! ## Memory of the partition ranges (R43, R45, R295)

A cell is keyed by partition × 2^46 + offset (OD 0xE000+0x80p:09); a byte nothing has written reads as zero. -/

/-- Size of a partition range (R322). -/
def rangeBytes : Nat := 0x400000000000

/-- Canonical form: rising addresses, no cell of zero. -/
abbrev Memory.wf (m : List Host.Cell) : Prop := m.Pairwise (fun a b => a.1 < b.1) ∧ ∀ c ∈ m, c.2 ≠ 0

/-- What an unlisted address reads as: zero (R45, R295). -/
def memUnlisted : Byte := 0

def cellGet (m : List Host.Cell) (a : Nat) : Byte :=
  match m.find? (fun c => c.1 == a) with
  | some c => c.2
  | none => memUnlisted

def cellPut (a : Nat) (v : Byte) : List Host.Cell → List Host.Cell
  | [] => if v = memUnlisted then [] else [(a, v)]
  | c :: cs =>
    if a < c.1 then (if v = memUnlisted then c :: cs else (a, v) :: c :: cs)
    else if a = c.1 then (if v = memUnlisted then cs else (a, v) :: cs)
    else c :: cellPut a v cs

def cellsPut : Nat → Bytes → List Host.Cell → List Host.Cell
  | _, [], m => m
  | a, b :: bs, m => cellsPut (a + 1) bs (cellPut a b m)

def memAddr (p off : Nat) : Nat := p * rangeBytes + off

/-- One byte of partition `p`'s range. -/
def memByte (s : State) (p off : Nat) : Byte := cellGet s.mem (memAddr p off)

/-- Bytes `off` to `off + n - 1` of partition `p`'s range. -/
def memRead (s : State) (p off n : Nat) : Bytes := (List.range n).map (fun i => memByte s p (off + i))

/-- Write bytes into partition `p`'s range from `off` on. -/
def memWrite (p off : Nat) (bs : Bytes) (s : State) : State := { s with mem := cellsPut (memAddr p off) bs s.mem }

/-- Zero `n` bytes of partition `p`'s range from `off` on. -/
def memZero (p off n : Nat) (s : State) : State :=
  { s with mem := s.mem.filter (fun c => !(memAddr p off ≤ c.1 && c.1 < memAddr p off + n)) }

/-- Zero all of meadow; every granule is as the engines wrote it. -/
def memClear (s : State) : State := { s with mem := [], objs := { s.objs with altered := [] } }

/-! ## Roles and states -/

def owned (s : State) : Bool := s.sec.tenancy == .owned

/-- Whether the device serves: READY (R460). -/
def ready (s : State) : Bool := s.power.dev == .ready

/-- Area of a role's state. -/
def roleSt (r : Role) (s : State) : RoleState :=
  match r with
  | .operator => s.mgmt.op
  | .tenant => s.mgmt.ten

def setRole (r : Role) (f : RoleState → RoleState) (s : State) : State :=
  match r with
  | .operator => { s with mgmt := { s.mgmt with op := f s.mgmt.op } }
  | .tenant => { s with mgmt := { s.mgmt with ten := f s.mgmt.ten } }

/-- `last` (R82): the highest layer of the active plan, 255 with none. -/
def lastLayer (s : State) : Nat :=
  match s.wheel.active with
  | some p => p.plan.layers - 1
  | none => 255

end Sys2Proof.Machine
end

