-- ==== Sys2Proof/Machine/Egress.lean ====
section
/-! DEFINITION. Egress queues of an Isver port: tags, stamps and class masks (R413, R417). -/

namespace Sys2Proof.Machine

def portOf (s : State) (n : Nat) : Port := s.links.ports.getD n {}

def editPort (n : Nat) (f : Port → Port) (s : State) : State :=
  { s with links := { s.links with ports := s.links.ports.modify n f } }

/-- Tags compare by the sign of their two's-complement difference (R413). -/
def tagBefore (a b : Nat) : Bool := 2 ^ 63 ≤ modSub a b (2 ^ 64)

def tagMax (a b : Nat) : Nat := if tagBefore a b then b else a

/-- Packets of queue `q`, oldest first. -/
def pktsOf (p : Port) (q : Nat) : List QPkt :=
  match p.queues.find? (fun e => e.1 == q) with
  | some e => e.2
  | none => []

/-- Replace the packets of a queue; queues stand in rising order, empty ones are not listed. -/
def insertQ (q : Nat) (l : List QPkt) : List (Nat × List QPkt) → List (Nat × List QPkt)
  | [] => [(q, l)]
  | e :: es => if q < e.1 then (q, l) :: e :: es else if q = e.1 then (q, l) :: es else e :: insertQ q l es

def setPkts (q : Nat) (l : List QPkt) (p : Port) : Port :=
  { p with queues := if l.isEmpty then p.queues.filter (fun e => e.1 != q) else insertQ q l p.queues }

/-- Weight of queue `q`: OD 0x7110 on peer ports, OD 0x7111 on heath ports. -/
def weightOf (s : State) (n q : Nat) : Nat := od s (if n < 32 then 0x7110 else 0x7111) (q + 1)

/-- stamp(q) of R413, for weight `w`. -/
def stampQ (w q : Nat) (p : Port) : Port :=
  match pktsOf p q with
  | [] => p
  | k :: ks =>
    let start := tagMax p.v (lookupD p.lastFinish q 0)
    let k' : QPkt := { k with start := start, finish := (start + ceilDiv (k.len * 65536) (max 1 w)) % 2 ^ 64 }
    setPkts q (k' :: ks) p

/-- A packet enters queue `q` of port `n`. -/
def enqueue (n q : Nat) (k : QPkt) (s : State) : State :=
  let w := weightOf s n q
  editPort n (fun p =>
    let p' := setPkts q (pktsOf p q ++ [k]) p
    if (pktsOf p q).isEmpty then stampQ w q p' else p') s

/-- Set the mask of a port's open classes; queues whose class opens are stamped. -/
def setMask (n m : Nat) (s : State) : State :=
  let opened (p : Port) : List Nat :=
    (p.queues.map (fun e => e.1)).filter (fun q => bitOf m (q % 4) && !bitOf p.mask (q % 4))
  editPort n (fun p => (opened p).foldl (fun x q => stampQ (weightOf s n q) q x) { p with mask := m }) s

end Sys2Proof.Machine
end

