-- ==== Sys2Proof/Machine/Keys.lean ====
section
/-! DEFINITION. Keys and what is made under them: the derivations of chapter 13 (R385, R407, R424, R431, R444, R448, R453), nonces and
tweaks, and the stored form of a meadow granule (R450, R451), a lease's (R452) and a heath page (R453). -/

namespace Sys2Proof.Machine

/-! ## Texts and secrets -/

/-- The bytes of a secret, first byte first. -/
def secretBytes (v : BitVec 256) : Bytes := digestBytes v 32

/-- The bytes of an ASCII text. -/
def textBytes (t : String) : Bytes := t.toList.map (fun c => BitVec.ofNat 8 c.toNat)

/-! ## Derived keys -/

/-- SK.seed, SK.prf and PK.seed of the identity key pair (R424). -/
def identitySeed (root : BitVec 256) : Bytes := Config.hkdf (secretBytes root) [] (textBytes "TH2 identity") 48

/-- The device heath key: XTS pair, then tag key (R424). -/
def deviceHeathKey (root : BitVec 256) : Bytes := Config.hkdf (secretBytes root) [] (textBytes "TH2 heath device") 96

/-- The heath tenancy key (R453). -/
def heathTenancyKey (secret : BitVec 256) : Bytes := Config.hkdf (secretBytes secret) [] (textBytes "TH2 heath tenancy") 96

/-- The wrap key and the connect key of a set secret, with the set ID as salt (R444). -/
def wrapKey (secret : BitVec 256) (setId : Nat) : Bytes := Config.hkdf (secretBytes secret) (natLe 8 setId) (textBytes "TH2 weight wrap") 32
def connectKey (secret : BitVec 256) (setId : Nat) : Bytes :=
  Config.hkdf (secretBytes secret) (natLe 8 setId) (textBytes "TH2 peer connect") 32

/-- The key under which a device pair's CONNECT is tagged, of its port's link secret (R448). -/
def devicePairKey (link : BitVec 256) : Bytes := Config.hkdf (secretBytes link) [] (textBytes "TH2 device pair") 32

/-- The 72 bytes of an operator session: two keys, two nonce salts, operator to device first (R431). -/
def operatorKeys (secret messages : BitVec 256) : Bytes :=
  Config.hkdf (secretBytes secret) (secretBytes messages) (textBytes "TH2 operator") 72

/-- Key and salt of one direction of a link in an epoch (R407), from the unit identifiers of sender and receiver and the port kind;
the order of these in `info` is the model's (DESIGN CHOICE, log entry 133). -/
def linkKey (secret : BitVec 256) (sender receiver : BitVec 128) (heath : Bool) (epoch : Nat) : Bytes :=
  Config.hkdf (secretBytes secret) []
    (natLe 16 sender.toNat ++ natLe 16 receiver.toNat ++ natLe 1 (if heath then 1 else 0) ++ natLe 8 epoch) 36

/-- One end of a connection as the derivation of R385 takes it in. -/
def connEnd (node qp gen : Nat) : Bytes := natLe 2 node ++ natLe 2 qp ++ natLe 3 gen

/-- The key of one direction of a connection in an epoch (R385), sender's end first (DESIGN CHOICE, log entry 133). -/
def connKey (secret : BitVec 256) (sender receiver : Bytes) (epoch : Nat) : Bytes :=
  Config.hkdf (secretBytes secret) [] (sender ++ receiver ++ natLe 4 epoch) 32

/-- The key under which a pair sends, once its ends have agreed. -/
def sendKey (own : Nat) (q : Qp) : Option Bytes :=
  q.secret.map (fun x => connKey x (connEnd own q.num q.gen) (connEnd q.remoteNode q.remoteQp q.remoteGen) q.epoch)

/-- The key under which a pair receives: the other direction's. -/
def recvKey (own : Nat) (q : Qp) : Option Bytes :=
  q.secret.map (fun x => connKey x (connEnd q.remoteNode q.remoteQp q.remoteGen) (connEnd own q.num q.gen) q.rxEpoch)

/-! ## Peer packets -/

/-- A peer packet's header (R372). -/
def pktHdrBytes (k : Pkt) : Bytes :=
  recordOf [(1, k.version.toNat), (1, k.ptype.toNat), (1, k.flags.toNat), (1, k.hops.toNat), (2, k.dstNode.toNat), (2, k.srcNode.toNat),
    (2, k.dstQp.toNat), (2, k.srcQp.toNat), (3, k.psn.toNat), (1, k.epoch.toNat), (8, k.counter.toNat), (2, k.body.length),
    (1, k.sched.toNat), (5, 0)]

/-- The additional data of a packet, and what its handshake tag covers: the header with `hops` read as zero (R385, R448). -/
def packetAad (k : Pkt) : Bytes := pktHdrBytes { k with hops := 0 }

/-! ## Nonces -/

/-- The GCM nonce of a peer packet: generation, 8 low bits of the epoch, counter (R385). -/
def packetNonce (gen epoch counter : Nat) : Bytes := natLe 3 gen ++ natLe 1 epoch ++ natLe 8 counter

/-- A packet sealed under its connection's key: header, ciphertext and tag (R385). -/
def sealPacket (key : Bytes) (gen epoch : Nat) (k : Pkt) : Bytes :=
  pktHdrBytes k ++ Config.gcmSeal key (packetNonce gen epoch k.counter.toNat) (packetAad k) k.body

/-- A handshake packet: its body in clear and the first 16 bytes of its HMAC (R448). -/
def tagPacket (key : Bytes) (k : Pkt) : Bytes :=
  pktHdrBytes k ++ k.body ++ digestBytes (Config.hmac key (packetAad k ++ k.body)) 16

/-- The GCM nonce of a frame or a RECORD: the direction's salt, then the counter (R407, R431). -/
def saltNonce (salt : Bytes) (counter : Nat) : Bytes := salt ++ natLe 8 counter

/-! ## Operator RECORDs -/

/-- A dictionary message (R30). -/
def dictBytes (m : DictMsg) : Bytes :=
  recordOf [(1, m.op.toNat), (1, m.flags.toNat), (2, m.index.toNat), (1, m.sub.toNat), (1, m.typ.toNat), (2, m.length.toNat),
    (4, m.tag.toNat), (1, m.status.toNat), (1, 0), (2, m.block.toNat)] ++ m.value

/-- RECORDs the device has sent in an operator session: the counter of the next one, so that its counters strictly increase (R431); that
they start at 0 and rise by one is the model's (DESIGN CHOICE, log entry 134). -/
def recordCtr (sid : U32) (s : State) : Nat :=
  (s.tx.filter (fun x => match x with
    | .dict (.session n) _ _ => n == sid
    | .notify n _ _ _ => n == sid
    | _ => false)).length

/-- A RECORD of the device (R428, R431): type, session and counter, then the message sealed under the device-to-operator key, its nonce
that direction's salt and the counter. -/
def sealRecord (keys : Bytes) (sid : U32) (ctr : Nat) (m : DictMsg) : Bytes :=
  let header := recordOf [(1, 0x05), (3, 0), (4, sid.toNat), (8, ctr)]
  header ++ Config.gcmSeal ((keys.drop 32).take 32) (saltNonce (keys.drop 68) ctr) header (dictBytes m)

/-! ## Meadow granules (R450, R451) -/

/-- The XTS pair and the tag key of 96 bytes of key material. -/
def xtsPair (k : BitVec 768) : BitVec 512 := k.setWidth 512
def tagKey (k : BitVec 768) : BitVec 256 := (k >>> 512).setWidth 256

/-- The tag of stored bytes `c` at address `a`: the first 8 bytes of AES under Kt of GHASH(c) XOR a. -/
def granuleTag (k : BitVec 768) (a : Nat) (c : Bytes) : Bytes :=
  let h := Config.aes (tagKey k) 0
  natLe 8 (Config.aes (tagKey k) (Config.ghash h c ^^^ BitVec.ofNat 128 a)).toNat

/-- What a write stores for a granule. -/
def sealGranule (k : BitVec 768) (a : Nat) (plain : Bytes) : Granule :=
  let c := Config.xtsEnc (xtsPair k) (BitVec.ofNat 128 (a / 256)) plain
  { cipher := c, tag := granuleTag k a c }

/-- What a read makes of a stored granule: `none` where its tag does not match. Altered bytes and another granule's are found so;
what was once stored at this address under these keys passes. -/
def openGranule (k : BitVec 768) (a : Nat) (g : Granule) : Option Bytes :=
  if g.tag = granuleTag k a g.cipher then some (Config.xtsDec (xtsPair k) (BitVec.ofNat 128 (a / 256)) g.cipher) else none

/-- The address under which a borrower protects a byte of a lease (R452). -/
def leaseAddr (lease off : Nat) : Nat := lease * 2 ^ 112 + off

/-- Data bytes of a lease: its last 1/32 holds the borrower's tags (R452). -/
def leaseData (bytes : Nat) : Nat := 31 * bytes / 32

/-! ## Heath pages (R453) -/

/-- The XTS tweak of a page's data. -/
def pageTweak (unit seq : Nat) : BitVec 128 := BitVec.ofNat 128 (unit % 2 ^ 64 + seq % 2 ^ 64 * 2 ^ 64)

/-- A page header's tag over its bytes 0 to 23 and the stored data bytes. -/
def pageTag (key header data : Bytes) : Bytes := digestBytes (Config.hmac key (header.take 24 ++ data)) 8

end Sys2Proof.Machine
end

