-- ==== Sys2Proof/Machine/Operands.lean ====
section
/-! DEFINITION. Operand forms: the fields of command descriptors (R52, R141, R144, R146, R296), model records (R204,
R205), page and column sizes (R122 to R125, R129), and the reserved bytes that each command writes as zero. -/

namespace Sys2Proof.Machine

/-! ## Descriptor header (R52) -/

def dOpcode (d : Desc) : Nat := dfield d 0 1
def dFlags (d : Desc) : Nat := dfield d 1 1
def dPart (d : Desc) : Nat := dfield d 2 1
def dTag (d : Desc) : Nat := dfield d 4 4

/-- Sequence named at bytes 8 to 10 (R141, R144, R146). -/
def dSeq (d : Desc) : Nat := dfield d 8 3

/-- Object named at bytes 8 to 11 (R296). -/
def dObj (d : Desc) : Nat := dfield d 8 4

/-- `at`, bytes 56 to 63 of column commands and KV_APPEND (R144, R146). -/
def dAt (d : Desc) : WPos := BitVec.ofNat 64 (dfield d 56 8)

/-- Whether every byte of the given spans (offset, count) is zero. -/
def zeroSpans (d : Desc) (l : List (Nat × Nat)) : Bool := l.all (fun x => dfield d x.1 x.2 == 0)

/-- Byte spans that each command writes as zero: its reserved bytes and the bytes it does not name (R52, R58, R141,
R144, R146, R296 and the tables of the other commands). -/
def reservedSpans (op : Nat) : List (Nat × Nat) :=
  match op with
  | 0x01 => [(9, 3), (32, 32)]
  | 0x02 => [(11, 53)]
  | 0x03 => [(11, 1), (32, 32)]
  | 0x04 => [(11, 1), (16, 48)]
  | 0x10 => [(36, 20)]
  | 0x11 => [(11, 1), (20, 36)]
  | 0x12 => [(11, 1), (22, 34)]
  | 0x13 => [(11, 1), (20, 36)]
  | 0x14 => [(11, 1), (20, 36)]
  | 0x15 => [(11, 1), (20, 36)]
  | 0x20 => [(28, 36)]
  | 0x21 => [(11, 1), (20, 4), (40, 24)]
  | 0x22 => [(40, 24)]
  | 0x30 => [(10, 2), (36, 28)]
  | 0x31 => [(13, 3), (40, 24)]
  | 0x32 => [(13, 3), (34, 2), (40, 24)]
  | 0x33 => [(15, 1), (32, 32)]
  | 0x34 => [(13, 3), (22, 2), (28, 36)]
  | 0x42 => [(12, 4), (21, 3), (40, 24)]
  | 0x50 => [(12, 4), (34, 2), (52, 4)]
  | 0x51 => [(9, 3), (24, 40)]
  | 0x52 => [(14, 2), (35, 1), (52, 4)]
  | 0x60 => [(12, 4), (24, 40)]
  | 0x61 => [(8, 56)]
  | _ => []

/-- Header flag bits that each command defines (R52, R144, R268, R272, R284). -/
def flagBits (op : Nat) : Nat :=
  match op with
  | 0x11 => 1
  | 0x12 => 1
  | 0x13 => 1
  | 0x14 => 1
  | 0x15 => 1
  | 0x20 => 1
  | 0x21 => 7
  | 0x22 => 1
  | _ => 0

/-- Whether a header is well formed for its queue (R52): reserved byte 3 zero, no undefined flag, the partition byte
0xFF on a partition queue and 0 to 31 on the admin queue, and the command's reserved bytes zero. ATTN and ATTN_BWD
judge their own reserved bits, in the order of R170. -/
def headerOk (q : QRef) (d : Desc) : Bool :=
  dfield d 3 1 == 0 &&
  (match q with
    | .part _ _ => dPart d == 0xFF
    | .admin => dPart d < 32) &&
  (dOpcode d == 0x40 || dOpcode d == 0x41 || dFlags d &&& (255 - flagBits (dOpcode d)) == 0) &&
  zeroSpans d (reservedSpans (dOpcode d))

/-- Commands that carry `at` in bytes 56 to 63 (R144, R146). -/
def hasAt (op : Nat) : Bool := 0x10 ≤ op && op ≤ 0x15

/-! ## Model records (R204, R205) -/

/-- A layer group of a model record (R205). -/
structure MGroup where
  idx : Nat
  first : Nat
  final : Nat
  kind : Nat
  format : Nat
  h : Nat
  d : Nat
  dc : Nat
  dr : Nat
  window : Nat
  deriving DecidableEq, Repr, Inhabited

def modelIx (m : Nat) : Nat := 0x3100 + m
def modelTag (s : State) (m : Nat) : Nat := od s (modelIx m) 0x01
def modelLayers (s : State) (m : Nat) : Nat := od s (modelIx m) 0x02
def modelHq (s : State) (m : Nat) : Nat := od s (modelIx m) 0x03

/-- Entry `i` of a record's layer group list, a 256-byte number. -/
def groupEntry (v i : Nat) : Nat := v / 2 ^ (128 * i) % 2 ^ 128

def decodeGroup (i e : Nat) : MGroup :=
  { idx := i, first := bitsOf e 7 0, final := bitsOf e 15 8, kind := bitsOf e 23 16, format := bitsOf e 31 24,
    h := bitsOf e 39 32, d := bitsOf e 63 48, dc := bitsOf e 79 64, dr := bitsOf e 87 80, window := bitsOf e 127 96 }

/-- The groups of a 256-byte group list: the entries before the first zero one (R205). -/
def groupsOf (v : Nat) : List MGroup :=
  ((List.range 16).takeWhile (fun i => groupEntry v i != 0)).map (fun i => decodeGroup i (groupEntry v i))

def modelGroups (s : State) (m : Nat) : List MGroup := groupsOf (od s (modelIx m) 0x04)

/-- The group that holds a layer. -/
def layerGroup (s : State) (m layer : Nat) : Option MGroup :=
  (modelGroups s m).find? (fun g => g.first ≤ layer && layer ≤ g.final)

/-- The FP8 scales of a layer as F32 bits: keys, values (R204:05). -/
def keyScale (s : State) (m layer : Nat) : BitVec 32 := BitVec.ofNat 32 (od s (modelIx m) 0x05 / 2 ^ (64 * layer))
def valScale (s : State) (m layer : Nat) : BitVec 32 := BitVec.ofNat 32 (od s (modelIx m) 0x05 / 2 ^ (64 * layer + 32))

/-- The defined record with a model tag (R206: at most one). -/
def modelByTag (s : State) (tag : Nat) : Option Nat :=
  (List.range 16).find? (fun m => modelLayers s m != 0 && modelTag s m == tag)

/-! ## Storage formats and sizes (R122 to R125, R129) -/

def formatOk (f : Nat) : Bool := 1 ≤ f && f ≤ 5

/-- Bits per element (R122). -/
def formatBits (f : Nat) : Nat :=
  match f with
  | 1 => 16
  | 2 => 8
  | 3 => 8
  | 4 => 6
  | 5 => 4
  | _ => 0

def formatMx (f : Nat) : Bool := 3 ≤ f && f ≤ 5

/-- Elements of the first region of a token's record: keys, or the latent (R123, R129). -/
def elemsA (g : MGroup) : Nat := if g.kind = 2 || g.kind = 3 then g.dc else g.h * g.d

/-- Elements of the second region: values, or the rotary part. -/
def elemsB (g : MGroup) : Nat := if g.kind = 2 || g.kind = 3 then g.dr else g.h * g.d

/-- Page bytes (R124, R129). -/
def pageBytes (g : MGroup) : Nat :=
  16 * (elemsA g + elemsB g) * formatBits g.format / 8 +
    (if formatMx g.format then 16 * ((elemsA g + elemsB g) / 32) else 0)

/-- Whether a group's pages lie in coils (R130). -/
def isWindow (g : MGroup) : Bool := g.kind == 1

/-- Layers whose pages lie in columns, with their page sizes, in layer order (R125). -/
def columnPages (s : State) (m : Nat) : List (Nat × Nat) :=
  (List.range (modelLayers s m)).filterMap (fun l =>
    match layerGroup s m l with
    | some g => if isWindow g then none else some (l, pageBytes g)
    | none => none)

/-- 4 KiB units of a column of the model (R125). -/
def columnUnits (s : State) (m : Nat) : Nat := ceilDiv (sumBy (fun x => x.2) (columnPages s m)) 4096

/-- Where a layer's page starts in a column (R125). -/
def pageStart (s : State) (m layer : Nat) : Nat := sumBy (fun x => if x.1 < layer then x.2 else 0) (columnPages s m)

/-- Slots of a window group's coil (R130). -/
def coilRing (g : MGroup) : Nat := ceilDiv g.window 16 + 1

/-- Bytes of a window group's coil (R132). -/
def coilBytes (g : MGroup) : Nat := coilRing g * (g.final + 1 - g.first) * pageBytes g

/-- Where the page of a layer lies in a coil (R130, R132): page `p` in slot p mod R, a slot being one page of every layer. -/
def coilPageStart (g : MGroup) (layer p : Nat) : Nat :=
  (p % coilRing g * (g.final + 1 - g.first) + (layer - g.first)) * pageBytes g

def windowGroups (s : State) (m : Nat) : List MGroup := (modelGroups s m).filter isWindow

/-- 4 KiB units of all coils of a sequence of the model. -/
def coilUnits (s : State) (m : Nat) : Nat := sumBy (fun g => ceilDiv (coilBytes g) 4096) (windowGroups s m)

/-- 4 KiB units of the list blocks of a list of `n` columns: the root and one block for each 1,024 (R136). -/
def listUnits (n : Nat) : Nat := if n = 0 then 0 else 1 + ceilDiv n 1024

/-! ## The layout of a page (R123, R129) -/

/-- Codes of `b` bits each as a little-endian bit stream: element `i` in bits b·i to b·i + b − 1. -/
def packCodes (b : Nat) (cs : List Nat) : Bytes := natLe (cs.length * b / 8) (cs.foldr (fun c acc => c + 2 ^ b * acc) 0)

/-- Per-token lists of `heads` × `n` elements in page order: head, then row, then element. -/
def pageOrder (heads n : Nat) (rows : List (List Nat)) : List Nat :=
  (List.range heads).flatMap (fun h => rows.flatMap (fun r => (List.range n).map (fun j => nth r (h * n + j))))

/-- Heads of an element region, and elements of one head: a latent group's regions have one. -/
def regionHeads (g : MGroup) : Nat := if g.kind = 2 || g.kind = 3 then 1 else g.h

/-- The bytes of a page of 16 tokens: first elements, second elements, then their scales in MX formats. An unwritten row, which
no job sees, stands as zeros. -/
def pageImage (g : MGroup) (rows : List TokRec) : Bytes :=
  let k := regionHeads g
  let na := elemsA g / k
  let nb := elemsB g / k
  let scales (n : Nat) (f : TokRec → List Nat) : Bytes :=
    if formatMx g.format then packCodes 8 (pageOrder k (n / 32) (rows.map f)) else []
  packCodes (formatBits g.format) (pageOrder k na (rows.map (fun r => r.a))) ++
    packCodes (formatBits g.format) (pageOrder k nb (rows.map (fun r => r.b))) ++
    scales na (fun r => r.sa) ++ scales nb (fun r => r.sb)

/-- The page of a layer that rows of a column hold. -/
def columnPage (g : MGroup) (layer : Nat) (rows : List KvRow) : Bytes :=
  pageImage g ((List.range 16).map (fun r =>
    ((rows.find? (fun x => x.layer == layer && x.row == r)).map (fun x => x.tok)).getD { a := [], b := [], sa := [], sb := [] }))

/-- The bytes of a column at its home: its pages in layer order, padded to 4 KiB (R125). -/
def columnImage (s : State) (m : Nat) (rows : List KvRow) : Bytes :=
  let bs := (columnPages s m).flatMap (fun x => (layerGroup s m x.1).elim [] (fun g => columnPage g x.1 rows))
  bs ++ List.replicate (4096 * columnUnits s m - bs.length) 0

/-! ## Structures in the tiers (R121, R132, R136) -/

/-- Address of a place in the form of R121. -/
def structAddr (l : Loc) : Nat :=
  l.tier.code * 2 ^ 62 + (if l.tier == .heath then l.unit * 2 ^ 46 else 0) + l.addr * 4096

/-- The words of a sequence's root block: 512 block addresses, unused ones zero. -/
def rootWords (q : Seq) : List Nat := (List.range 512).map (fun i => (q.blocks[i]?).elim 0 structAddr)

/-- The entries of list block `b`: 1,024 column IDs, those beyond the column count zero. -/
def blockWords (ids : List Nat) (b : Nat) : List Nat := (List.range 1024).map (fun i => nth ids (1024 * b + i))

/-- The coil directory of a sequence: base, ring and newest page for each layer group. -/
def coilDirectory (q : Seq) : List (Nat × Nat × Nat) :=
  (List.range 16).map (fun g =>
    match q.coils.find? (fun c => c.group == g) with
    | some c => (structAddr c.loc, c.ring, c.newest.getD 0xFFFFFFFF)
    | none => (0, 0, 0))

/-! ## Identifiers -/

/-- A column ID: generation and slot (R137). -/
def colId (c : Col) : Nat := c.gen * 2 ^ 28 + c.slot

def findSeq (s : State) (id : Nat) : Option Seq := s.kv.seqs.find? (fun q => q.id == id)

def findCol (s : State) (slot : Nat) : Option Col := s.kv.cols.find? (fun c => c.slot == slot)

/-- The column that an ID names (R137). -/
def colById (s : State) (id : Nat) : Option Col :=
  match findCol s (id % 2 ^ 28) with
  | some c => if c.gen = id / 2 ^ 28 % 8 && id < 2 ^ 31 then some c else none
  | none => none

def findObj (s : State) (id : Nat) : Option Obj := s.objs.objs.find? (fun o => o.id == id)

/-- The object that holds the whole span of a partition's range. -/
def objAt (s : State) (p off n : Nat) : Option Obj :=
  s.objs.objs.find? (fun o => o.part == p && o.off ≤ off && off + n ≤ o.off + o.size)

def setSeq (q : Seq) (s : State) : State :=
  { s with kv := { s.kv with seqs := s.kv.seqs.map (fun x => if x.id == q.id then q else x) } }

def setCol (c : Col) (s : State) : State :=
  { s with kv := { s.kv with cols := s.kv.cols.map (fun x => if x.slot == c.slot then c else x) } }

def setObj (o : Obj) (s : State) : State :=
  { s with objs := { s.objs with objs := s.objs.objs.map (fun x => if x.id == o.id then o else x) } }

/-- The columns of a sequence, in list order. -/
def seqCols (s : State) (q : Seq) : List Col := q.cols.filterMap (findCol s)

/-- The layers that a column's rows cover: whether every column layer of the model holds rows 0 to `n` - 1. -/
def rowsWritten (s : State) (c : Col) (n : Nat) : Bool :=
  (columnPages s c.model).all (fun x => (List.range n).all (fun r => c.rows.any (fun k => k.layer == x.1 && k.row == r)))

/-! ## Policies (R298) -/

/-- The policy fields that govern an item: those of the record, or the partition default (OD 0xE000+0x80p). -/
def policyOf (s : State) (p id : Nat) : Policy :=
  let ix := 0xE000 + 0x80 * p
  let dflt : Policy := { part := p, id := 0, stackMask := od s ix 0x06, spill := od s ix 0x07, opts := od s ix 0x08 }
  if id = 0 then dflt else (s.objs.policies.find? (fun x => x.part == p && x.id == id)).getD dflt

def policyDefined (s : State) (p id : Nat) : Bool := id == 0 || s.objs.policies.any (fun x => x.part == p && x.id == id)

end Sys2Proof.Machine
end

