-- ==== Sys2Proof/Machine/HostOut.lean ====
section
/-! DEFINITION. What the device sends to the host: TPP messages under credits (R64 to R71), MSI-X (R62, R63), events
(R56, R57) and completions (R53 to R55), and the counts that waits are made on (R58, R371). -/

namespace Sys2Proof.Machine

/-! ## Modules and messages -/

/-- Size n of the CXL group: modules 0 to n - 1 (R38). -/
def cxlSize (s : State) : Nat := od s 0x1200 0x01

/-- Whether a module carries its group's traffic: in service, and not retraining for another group (R39). -/
def moduleServes (s : State) (m : Nat) : Bool := s.host.modules.getLsbD m && !s.host.retraining.getLsbD m

def streamModules (s : State) : List Nat := (List.range 48).filter (fun m => cxlSize s ≤ m && moduleServes s m)

def cxlModules (s : State) : List Nat := (List.range 48).filter (fun m => m < cxlSize s && moduleServes s m)

/-- Whether the CXL link retrains after a change of the group split (R39): until every module that changed group has joined its
new one, at most 100 µs (DESIGN CHOICE, log entry 109). -/
def cxlRetrains (s : State) : Bool := s.host.retraining != 0 && s.host.cxlSince.any (fun t => s.now < t + 100000)

/-- Whether CXL.io and CXL.mem reach the device: READY, and a module of the CXL group in service (R39, R79). -/
def cxlServes (s : State) : Bool := ready s && !(cxlModules s).isEmpty && !cxlRetrains s

/-- Credit units of a message: one for its header and one for each started 256 bytes of payload (R67). -/
def creditUnits (len : Nat) : Nat := 1 + ceilDiv len 256

/-- Messages of a class sent and not acknowledged (R68). -/
def outstanding (cls : Nat) (l : List TxMsg) : Nat := (l.filter (fun m => m.cls == cls && m.sent)).length

/-- Send the unsent messages of a class in order while credits last and fewer than 16,384 are unacknowledged (R67,
R68); the first that must wait holds those behind it. Answers the list and the credits left. -/
def pumpClass (cls : Nat) (mods : List Nat) : Nat → Nat → Bool → List TxMsg → List TxMsg × Nat
  | cred, _, _, [] => ([], cred)
  | cred, out, held, m :: ms =>
    if m.cls == cls && !m.sent then
      if !held && creditUnits m.len ≤ cred && out < 16384 then
        let md := mods.getD (Config.moduleFor cls m.seq.toNat % mods.length) 0
        let r := pumpClass cls mods (cred - creditUnits m.len) (out + 1) false ms
        ({ m with sent := true, module := md } :: r.1, r.2)
      else
        let r := pumpClass cls mods cred out true ms
        (m :: r.1, r.2)
    else
      let r := pumpClass cls mods cred out held ms
      (m :: r.1, r.2)

/-- Send what credits allow, class 2 before class 3 (R71), while a streaming module is in service (R78). -/
def pumpTx (s : State) : State :=
  match streamModules s with
  | [] => s
  | m :: ms =>
    let a := pumpClass 2 (m :: ms) s.host.cred2 (outstanding 2 s.host.unacked) false s.host.unacked
    let b := pumpClass 3 (m :: ms) s.host.cred3 (outstanding 3 a.1) false a.1
    { s with host := { s.host with unacked := b.1, cred2 := a.2, cred3 := b.2 } }

/-- Messages sent on a module that no longer serves the streaming group and not acknowledged are sent again on the group's
others (R39, R77). -/
def resendLost (s : State) : State :=
  match streamModules s with
  | [] => s
  | md :: mds =>
    { s with host := { s.host with unacked := s.host.unacked.map (fun x =>
        if x.sent && !(md :: mds).contains x.module then
          { x with module := (md :: mds).getD (Config.moduleFor x.cls x.seq.toNat % (mds.length + 1)) md }
        else x) } }

/-- Queue a class 2 message, the first or last fragment of its item or neither, and send what can be sent. Its header's
`wpos` is the position at which it is made (R64; DESIGN CHOICE, log entry 110). -/
def sendFrag2 (first final : Bool) (len : Nat) (body : HostMsg) (vector : Option Nat) (s : State) : State :=
  pumpTx { s with host := { s.host with
    tx2 := s.host.tx2 + 1
    unacked := s.host.unacked ++
      [{ cls := 2, seq := s.host.tx2, wpos := s.wheel.cur, first := first, final := final, sent := false, module := 0, len := len,
         body := body, vector := vector }] } }

/-- Queue a class 2 message that is whole. -/
def sendClass2 (len : Nat) (body : HostMsg) (vector : Option Nat) (s : State) : State :=
  sendFrag2 true true len body vector s

/-- Queue a class 3 message, the first or last fragment of its item or neither, and send what can be sent. -/
def sendFrag3 (first final : Bool) (len : Nat) (body : HostMsg) (s : State) : State :=
  pumpTx { s with host := { s.host with
    tx3 := s.host.tx3 + 1
    unacked := s.host.unacked ++
      [{ cls := 3, seq := s.host.tx3, wpos := s.wheel.cur, first := first, final := final, sent := false, module := 0, len := len,
         body := body, vector := none }] } }

/-- Bytes of device-to-host messages held unsent (R78). Messages sent on lost modules and not acknowledged do not count, and
those that released jobs make beyond 64 MiB are held too (DESIGN CHOICE, log entry 111). -/
def heldBytes (s : State) : Nat := sumBy (fun m => if m.sent then 0 else 32 + m.len) s.host.unacked

/-- Send the message of an MSI-X vector, or set its pending bit where its entry is masked (R62). -/
def fireVector (v : Nat) (s : State) : State :=
  if (s.host.msix.getD v {}).masked then
    { s with host := { s.host with msixPending := if s.host.msixPending.contains v then s.host.msixPending else s.host.msixPending ++ [v] } }
  else send (.msix v) s

/-- Whether interrupts can be sent: a CXL module is in service and the link does not retrain (R39, R79). -/
def cxlLinkUp (s : State) : Bool := !(cxlModules s).isEmpty && !cxlRetrains s

/-- MSI-X messages that wait for the CXL link go out when it is back (R79). -/
def flushVectors (s : State) : State :=
  if cxlLinkUp s then forEach fireVector s.host.vectorsHeld { s with host := { s.host with vectorsHeld := [] } } else s

/-- Send an MSI-X message, or keep it until the CXL link serves (R79). -/
def sendVector (v : Nat) (s : State) : State :=
  flushVectors { s with host := { s.host with vectorsHeld := s.host.vectorsHeld ++ [v] } }

/-- A doorbell of BAR0 has been written: it reads back that value (R48). -/
def rang (off v : Nat) (s : State) : State :=
  if cxlServes s then { s with host := { s.host with doorbells := insertKey off v s.host.doorbells } } else s

/-- What a doorbell reads back: zero where nothing has been written (log entry 5). -/
def bellValue (s : State) (off : Nat) : Nat := ((s.host.doorbells.find? (fun e => e.1 == off)).map (fun e => e.2)).getD 0

/-- BAR0 offsets of the doorbells (R48). -/
def tailBell : QRef → Nat
  | .part p j => 0x40 * p + 4 * j
  | .admin => 0x800
def headBell : QRef → Nat
  | .part p j => 0x40 * p + 0x10 + 4 * j
  | .admin => 0x804
def eventBell (r : Nat) : Nat := if r < 32 then 0x40 * r + 0x20 else 0x808
def peerBell (p : Nat) : Nat := 0x2000 + 4 * p

/-- A registered receive window. -/
def findWindow (id : Nat) (s : State) : Option Window := s.host.windows.find? (fun w => w.id == id)

/-- Whether `n` bytes at `off` lie inside a registered window of the class (R66). -/
def windowHolds (id cls off n : Nat) (s : State) : Bool :=
  match findWindow id s with
  | some w => w.cls == cls && off + n ≤ w.bytes
  | none => false

/-! ## Events (R56, R57) -/

/-- Event ring of a partition, or the admin ring: 32. -/
def evIndex (part : Option Nat) : Nat := part.getD 32

def evWindow (s : State) (r : Nat) : Nat := if r < 32 then od s (0x1300 + r) 0x09 else od s 0x1320 0x09

/-- Ring size (R60); the admin event ring is taken to have the fixed size of the admin record, 256 (log entry 11). -/
def evSize (s : State) (r : Nat) : Nat := if r < 32 then od s (0x1300 + r) 0x0A else 256

/-- Vectors of R62. -/
def evVector (r : Nat) : Nat := if r < 32 then 8 * r + 4 else 257

def evRing (s : State) (r : Nat) : EvRing := s.queues.evs.getD r {}

def setEvRing (r : Nat) (e : EvRing) (s : State) : State :=
  { s with queues := { s.queues with evs := s.queues.evs.set r e } }

/-- Whether the ring has a window that holds its next slot, and that slot is free. -/
def evRoom (s : State) (r : Nat) : Bool :=
  evWindow s r != 0xFFFF && (evRing s r).written - (evRing s r).head < evSize s r &&
  windowHolds (evWindow s r) 2 (32 * ((evRing s r).written % evSize s r)) 32 s

/-- Write an event into its ring's next slot: offset 32 × (i mod size), phase 1 on the first pass (R53, R55). The first event
written after a loss carries `overflow` (R57). -/
def writeEvent (r : Nat) (e : Event) (s : State) : State :=
  let g := evRing s r
  let i := g.written
  sendClass2 32
    (.event (evWindow s r) (32 * (i % evSize s r)) e.partition
      { e with overflow := g.overflow, phase := i / evSize s r % 2 == 0 })
    (some (evVector r)) (setEvRing r { g with written := i + 1, overflow := false } s)

/-- Write an event, hold it (at most 256), or discard and count it (R57). -/
def pushEvent (r : Nat) (e : Event) (s : State) : State :=
  let g := evRing s r
  if evRoom s r && g.held.isEmpty then writeEvent r e s
  else if g.held.length < 256 then setEvRing r { g with held := g.held ++ [e] } s
  else setEvRing r { g with lost := g.lost + 1, overflow := true } s

/-- Write held events while the ring has room. -/
def flushEvents (r : Nat) : Nat → State → State
  | 0, s => s
  | n + 1, s =>
    match (evRing s r).held with
    | [] => s
    | e :: es =>
      if evRoom s r then flushEvents r n (writeEvent r e (setEvRing r { evRing s r with held := es } s)) else s

/-- Raise an event on a partition's ring, or on the admin ring. -/
def event (st : Status) (part : Option Nat) (fault unit detail : Nat) (s : State) : State :=
  pushEvent (evIndex part)
    { timeNs := s.now, wpos := s.wheel.cur, status := st, partition := part.getD 255, fault := fault, unit := unit,
      detail := detail } s

/-! ## Completions (R53 to R55) -/

/-- Place of a command queue in `Queues.qs`. -/
def qIdx : QRef → Nat
  | .part p q => p * 4 + q
  | .admin => 128

def queueOf (s : State) (q : QRef) : Queue := s.queues.qs.getD (qIdx q) {}

def setQueue (q : QRef) (k : Queue) (s : State) : State :=
  { s with queues := { s.queues with qs := s.queues.qs.set (qIdx q) k } }

/-- Ring size (R60): the admin ring has 256 entries. -/
def ringSize (s : State) : QRef → Nat
  | .part p q => od s (0x1300 + p) (0x01 + q)
  | .admin => 256

def compWindow (s : State) : QRef → Nat
  | .part p q => od s (0x1300 + p) (0x05 + q)
  | .admin => od s 0x1320 0x05

def compVector : QRef → Nat
  | .part p q => 8 * p + q
  | .admin => 256

/-- The `queue` field of a completion record (R54). -/
def queueField : QRef → Nat
  | .part _ q => q
  | .admin => 0xFF

/-- The partition on whose event ring a queue's conditions are raised: none for the admin queue. -/
def queueOwner : QRef → Option Nat
  | .part p _ => some p
  | .admin => none

/-- The `partition` byte of a queue's messages. -/
def queuePart : QRef → Nat
  | .part p _ => p
  | .admin => 0xFF

/-- A message to a window is made only where its bytes lie inside it; otherwise it is discarded and counted, and
ST_BAD_DESCRIPTOR is raised (R66). -/
def sendInside (w cls off n : Nat) (part : Option Nat) (f : State → State) (s : State) : State :=
  if windowHolds w cls off n s then f s
  else event .badDescriptor part 0 0 w { s with host := { s.host with discarded := s.host.discarded + 1 } }

/-- Write a queue's next completion record and count it. A queue without a window only counts. -/
def writeCompletion (q : QRef) (desc : Desc) (st : Status) (result : Nat) (s : State) : State :=
  let k := queueOf s q
  let n := ringSize s q
  let r : Completion :=
    { tag := BitVec.ofNat 32 (dfield desc 4 4), opcode := dfield desc 0 1, status := st, queue := queueField q,
      phase := k.completed / n % 2 == 0, wpos := s.wheel.cur, result := result }
  let s' := setQueue q { k with completed := k.completed + 1 } s
  if compWindow s q == 0xFFFF then s'
  else
    sendInside (compWindow s q) 2 (32 * (k.completed % n)) 32 (queueOwner q)
      (sendClass2 32 (.completion (compWindow s q) (32 * (k.completed % n)) (queuePart q) r) (some (compVector q))) s'

/-! ## Queue pairs' completions (R369 to R371) -/

def findQp (s : State) (n : Nat) : Option Qp := s.peer.qps.find? (fun q => q.num == n)

def setQp (q : Qp) (s : State) : State :=
  let qps' :=
    if s.peer.qps.any (fun x => x.num == q.num) then s.peer.qps.map (fun x => if x.num == q.num then q else x)
    else s.peer.qps ++ [q]
  { s with peer := { s.peer with qps := qps' } }

/-- The 64 bytes of a lease control message (R315). -/
def leaseBytes (kind : Nat) (m : LeaseMsg) : Bytes :=
  natLe 2 kind ++ natLe 2 m.lease.toNat ++ natLe 4 m.notice.toNat ++ natLe 8 m.bytes.toNat ++ natLe 16 m.lender.toNat ++
    natLe 16 m.borrower.toNat ++ natLe 16 m.base.toNat

/-- Send a lease control message on the control pair of a peer port (R316, R389): it waits there for the pair to send it. -/
def sendLease (port kind : Nat) (m : LeaseMsg) (s : State) : State :=
  send (.lease port kind m) { s with peer := { s.peer with leaseOut := s.peer.leaseOut ++ [(port, leaseBytes kind m)] } }

/-- Write the record of a completed work request (R369), and its event where `notify` asks for one. -/
def writeWrCompletion (q : Qp) (w : Wr) (s : State) : State :=
  let r : Completion :=
    { tag := BitVec.ofNat 32 (dfield w.desc 4 4), opcode := dfield w.desc 0 1, status := w.status, queue := 0xFF,
      phase := q.written / q.ring % 2 == 0, wpos := s.wheel.cur, result := q.num + w.moved * 2 ^ 32 }
  let s' := sendInside q.cqWindow 2 (32 * (q.written % q.ring)) 32 (some q.part)
    (sendClass2 32 (.completion q.cqWindow (32 * (q.written % q.ring)) q.part r) (some (8 * q.part + 5))) s
  onlyIf (bitOf (dfield w.desc 1 1) 0)
    (event .ok (some q.part) 0 0 (q.num * 2 ^ 48 + dfield w.desc 4 4)) s'

/-- Write the records of the work requests at the front of the started ones that have completed (R370). -/
def flushWrs (n : Nat) : Nat → State → State
  | 0, s => s
  | k + 1, s =>
    match findQp s n with
    | none => s
    | some q =>
      match q.started with
      | [] => s
      | w :: ws =>
        if w.done then
          flushWrs n k (setQp { q with started := ws, written := q.written + 1, count := q.count + 1 }
            (writeWrCompletion q w s))
        else s

/-! ## Waits on counts (R58, R59, R36) -/

/-- A completion count, `none` where the target does not exist or, where `own`, lies outside the partition (R58); device pairs are
no target, since the device alone uses them (R362). -/
def countOf (s : State) (own : Bool) (part kind queue qp : Nat) : Option Nat :=
  if kind = 0 then (if queue < 4 then some (queueOf s (.part part queue)).completed else none)
  else if kind = 1 && 64 ≤ qp then
    match findQp s qp with
    | some q => if (!own || q.part == part) && q.state != .free then some q.count else none
    | none => none
  else none

def countReached (s : State) (own : Bool) (part kind queue qp value : Nat) : Bool :=
  match countOf s own part kind queue qp with
  | some c => value ≤ c
  | none => false

/-- Whether a queue belongs to a partition, so that its waits name that partition's counts only (R58). -/
def ownQueue : QRef → Bool
  | .part _ _ => true
  | .admin => false

/-- Whether a started command only waits and may now complete. -/
def waitOver (s : State) (c : Cmd) : Bool :=
  match c.work with
  | .count kind queue qp value => countReached s (ownQueue c.q) c.part kind queue qp value
  | .fence => !s.queues.cmds.any (fun d => d.q == c.q && d.id < c.id)
  | _ => false

/-- Take a started command off the list and write its completion. -/
def finishCmd (c : Cmd) (st : Status) (result : Nat) (s : State) : State :=
  writeCompletion c.q c.desc st result
    { s with queues := { s.queues with cmds := s.queues.cmds.filter (fun d => d.id != c.id) } }

/-- The work request WAIT_COUNT that a pair is held by and whose count is reached. -/
def wrWaitOver (s : State) (q : Qp) : Bool :=
  q.started.any (fun w => dfield w.desc 0 1 == 0x60 && !w.done &&
    countReached s true q.part (dfield w.desc 8 1) (dfield w.desc 9 1) (dfield w.desc 10 2) (dfield w.desc 16 8))

def findCmd (s : State) (id : Nat) : Option Cmd := s.queues.cmds.find? (fun c => c.id == id)

/-- Change what a started command is waiting for. -/
def setWork (id : Nat) (w : CmdWork) (s : State) : State :=
  { s with queues := { s.queues with cmds := mapIf (fun c => c.id == id) (fun c => { c with work := w }) s.queues.cmds } }

end Sys2Proof.Machine
end

