-- ==== Sys2Proof/Machine/Faults.lean ====
section
/-! DEFINITION. Recording faults (R515 to R521), counting for escalation (R519), NOTIFY (R31), and the occurrences that
performance counters count (R488 to R494). -/

namespace Sys2Proof.Machine

/-! ## NOTIFY -/

/-- A NOTIFY message: it names the object that changed; its tag is 0 (R30, R31). -/
def notice (index sub : Nat) : DictMsg :=
  { op := 0x06, index := BitVec.ofNat 16 index, sub := BitVec.ofNat 8 sub, tag := 0 }

/-- NOTIFY to every operator session that is up, in a RECORD (R27, R31, R431). -/
def notify (index sub : Nat) (s : State) : State :=
  forEach (fun x t => onlyIf x.up (send (.notify x.id (BitVec.ofNat 16 index) (BitVec.ofNat 8 sub)
    (sealRecord x.keys x.id (recordCtr x.id t) (notice index sub)))) t) s.mgmt.sessions s

/-! ## The log -/

def slotCount : Nat := 1048576

/-- The 32 bytes of a fault record (R515); `hide` shows no detail. -/
def recBytes (hide : Bool) (r : FaultRec) : Bytes :=
  let pos := r.wpos.toNat / 4096 * 4096 + r.part % 256 * 16 + r.sev % 16
  natLe 8 r.timeNs ++ natLe 8 pos ++ natLe 2 r.code ++ natLe 2 r.unit ++ natLe 12 (if hide then 0 else r.detail)

/-- The head after one record (R520): it wraps at 1,048,576, and on entering a sector of 2,048 slots the sector after it
is erased, so that records there are no longer available. -/
def advanceHead (l : Log) : Log :=
  let h := (l.head + 1) % slotCount
  if h % 2048 = 0 then
    let gone := (h / 2048 + 1) % 512
    { l with head := h, ring := l.ring.filter (fun r => r.slot / 2048 != gone),
             oldest := if l.oldest / 2048 = gone then (gone + 1) % 512 * 2048 else l.oldest }
  else { l with head := h }

/-- Position of the newest tail record of severity 0, `n` counting from the front. -/
def newestInfo : Nat → List FaultRec → Option Nat
  | _, [] => none
  | n, r :: rs =>
    match newestInfo (n + 1) rs with
    | some k => some k
    | none => if r.sev = 0 then some n else none

/-- Put a record into the tail (R520, R521): at the head's slot while the tail has room; a record of severity 3 takes
the place of the newest one of severity 0; otherwise it is dropped. Answers the log and the records dropped. -/
def logPut (r : FaultRec) (l : Log) : Log × Nat :=
  if l.tail.length < 2048 then
    let r' := { r with slot := l.head }
    let l' := advanceHead l
    ({ l' with tail := l'.tail ++ [r'] }, 0)
  else if r.sev = 3 then
    match newestInfo 0 l.tail with
    | some k =>
      let old := l.tail.getD k r
      ({ l with tail := l.tail.set k { r with slot := old.slot }, droppedSince := l.droppedSince + 1 }, 1)
    | none => ({ l with droppedSince := l.droppedSince + 1 }, 1)
  else ({ l with droppedSince := l.droppedSince + 1 }, 1)

/-- Count a record of a code and unit in its sliding window of OD 0xD010:02 ms; a pair that has reached OD 0xD010:01
stays as it is until ESCALATION takes it (R519). -/
def countPair (count winNs now code unit : Nat) (w : List (Nat × Nat × List Nat)) : List (Nat × Nat × List Nat) :=
  if w.any (fun e => e.1 == code && e.2.1 == unit) then
    w.map (fun e =>
      if e.1 == code && e.2.1 == unit then
        (code, unit, (if count ≤ e.2.2.length then e.2.2 else e.2.2.filter (fun t => now < t + winNs)) ++ [now])
      else e)
  else w ++ [(code, unit, [now])]

/-- Make a fault record (R515, R518): into the tail, counted, shown in OD 0xD000:08 with a NOTIFY for severity 2 and 3
(R516), and counted for escalation unless its code is 0x0703 to 0x0705. -/
def recordFault (sev code unit detail : Nat) (part : Option Nat) (s : State) : State :=
  let r : FaultRec :=
    { slot := 0, timeNs := s.now, wpos := s.wheel.cur, part := part.getD 255, sev := sev, code := code, unit := unit,
      detail := detail % 2 ^ 96 }
  let p := logPut r s.log
  let wins :=
    if 0x0703 ≤ code && code ≤ 0x0705 then p.1.windows
    else countPair (od s 0xD010 0x01) (od s 0xD010 0x02 * 1000000) s.now code unit p.1.windows
  let s1 := { s with log := { p.1 with windows := wins, latest := if 2 ≤ sev then some r else p.1.latest } }
  let s2 := bump64 0xD000 0x06 (odAdd 0xD000 0x04 64 p.2 s1)
  if 2 ≤ sev then notify 0xD000 0x08 s2 else s2

/-- Record a fault at its fixed severity. -/
def fault (c : FaultCode) (unit detail : Nat) (part : Option Nat) (s : State) : State :=
  recordFault c.sev c.num unit detail part s

/-- Record a fault and raise its event (R517): on the partition's ring, or the admin ring. -/
def faultEvent (c : FaultCode) (unit detail : Nat) (part : Option Nat) (st : Status) (evDetail : Nat) (s : State) :
    State :=
  event st part c.num unit evDetail (fault c unit detail part s)

/-! ## Performance counters (R485 to R494) -/

/-- Where a counter stands. -/
inductive CtrLoc where
  | core (n : Nat)
  | cluster (n : Nat)
  | port (n : Nat)
  deriving DecidableEq, Repr

/-- What an occurrence belongs to (R491); `none` belongs to no partition, has no address. -/
structure Occ where
  part : Option Nat := none
  master : Nat := 0
  addr : Option Nat := none
  cls : Nat := 0
  deriving DecidableEq, Repr

/-- Index of a location's record and number of its programmable counters (R502). -/
def CtrLoc.index : CtrLoc → Nat
  | .core n => 0xA100 + n
  | .cluster n => 0xA200 + n
  | .port n => 0xA300 + n

def CtrLoc.count : CtrLoc → Nat
  | .port _ => 4
  | _ => 8

/-- Subindices of configuration, sample period and value of counter `i` (R502). -/
def CtrLoc.cfgSub (_ : CtrLoc) (i : Nat) : Nat := 0x01 + i
def CtrLoc.perSub (l : CtrLoc) (i : Nat) : Nat := l.count + 1 + i
def CtrLoc.valSub (l : CtrLoc) (i : Nat) : Nat := 2 * l.count + 1 + i

/-- A counter's identifier (R486). -/
def CtrLoc.ctrId (l : CtrLoc) (i : Nat) : Nat :=
  match l with
  | .core n => 0x8000 + n * 16 + i
  | .cluster n => 0xA000 + n * 16 + i
  | .port n => 0xC000 + n * 16 + i

/-- The counter location whose record an index is. -/
def ctrLocOf (index : Nat) : Option CtrLoc :=
  if 0xA100 ≤ index && index < 0xA160 then some (.core (index - 0xA100))
  else if 0xA200 ≤ index && index < 0xA218 then some (.cluster (index - 0xA200))
  else if 0xA300 ≤ index && index < 0xA330 then some (.port (index - 0xA300))
  else none

/-- The location and number of a programmable counter's identifier (R486). -/
def ctrOfId (id : Nat) : CtrLoc × Nat :=
  let n := id / 16 % 512
  (if id / 0x2000 % 4 = 0 then .core n else if id / 0x2000 % 4 = 1 then .cluster n else .port n, id % 16)

/-- Events of which no rule says how often they occur for a command: the engine's waits and a queue's, and bytes on the paths
and in the stores inside the chip (log entry 107). -/
def openEvent (code : Nat) : Bool :=
  [0x0008, 0x0009, 0x000A, 0x000B, 0x000F, 0x0104, 0x0105, 0x0106, 0x0205].contains code

/-- Whether a programmable counter counts an open event, by its own configuration or as the high half of a chained pair. -/
def ctrOpen (l : CtrLoc) (i : Nat) (s : State) : Bool :=
  let cfg := od s l.index (l.cfgSub (if i % 2 == 1 && bitOf (od s l.index (l.cfgSub (i - 1))) 54 then i - 1 else i))
  bitOf cfg 55 && openEvent (bitsOf cfg 15 0)

/-- The value and sticky bit of a programmable counter: a free value while it counts an open event (R494). -/
def ctrNow (l : CtrLoc) (i : Nat) (s : State) : Nat :=
  if ctrOpen l i s then
    (Config.openCount (l.ctrId i) s.now).toNat % 2 ^ 48 + (Config.openCount (l.ctrId i) s.now).toNat / 2 ^ 48 * 2 ^ 63
  else od s l.index (l.valSub i)

/-- Whether an occurrence passes every enabled filter of a configuration (R489, R491). -/
def occPasses (s : State) (cfg : Nat) (o : Occ) : Bool :=
  (!bitOf cfg 47 || o.part == some (bitsOf cfg 44 40)) &&
  (bitsOf cfg 36 32 == 0 || bitOf cfg (32 + o.master)) &&
  (bitsOf cfg 28 24 == 0 || bitOf cfg (24 + o.cls)) &&
  (!bitOf cfg 23 ||
    match o.addr with
    | some a => od s 0xA010 (2 * bitsOf cfg 17 16 + 1) ≤ a && a ≤ od s 0xA010 (2 * bitsOf cfg 17 16 + 2)
    | none => false)

/-- Add to a counter value of 48 bits; passing 2^48 - 1 wraps and sets the sticky bit 63 (R492, R494). -/
def ctrAdd (v n : Nat) : Nat :=
  let sum := v % 2 ^ 48 + n
  sum % 2 ^ 48 + (if bitOf v 63 || 2 ^ 48 ≤ sum then 2 ^ 63 else 0)

/-- The sampler of a counter (R498): its down-count starts at the period. -/
def samplerOf (id period : Nat) (l : List Sampler) : Sampler :=
  (l.find? (fun x => x.id == id)).getD { id := id, down := period, lastAt := 0, due := false }

/-- Times a down-count reaches zero in `n` occurrences. -/
def reaches (down period n : Nat) : Nat := if n < down then 0 else 1 + (n - down) / period

/-- A sampler after `n` occurrences: at zero a sample is due and the down-count is loaded again. -/
def samplerNext (x : Sampler) (period n : Nat) : Sampler :=
  if n < x.down then { x with down := x.down - n }
  else { x with down := period - (n - x.down) % period, due := true }

def setSampler (x : Sampler) (l : List Sampler) : List Sampler :=
  if l.any (fun y => y.id == x.id) then l.map (fun y => if y.id == x.id then x else y) else l ++ [x]

/-- Subtract `n` occurrences from a counter's down-count; samples beyond the one due are merged (OD 0xA000:02). -/
def sampleCount (id period n : Nat) (s : State) : State :=
  let x := samplerOf id period s.samplers
  let k := reaches x.down period n
  odAdd 0xA000 0x02 64 (if x.due then k else k - 1) { s with samplers := setSampler (samplerNext x period n) s.samplers }

/-- Physical core that serves a logical core; 255 where its cluster has none for it (OD 0xB022). -/
def physOf (s : State) (n : Nat) : Nat := s.power.coreMap.getD n 255

/-- Whether the block of a counter location is under self-test (R492, R503): its core, its cluster's cache or controllers, its port. -/
def ctrTested (l : CtrLoc) (s : State) : Bool :=
  s.power.test.any (fun t =>
    match l with
    | .core n => t.kind == 1 && t.unit == physOf s n
    | .cluster n => (t.kind == 2 || t.kind == 3) && t.unit == n
    | .port n => if n < 32 then t.kind == 4 && t.unit == n else t.kind == 5 && 32 + t.unit == n)

/-- Whether a counter is in service (R492). -/
def ctrServes (l : CtrLoc) (s : State) : Bool := ready s && !ctrTested l s

/-- `n` occurrences at one programmable counter (R488 to R492, R498): counted when enabled, of its event and passing its
filters; the low half of a chained pair carries into the high half in service. -/
def countOne (l : CtrLoc) (code n : Nat) (o : Occ) (i : Nat) (s : State) : State :=
  let cfg := od s l.index (l.cfgSub i)
  let chained := i % 2 == 0 && bitOf cfg 54
  let isHigh := i % 2 == 1 && bitOf (od s l.index (l.cfgSub (i - 1))) 54
  if !bitOf cfg 55 || bitsOf cfg 15 0 != code || isHigh || !occPasses s cfg o then s
  else
    let v := od s l.index (l.valSub i)
    let s1 :=
      if chained && ctrServes l s then
        odSet l.index (l.valSub i) ((v % 2 ^ 48 + n) % 2 ^ 48 + (if bitOf v 63 then 2 ^ 63 else 0))
          (if 2 ^ 48 ≤ v % 2 ^ 48 + n then
            odSet l.index (l.valSub (i + 1)) (ctrAdd (od s l.index (l.valSub (i + 1))) 1) s
          else s)
      else odSet l.index (l.valSub i) (ctrAdd v n) s
    onlyIf (bitOf cfg 53) (sampleCount (l.ctrId i) (od s l.index (l.perSub i)) n) s1

/-- `n` occurrences of an event at a location (R488). -/
def count (l : CtrLoc) (code n : Nat) (o : Occ) (s : State) : State :=
  if n = 0 then s else forEach (countOne l code n o) (List.range l.count) s

/-- Add to a fixed counter of a core (R485): index 8 to 12, at subindices 0x19 to 0x1D. -/
def countFixed (core i n : Nat) (s : State) : State :=
  if n = 0 then s else odSet (0xA100 + core) (0x11 + i) (ctrAdd (od s (0xA100 + core) (0x11 + i)) n) s

end Sys2Proof.Machine
end

