-- ==== Sys2Proof/Machine/Queues.lean ====
section
/-! DEFINITION. Command queues: comparators (R107), when a command may start (R36, R53, R58, R78), deferral (R37, R104,
R152, R154), commands at positions (R153), and starting and completing commands (R12, R14). -/

namespace Sys2Proof.Machine

/-! ## Comparators (R107) -/

/-- Comparators a plan slot claims: its deadline depth and one for each GATE_SWAP, MODE_ARM and APPLY_COMMIT entry. -/
def planComps (p : PlanSlot) : Nat :=
  p.plan.depth + (p.plan.firings.filter (fun f => 4 ≤ f.action && f.action ≤ 6)).length

def activeComps (s : State) : Nat :=
  match s.wheel.active with
  | some p => planComps p
  | none => 0

/-- A loaded next plan claims one more for its switch-over; so does an empty takeover (DEDUCED, log entry 13). -/
def nextComps (s : State) : Nat :=
  match s.wheel.next with
  | some n => 1 + (match n.slot with | some p => planComps p | none => 0)
  | none => 0

/-- Comparators of pending commits: drawn from the pool, or kept from a plan that has left its slot (R25, R115). -/
def commitComps (s : State) : Nat :=
  let one (r : RoleState) : Nat :=
    match r.pend with
    | some c => if c.pool || c.kept then 1 else 0
    | none => 0
  one s.mgmt.op + one s.mgmt.ten

/-- Comparators of commands that wait for their position (R153). -/
def cmdComps (s : State) : Nat :=
  (s.queues.cmds.filter (fun c => match c.work with | .atPos _ => true | _ => false)).length

/-- Comparators that the plan of a pending commit claims from its check on, with its switch-over (R23, R107). -/
def boundComps (s : State) : Nat :=
  let one (r : RoleState) : Nat :=
    match r.pend.bind (fun c => c.load) with
    | some l => 1 + l.2.elim 0 planComps
    | none => 0
  one s.mgmt.op + one s.mgmt.ten

def freeComps (s : State) : Nat := 64 - (activeComps s + nextComps s + boundComps s + commitComps s + cmdComps s)

/-! ## Refusals outside OWNED (R14) -/

/-- One ST_NOT_OWNED event for a partition (32 for the whole device) and step. -/
def refuseOnce (part step : Nat) (s : State) : State :=
  if s.sheets.refusedSteps.contains (part, step) then s
  else
    event .notOwned (if part < 32 then some part else none) 0 0 0
      { s with sheets := { s.sheets with refusedSteps := s.sheets.refusedSteps ++ [(part, step)] } }

/-! ## Who reads what -/

/-- Whether a sheet entry still names its sequence (R104): until the sheet's step has ended and every job released for
it in that step has completed. Sheets leave `admitted` only after both. -/
def entryNames (s : State) (h : Sheet) (e : Entry) : Bool :=
  s.wheel.cur.toNat < (Pos.mk (h.step + 1) 0 0).toNat ||
  s.jobs.jobs.any (fun j => j.kind == .planned && j.seq == e.seq && j.step == h.step)

/-- Whether an admitted sheet names a sequence (R104). -/
def sheetNames (s : State) (seq : Nat) : Bool :=
  s.sheets.admitted.any (fun h => h.entries.any (fun e => e.seq == seq && entryNames s h e))

/-- Whether a released and incomplete job reads a sequence's list (R37). -/
def jobReadsSeq (s : State) (seq : Nat) : Bool := s.jobs.jobs.any (fun j => j.seq == seq)

/-- Whether a released and incomplete job reads a column. -/
def jobReadsCol (s : State) (slot : Nat) : Bool := s.jobs.jobs.any (fun j => j.cols.contains slot)

/-- Sequences of a partition whose list holds a column. -/
def holders (s : State) (slot : Nat) : List Nat :=
  (s.kv.seqs.filter (fun q => q.cols.contains slot)).map (fun q => q.id)

/-- Whether a command addresses its column by ID (R144, R284). -/
def byId (d : Desc) : Bool :=
  ((0x11 ≤ dOpcode d && dOpcode d ≤ 0x15) || (dOpcode d == 0x22 && dfield d 11 1 == 0)) && bitOf (dFlags d) 0

/-- Sequences that a command names, or whose list holds the column it names (R152). -/
def namedSeqs (s : State) (d : Desc) : List Nat :=
  let op := dOpcode d
  if byId d then
    match colById s (dfield d 12 4) with
    | some c => holders s c.slot
    | none => []
  else if op == 0x02 || op == 0x03 || op == 0x04 || (0x10 ≤ op && op ≤ 0x15) || (0x20 ≤ op && op ≤ 0x22) ||
      (0x40 ≤ op && op ≤ 0x42) then
    if dSeq d = 0 then [] else [dSeq d]
  else if op == 0x34 && dfield d 12 1 == 2 then [dfield d 24 3]
  else []

/-- Slots of the columns that a column command names. -/
def namedCols (s : State) (d : Desc) : List Nat :=
  if byId d then
    match colById s (dfield d 12 4) with
    | some c => [c.slot]
    | none => []
  else
    match findSeq s (dSeq d) with
    | some q => (q.cols.drop (dfield d 12 4)).take (dfield d 16 4)
    | none => []

/-- Whether a command is a held confirm, one that waits for a heath port among them (R187, R354). -/
def confirming (c : Cmd) : Bool :=
  match c.work with
  | .confirm => true
  | .stalled _ => dOpcode c.desc == 0x42
  | _ => false

/-- Whether a held confirm names one of the sequences: it compacts before what was deferred behind its jobs starts (R187). -/
def confirmHolds (s : State) (ids : List Nat) : Bool :=
  s.queues.cmds.any (fun c => confirming c && (namedSeqs s c.desc).any (fun i => ids.contains i))

/-- Whether a move of the named columns takes one of them out of meadow (R104, R154). -/
def leavesMeadow (s : State) (d : Desc) : Bool :=
  dfield d 21 1 == 0 && dfield d 20 1 != 0 && (namedCols s d).any (fun k => (findCol s k).any (fun c => c.home.tier == .meadow))

/-- Whether a command must wait under R37 and R104, as R154 and R276 narrow them: closing, truncating, appending,
discarding and a commit with `adopt` wait for released jobs of the sequence and for admitted sheets that name it; a move of a
column out of meadow for sheets that name any holder of the column, and for jobs that read it, as every other move but that of an
image does; a lookup, which sets a list, for jobs that read the list. What waits for jobs waits for a held confirm too (R187). -/
def mustWait (s : State) (d : Desc) : Bool :=
  let op := dOpcode d
  let ids := namedSeqs s d
  let seqsBusy := ids.any (fun q => sheetNames s q || jobReadsSeq s q) || confirmHolds s ids
  if op == 0x02 || op == 0x04 || op == 0x10 || op == 0x15 then seqsBusy
  else if op == 0x12 then
    if dfield d 21 1 == 1 then false
    else
      let byJobs := (namedCols s d).any (jobReadsCol s)
      let held := ((namedCols s d).flatMap (holders s)).dedup
      byJobs || confirmHolds s held || (leavesMeadow s d && held.any (sheetNames s))
  else if op == 0x20 then ids.any (jobReadsSeq s) || confirmHolds s ids
  else if op == 0x21 then bitOf (dFlags d) 2 && seqsBusy
  else false

/-- Whether two commands name a common sequence. -/
def shareSeq (s : State) (a b : Cmd) : Bool := (namedSeqs s a.desc).any (fun i => (namedSeqs s b.desc).contains i)

/-- Whether an earlier deferred command of the same queue names one of the sequences (R152); a command that waits for its position
is not deferred (R153). -/
def waitsBehind (s : State) (c : Cmd) : Bool :=
  s.queues.cmds.any (fun x => x.q == c.q && x.id < c.id && x.work == .deferred && shareSeq s x c)

/-- Whether a deferred command comes after another that names one of its sequences: they run in submission order, whatever their
queues (R37). -/
def deferredBehind (s : State) (c : Cmd) : Bool :=
  s.queues.cmds.any (fun x => x.id < c.id && x.work == .deferred && shareSeq s x c)

/-! ## Starting -/

/-- Started and uncompleted commands of a queue. -/
def startedOn (s : State) (q : QRef) : Nat := (s.queues.cmds.filter (fun c => c.q == q)).length

/-- Whether a FENCE or WAIT_COUNT holds a queue's later commands (R36, R58). -/
def queueHeld (s : State) (q : QRef) : Bool :=
  s.queues.cmds.any (fun c => c.q == q &&
    match c.work with
    | .fence => true
    | .count _ _ _ _ => true
    | _ => false)

/-- Whether a queue has a window, and its completion ring a free slot beside those of every started and uncompleted command
(R53). -/
def compRoom (s : State) (q : QRef) : Bool :=
  compWindow s q != 0xFFFF && (queueOf s q).completed - (queueOf s q).compHead + startedOn s q < ringSize s q

/-- Whether the next command of a queue may start: the device is READY and not saving, the queue is not stopped and has
a window, its completion ring has a free slot for every started and uncompleted command (R53), nothing holds it (R36,
R58), and device-to-host messages are not held up to their limit (R78). -/
def canStart (s : State) (q : QRef) : Bool :=
  ready s && !(queueOf s q).stopped && (queueOf s q).aborting.isEmpty && compRoom s q && !queueHeld s q && !((streamModules s).isEmpty && 64 * 2 ^ 20 ≤ heldBytes s)

/-- The command that a queue's front descriptor is taken as. -/
def takenCmd (q : QRef) (d : Desc) (s : State) : Cmd :=
  { id := s.queues.nextCmd, q := q, part := match q with | .part p _ => p | .admin => dPart d, desc := d,
    work := .starting, since := s.now }

/-- Take the descriptor at the front of a queue as a started command. -/
def popCmd (q : QRef) (d : Desc) (rest : List Desc) (s : State) : State :=
  let s' := setQueue q { queueOf s q with waiting := rest } s
  { s' with queues := { s'.queues with cmds := s'.queues.cmds ++ [takenCmd q d s], nextCmd := s'.queues.nextCmd + 1 } }

/-- Every command queue. -/
def allQueues : List QRef := QRef.admin :: (List.range 128).map (fun i => QRef.part (i / 4) (i % 4))

/-- A queue with descriptors that end with ST_ABORTED and a free slot for the record (R53). -/
def abortHead (s : State) : Option (QRef × Desc × List Desc) :=
  (allQueues.filterMap (fun q =>
    match (queueOf s q).aborting with
    | d :: ds => if compRoom s q then some (q, d, ds) else none
    | [] => none)).head?

/-- A queue whose next command has an opcode outside the table and may start (R35). -/
def unknownHead (s : State) : Option (QRef × Desc × List Desc) :=
  (allQueues.filterMap (fun q =>
    match (queueOf s q).waiting with
    | d :: ds => if !allOpcodes.contains (dOpcode d) && canStart s q then some (q, d, ds) else none
    | [] => none)).head?

/-- Complete the waits whose counts have been reached and the commands with unknown opcodes, until none is left. -/
def settle : Nat → State → State
  | 0, s => s
  | n + 1, s =>
    match s.queues.cmds.find? (waitOver s) with
    | some c => settle n (finishCmd c .ok 0 s)
    | none =>
      match s.peer.qps.find? (wrWaitOver s) with
      | some q =>
        settle n (flushWrs q.num q.started.length (setQp { q with started := q.started.map (fun w =>
          if dfield w.desc 0 1 == 0x60 && !w.done then { w with done := true } else w) } s))
      | none =>
        match abortHead s with
        | some (q, d, ds) => settle n (writeCompletion q d .aborted 0 (setQueue q { queueOf s q with aborting := ds } s))
        | none =>
          match unknownHead s with
          | some (q, d, ds) =>
            settle n (writeCompletion q d (if owned s then .badDescriptor else .notOwned) 0
              (setQueue q { queueOf s q with waiting := ds } s))
          | none => s

/-- Enough rounds for every wait and every waiting descriptor. -/
def settleFuel (s : State) : Nat :=
  s.queues.cmds.length + sumBy (fun q => q.started.length) s.peer.qps + sumBy (fun q => q.waiting.length + q.aborting.length) s.queues.qs + 1

def settleAll (s : State) : State := settle (settleFuel s) s

/-- Complete a started command: its record, then the waits that its count ends. -/
def complete (c : Cmd) (st : Status) (result : Nat) (s : State) : State := settleAll (finishCmd c st result s)

/-- Carry out a started command, or defer it (R37, R152) and count that (OD 0x4000:06). -/
def goOrDefer (run : Cmd → State → State) (c : Cmd) (s : State) : State :=
  if mustWait s c.desc || waitsBehind s c then bump64 0x4000 0x06 (setWork c.id .deferred s) else run c s

/-- A started command with a non-zero `at` (R153): malformed or not later than the current position, or no comparator
free, fails; else it waits for its position. -/
def startAt (run : Cmd → State → State) (c : Cmd) (s : State) : State :=
  if hasAt (dOpcode c.desc) && dAt c.desc != 0 then
    if !Pos.ok (dAt c.desc) || (dAt c.desc).toNat ≤ s.wheel.cur.toNat then complete c .badDescriptor 0 s
    else if freeComps s = 0 then complete c .noSpace 0 s
    else setWork c.id (.atPos (dAt c.desc)) s
  else goOrDefer run c s

/-- Start the command at the front of a queue if it has the opcode and may start: refused with ST_NOT_OWNED outside
OWNED (R14), with ST_BAD_DESCRIPTOR on a malformed header, and else carried out, deferred or kept for its position. -/
def startCmd (op : Nat) (run : Cmd → State → State) (q : QRef) (s : State) : State :=
  match (queueOf s q).waiting with
  | [] => s
  | d :: ds =>
    if dOpcode d != op || !canStart s q then s
    else
      let c := takenCmd q d s
      let s1 := popCmd q d ds s
      if !owned s then complete c .notOwned 0 s1
      else if !headerOk q d then complete c .badDescriptor 0 s1
      else startAt run c s1

/-- Stop a queue (R51): ST_BAD_DESCRIPTOR on the partition's event ring; its WAIT_COUNTs (R59) and the commands not yet
started end with ST_ABORTED (R12, R513; DEDUCED, log entry 14), the latter as the completion ring has slots (R53). -/
def stopQueue (q : QRef) (s : State) : State :=
  let k := queueOf s q
  let s1 := setQueue q { k with stopped := true, waiting := [], aborting := k.aborting ++ k.waiting } s
  let s2 := event .badDescriptor (queueOwner q) 0 0 0 s1
  let waits := s2.queues.cmds.filter (fun c => c.q == q && match c.work with | .count _ _ _ _ => true | _ => false)
  settleAll (forEach (fun c => finishCmd c .aborted 0) waits s2)

/-- Write the ST_ABORTED records of a queue that its completion ring has slots for; `n` bounds their number. -/
def drainAborts (q : QRef) : Nat → State → State
  | 0, s => s
  | n + 1, s =>
    match (queueOf s q).aborting with
    | [] => s
    | d :: ds =>
      if compRoom s q then drainAborts q n (writeCompletion q d .aborted 0 (setQueue q { queueOf s q with aborting := ds } s)) else s

/-- End every command of a queue with ST_ABORTED, and reset the queue as by a commit of its record (R61, R467). Records for
which the ring has no slot are written after the reset (DEDUCED, log entry 14). -/
def abortQueue (q : QRef) (s : State) : State :=
  let cmds := s.queues.cmds.filter (fun c => c.q == q)
  let s1 := forEach (fun c => finishCmd c .aborted 0) cmds s
  let k := queueOf s1 q
  let s2 := setQueue q { k with waiting := [], aborting := k.aborting ++ k.waiting } s1
  let s3 := drainAborts q (k.aborting.length + k.waiting.length) s2
  setQueue q { aborting := (queueOf s3 q).aborting } s3

/-! ## Doorbells (R50, R51, R53, R57) -/

/-- Descriptors of a partition's ring from index `i`, `n` of them, wrapping (R43, R50). -/
def ringDescs (s : State) (p q size i n : Nat) : List Desc :=
  (List.range n).map (fun k => descOf (memRead s p (0x40000 * q + 64 * ((i + k) % size)) 64))

/-- COMMAND_TAIL_DOORBELL (R50, R51). The admin ring lies in BAR0: its 256 entries come with the command. A doorbell of a
queue without a window, or of a stopped queue, submits nothing. A ring slot is free again once its command has started
(DESIGN CHOICE, log entry 113). -/
def commandTail (q : QRef) (tail : Nat) (adminRing : List Desc) (s : State) : State :=
  let k := queueOf s q
  let size := ringSize s q
  if !cxlServes s || k.stopped || compWindow s q == 0xFFFF then s
  else
    let n := modSub tail k.tail size
    if size ≤ tail || size - k.waiting.length < n then stopQueue q s
    else
      let ds :=
        match q with
        | .part p j => ringDescs s p j size k.tail n
        | .admin => (List.range n).map (fun i => adminRing.getD ((k.tail + i) % size) 0)
      settleAll (setQueue q { k with tail := tail, waiting := k.waiting ++ ds } s)

/-- The absolute count that a head doorbell's ring index stands for: the first count from `head` on, at most `done`, at
that index (DEDUCED, log entry 15). -/
def headAdvance (head done size value : Nat) : Nat := min done (head + modSub (value % size) head size)

def execCommandTailDoorbell (q : QRef) (tail : U32) (adminRing : List Desc) (s : State) :
    Host.Outcome State Fault Refusal :=
  .next (commandTail q tail.toNat adminRing (rang (tailBell q) tail.toNat s))

/-- COMPLETION_HEAD_DOORBELL (R53): frees completion slots. -/
def completionHead (q : QRef) (value : Nat) (s : State) : State :=
  if !cxlServes s then s
  else
    let k := queueOf s q
    settleAll (setQueue q { k with compHead := headAdvance k.compHead k.completed (ringSize s q) value } s)

def execCompletionHeadDoorbell (q : QRef) (head : U32) (s : State) : Host.Outcome State Fault Refusal :=
  .next (completionHead q head.toNat (rang (headBell q) head.toNat s))

/-- EVENT_HEAD_DOORBELL (R53, R57): frees event slots and writes held events. -/
def eventHead (r value : Nat) (s : State) : State :=
  if !cxlServes s then s
  else
    let g := evRing s r
    flushEvents r 256 (setEvRing r { g with head := headAdvance g.head g.written (evSize s r) value } s)

def execEventHeadDoorbell (ring : Nat) (head : U32) (s : State) : Host.Outcome State Fault Refusal :=
  .next (eventHead ring head.toNat (rang (eventBell ring) head.toNat s))

/-! ## WAIT_COUNT and FENCE (R36, R58, R59) -/

/-- WAIT_COUNT: reserved values fail with ST_BAD_DESCRIPTOR, a target that does not exist with ST_BAD_OBJECT; else the
command waits for the count, which may be reached already. -/
def runWaitCount (c : Cmd) (s : State) : State :=
  let d := c.desc
  let kind := dfield d 8 1
  if 1 < kind || (kind == 0 && dfield d 10 2 != 0) || (kind == 1 && dfield d 9 1 != 0) then
    complete c .badDescriptor 0 s
  else
    match countOf s (ownQueue c.q) c.part kind (dfield d 9 1) (dfield d 10 2) with
    | none => complete c .badObject 0 s
    | some _ => settleAll (setWork c.id (.count kind (dfield d 9 1) (dfield d 10 2) (dfield d 16 8)) s)

def execWaitCount (q : QRef) (s : State) : Host.Outcome State Fault Refusal :=
  .next (startCmd 0x60 runWaitCount q s)

/-- FENCE: completes once every earlier command of its queue has. -/
def runFence (c : Cmd) (s : State) : State := settleAll (setWork c.id .fence s)

def execFence (q : QRef) (s : State) : Host.Outcome State Fault Refusal :=
  .next (startCmd 0x61 runFence q s)

end Sys2Proof.Machine
end

