-- ==== Sys2Proof/Machine/HeathMap.lean ====
section
/-! DEFINITION. Heath space: geometry and capacity (R333, R334), allocation in bales and fine units (R324, R340, R341),
map changes, discards and journal records (R342, R344, R345, R349). -/

namespace Sys2Proof.Machine

def shelfOf (s : State) (h : Nat) : Shelf := s.shelves.getD h {}

/-- The number of a unit, and of a bale, with the bits that give the shelf (R323). -/
def unitNo (x : Shelf) (u : Nat) : Nat := x.no * 2 ^ 32 + u
def baleNo (x : Shelf) (b : Nat) : Nat := x.no * 2 ^ 26 + b

def setShelf (h : Nat) (x : Shelf) (s : State) : State := { s with shelves := s.shelves.set h x }

/-! ## Geometry (R333, R334) -/

/-- Stripe groups of a shelf: channels ÷ 16 × luns. -/
def groupCount (g : ShelfRec) : Nat := g.channels / 16 * g.luns

/-- The group of a channel and LUN. -/
def groupOfLun (g : ShelfRec) (channel lun : Nat) : Nat := channel / 16 * g.luns + lun

/-- Channel and LUN at a position of a group. -/
def lunAt (g : ShelfRec) (group pos : Nat) : Nat × Nat := (16 * (group / g.luns) + pos, group % g.luns)

/-- Block 0 of LUN 0 on channels 0 and 1 is the root area. -/
def isRootBlock (b : BlockEnt) : Bool := b.block == 0 && b.lun == 0 && b.channel ≤ 1

/-- Blocks of a LUN that can hold superblocks: listed good ones, and those the block table does not list, which are
good with no erase (R343). `blocks` lists a block once anything is known of it. -/
def badBlocks (x : Shelf) (channel lun : Nat) : Nat :=
  (x.blocks.filter (fun b => b.channel == channel && b.lun == lun && b.state != 0 && !isRootBlock b)).length

/-- Whether a LUN is out of service: its blocks are in state 5 (R354). -/
def lunOutOf (x : Shelf) (channel lun : Nat) : Bool :=
  x.luns.any (fun l => l.out && l.channel == channel && l.lun == lun)

def goodBlocks (x : Shelf) (g : ShelfRec) (channel lun : Nat) : Nat :=
  if lunOutOf x channel lun then 0
  else g.blocks - badBlocks x channel lun - (if lun == 0 && channel ≤ 1 then 1 else 0)

def minOf : List Nat → Nat
  | [] => 0
  | n :: ns => ns.foldl min n

/-- Superblocks a group can form: the good blocks of its weakest LUN. -/
def groupBlocks (x : Shelf) (g : ShelfRec) (group : Nat) : Nat :=
  minOf ((List.range 16).map (fun p => goodBlocks x g (lunAt g group p).1 (lunAt g group p).2))

/-- S of R334. -/
def superblockSum (x : Shelf) (g : ShelfRec) : Nat := sumBy (groupBlocks x g) (List.range (groupCount g))

/-- The reserve in superblocks (R334). -/
def reserveSbs (x : Shelf) : Nat := ceilDiv (x.capSum * x.reserve) 256

/-- Logical capacity in bytes (R334), capped at 64 TiB; retired blocks do not lower it (R354). -/
def logicalBytes (x : Shelf) : Nat :=
  match x.geom with
  | none => 0
  | some g => min ((x.capSum - reserveSbs x) * 15 * g.pages * 16384) (64 * 2 ^ 40)

/-- Whether retired blocks have spent the reserve (R354). -/
def reserveSpent (x : Shelf) : Bool :=
  match x.geom with
  | none => true
  | some g => superblockSum x g + reserveSbs x ≤ x.capSum

/-- Bytes allocated: whole bales that are not in fine state, and fine units. -/
def allocatedBytes (x : Shelf) : Nat :=
  (x.bales.filter (fun b => b.state != 3)).length * 2 ^ 20 + x.fines.length * 16384

def freeLogicalBytes (x : Shelf) : Nat := logicalBytes x - allocatedBytes x

/-- Superblocks not in use. -/
def freeSuperblocks (x : Shelf) : Nat :=
  match x.geom with
  | none => 0
  | some g => superblockSum x g - x.sbs.length

/-! ## Allocation (R324, R341) -/

/-- Whole bales of an allocation of `units` 4 KiB units, and the fine units of its remainder. -/
def balesOf (units : Nat) : Nat := units * 4096 / 2 ^ 20
def finesOf (units : Nat) : Nat := ceilDiv (units * 4096 % 2 ^ 20) 16384

def baleEnt (x : Shelf) (b : Nat) : Option MapEnt := x.bales.find? (fun e => e.key == b)
def fineEnt (x : Shelf) (u : Nat) : Option MapEnt := x.fines.find? (fun e => e.key == u)

def baleFree (x : Shelf) (b : Nat) : Bool := (baleEnt x b).isNone && b < 2 ^ 26

/-- Whether `n` fine units from unit `u` on can be had: in one bale, all free, the bale in fine state, or free while a fine block is
(`blk`). -/
def finesFree (x : Shelf) (blk : Bool) (u n : Nat) : Bool :=
  n == 0 ||
  (u / 64 == (u + n - 1) / 64 && u / 64 < 2 ^ 26 &&
    (match baleEnt x (u / 64) with
      | none => blk
      | some e => e.state == 3) &&
    (List.range n).all (fun i => (fineEnt x (u + i)).isNone))

/-- Whether `k` bales from bale `b` on, and `n` fine units after them, can be had. -/
def runFree (x : Shelf) (blk : Bool) (b k n : Nat) : Bool :=
  (List.range k).all (fun i => baleFree x (b + i)) && finesFree x blk ((b + k) * 64) n

/-- First unit of the lowest place for an allocation (DESIGN CHOICE, log entry 16: one run, lowest first). -/
def findRun (x : Shelf) (blk : Bool) (units : Nat) : Option Nat :=
  let k := balesOf units
  let n := finesOf units
  if k = 0 then
    let starts := 0 :: (x.fines.map (fun e => e.key + 1)) ++ (x.fines.map (fun e => (e.key / 64 + 1) * 64)) ++
      (x.bales.map (fun e => (e.key + 1) * 64))
    (sortBy (fun a b => a < b) (starts.filter (fun u => finesFree x blk u n))).head?
  else
    let starts := 0 :: x.bales.map (fun e => e.key + 1)
    ((sortBy (fun a b => a < b) (starts.filter (fun b => runFree x blk b k n))).head?).map (fun b => b * 64)

/-- Fine blocks in use over all shelves. -/
def fineBlocks (s : State) : List Nat :=
  s.shelves.flatMap (fun x => (x.bales.filter (fun b => b.state == 3)).map (fun b => b.fine))

/-- The lowest of the 8,388,608 fine blocks that no bale owns (R341; the lowest is the model's choice, log entry 16). -/
def freeFine (s : State) : Option Nat :=
  let used := fineBlocks s
  ((List.range (used.length + 1)).find? (fun n => !used.contains n)).filter (fun n => n < 8388608)

/-- Where an allocation may lie in a shelf that has the room for it. -/
def shelfPlace (s : State) (units : Nat) (x : Shelf) : Option Nat :=
  if !reserveSpent x && balesOf units * 2 ^ 20 + finesOf units * 16384 ≤ freeLogicalBytes x then findRun x (freeFine s).isSome units
  else none

/-- The ready shelf with the most free logical bytes, the lowest number winning ties (R324). -/
def bestShelf (s : State) : Option Nat :=
  (List.range 16).foldl (fun best h =>
    if (shelfOf s h).state != 4 then best
    else
      match best with
      | none => some h
      | some b => if freeLogicalBytes (shelfOf s b) < freeLogicalBytes (shelfOf s h) then some h else best) none

/-- The map of a shelf with units from `u` on allocated and not written; a bale that enters state 3 owns fine block `fine`. -/
def allocRun (fine : Nat) (x : Shelf) (u units : Nat) (cls : Bool) : Shelf :=
  let k := balesOf units
  let n := finesOf units
  let newBales := (List.range k).map (fun i => ({ key := u / 64 + i, state := 1, cls := cls } : MapEnt))
  let fu := if k = 0 then u else u + 64 * k
  let newFines := (List.range n).map (fun i => ({ key := fu + i, state := 1, cls := cls } : MapEnt))
  let fineBale :=
    if n = 0 || (baleEnt x (fu / 64)).isSome then []
    else [({ key := fu / 64, state := 3, cls := false, fine := fine } : MapEnt)]
  { x with bales := x.bales ++ newBales ++ fineBale, fines := x.fines ++ newFines }

/-- Allocate in shelf `h` from unit `u` on: the place, in 4 KiB units within the shelf, and the state. -/
def allocAt (h u units : Nat) (cls : Bool) (s : State) : Loc × State :=
  ({ tier := .heath, unit := h, addr := u * 4 }, setShelf h (allocRun ((freeFine s).getD 0) (shelfOf s h) u units cls) s)

/-- Allocate heath space (R324). -/
def heathAlloc (units : Nat) (cls : Bool) (s : State) : Option (Loc × State) :=
  match bestShelf s with
  | none => none
  | some h => (shelfPlace s units (shelfOf s h)).map (fun u => allocAt h u units cls s)

/-! ## Map changes and journal records (R342, R344, R345, R349) -/

/-- Where a unit lies on flash: superblock and data slot. -/
def unitSlot (x : Shelf) (u : Nat) : Option (Nat × Nat) :=
  match baleEnt x (u / 64) with
  | some e =>
    if e.state == 2 then some (e.sb, e.slot + u % 64)
    else
      match fineEnt x u with
      | some f => if f.state == 2 then some (f.sb, f.slot) else none
      | none => none
  | none => none

def findSb (x : Shelf) (id : Nat) : Option Superblock := x.sbs.find? (fun b => b.id == id)

/-- Put a record into the shelf's tail. -/
def putRec (r : JRec) (x : Shelf) : Shelf := { x with tail := x.tail ++ [r] }

/-- Put a record that draws its own `seq` into the shelf's tail (R339, R344). -/
def journal (no op : Nat) (cls : Bool) (x : Shelf) : Shelf :=
  putRec { seq := x.seqCtr, unit := no, op := op, cls := cls } { x with seqCtr := x.seqCtr + 1 }

/-- Forget the data slots that hold units `u` to `u + n - 1`. -/
def dropUses (u n : Nat) (x : Shelf) : Shelf :=
  { x with sbs := x.sbs.map (fun b => { b with uses := b.uses.filter (fun e => !(u ≤ e.2 && e.2 < u + n)) }) }

/-- List the slots from `slot` on of a superblock as valid for `n` units from `u` on. -/
def addUses (sb slot u n : Nat) (x : Shelf) : Shelf :=
  let add (b : Superblock) : Superblock := { b with uses := b.uses ++ (List.range n).map (fun i => (slot + i, u + i)) }
  { x with sbs := mapIf (fun (b : Superblock) => b.id == sb) add x.sbs }

/-- Where mapped units lie before they move, for every unit from `u` on. -/
def oldPlaces (x : Shelf) (u n : Nat) : List (Nat × Nat × Nat) :=
  ((List.range n).filterMap (fun i => (unitSlot x (u + i)).map (fun p => (u + i, p.1, p.2))))

/-- The shelf's key identifier once class 1 data lie under `key` (R357). -/
def keyNow (x : Shelf) (cls : Bool) (key : Nat) : Nat := if cls then key else x.keyId

/-- Map a fine unit or a whole bale, by its first unit, to a slot, with a MAP record whose `seq` is that of the last page
programmed; a place freed meanwhile stays free. A collection copy keeps in mind where it came from. -/
def mapTo (u : Nat) (bale : Bool) (sb slot seq key : Nat) (copy : Bool) (x : Shelf) : Shelf :=
  let n := if bale then 64 else 1
  let old := oldPlaces x u n
  let kept := x.moved.filter (fun m => !(u ≤ m.1 && m.1 < u + n))
  let put (e : MapEnt) (y : Shelf) : Shelf :=
    putRec { seq := seq, unit := unitNo x u, op := if bale then 1 else 2, cls := e.cls, sb := sb, slot := slot }
      (addUses sb slot u n (dropUses u n
        { y with moved := if copy then kept ++ old else kept, keyId := keyNow x e.cls key }))
  let new (e : MapEnt) : MapEnt := { e with state := 2, sb := sb, slot := slot, keyId := key }
  if bale then
    match baleEnt x (u / 64) with
    | some e =>
      if e.state == 3 then x
      else put e { x with bales := mapIf (fun (b : MapEnt) => b.key == u / 64) new x.bales }
    | none => x
  else
    match fineEnt x u with
    | some e => put e { x with fines := mapIf (fun (b : MapEnt) => b.key == u) new x.fines }
    | none => x

/-- Free one whole bale: a DISCARD_BALE record unless it was never written. -/
def discardBale (b : Nat) (x : Shelf) : Shelf :=
  match baleEnt x b with
  | none => x
  | some e =>
    let x1 := dropUses (b * 64) 64 { x with bales := x.bales.filter (fun y => y.key != b), discards := x.discards + 64 }
    if e.state == 1 then x1 else journal (unitNo x (b * 64)) 3 e.cls x1

/-- Free one fine unit: a DISCARD_UNIT record; its bale returns to state 0 with its last unit. -/
def discardUnit (u : Nat) (x : Shelf) : Shelf :=
  match fineEnt x u with
  | none => x
  | some e =>
    let fines' := x.fines.filter (fun y => y.key != u)
    let bales' := if fines'.any (fun y => y.key / 64 == u / 64) then x.bales else x.bales.filter (fun y => y.key != u / 64)
    journal (unitNo x u) 4 e.cls (dropUses u 1 { x with fines := fines', bales := bales', discards := x.discards + 1 })

/-- The units that are poisoned with a mapped unit: it alone, or the whole bale that it belongs to (R351). -/
def poisonUnits (x : Shelf) (u : Nat) : List Nat :=
  if (baleEnt x (u / 64)).any (fun e => e.state == 2) then (List.range 64).map (fun i => u / 64 * 64 + i)
  else if (fineEnt x u).any (fun f => f.state == 2) then [u]
  else []

/-- Poison a fine unit, or the whole bale that a unit belongs to: POISON_UNIT or POISON_BALE (R351). -/
def poisonMap (u : Nat) (x : Shelf) : Shelf :=
  match baleEnt x (u / 64) with
  | none => x
  | some e =>
    if e.state == 2 then
      let b := u / 64
      journal (unitNo x (b * 64)) 5 e.cls (dropUses (b * 64) 64
        { x with bales := mapIf (fun (y : MapEnt) => y.key == b) (fun y => { y with state := 4 }) x.bales })
    else
      match fineEnt x u with
      | some f =>
        if f.state == 2 then
          journal (unitNo x u) 6 f.cls (dropUses u 1
            { x with fines := mapIf (fun (y : MapEnt) => y.key == u) (fun y => { y with state := 4 }) x.fines })
        else x
      | none => x

/-- A CLASS record: a bale's or unit's mapping takes class 1 (R325). -/
def setCls (u : Nat) (bale : Bool) (x : Shelf) : Shelf :=
  journal (unitNo x u) 7 true
    (if bale then { x with bales := mapIf (fun (e : MapEnt) => e.key == u / 64) (fun e => { e with cls := true }) x.bales }
     else { x with fines := mapIf (fun (e : MapEnt) => e.key == u) (fun e => { e with cls := true }) x.fines })

/-- Forget the mappings that `gone` picks, fine blocks without units included. -/
def forget (gone : MapEnt → Bool) (x : Shelf) : Shelf :=
  let fines' := x.fines.filter (fun e => !gone e)
  let bales' := x.bales.filter (fun e =>
    if e.state == 3 then fines'.any (fun f => f.key / 64 == e.key) else !gone e)
  let held (u : Nat) : Bool :=
    fines'.any (fun f => f.key == u) || bales'.any (fun b => b.state != 3 && b.key == u / 64)
  { x with
    fines := fines'
    bales := bales'
    sbs := x.sbs.map (fun b => { b with uses := b.uses.filter (fun e => held e.2) }) }

/-- Whether a mapping was written under a key. -/
def underKey (key : Nat) (e : MapEnt) : Bool := (e.state == 2 || e.state == 4) && e.keyId == key

/-- How many units mappings cover. -/
def unitsIn (gone : MapEnt → Bool) (x : Shelf) : Nat :=
  (x.bales.filter (fun e => e.state != 3 && gone e)).length * 64 + (x.fines.filter gone).length

/-- Mappings written under a key are discarded with a TRIM_KEY record, and a shelf whose key identifier it is has none any more
(R357). -/
def trimMaps (key : Nat) (x : Shelf) : Shelf :=
  let y := journal key 8 false (forget (underKey key) { x with discards := x.discards + unitsIn (underKey key) x })
  { y with keyId := if x.keyId = key then 0 else x.keyId }

/-- Carry out a map change: from then on its record is in the tail and it is in force (R345). -/
def applyChange (c : MapChange) (x : Shelf) : Shelf :=
  match c with
  | .map u bale sb slot seq key copy => mapTo u bale sb slot seq key copy x
  | .freeBale b => discardBale b x
  | .freeUnit u => discardUnit u x
  | .poison u => poisonMap u x
  | .cls u bale => setCls u bale x
  | .trim key => trimMaps key x

/-- Records that the tail holds: two halves of 512 (R345). -/
def tailCap : Nat := 1024

/-- A map change takes place at once, or waits, behind those that wait already, for room in the tail (R345). -/
def change (c : MapChange) (x : Shelf) : Shelf :=
  if x.changes.isEmpty && x.tail.length < tailCap then applyChange c x else { x with changes := x.changes ++ [c] }

/-- The changes that wait take place in order as far as the tail has room. -/
def flushChanges : Nat → Shelf → Shelf
  | 0, x => x
  | n + 1, x =>
    match x.changes with
    | [] => x
    | c :: cs => if x.tail.length < tailCap then flushChanges n (applyChange c { x with changes := cs }) else x

/-- Free an allocation of `units` 4 KiB units that lies at `addr` (R324, R349). -/
def heathFree (h addr units : Nat) (s : State) : State :=
  let u := addr / 4
  let k := balesOf units
  let n := finesOf units
  let fu := if k = 0 then u else u + 64 * k
  let x1 := (List.range k).foldl (fun x i => change (.freeBale (u / 64 + i)) x) (shelfOf s h)
  setShelf h ((List.range n).foldl (fun x i => change (.freeUnit (fu + i)) x) x1) s

/-- Units of an allocation: fine unit numbers of its whole bales' first units, and of its fine units. -/
def allocBales (addr units : Nat) : List Nat := (List.range (balesOf units)).map (fun i => addr / 4 / 64 + i)
def allocFines (addr units : Nat) : List Nat :=
  let fu := if balesOf units = 0 then addr / 4 else addr / 4 + 64 * balesOf units
  (List.range (finesOf units)).map (fun i => fu + i)

/-- Whether something is a write of a unit, or of a whole bale, that has not led to its mapping yet. -/
def opWrites (mine : Nat → Bool → Bool) (o : BridgeOp) : Bool :=
  match o.use with
  | .program u b _ _ _ none => mine u b
  | _ => false
def changeWrites (mine : Nat → Bool → Bool) (c : MapChange) : Bool :=
  match c with
  | .map u b _ _ _ _ false => mine u b
  | _ => false

/-- Whether no write that `mine` picks is under way, held, or waiting for its record. -/
def settledFor (x : Shelf) (mine : Nat → Bool → Bool) : Bool :=
  (x.ops ++ x.waiting).all (fun o => !opWrites mine o) && x.unplaced.all (fun w => w.victim.isSome || !mine w.unit w.bale) &&
  x.changes.all (fun c => !changeWrites mine c)

/-- Whether no write of a fine unit, or of a whole bale, is under way or held. -/
def pieceSettled (x : Shelf) (unit : Nat) (bale : Bool) : Bool :=
  settledFor x (fun u b => b == bale && (if bale then u / 64 == unit / 64 else u == unit))

/-- The pieces in which an allocation is programmed, in order: the first fine unit, whether a whole bale, and how many of the
allocation's 4 KiB units lie up to the piece's end. -/
def allocPieces (addr units : Nat) : List (Nat × Bool × Nat) :=
  let k := balesOf units
  (List.range k).map (fun i => ((addr / 4 / 64 + i) * 64, true, 256 * (i + 1))) ++
    (List.range (finesOf units)).map (fun i => ((if k = 0 then addr / 4 else addr / 4 + 64 * k) + i, false, min units (256 * k + 4 * (i + 1))))

/-- Whether every unit of an allocation is mapped or was never written: no write of it is under way or held. -/
def allocSettled (x : Shelf) (addr units : Nat) : Bool :=
  settledFor x (fun u bale => if bale then (allocBales addr units).contains (u / 64) else (allocFines addr units).contains u)

/-- Whether any unit of an allocation is poisoned. -/
def allocPoisoned (x : Shelf) (addr units : Nat) : Bool :=
  (allocBales addr units).any (fun b => match baleEnt x b with | some e => e.state == 4 | none => false) ||
  (allocFines addr units).any (fun u => match fineEnt x u with | some e => e.state == 4 | none => false)

/-- Whether a unit is poisoned. -/
def unitPoisoned (x : Shelf) (u : Nat) : Bool :=
  (baleEnt x (u / 64)).any (fun e => e.state == 4) || (fineEnt x u).any (fun e => e.state == 4)

end Sys2Proof.Machine
end

