-- ==== Sys2Proof/Machine/Pool.lean ====
section
/-! DEFINITION. Where data lies: the pool and the partitions' use of it (R305, R306, R308, R508), placement (R299),
allocation in each tier, references and freeing (R139), copies on write (R150), and the index entries that publish
columns (R265, R285). -/

namespace Sys2Proof.Machine

/-! ## Use (R305, R308) -/

def stacksUp (s : State) : Nat := ((List.range 24).filter (fun c => s.objs.stacksUp.getLsbD c)).length

/-- Pool size in 4 KiB units: 64 GiB a stack, less 1/32 for tags and 64 GiB reserved (R305, R508). -/
def poolUnits (s : State) : Nat := (62 * stacksUp s - 64) * 262144

/-- 4 KiB units of an object's extent `i` (R295). -/
def extUnits (o : Obj) (i : Nat) : Nat := (min (o.size - i * 2 ^ 20) (2 ^ 20)) / 4096

/-- Units at a tier of an item with a home and perhaps an image. -/
def unitsAt (t : Tier) (home : Loc) (image : Option Loc) (n : Nat) : Nat :=
  (if home.tier == t then n else 0) +
    (match image with
      | some l => if l.tier == t then n else 0
      | none => 0)

def indexed {α : Type} (l : List α) : List (Nat × α) := (List.range l.length).zip l

def objUnitsAt (t : Tier) (o : Obj) : Nat :=
  sumBy (fun x => unitsAt t x.2.home x.2.image (extUnits o x.1)) (indexed o.exts)

/-- Units set aside for a sheet's entries (R151, R190). -/
def setAsideUnits (s : State) (p : Nat) : Nat :=
  sumBy (fun h => if h.partition == p then
    sumBy (fun e =>
      match findSeq s e.seq with
      | some q => e.setAside * columnUnits s q.model
      | none => 0) h.entries else 0) s.sheets.admitted

/-- Units in heath that the data of a partition's columns takes on its way through the save ring (R280). -/
def ringUnits (s : State) (p : Nat) : Nat :=
  sumBy (fun e =>
    match e.item with
    | .data k _ n => if (findCol s k).any (fun c => c.part == p) then n else 0
    | _ => 0) s.pfx.ring

/-- Partition `p`'s use of a tier in 4 KiB units, space that tier copies and durability copies in flight hold included. -/
def useOf (s : State) (t : Tier) (p : Nat) : Nat :=
  sumBy (fun c => if c.part == p then unitsAt t c.home c.image (columnUnits s c.model) else 0) s.kv.cols +
  sumBy (fun o => if o.part == p then objUnitsAt t o else 0) s.objs.objs +
  sumBy (fun m => if m.part == p && m.dest.tier == t then m.units else 0) s.objs.moves +
  (if t == .meadow then
    sumBy (fun q => if q.part == p then listUnits q.cols.length + coilUnits s q.model else 0) s.kv.seqs +
      setAsideUnits s p
  else if t == .heath then ringUnits s p
  else 0)

def lentBytes (s : State) : Nat := sumBy (fun l => if l.lent then l.bytes else 0) s.pasture.leases
def borrowedBytes (s : State) : Nat := sumBy (fun l => if l.lent || l.lostAt.isSome then 0 else l.bytes) s.pasture.leases

/-- Free pool units (R306). -/
def poolFree (s : State) : Nat := poolUnits s - sumBy (useOf s .meadow) (List.range 32) - lentBytes s / 4096

def partIx (p : Nat) : Nat := 0xE000 + 0x80 * p
def guarantee (s : State) (p : Nat) : Nat := od s (partIx p) 0x01 / 4096

/-- A maximum above the pool acts as the pool (R508). -/
def maximum (s : State) (p : Nat) : Nat := min (od s (partIx p) 0x02 / 4096) (poolUnits s)

/-- What the other partitions' guarantees still keep (R306). -/
def owedOthers (s : State) (p : Nat) : Nat :=
  sumBy (fun q => if q == p then 0 else guarantee s q - useOf s .meadow q) (List.range 32)

/-- Whether `n` units of meadow can be had for a partition, or why not (R306). -/
def meadowCheck (s : State) (p n : Nat) : Status :=
  if n = 0 then .ok
  else
    let u := useOf s .meadow p
    if maximum s p < u + n then .quota
    else if (u + n ≤ guarantee s p && n ≤ poolFree s) || owedOthers s p + n ≤ poolFree s then .ok
    else .noSpace

/-! ## Placement (R299) -/

def maskStacks (mask : Nat) : List Nat := (List.range 24).filter (fun c => bitOf mask c)

/-- Units of the coil of a sequence. -/
def coilLocUnits (s : State) (q : Seq) (c : Coil) : Nat :=
  ((modelGroups s q.model).find? (fun g => g.idx == c.group)).elim 0 (fun g => ceilDiv (coilBytes g) 4096)

/-- Units on stack `c`: columns and extents with their images, list blocks, coils, columns set aside, and the space that tier
copies in flight hold (R305). -/
def stackUse (s : State) (c : Nat) : Nat :=
  let on (l : Loc) (n : Nat) : Nat := if l.tier == .meadow && l.unit == c then n else 0
  let at_ (home : Loc) (image : Option Loc) (n : Nat) : Nat := on home n + image.elim 0 (fun l => on l n)
  sumBy (fun k => at_ k.home k.image (columnUnits s k.model)) s.kv.cols +
    sumBy (fun o => sumBy (fun x => at_ x.2.home x.2.image (extUnits o x.1)) (indexed o.exts)) s.objs.objs +
    sumBy (fun q => sumBy (fun l => on l 1) (q.root.toList ++ q.blocks) + sumBy (fun k => on k.loc (coilLocUnits s q k)) q.coils)
      s.kv.seqs +
    sumBy (fun h => sumBy (fun e => sumBy (fun l => on l ((findSeq s e.seq).elim 0 (fun q => columnUnits s q.model))) e.asideAt)
      h.entries) s.sheets.admitted +
    sumBy (fun m =>
      if m.places.isEmpty then on m.dest m.units
      else sumBy (fun x => on x.2 (min 256 (m.units - 256 * x.1))) (indexed m.places)) s.objs.moves

/-- The stack for item `i` under a mask: b_(i mod n), then the mask's later stacks wrapping round, then every other
stack in ascending order; stacks out of service are skipped (R299, R508). `extra` is what the same action has placed so far, by
stack and units. -/
def chooseStack (s : State) (extra : List (Nat × Nat)) (mask i n : Nat) : Nat :=
  let m := maskStacks mask
  let k := if m.length = 0 then 0 else i % m.length
  let order := m.drop k ++ m.take k ++ (List.range 24).filter (fun c => !m.contains c)
  let up := order.filter (fun c => s.objs.stacksUp.getLsbD c)
  let more (c : Nat) : Nat := sumBy (fun x => if x.1 == c then x.2 else 0) extra
  (up.find? (fun c => stackUse s c + more c + n ≤ Config.stackUnits (stacksUp s) c)).getD (up.headD 0)

/-- A meadow place: its stack by R299; its address there is the device's choice (log entry 2). -/
def meadowLoc (s : State) (mask i n : Nat) : Loc :=
  let c := chooseStack s [] mask i n
  { tier := .meadow, unit := c, addr := Config.addressIn c s.fresh }

/-- Meadow places for several items, given by index and units: each sees those before it. -/
def meadowLocs (s : State) (mask : Nat) (items : List (Nat × Nat)) : List Loc :=
  (items.foldl (fun (a : List (Nat × Nat) × List Loc) x =>
    let c := chooseStack s a.1 mask x.1 x.2
    (a.1 ++ [(c, x.2)], a.2 ++ [{ tier := .meadow, unit := c, addr := Config.addressIn c (s.fresh + a.2.length) }])) ([], [])).2

/-- Draw `n` free values. -/
def draws (n : Nat) (s : State) : State := { s with fresh := s.fresh + n }

/-- Give a sequence the list blocks that its column count needs, on the lowest stacks of its mask with space, and give back those
it no longer needs (R136, R299). -/
def fitList (id : Nat) (s : State) : State :=
  match findSeq s id with
  | none => s
  | some q =>
    let want := ceilDiv q.cols.length 1024
    let missing := (want - q.blocks.length) + (if q.root.isNone && want != 0 then 1 else 0)
    let ls := meadowLocs s (policyOf s q.part q.policy).stackMask (List.replicate missing (0, 1))
    let root := if want = 0 then none else if q.root.isNone then ls.head? else q.root
    let more := if q.root.isNone && want != 0 then ls.drop 1 else ls
    setSeq { q with root := root, blocks := q.blocks.take want ++ more } (draws missing s)

/-! ## Leases as a tier (R304, R308, R317) -/

/-- Units of a borrowed lease that homes, images and moves hold. -/
def leaseUse (s : State) (id : Nat) : Nat :=
  let at_ (l : Loc) (n : Nat) : Nat := if l.tier == .pasture && l.unit == id then n else 0
  let im (i : Option Loc) (n : Nat) : Nat := match i with | some l => at_ l n | none => 0
  sumBy (fun k => at_ k.home (columnUnits s k.model) + im k.image (columnUnits s k.model)) s.kv.cols +
    sumBy (fun o => sumBy (fun x => at_ x.2.home (extUnits o x.1) + im x.2.image (extUnits o x.1)) (indexed o.exts))
      s.objs.objs +
    sumBy (fun m => at_ m.dest m.units) s.objs.moves

/-- Units of `n` bytes of a lease that data can take: the last 1/32 holds tags (R452). -/
def leaseUnits (n : Nat) : Nat := n * 31 / 32 / 4096

/-- Units of a lease not recalled and not held. -/
def leaseRoom (s : State) (l : Lease) : Nat := leaseUnits (l.bytes - sumBy (fun r => r.bytes) l.recalls) - leaseUse s l.id

def leaseFor (s : State) (n : Nat) : Option Lease :=
  s.pasture.leases.find? (fun l => !l.lent && l.lostAt.isNone && n ≤ leaseRoom s l)

/-! ## Allocation in a tier -/

/-- Allocate `n` units for a partition: the place and the state, or why not (R306, R308). A meadow place is chosen under
the mask for item `i`. -/
def allocate (t : Tier) (p n mask i : Nat) (cls : Bool) (s : State) : Except Status (Loc × State) :=
  match t with
  | .meadow =>
    match meadowCheck s p n with
    | .ok => .ok (meadowLoc s mask i n, drawn s)
    | st => .error st
  | .heath =>
    if od s (partIx p) 0x04 / 4096 < useOf s .heath p + n then .error .quota
    else
      match heathAlloc n cls s with
      | some r => .ok r
      | none => .error .noSpace
  | .pasture =>
    if od s (partIx p) 0x05 / 4096 < useOf s .pasture p + n then .error .quota
    else
      match leaseFor s n with
      | some l => .ok ({ tier := .pasture, unit := l.id, addr := Config.addressIn l.id s.fresh }, drawn s)
      | none => .error .noSpace

/-- Give back a place: heath space is discarded (R349); other tiers' use is what lies there. -/
def freeLoc (l : Loc) (n : Nat) (s : State) : State :=
  if l.tier == .heath then heathFree l.unit l.addr n s else s

def freeOpt (l : Option Loc) (n : Nat) (s : State) : State :=
  match l with
  | some x => freeLoc x n s
  | none => s

/-! ## References (R139) -/

/-- Mark an item as being moved, or no longer (R138, R301). -/
def setMoving (v : Bool) (i : MoveItem) (s : State) : State :=
  match i with
  | .col k =>
    match findCol s k with
    | some c => setCol { c with moving := v } s
    | none => s
  | .ext o n =>
    match findObj s o with
    | some x => setObj { x with exts := (indexed x.exts).map (fun e => if e.1 == n then { e.2 with moving := v } else e.2) } s
    | none => s
  | .plain o =>
    match findObj s o with
    | some x => setObj { x with exts := x.exts.map (fun e => { e with moving := v }) } s
    | none => s

/-- What a command read was last used in the current step once it is over (R156): columns, and the sequence that it names, if
any, where it has read one of its columns. -/
def readOver (d : Desc) (slots : List Nat) (s : State) : State :=
  let step := Pos.step s.wheel.cur
  let s1 := { s with kv := { s.kv with cols := mapIf (fun c => slots.contains c.slot) (fun c => { c with lastUsed := step }) s.kv.cols } }
  if slots.isEmpty then s
  else
    match findSeq s1 (dSeq d) with
    | none => s1
    | some q => if q.cols.any slots.contains then setSeq { q with lastUsed := step } s1 else s1

/-- A command whose tier copy is given up ends with the reason once it has no other in flight; an abandoned sweep move
is counted (OD 0x5000:08). -/
def moveGone (st : Status) (m : Move) (s : State) : State :=
  let ofCmd (id : Nat) : State :=
    match findCmd s id with
    | none => s
    | some c =>
      match c.work with
      | .moves left acted failed read =>
        let left' := left.filter (fun x => x != m.id)
        if left'.isEmpty then complete c (failed.getD st) 0 (readOver c.desc read s)
        else setWork id (.moves left' acted (some (failed.getD st)) read) s
      | _ => s
  match m.cause with
  | .cmd id => ofCmd id
  | .appendTo id => ofCmd id
  | .sweep => bump64 0x5000 0x08 s
  | _ => s

/-- Give up tier copies of the items that `p` picks, for the reason `st`, with the space they hold. -/
def abandonMoves (p : MoveItem → Bool) (st : Status) (s : State) : State :=
  let gone := s.objs.moves.filter (fun m => p m.item)
  let s1 := forEach (fun m t => setMoving false m.item (freeLoc m.dest m.units t)) gone s
  let s2 := { s1 with objs := { s1.objs with moves := s1.objs.moves.filter (fun m => !p m.item) } }
  forEach (moveGone st) gone s2

/-- Give up the sweep moves of the items that `p` picks, which have become exceptions of R310 (R311). -/
def abandonSweepOf (p : MoveItem → Bool) (s : State) : State :=
  abandonMoves (fun i => p i && s.objs.moves.any (fun m => m.item == i && m.cause == .sweep)) .conflict s

def isColItem (slot : Nat) : MoveItem → Bool
  | .col k => k == slot
  | _ => false

def isObjItem (id : Nat) : MoveItem → Bool
  | .col _ => false
  | .ext o _ => o == id
  | .plain o => o == id

/-- Whether an entry of the save ring belongs to a column. -/
def ringOf (slot : Nat) (e : RingEntry) : Bool :=
  match e.item with
  | .data k _ _ => k == slot
  | .cls k _ _ => k == slot
  | .publish k _ => k == slot
  | .withdraw _ => false

/-- Take a column out of the durability queue and the save ring, with the heath copy that was being made. -/
def leaveRing (slot : Nat) (s : State) : State :=
  let s1 := forEach (fun (e : RingEntry) t =>
    match e.item with
    | .data k l n => if k == slot then freeLoc l n t else t
    | _ => t) s.pfx.ring s
  { s1 with pfx := { s1.pfx with
      durQueue := s1.pfx.durQueue.filter (fun x => x != slot)
      ring := s1.pfx.ring.filter (fun e => !ringOf slot e) } }

/-- Free a column: its space returns, its slot's generation advances. -/
def freeCol (c : Col) (s : State) : State :=
  let n := columnUnits s c.model
  let s1 := leaveRing c.slot (freeOpt c.image n (freeLoc c.home n (abandonMoves (isColItem c.slot) .badObject s)))
  { s1 with kv := { s1.kv with
      cols := s1.kv.cols.filter (fun x => x.slot != c.slot)
      gens := insertKey c.slot ((c.gen + 1) % 8) s1.kv.gens } }

/-- Drop one reference of a column, freeing it at zero. -/
def dropRef (slot : Nat) (s : State) : State :=
  match findCol s slot with
  | none => s
  | some c => if c.refs ≤ 1 then freeCol { c with refs := 0 } s else setCol { c with refs := c.refs - 1 } s

def addRef (slot : Nat) (s : State) : State :=
  match findCol s slot with
  | none => s
  | some c => setCol { c with refs := c.refs + 1 } s

/-! ## New columns and copies (R137, R150, R298) -/

/-- The next slot in increasing order after the last, wrapping after `top` to 1 and skipping those in use. -/
def nextFree (top : Nat) (used : List Nat) : Nat → Nat → Nat
  | 0, n => n
  | k + 1, n =>
    let m := if top ≤ n then 1 else n + 1
    if used.contains m then nextFree top used k m else m

def nextSlot (s : State) : Nat :=
  nextFree 268435455 (s.kv.cols.map (fun c => c.slot)) (s.kv.cols.length + 1) s.kv.lastSlot

/-- A new open column of a partition and model at a place. -/
def newCol (part model policy : Nat) (home : Loc) (fill : Nat) (rows : List KvRow) (s : State) : Nat × State :=
  let k := nextSlot s
  let c : Col :=
    { slot := k, gen := lookupD s.kv.gens k 0, part := part, model := model, fill := fill, home := home,
      policy := policy, lastUsed := 0, rows := rows }
  (k, { s with kv := { s.kv with cols := s.kv.cols ++ [c], lastSlot := k } })

/-- Where a copy under R150 of the column at list index `i` goes: first the stack of the column that it replaces. -/
def copyLoc (s : State) (old : Loc) (mask i n : Nat) : Loc :=
  if old.tier == .meadow && stackUse s old.unit + n ≤ Config.stackUnits (stacksUp s) old.unit then
    { tier := .meadow, unit := old.unit, addr := Config.addressIn old.unit s.fresh }
  else meadowLoc s mask i n

/-- Copy a column for a writing sequence (R150): a new open column in the same tier, holding the rows below `keep`, in
place of the old one in the sequence's list; the old one, read in the current step (R156), loses a reference. A poisoned column
is never copied. A `forced` copy takes meadow space that was set aside (R151), where the write that follows needs it (R302). -/
def copyColBy (forced : Bool) (q : Seq) (idx : Nat) (keep : Nat) (s : State) : Except Status (Nat × State) :=
  match findCol s (nth q.cols idx) with
  | none => .error .badObject
  | some c =>
    if c.poisoned then .error .poisoned
    else
      let n := columnUnits s c.model
      let mask := (policyOf s q.part q.policy).stackMask
      let got := if forced then .ok (meadowLoc s mask idx n, drawn s) else allocate c.home.tier q.part n mask idx false s
      match got with
      | .error st => .error st
      | .ok (l, s1) =>
        let loc := if c.home.tier == .meadow then copyLoc s c.home mask idx n else l
        let r := newCol q.part q.model q.policy loc (min c.fill keep) (c.rows.filter (fun x => x.row < keep)) s1
        let step := Pos.step s.wheel.cur
        let s2 := setCol { c with lastUsed := step } (setSeq { q with cols := q.cols.set idx r.1, lastUsed := step } r.2)
        .ok (r.1, bump64 0x4000 0x05 (dropRef c.slot s2))

def copyCol (q : Seq) (idx : Nat) (keep : Nat) (s : State) : Except Status (Nat × State) := copyColBy false q idx keep s

/-! ## Index entries (R264, R265, R285) -/

def findEntry (s : State) (no : Nat) : Option PEntry := s.pfx.entries.find? (fun e => e.no == no)

/-- The entry that publishes a column slot: its back-reference (R265). -/
def entryOf (s : State) (slot : Nat) : Option PEntry := s.pfx.entries.find? (fun e => e.column == slot)

def isPublished (s : State) (slot : Nat) : Bool := (entryOf s slot).isSome

/-- Unlink an entry from its parent and siblings. -/
def unlinkEntry (e : PEntry) (l : List PEntry) : List PEntry :=
  (l.filter (fun x => x.no != e.no)).map (fun x =>
    let x1 := if x.no == e.parent && x.child == e.no then { x with child := e.next } else x
    let x2 := if x1.no == e.prev then { x1 with next := e.next } else x1
    if x2.no == e.next then { x2 with prev := e.prev } else x2)

/-- The withdrawal record of a logged entry (R285, R287). -/
def withdrawalOf (s : State) (e : PEntry) : LogRec :=
  { fp := 0, tag := 0, tokens := [], recNo := s.pfx.nextRec, target := e.recNo, part := e.part, withdrawal := true,
    units := 0, addr := 0 }

/-- Withdraw one entry without children (R285): unlinked; the column is published and durable no more and loses the
index's reference; a logged entry's withdrawal record enters the reference-count tail (R473); no entry that a rebuild
makes later stands below it (R267). -/
def withdrawOne (log : Bool) (e : PEntry) (s : State) : State :=
  let s1 := { s with pfx := { s.pfx with
    entries := unlinkEntry e s.pfx.entries, rebuilt := s.pfx.rebuilt.filter (fun x => x.2 != e.no) } }
  let s2 :=
    if e.logged && log then
      { s1 with pfx := { s1.pfx with rcTail := s1.pfx.rcTail ++ [withdrawalOf s e], nextRec := s1.pfx.nextRec + 1 } }
    else s1
  let s3 := leaveRing e.column s2
  match findCol s3 e.column with
  | some c => dropRef e.column (setCol { c with dur := if c.dur == .failed then .failed else .none } s3)
  | none => s3

/-- Entries below one, breadth first. -/
def entriesBelow (s : State) : Nat → List Nat → List Nat
  | 0, _ => []
  | n + 1, nos =>
    let kids := (s.pfx.entries.filter (fun e => nos.contains e.parent)).map (fun e => e.no)
    if kids.isEmpty then [] else kids ++ entriesBelow s n kids

/-- Withdraw the entries with the given numbers, in that order. -/
def withdrawAll (log : Bool) (nos : List Nat) (s : State) : State :=
  forEach (fun n t =>
    match findEntry t n with
    | some e => withdrawOne log e t
    | none => t) nos s

/-- Withdraw an entry and every descendant, leaves first. -/
def withdrawTree (log : Bool) (no : Nat) (s : State) : State :=
  withdrawAll log ((entriesBelow s s.pfx.entries.length [no]).reverse ++ [no]) s

/-! ## Durability that fails (R283) -/

def setDur (slot : Nat) (v : Dur) (s : State) : State :=
  match findCol s slot with
  | some c => setCol { c with dur := v } s
  | none => s

/-- The event of R281 or R283. -/
def durEvent (st : Status) (slot low : Nat) (s : State) : State :=
  match findCol s slot with
  | some c => event st (some c.part) 0 0 (colId c * 2 ^ 32 + low) s
  | none => s

/-- A column, and its descendants that are in state 1. -/
def withQueued (s : State) (slot : Nat) : List Nat :=
  let below : List Nat :=
    match entryOf s slot with
    | some e => (entriesBelow s s.pfx.entries.length [e.no]).filterMap (fun n => (findEntry s n).map (fun (x : PEntry) => x.column))
    | none => []
  slot :: below.filter (fun k => (findCol s k).any (fun (c : Col) => c.dur == .queued))

/-- Write the durability bytes of a commit's result records (R277). -/
def writeDurs (p dst : Nat) (slots : List Nat) (s : State) : State :=
  if dst = 0 then s
  else forEach (fun (x : Nat × Nat) t =>
    memWrite p (dst + 16 * x.1 + 5) [BitVec.ofNat 8 ((findCol t x.2).elim 0 (fun c => c.dur.code))] t) (indexed slots) s

def durableNow (s : State) (slots : List Nat) : Nat :=
  (slots.filter (fun k => (findCol s k).any (fun c => c.dur == .ring || c.dur == .heath))).length

/-- Complete a commit: durability bytes, and the columns durable now in the result. -/
def finishCommit (c : Cmd) (slots : List Nat) (res : Nat) (s : State) : State :=
  let named := slots.take (dfield c.desc 16 4)
  complete c .ok (res + durableNow s named * 2 ^ 64) (writeDurs c.part (dfield c.desc 32 8) named s)

/-- Whether a commit with `wait` no longer waits for a column: it is durable, or its durability failed, or its entry has been
withdrawn (DEDUCED, log entry 129). -/
def durOver (s : State) (slot : Nat) : Bool :=
  !isPublished s slot || (findCol s slot).all (fun c => c.dur == .ring || c.dur == .heath || c.dur == .failed)

/-- Complete the commits with `wait` whose columns have all reached state 2 or 3, or failed (R278). -/
def settleDurable (s : State) : State :=
  forEach (fun (c : Cmd) t =>
    match c.work with
    | .durable slots res => if slots.all (durOver t) then finishCommit c slots res t else t
    | _ => t) s.queues.cmds s

/-- A column whose durability cannot be reached enters state 4, with its descendants that are in state 1; each leaves the ring and
raises its event. Commits that waited for it go on (R278). -/
def failDur (st : Status) (slot : Nat) (s : State) : State :=
  settleDurable (forEach (fun k t => bump64 0x4020 0x08 (durEvent st k 0 (setDur k .failed (leaveRing k t)))) (withQueued s slot) s)

/-! ## Images -/

/-- Drop a column's read image (R293). -/
def dropColImage (slot : Nat) (s : State) : State :=
  match findCol s slot with
  | none => s
  | some c => setCol { c with image := none } (freeOpt c.image (columnUnits s c.model) s)

/-- Drop the image of an object's extent. -/
def dropExtImage (id i : Nat) (s : State) : State :=
  match findObj s id with
  | none => s
  | some o =>
    match o.exts[i]? with
    | none => s
    | some e => setObj { o with exts := o.exts.set i { e with image := none } } (freeOpt e.image (extUnits o i) s)

/-! ## Poison (R135, R286, R319, R320) -/

/-- Mark a column poisoned (R319): its image is dropped, its entry and descendants are withdrawn with one event (R286),
each sequence that lists it fails with one event (R135); jobs that need one of its tiles end with ST_POISONED (see `jobPoisoned`). -/
def poisonCol (slot : Nat) (s : State) : State :=
  match findCol s slot with
  | none => s
  | some c0 =>
    if c0.poisoned then s
    else
      let s1 := dropColImage slot s
      let c := (findCol s1 slot).getD c0
      let s2 := bump64 0x5000 0x0B (onlyIf (c.dur == .queued) (failDur .poisoned slot) (setCol { c with poisoned := true } s1))
      let s3 :=
        match entryOf s2 slot with
        | none => s2
        | some e =>
          let t := withdrawTree true e.no (addRef slot s2)
          let gone := s2.pfx.entries.length - t.pfx.entries.length
          dropRef slot (event .poisoned (some c.part) 0 0 (colId c * 2 ^ 32 + gone) t)
      let s4 := forEach (fun id t =>
        match findSeq t id with
        | some q => event .poisoned (some q.part) 0 0 (id * 2 ^ 40 + colId c) (setSeq { q with failed := true } t)
        | none => t) (holders s3 slot) s3
      abandonMoves (isColItem slot) .poisoned s4

/-- Mark an object poisoned (R320): every image dropped, one event with the object ID; `src` is what recorded it. -/
def poisonObj (id : Nat) (s : State) : State :=
  match findObj s id with
  | none => s
  | some o =>
    if o.poisoned then s
    else
      let s1 := forEach (fun i => dropExtImage id i) (List.range o.exts.length) (abandonMoves (isObjItem id) .poisoned s)
      let o1 := (findObj s1 id).getD o
      bump64 0x5000 0x0C (event .poisoned (some o.part) 0 0 (id * 2 ^ 32)
        (setObj { o1 with poisoned := true, rewritten := [] } s1))

end Sys2Proof.Machine
end

