-- ==== Sys2Proof/Machine/HeathPages.lean ====
section
/-! DEFINITION. What lies on flash: whose data a unit holds, the records and headers of heath's pages (R332, R338 to R344), stripes
(R336), what a page of each kind is programmed with (R338, R453), and what is read back from root, checkpoint and journal pages
(R335, R346, R347). -/

namespace Sys2Proof.Machine

/-! ## What a unit holds -/

/-- Whether an allocation of `n` 4 KiB units at a place covers a fine unit of a shelf. -/
def coversUnit (l : Loc) (n h u : Nat) : Bool :=
  l.tier == .heath && l.unit == h && l.addr ≤ u * 4 && u * 4 < l.addr + n

def optCovers (l : Option Loc) (n h u : Nat) : Bool := l.any (fun x => coversUnit x n h u)

/-- The column that a unit belongs to, and the object. -/
def unitCol (s : State) (h u : Nat) : Option Col :=
  s.kv.cols.find? (fun c => coversUnit c.home (columnUnits s c.model) h u || optCovers c.image (columnUnits s c.model) h u)

def unitObj (s : State) (h u : Nat) : Option Obj :=
  s.objs.objs.find? (fun o => (indexed o.exts).any (fun x =>
    coversUnit x.2.home (extUnits o x.1) h u || optCovers x.2.image (extUnits o x.1) h u))

/-- The column whose data takes a unit on its way through the save ring, by its slot, with its place. -/
def unitRing (s : State) (h u : Nat) : Option (Nat × Loc) :=
  s.pfx.ring.findSome? (fun e =>
    match e.item with
    | .data k l n => if coversUnit l n h u then some (k, l) else none
    | _ => none)

/-- The fine unit of the heath prefix log at a unit. -/
def unitLog (s : State) (h u : Nat) : Option LogUnit :=
  s.pfx.logUnits.find? (fun g => g.place.unit == h && g.place.addr == u * 4)

/-- The tier copy that a unit is the source of, or the target. -/
def unitMove (s : State) (h u : Nat) (target : Bool) : Option Move :=
  s.objs.moves.find? (fun m =>
    if target then coversUnit m.dest m.units h u
    else
      match m.item with
      | .col k => (unitCol s h u).any (fun c => c.slot == k)
      | .ext o _ => (unitObj s h u).any (fun x => x.id == o)
      | .plain o => (unitObj s h u).any (fun x => x.id == o))

/-! ## Records (R328, R332, R338, R340 to R344) -/

/-- Bytes of a page, and of its metadata (R326). -/
def pageSize : Nat := 16384
def spareSize : Nat := 128

/-- A byte string of `n` bytes: cut, or filled with zeros. -/
def fit (n : Nat) (bs : Bytes) : Bytes := bs.take n ++ List.replicate (n - bs.length) 0

/-- A bridge request's header (R328): `length` data bytes follow. -/
def bridgeBytes (o : BridgeOp) : Bytes :=
  recordOf [(1, o.op), (1, 0), (2, o.tag), (1, o.channel), (1, o.lun), (1, 0), (1, 0), (4, o.block), (4, o.page),
    (4, o.data.length), (2, 0), (2, 0), (8, 0)]

/-- A shelf record (R332). -/
def shelfRecBytes (g : ShelfRec) : Bytes :=
  recordOf [(16, g.bridgeId.toNat), (1, g.channels), (1, g.luns), (2, g.blocks), (2, g.pages), (2, g.pageBytes), (2, g.metaBytes),
    (2, g.tRead), (2, g.tProg), (2, g.tErase), (4, g.endurance), (28, 0)]

/-- One bit of CRC-32C, least significant first (PRESUMED, log entry 137). -/
def crc32cBit (c : Nat) : Nat := if c % 2 = 1 then (c / 2) ^^^ 0x82F63B78 else c / 2

def crc32cByte (c : Nat) (b : Byte) : Nat := (List.range 8).foldl (fun a _ => crc32cBit a) (c ^^^ b.toNat)

/-- CRC-32C of a byte string (R338). -/
def crc32c (bs : Bytes) : Nat := bs.foldl crc32cByte 0xFFFFFFFF ^^^ 0xFFFFFFFF

/-- Bytes 0 to 23 of a page header, over which its tag is made (R338, R453). -/
def pageHdrHead (h : PageHdr) : Bytes :=
  recordOf [(8, h.seq), (8, h.unit), (1, h.kind), (1, flagBit h.cls 0), (2, 0), (4, h.keyId)]

/-- A page header under a tag (R338). -/
def pageHdrBytes (h : PageHdr) (tag : Bytes) : Bytes :=
  let b := pageHdrHead h ++ tag ++ List.replicate 28 0
  b ++ natLe 4 (crc32c b)

/-- A bale map or fine map entry (R340, R341). -/
def mapWord (e : MapEnt) : Nat :=
  e.state * 2 ^ 61 + flagBit e.cls 60 + (if e.state = 2 then e.sb * 2 ^ 40 + e.slot * 2 ^ 24 else 0) +
    (if e.state = 3 then e.fine else 0)

/-- A superblock entry (R343). -/
def sbBytes (x : Superblock) : Bytes :=
  (List.range 16).flatMap (fun i => natLe 2 (nth x.blocks i)) ++
    recordOf [(2, x.group), (1, x.state), (1, x.stream), (4, x.uses.length), (4, x.stripes), (8, x.openSeq), (12, 0)]

/-- A block entry (R343): reads saturate at 24 bits. -/
def blockWord (b : BlockEnt) : Nat := b.erases * 2 ^ 32 + min b.reads (2 ^ 24 - 1) * 2 ^ 8 + b.state

/-- A journal record (R344). -/
def jrecBytes (j : JRec) : Bytes :=
  recordOf [(8, j.seq), (8, j.unit), (1, j.op), (1, flagBit j.cls 0), (2, 0), (4, j.sb), (2, j.slot), (6, 0)]

/-- A heath prefix record (R287). -/
def logRecBytes (r : LogRec) : Bytes :=
  recordOf [(16, r.fp), (8, r.tag)] ++ (List.range 16).flatMap (fun i => natLe 4 (r.tokens.getD i 0).toNat) ++
    recordOf [(8, r.recNo), (8, r.target), (1, r.part), (1, if r.withdrawal then 1 else 0), (2, 0), (4, r.units), (8, r.addr), (8, 0)]

/-! ## Stripes (R336) -/

/-- The XOR of two byte strings, the shorter one filled with zeros. -/
def xorBytes : Bytes → Bytes → Bytes
  | [], bs => bs
  | as, [] => as
  | a :: as, b :: bs => (a ^^^ b) :: xorBytes as bs

/-- A stripe with one more of its data pages programmed. -/
def Stripe.add (r : PageRec) (x : Stripe) : Stripe :=
  { x with pages := x.pages + 1, data := xorBytes x.data r.data, head := xorBytes x.head (r.spare.take 64) }

/-- The stripe of a superblock as it stands. -/
def stripeOf (b : Superblock) (p : Nat) : Stripe := (b.forming.find? (fun x => x.no == p)).getD { no := p }

/-! ## Sealing pages (R338, R453) -/

/-- The key of pages of a kind: of data, the heath tenancy key of the tenancy that a key identifier names, which is a free value where
the device does not hold its secret (DESIGN CHOICE, log entry 145); the device heath key otherwise. -/
def pageKey (s : State) (kind keyId : Nat) : Bytes :=
  if kind ≤ 1 then
    heathTenancyKey (if s.sec.heathKeyId = keyId then s.sec.tenSecret.getD (Config.free 256 (2 ^ 64 + keyId))
      else Config.free 256 (2 ^ 64 + keyId))
  else deviceHeathKey (s.sec.pufRoot.getD 0)

/-- The stored form of a page's data. -/
def sealData (key : Bytes) (h : PageHdr) (plain : Bytes) : Bytes :=
  Config.xtsEnc (BitVec.ofNat 512 (leNat (key.take 64))) (pageTweak h.unit h.seq) plain

/-- The plain form of a page's stored data. -/
def openData (key : Bytes) (h : PageHdr) (stored : Bytes) : Bytes :=
  Config.xtsDec (BitVec.ofNat 512 (leNat (key.take 64))) (pageTweak h.unit h.seq) stored

/-- A header under its tag, then zeros, or what a parity page has there. -/
def spareOf (key : Bytes) (h : PageHdr) (stored rest : Bytes) : Bytes :=
  pageHdrBytes h (pageTag (key.drop 64) (pageHdrHead h) stored) ++ fit 64 rest

/-- The page record of a page of a kind other than 2. -/
def sealPage (s : State) (h : PageHdr) (plain : Bytes) : PageRec :=
  let key := pageKey s h.kind h.keyId
  let stored := sealData key h (fit pageSize plain)
  { data := stored, spare := spareOf key h stored [] }

/-- The parity page of a stripe, under the device heath key and not encrypted again. -/
def parityPage (s : State) (seq : Nat) (x : Stripe) : PageRec :=
  { data := x.data, spare := spareOf (pageKey s 2 0) { seq := seq, unit := x.no, kind := 2 } x.data x.head }

/-! ## Reading headers back -/

/-- The header in a page's metadata bytes. -/
def hdrOf (spare : Bytes) : PageHdr :=
  { seq := fieldAt spare 0 8, unit := fieldAt spare 8 8, kind := fieldAt spare 16 1, cls := bitOf (fieldAt spare 17 1) 0,
    keyId := fieldAt spare 20 4 }

/-- Whether a header's `hcrc` is right. -/
def hcrcOk (spare : Bytes) : Bool := fieldAt spare 60 4 == crc32c (spare.take 60)

/-- Whether the device holds the key of a page. -/
def pageKeyHeld (s : State) (h : PageHdr) : Bool := 2 ≤ h.kind || (h.keyId == s.sec.heathKeyId && s.sec.tenSecret.isSome)

/-- Whether a page's tag verifies under the key of its kind; without the key it cannot be found wrong (DESIGN CHOICE, log entry
145). -/
def pageTagOk (s : State) (r : PageRec) : Bool :=
  let h := hdrOf r.spare
  !pageKeyHeld s h || (r.spare.drop 24).take 8 == pageTag ((pageKey s h.kind h.keyId).drop 64) (pageHdrHead h) r.data

/-- The plain data of a page. -/
def pagePlain (s : State) (r : PageRec) : Bytes :=
  let h := hdrOf r.spare
  openData (pageKey s h.kind h.keyId) h r.data

/-! ## What a unit is written with -/

/-- The 16,384 bytes from unit `u` on of what lies from a place on. -/
def sliceOf (l : Loc) (u : Nat) (bs : Bytes) : Bytes := (bs.drop ((u * 4 - l.addr) * 4096)).take pageSize

/-- The bytes of a column, and of an object's extent. -/
def colContent (s : State) (c : Col) : Bytes := columnImage s c.model c.rows
def extContent (s : State) (o : Obj) (i : Nat) : Bytes := memRead s o.part (o.off + i * 2 ^ 20) (extUnits o i * 4096)

/-- The bytes that a tier copy moves, and those of its item `i` where it moves a whole object. -/
def moveContent (s : State) (m : Move) (h u : Nat) : Bytes :=
  match m.item with
  | .col k => (findCol s k).elim [] (fun c => sliceOf m.dest u (colContent s c))
  | .ext o i => (findObj s o).elim [] (fun x => sliceOf m.dest u (extContent s x i))
  | .plain o =>
    (findObj s o).elim [] (fun x =>
      (((indexed m.places).find? (fun p => coversUnit p.2 256 h u)).elim [] (fun p => sliceOf p.2 u (extContent s x p.1))))

/-- The plain bytes that a unit is written with: of data in the save ring, of a record log, of a tier copy to it, of the column or the
object that lies there. -/
def unitPlain (s : State) (h u : Nat) : Bytes :=
  match unitRing s h u, unitLog s h u, unitMove s h u true, unitCol s h u, unitObj s h u with
  | some (k, l), _, _, _, _ => (findCol s k).elim [] (fun c => sliceOf l u (colContent s c))
  | none, some g, _, _, _ => g.recs.flatMap logRecBytes
  | none, none, some m, _, _ => moveContent s m h u
  | none, none, none, some c, _ =>
    let l := if coversUnit c.home (columnUnits s c.model) h u then c.home else c.image.getD c.home
    sliceOf l u (colContent s c)
  | none, none, none, none, some o =>
    ((indexed o.exts).find? (fun x => coversUnit x.2.home (extUnits o x.1) h u || optCovers x.2.image (extUnits o x.1) h u)).elim []
      (fun x =>
        let l := if coversUnit x.2.home (extUnits o x.1) h u then x.2.home else x.2.image.getD x.2.home
        sliceOf l u (extContent s o x.1))
  | none, none, none, none, none => []

/-- The class and key identifier that a page of a unit is written under: those of its map entry for a copy, the tenancy's key otherwise
(R325, R338). -/
def unitHdr (s : State) (x : Shelf) (u : Nat) (bale copy : Bool) (seq : Nat) : PageHdr :=
  let e := if bale then baleEnt x (u / 64) else fineEnt x u
  { seq := seq, unit := unitNo x u, kind := if bale then 0 else 1, cls := e.any (fun y => y.cls),
    keyId := if copy then e.elim 0 (fun y => y.keyId) else s.sec.heathKeyId }

/-! ## Checkpoints and root pages (R335, R346) -/

/-- Eight-byte words. -/
def wordsLe (ws : List Nat) : Bytes := ws.flatMap (natLe 8)

/-- The block of a shelf's block table at an index: LUN after LUN. -/
def blockAt (g : ShelfRec) (i : Nat) : Nat × Nat × Nat := (i / (g.blocks * g.luns), i / g.blocks % g.luns, i % g.blocks)

/-- Blocks of a shelf. -/
def shelfBlocks (g : ShelfRec) : Nat := g.channels * g.luns * g.blocks

/-- Superblock IDs: the field has 18 bits (R340). -/
def sbIds : Nat := 2 ^ 18

/-- The contents of a checkpoint, in the order of R346; the tables are laid out by block, by superblock ID and by bale (DESIGN CHOICE,
log entry 146). -/
def ckptBytes (x : Shelf) (g : ShelfRec) (base : Nat) (t : MapTables) : Bytes :=
  let blockOf (i : Nat) : BlockEnt :=
    let p := blockAt g i
    (t.blocks.find? (fun b => b.channel == p.1 && b.lun == p.2.1 && b.block == p.2.2)).getD
      { channel := p.1, lun := p.2.1, block := p.2.2, erases := base, reads := 0, state := if lunOutOf x p.1 p.2.1 then 5 else 0 }
  let word (o : Option MapEnt) : Nat := o.elim 0 mapWord
  let owners := t.bales.filter (fun e => e.state == 3)
  shelfRecBytes g ++ wordsLe ((List.range (shelfBlocks g)).map (fun i => blockWord (blockOf i))) ++
    (List.range sbIds).flatMap (fun i => ((t.sbs.find? (fun b => b.id == i)).map sbBytes).getD (List.replicate 64 0)) ++
    wordsLe ((List.range (2 ^ 26)).map (fun b => word (t.bales.find? (fun e => e.key == b)))) ++
    owners.flatMap (fun e => natLe 8 (baleNo x e.key) ++
      wordsLe ((List.range 64).map (fun i => word (t.fines.find? (fun f => f.key == e.key * 64 + i)))))

/-- Bytes of a checkpoint with `n` fine blocks, and where its parts start. -/
def ckptSbs (g : ShelfRec) : Nat := 64 + 8 * shelfBlocks g
def ckptMaps (g : ShelfRec) : Nat := ckptSbs g + 64 * sbIds
def ckptFines (g : ShelfRec) : Nat := ckptMaps g + 8 * 2 ^ 26
def ckptPages (g : ShelfRec) (n : Nat) : Nat := ceilDiv (ckptFines g + 520 * n) pageSize

/-- A superblock as a root page names it: its ID, then its entry. -/
def sbNamed (b : Superblock) : Bytes := natLe 4 b.id ++ sbBytes b

/-- A root page's data (R335, R346): the unit identifier, the shelf record, the key identifier, r and S as of the last format, the latest
checkpoint's first `seq`, place and pages, and the metadata superblocks in use; this order is the model's (DESIGN CHOICE, log
entry 146). -/
def rootBytesOf (unit : BitVec 128) (x : Shelf) (g : ShelfRec) : Bytes :=
  let metas := (x.sbs.filter (fun b => b.state == 4)).take 230
  natLe 16 unit.toNat ++ shelfRecBytes g ++
    recordOf [(4, x.keyId), (1, x.reserve), (3, 0), (8, x.capSum), (8, x.named.first), (4, x.named.sb), (4, x.named.slot),
      (4, x.named.pages), (4, metas.length)] ++ metas.flatMap sbNamed

/-! ## Reading them back (R335, R347) -/

/-- A superblock entry read from its 64 bytes; its valid slots are those of the maps. -/
def sbFrom (id : Nat) (bs : Bytes) : Superblock :=
  { id := id, blocks := (List.range 16).map (fun i => fieldAt bs (2 * i) 2), group := fieldAt bs 32 2, state := fieldAt bs 34 1,
    stream := fieldAt bs 35 1, stripes := fieldAt bs 40 4, openSeq := fieldAt bs 44 8, next := 0 }

/-- Whether a root page names a device, and a geometry (R335). -/
def rootNames (unit : BitVec 128) (g : ShelfRec) (d : Bytes) : Bool :=
  fieldAt d 0 16 == unit.toNat && (d.drop 32).take 10 == (shelfRecBytes g |>.drop 16).take 10

def rootKeyId (d : Bytes) : Nat := fieldAt d 80 4
def rootReserve (d : Bytes) : Nat := fieldAt d 84 1
def rootSum (d : Bytes) : Nat := fieldAt d 88 8
def rootCkpt (d : Bytes) : CkptAt :=
  { first := fieldAt d 96 8, sb := fieldAt d 104 4, slot := fieldAt d 108 4, pages := fieldAt d 112 4 }
def rootMetas (d : Bytes) : List Superblock :=
  (List.range (fieldAt d 116 4)).map (fun i => sbFrom (fieldAt d (120 + 68 * i) 4) ((d.drop (124 + 68 * i)).take 64))

/-- A journal record read from its 32 bytes; an empty place holds none. -/
def jrecFrom (bs : Bytes) : Option JRec :=
  let op := fieldAt bs 16 1
  if 1 ≤ op && op ≤ 8 then
    some { seq := fieldAt bs 0 8, unit := fieldAt bs 8 8, op := op, cls := bitOf (fieldAt bs 17 1) 0, sb := fieldAt bs 20 4, slot := fieldAt bs 24 2 }
  else none

/-- The records of a journal page. -/
def journalRecs (d : Bytes) : List JRec := (List.range 512).filterMap (fun i => jrecFrom ((d.drop (32 * i)).take 32))

/-- A map entry read from its word, of a mapping that was written under a key. -/
def entFrom (keyId key w : Nat) : Option MapEnt :=
  let st := bitsOf w 63 61
  if st = 0 then none
  else some { key := key, state := st, cls := bitOf w 60, sb := bitsOf w 57 40, slot := bitsOf w 39 24, fine := bitsOf w 22 0, keyId := keyId }

/-- The block entries of a checkpoint that say more than that a block is good and never erased. -/
def blocksFrom (g : ShelfRec) (d : Bytes) : List BlockEnt :=
  (List.range (shelfBlocks g)).filterMap (fun i =>
    let w := fieldAt d (64 + 8 * i) 8
    let p := blockAt g i
    if w = 0 then none
    else some { channel := p.1, lun := p.2.1, block := p.2.2, erases := bitsOf w 63 32, reads := bitsOf w 31 8, state := bitsOf w 3 0 })

/-- The fine entries of the blocks that a checkpoint holds. -/
def finesFrom (keyId : Nat) (g : ShelfRec) (n : Nat) (d : Bytes) : List MapEnt :=
  (List.range n).flatMap (fun i =>
    let at_ := ckptFines g + 520 * i
    let b := fieldAt d at_ 8 % 2 ^ 26
    (List.range 64).filterMap (fun j => entFrom keyId (b * 64 + j) (fieldAt d (at_ + 8 + 8 * j) 8)))

/-- The maps and tables that a checkpoint holds. Its map entries were written under the key of the root page. -/
def tablesFrom (keyId : Nat) (g : ShelfRec) (d : Bytes) : MapTables :=
  let bales := (List.range (2 ^ 26)).filterMap (fun b => entFrom keyId b (fieldAt d (ckptMaps g + 8 * b) 8))
  { blocks := blocksFrom g d
    sbs := (List.range sbIds).filterMap (fun i =>
      let b := sbFrom i ((d.drop (ckptSbs g + 64 * i)).take 64)
      if b.state = 0 then none else some b)
    bales := bales
    fines := finesFrom keyId g (bales.filter (fun e => e.state == 3)).length d }

end Sys2Proof.Machine
end

