-- ==== Sys2Proof/Machine/HeathIo.lean ====
section
/-! DEFINITION. What heath asks of the bridge (R328 to R331): superblocks and their slots (R333, R336, R337), page
programs (R338, R339), reads, and the order in which operations go out. -/

namespace Sys2Proof.Machine

/-- A heath port is in service when its Isver port is up or degraded and its shelf is not out of service. -/
def portUp (s : State) (n : Nat) : Bool :=
  match s.links.ports[n]? with
  | some p => p.state == 2 || p.state == 3
  | none => false

def heathUp (s : State) (h : Nat) : Bool := portUp s (32 + h)

/-- Whether a shelf programs what the save ring holds: it is ready, or at that step of its start-up (R356). -/
def shelfPrograms (x : Shelf) : Bool := x.state == 4 || x.boot.phase == .ring

/-- Whether a place lies on a heath port out of service. -/
def onDownPort (s : State) (l : Loc) : Bool := l.tier == .heath && !heathUp s l.unit

/-! ## Operation codes (R329) -/

def brIdentify : Nat := 0x01
def brParam : Nat := 0x02
def brBadmap : Nat := 0x03
def brRead : Nat := 0x10
def brReadMeta : Nat := 0x11
def brProgram : Nat := 0x20
def brErase : Nat := 0x30
def brReset : Nat := 0x50

/-- Whether an operation is a read, which goes ahead of programs and erases on its LUN (R331). -/
def isReadOp (o : BridgeOp) : Bool := o.op == brRead || o.op == brReadMeta

/-- Whether an operation works on the flash array of its LUN. -/
def isArrayOp (o : BridgeOp) : Bool := o.op == brRead || o.op == brReadMeta || o.op == brProgram || o.op == brErase

/-- Whether a read serves collection, or the rewrite of a retired block, which go on no further while the supply sags (R355). -/
def isCopyRead : OpUse → Bool
  | .read (.gc _ _) => true
  | .rebuild (.gc _ _) _ _ => true
  | .read (.rescue _) => true
  | .rebuild (.rescue _) _ _ => true
  | _ => false

/-- Whether an operation may go out: its LUN carries no array operation and is not being reset, fewer than 512 are
outstanding on the port, no other LUN of its group is erasing if it erases (R331), and it is a read that serves no collection while
the supply sags (R355). What is meant for a LUN out of service goes nowhere, and waits for nothing. -/
def opMayGo (sag : Bool) (x : Shelf) (o : BridgeOp) : Bool :=
  lunOutOf x o.channel o.lun ||
  (x.ops.length < 512 &&
  (!sag || (isReadOp o && !isCopyRead o.use)) &&
  (!isArrayOp o || !x.ops.any (fun y => (isArrayOp y || y.op == brReset) && y.channel == o.channel && y.lun == o.lun)) &&
  (!isArrayOp o || !x.waiting.any (fun y => y.op == brReset && y.channel == o.channel && y.lun == o.lun)) &&
  (o.op != brErase ||
    match x.geom with
    | none => true
    | some g => !x.ops.any (fun y => y.op == brErase && groupOfLun g y.channel y.lun == groupOfLun g o.channel o.lun)))

/-- The next waiting operation that may go: reads first, then arrival order. -/
def nextOp (sag : Bool) (x : Shelf) : Option BridgeOp :=
  match x.waiting.find? (fun o => isReadOp o && opMayGo sag x o) with
  | some o => some o
  | none => x.waiting.find? (fun o => opMayGo sag x o &&
      !x.waiting.any (fun y => isReadOp y && y.channel == o.channel && y.lun == o.lun))

/-! ## Egress class of a request (R412) -/

/-- Partition whose data a unit holds; 0 for device metadata. -/
def unitPart (s : State) (h u : Nat) : Nat :=
  match unitCol s h u, unitObj s h u, unitMove s h u true, unitRing s h u with
  | some c, _, _, _ => c.part
  | none, some o, _, _ => o.part
  | none, none, some m, _ => m.part
  | none, none, none, some r => (findCol s r.1).elim 0 (fun c => c.part)
  | none, none, none, none => 0

def causeClass : MoveBy → Nat
  | .cmd _ => 1
  | .appendTo _ => 1
  | .firing => 1
  | .sweep => 2
  | .recall _ => 2

def readClass (s : State) (h u : Nat) : Nat :=
  if s.host.cxlWaiting.any (fun w => w.asked && w.shelf == h && w.unit == u) then 0
  else
    match unitMove s h u false with
    | some m => causeClass m.cause
    | none => if (unitCol s h u).any (fun c => s.jobs.jobs.any (fun j => j.cols.contains c.slot)) then 0 else 1

def writeClass (s : State) (h u : Nat) : Nat :=
  match unitMove s h u true with
  | some m => causeClass m.cause
  | none => if (unitRing s h u).isSome || (unitLog s h u).isSome then 3 else 1

/-- The queue of a read by what it is for. -/
def readQueue (s : State) (h : Nat) : ReadFor → Nat
  | .host u => 4 * unitPart s h u + readClass s h u
  | .gc _ u => 4 * unitPart s h u + 3
  | .rescue u => 4 * unitPart s h u + 3
  | .boot => 3

/-- Egress queue of a request (R412); requests that the table does not name take class 3 (log entry 28). -/
def requestQueue (s : State) (h : Nat) (o : BridgeOp) : Nat :=
  match o.use with
  | .read w => readQueue s h w
  | .rebuild w _ _ => readQueue s h w
  | .program u _ _ _ _ none => 4 * unitPart s h u + writeClass s h u
  | .program u _ _ _ _ (some _) => 4 * unitPart s h u + 3
  | _ => 3

/-- Bytes of a request: its header, and a page record with a program (R328, R329). -/
def requestBytes (o : BridgeOp) : Nat := if o.op == brProgram then 32 + 16512 else 32

/-- The sealed page of a unit in the save ring (R473). -/
def ringPage (x : Shelf) (u : Nat) : Option PageRec := (x.sealed.find? (fun p => p.1 == u)).map (fun p => p.2)

/-- The page record that a program is sent with (R329, R338, R453): the data of its unit, as it was sealed where
it comes from the save ring; journal records, a part of the checkpoint, a root page, the parity of a stripe. -/
def requestPage (s : State) (h : Nat) (o : BridgeOp) : PageRec :=
  let x := shelfOf s h
  match o.use with
  | .program u bale _ _ seq v =>
    match v, ringPage x u with
    | none, some r => r
    | _, _ => sealPage s (unitHdr s x u bale v.isSome seq) (unitPlain s h u)
  | .parity sb p seq => (findSb x sb).elim {} (fun b => parityPage s seq (stripeOf b p))
  | .mpage _ _ seq (.journal i rs) => sealPage s { seq := seq, unit := i, kind := 3 } (rs.flatMap jrecBytes)
  | .mpage _ _ seq (.ckpt i) =>
    match x.geom, x.ckpt with
    | some g, some c => sealPage s { seq := seq, unit := i, kind := 4 } ((ckptBytes x g x.eraseBase c.tabs).drop (pageSize * i))
    | _, _ => {}
  | .root i seq => x.geom.elim {} (fun g => sealPage s { seq := seq, unit := i, kind := 5 } (rootBytesOf s.sec.unitId x g))
  | _ => {}

/-- An operation as it goes out. -/
def sentOp (s : State) (h : Nat) (o : BridgeOp) : BridgeOp :=
  if o.op == brProgram then
    let r := requestPage s h o
    { o with at_ := s.now, data := r.data ++ r.spare }
  else { o with at_ := s.now }

/-- Hand waiting operations to the port's egress queues. What is meant for a LUN out of service is not sent: it ends as what no
response comes for does (R331, R354). -/
def pumpShelf (h : Nat) : Nat → State → State
  | 0, s => s
  | n + 1, s =>
    let x := shelfOf s h
    if !heathUp s h then s
    else
      match nextOp s.power.kiln.sag.isSome x with
      | none => s
      | some o =>
        let k : QPkt := { len := requestBytes o, request := o.tag }
        let t := setShelf h { x with ops := x.ops ++ [sentOp s h o], waiting := x.waiting.filter (fun y => y.tag != o.tag) } s
        pumpShelf h n (if lunOutOf x o.channel o.lun then t else enqueue (32 + h) (requestQueue s h o) k t)

def pump (h : Nat) (s : State) : State := pumpShelf h (shelfOf s h).waiting.length s

/-- Queue an operation under the next tag. -/
def queueOp (op channel lun block page : Nat) (use : OpUse) (x : Shelf) : Shelf :=
  let o : BridgeOp :=
    { tag := x.nextTag, op := op, channel := channel, lun := lun, block := block, page := page, use := use, at_ := 0 }
  { x with waiting := x.waiting ++ [o], nextTag := (x.nextTag + 1) % 65536 }

/-! ## Superblocks (R333, R336, R337) -/

/-- Block entry of a block: where the table does not list it, good with the erase count of such blocks, unless its LUN is out of
service (R343). -/
def blockEnt (x : Shelf) (channel lun block : Nat) : BlockEnt :=
  (x.blocks.find? (fun b => b.channel == channel && b.lun == lun && b.block == block)).getD
    { channel := channel, lun := lun, block := block, erases := x.eraseBase, reads := 0, state := if lunOutOf x channel lun then 5 else 0 }

def setBlock (b : BlockEnt) (x : Shelf) : Shelf :=
  let same (y : BlockEnt) : Bool := y.channel == b.channel && y.lun == b.lun && y.block == b.block
  { x with blocks := if x.blocks.any same then x.blocks.map (fun y => if same y then b else y) else x.blocks ++ [b] }

/-- Blocks that superblocks hold at a position of a group. -/
def heldBlocks (x : Shelf) (group pos : Nat) : List Nat :=
  (x.sbs.filter (fun b => b.group == group)).map (fun b => nth b.blocks pos)

/-- The lowest block number from `i` on that is neither held nor listed. -/
def firstUnlisted (x : Shelf) (g : ShelfRec) (channel lun : Nat) (held : List Nat) : Nat → Nat → Option Nat
  | 0, _ => none
  | n + 1, i =>
    if g.blocks ≤ i then none
    else if held.contains i || (i == 0 && lun == 0 && channel ≤ 1) ||
        x.blocks.any (fun b => b.channel == channel && b.lun == lun && b.block == i) then
      firstUnlisted x g channel lun held n (i + 1)
    else some i

/-- The free block of a LUN with the lowest erase count, the lowest number winning ties (R333). -/
def freeBlock (x : Shelf) (g : ShelfRec) (group pos : Nat) : Option Nat :=
  let cl := lunAt g group pos
  let held := heldBlocks x group pos
  let mine := x.blocks.filter (fun b => b.channel == cl.1 && b.lun == cl.2 && b.state == 0 && !held.contains b.block &&
    !isRootBlock b)
  let fresh := firstUnlisted x g cl.1 cl.2 held (held.length + x.blocks.length + 2) 0
  let cands := mine.map (fun b => (b.erases, b.block)) ++ (match fresh with | some n => [(x.eraseBase, n)] | none => [])
  ((sortBy (fun a b => a.1 < b.1 || (a.1 == b.1 && a.2 < b.2)) cands).head?).map (fun c => c.2)

/-- Whether a group may open superblocks: none of its LUNs is out of service (R354). -/
def groupOk (x : Shelf) (g : ShelfRec) (group : Nat) : Bool :=
  (List.range 16).all (fun p => !lunOutOf x (lunAt g group p).1 (lunAt g group p).2)

/-- The blocks of a new superblock in a group, if each of its LUNs supplies one. -/
def newBlocks (x : Shelf) (g : ShelfRec) (group : Nat) : Option (List Nat) :=
  if groupOk x g group then (List.range 16).mapM (freeBlock x g group) else none

/-- The lowest superblock ID in its 18 bits that none has (R340; the lowest is the model's choice, log entry 16). -/
def freeSbId (x : Shelf) : Option Nat :=
  ((List.range (x.sbs.length + 1)).find? (fun n => !x.sbs.any (fun b => b.id == n))).filter (fun n => n < sbIds)

/-- Open a superblock for a stream (0 bale, 1 fine, 2 metadata) in the next group of its rotation (R337). -/
def openSb (stream : Nat) (x : Shelf) : Option (Nat × Shelf) :=
  match x.geom with
  | none => none
  | some g =>
    let order := (List.range (groupCount g)).map (fun i => (nth x.nextGroups stream + i) % groupCount g)
    match order.findSome? (fun n => (newBlocks x g n).map (fun b => (n, b))) with
    | none => none
    | some (n, b) =>
      (freeSbId x).map (fun id =>
        let sb : Superblock :=
          { id := id, group := n, blocks := b, state := if stream = 2 then 4 else 1, stream := stream, openSeq := x.seqCtr }
        (id, { x with sbs := x.sbs ++ [sb], nextGroups := x.nextGroups.set stream ((n + 1) % groupCount g) }))

def setSb (b : Superblock) (x : Shelf) : Shelf := { x with sbs := x.sbs.map (fun y => if y.id == b.id then b else y) }

def openOf (x : Shelf) (stream : Nat) : Option Nat :=
  if stream = 0 then x.openBale else if stream = 1 then x.openFine else x.openMeta

def setOpen (stream : Nat) (id : Option Nat) (x : Shelf) : Shelf :=
  if stream = 0 then { x with openBale := id }
  else if stream = 1 then { x with openFine := id }
  else { x with openMeta := id }

/-- Data slots of a superblock (R336). -/
def sbSlots (x : Shelf) : Nat :=
  match x.geom with
  | some g => 15 * g.pages
  | none => 0

/-- Position and page of a data slot (R336). -/
def slotPlace (slot : Nat) : Nat × Nat :=
  let p := slot / 15
  let k := slot % 15
  (if k < p % 16 then k else k + 1, p)

/-- `n` consecutive slots of a stream's open superblock, opening one where none is. A superblock whose slots are all taken stays open
until its last stripe is programmed, and the stream waits (R337); one with fewer than `n` slots left has its rest passed over.
Answers superblock and first slot. -/
def takeSlots (stream n : Nat) (x : Shelf) : Option (Nat × Nat × Shelf) :=
  let use (id : Nat) (y : Shelf) : Option (Nat × Nat × Shelf) :=
    (findSb y id).bind (fun b =>
      if b.next + n ≤ sbSlots y then some (id, b.next, setSb { b with next := b.next + n } y) else none)
  match openOf x stream with
  | some id => use id x
  | none => (openSb stream x).bind (fun r => use r.1 (setOpen stream (some r.1) r.2))

/-- Whether writes other than collection, journal and checkpoint must wait: free superblocks below 1/256 of all
(R350). -/
def writesWait (x : Shelf) : Bool :=
  match x.geom with
  | some g => freeSuperblocks x * 256 < superblockSum x g
  | none => true

/-- Queue the program of one page at a superblock's slot, under the `seq` that its page has drawn already, or the next (R339). -/
def programSlot (sb slot : Nat) (drawn : Option Nat) (use : Nat → OpUse) (x : Shelf) : Shelf :=
  match x.geom, findSb x sb with
  | some g, some b =>
    let pl := slotPlace slot
    let cl := lunAt g b.group pl.1
    queueOp brProgram cl.1 cl.2 (nth b.blocks pl.1) pl.2 (use (drawn.getD x.seqCtr))
      (if drawn.isSome then x else { x with seqCtr := x.seqCtr + 1 })
  | _, _ => x

/-- Queue the parity page of a stripe whose data pages are all programmed (R336). -/
def programParity (sb p : Nat) (x : Shelf) : Shelf :=
  match x.geom, findSb x sb with
  | some g, some b =>
    let cl := lunAt g b.group (p % 16)
    queueOp brProgram cl.1 cl.2 (nth b.blocks (p % 16)) p (.parity sb p x.seqCtr) { x with seqCtr := x.seqCtr + 1 }
  | _, _ => x

/-- A data page of a superblock has been programmed: its stripe takes it in, and after the fifteenth the parity page follows (R336). -/
def stripeDone (sb slot : Nat) (r : PageRec) (x : Shelf) : Shelf :=
  match findSb x sb with
  | none => x
  | some b =>
    let st := (stripeOf b (slot / 15)).add r
    let y := setSb { b with forming := st :: b.forming.filter (fun f => f.no != st.no) } x
    if st.pages = 15 then programParity sb st.no y else y

/-- A parity page has been programmed: its stripe is. -/
def parityDone (sb p : Nat) (x : Shelf) : Shelf :=
  match findSb x sb with
  | none => x
  | some b => setSb { b with stripes := b.stripes + 1, forming := b.forming.filter (fun f => f.no != p) } x

/-- Whether a program of the same unit is in flight (R342). -/
def unitBusy (x : Shelf) (unit : Nat) (bale : Bool) : Bool :=
  (x.ops ++ x.waiting).any (fun o =>
    match o.use with
    | .program u b _ _ _ _ => b == bale && (if bale then u / 64 == unit / 64 else u == unit)
    | _ => false)

/-- Issue the write of a fine unit, or of a whole bale by its first unit (R337, R338): 64 pages for a bale. `victim` is
the superblock that collection empties by it. Held where no superblock can be opened. -/
def writeUnit (victim : Option Nat) (unit : Nat) (bale : Bool) (x : Shelf) : Shelf :=
  let w : Unplaced := { unit := unit, bale := bale, victim := victim }
  let hold : Shelf := if x.unplaced.contains w then x else { x with unplaced := x.unplaced ++ [w] }
  if (victim.isNone && writesWait x) || unitBusy x unit bale then hold
  else
    match takeSlots (if bale then 0 else 1) (if bale then 64 else 1) x with
    | none => hold
    | some (sb, slot, y) =>
      let drawn (z : Shelf) (i : Nat) : Option Nat :=
        if victim.isNone then (ringPage z (unit + i)).map (fun r => (hdrOf r.spare).seq) else none
      (List.range (if bale then 64 else 1)).foldl (fun z i =>
        programSlot sb (slot + i) (drawn z i) (fun q => .program (unit + i) bale sb (slot + i) q victim) z) y

/-- Try held writes again; one whose unit has been freed is dropped. -/
def retryUnplaced (x : Shelf) : Shelf :=
  x.unplaced.foldl (fun y u =>
    if (if u.bale then (baleEnt y (u.unit / 64)).isSome else (fineEnt y u.unit).isSome) then
      writeUnit u.victim u.unit u.bale y
    else y) { x with unplaced := [] }

/-- Write a whole allocation. -/
def writeAlloc (addr units : Nat) (x : Shelf) : Shelf :=
  let x1 := (allocBales addr units).foldl (fun y b => writeUnit none (b * 64) true y) x
  (allocFines addr units).foldl (fun y u => writeUnit none u false y) x1

/-- Write what a place in heath holds; other places need no operation. -/
def heathWrite (l : Loc) (units : Nat) (s : State) : State :=
  if l.tier == .heath then pump l.unit (setShelf l.unit (writeAlloc l.addr units (shelfOf s l.unit)) s) else s

/-- Encrypt and tag the pages of a unit, or of a whole bale by its first unit, that are complete in the save ring: each draws its `seq`
(R473). -/
def sealUnit (s : State) (h unit : Nat) (bale : Bool) (x : Shelf) : Shelf :=
  (List.range (if bale then 64 else 1)).foldl (fun y i =>
    let r := sealPage s (unitHdr s y (unit + i) bale false y.seqCtr) (unitPlain s h (unit + i))
    { y with sealed := y.sealed ++ [(unit + i, r)], seqCtr := y.seqCtr + 1 }) x

/-- Whether the pages of a stripe are being read in place of one that is wanted. -/
def rebuilding (x : Shelf) (w : ReadFor) : Bool :=
  (x.ops ++ x.waiting).any (fun o => match o.use with | .rebuild v _ _ => v == w | _ => false)

/-- Ask for the 15 other pages of the stripe of a slot (R353), unless they are asked for. -/
def readStripe (sb slot : Nat) (w : ReadFor) (x : Shelf) : Shelf :=
  match x.geom, findSb x sb with
  | some g, some b =>
    let pl := slotPlace slot
    if rebuilding x w then x
    else ((List.range 16).filter (fun p => p != pl.1)).foldl (fun y p =>
      let cl := lunAt g b.group p
      queueOp brRead cl.1 cl.2 (nth b.blocks p) pl.2 (.rebuild w sb slot) y)
      { x with gathered := x.gathered.filter (fun e => e.1 != w) }
  | _, _ => x

/-- Ask for the page at a slot. Where the LUN is erasing or out of service the stripe is asked for instead (R331, R354). -/
def readSlot (sb slot : Nat) (w : ReadFor) (x : Shelf) : Shelf :=
  match x.geom, findSb x sb with
  | some g, some b =>
    let pl := slotPlace slot
    let cl := lunAt g b.group pl.1
    if lunOutOf x cl.1 cl.2 || x.ops.any (fun o => o.op == brErase && o.channel == cl.1 && o.lun == cl.2) then readStripe sb slot w x
    else queueOp brRead cl.1 cl.2 (nth b.blocks pl.1) pl.2 (.read w) x
  | _, _ => x

/-- Ask for the page of a unit; a unit that is not mapped is not read from flash (R324). -/
def readUnit (u : Nat) (w : ReadFor) (x : Shelf) : Shelf :=
  match unitSlot x u with
  | some p => readSlot p.1 p.2 w x
  | none => x

/-- Ask the bridge for the pages of a place, so that a copy or a job can read it. -/
def heathRead (l : Loc) (units : Nat) (s : State) : State :=
  if l.tier == .heath then
    let us := (allocBales l.addr units).flatMap (fun b => (List.range 64).map (fun i => b * 64 + i)) ++
      allocFines l.addr units
    pump l.unit (setShelf l.unit (us.foldl (fun y u => readUnit u (.host u) y) (shelfOf s l.unit)) s)
  else s

end Sys2Proof.Machine
end

