-- ==== Sys2Proof/Machine/Numerics.lean ====
section
/-! DEFINITION. Arithmetic of the cores: element types, rounding to nearest even, quantising on write (R122, R128),
dequantising, and the products and sums of the matrix and vector engines (R194 to R196). Finite values are exact
dyadic numbers; every rounding the spec names is a call of one of the rounding functions. -/

namespace Sys2Proof.Machine

/-- A floating-point value: sign, significand and exponent of a finite one; infinity; NaN. -/
inductive FV where
  | fin (neg : Bool) (m : Nat) (e : Int)
  | inf (neg : Bool)
  | nan
  deriving DecidableEq, Repr, Inhabited

namespace FV

def zero : FV := .fin false 0 0

def isZero : FV → Bool
  | .fin _ m _ => m == 0
  | _ => false

def isNan : FV → Bool
  | .nan => true
  | _ => false

def isFin : FV → Bool
  | .fin _ _ _ => true
  | _ => false

def neg? : FV → Bool
  | .fin n _ _ => n
  | .inf n => n
  | .nan => false

def abs : FV → FV
  | .fin _ m e => .fin false m e
  | .inf _ => .inf false
  | .nan => .nan

def negate : FV → FV
  | .fin n m e => .fin (!n) m e
  | .inf n => .inf (!n)
  | .nan => .nan

/-- Signed integer significand at exponent `q`, for `q` at most the value's own exponent. -/
def signedAt (neg : Bool) (m : Nat) (e q : Int) : Int :=
  let v : Int := (m * 2 ^ (e - q).toNat : Nat)
  if neg then -v else v

/-- Exact sum; opposite infinities give NaN; a zero sum is negative only if both terms are (IEEE 754). -/
def add : FV → FV → FV
  | .nan, _ => .nan
  | _, .nan => .nan
  | .inf a, .inf b => if a == b then .inf a else .nan
  | .inf a, _ => .inf a
  | _, .inf b => .inf b
  | .fin a m e, .fin b n f =>
    let q := min e f
    let v := signedAt a m e q + signedAt b n f q
    if v = 0 then .fin (a && b) 0 0 else .fin (v < 0) v.natAbs q

/-- Exact product; zero times infinity gives NaN. -/
def mul : FV → FV → FV
  | .nan, _ => .nan
  | _, .nan => .nan
  | .inf a, .inf b => .inf (a != b)
  | .inf a, .fin b m _ => if m = 0 then .nan else .inf (a != b)
  | .fin a m _, .inf b => if m = 0 then .nan else .inf (a != b)
  | .fin a m e, .fin b n f => .fin (a != b) (m * n) (e + f)

/-- Whether a < b; false when either is NaN. -/
def lt : FV → FV → Bool
  | .nan, _ => false
  | _, .nan => false
  | .inf a, .inf b => a && !b
  | .inf a, .fin _ _ _ => a
  | .fin _ _ _, .inf b => !b
  | .fin a m e, .fin b n f => let q := min e f; signedAt a m e q < signedAt b n f q

def max2 (a b : FV) : FV := if lt a b then b else a

/-- Multiply by a power of two. -/
def scale2 (k : Int) : FV → FV
  | .fin a m e => .fin a m (e + k)
  | x => x

end FV

/-! ## Formats -/

/-- A binary format: exponent bits, significand bits, bias; `ieee` formats have infinities and NaNs in the top exponent,
E4M3 has NaN in the top code only, the smaller ones have neither. -/
structure Fmt where
  eb : Nat
  mb : Nat
  bias : Nat
  ieee : Bool
  topNan : Bool
  deriving DecidableEq, Repr

def fmtF32 : Fmt := ⟨8, 23, 127, true, false⟩
def fmtBf16 : Fmt := ⟨8, 7, 127, true, false⟩
def fmtF16 : Fmt := ⟨5, 10, 15, true, false⟩
def fmtE5M2 : Fmt := ⟨5, 2, 15, true, false⟩
def fmtE4M3 : Fmt := ⟨4, 3, 7, false, true⟩
def fmtE2M3 : Fmt := ⟨2, 3, 1, false, false⟩
def fmtE2M1 : Fmt := ⟨2, 1, 1, false, false⟩

/-- Exponent of the last place of subnormals. -/
def Fmt.emin (f : Fmt) : Int := 1 - (f.bias : Int) - f.mb

/-- The value of a code. -/
def Fmt.decode (f : Fmt) (c : Nat) : FV :=
  let neg := bitOf c (f.eb + f.mb)
  let x := c / 2 ^ f.mb % 2 ^ f.eb
  let m := c % 2 ^ f.mb
  if f.ieee && x == 2 ^ f.eb - 1 then (if m = 0 then .inf neg else .nan)
  else if f.topNan && x == 2 ^ f.eb - 1 && m == 2 ^ f.mb - 1 then .nan
  else if x = 0 then .fin neg m f.emin
  else .fin neg (2 ^ f.mb + m) (f.emin + x - 1)

/-- Shift a significand right by `k` places, rounding to nearest even. -/
def rneShift (m k : Nat) : Nat :=
  let q := m / 2 ^ k
  let r := m % 2 ^ k
  if k = 0 then m
  else if 2 ^ (k - 1) < r || (r == 2 ^ (k - 1) && q % 2 == 1) then q + 1 else q

/-- Round a finite significand and exponent to a format's places, to nearest even: significand and exponent. -/
def Fmt.places (f : Fmt) (m : Nat) (e : Int) : Nat × Int :=
  if m = 0 then (0, f.emin)
  else
    let q := max (e + m.log2 - f.mb) f.emin
    if q ≤ e then (m * 2 ^ (e - q).toNat, q)
    else
      let r := rneShift m (q - e).toNat
      if r = 2 ^ (f.mb + 1) then (2 ^ f.mb, q + 1) else (r, q)

/-- Largest exponent field of a finite value. -/
def Fmt.topField (f : Fmt) : Nat := if f.ieee then 2 ^ f.eb - 2 else 2 ^ f.eb - 1

/-- Round to the format, to nearest even; beyond its range to infinity (for formats that have one). -/
def Fmt.round (f : Fmt) : FV → FV
  | .fin n m e =>
    let r := f.places m e
    if f.ieee && (f.topField : Int) < r.2 - f.emin + 1 then .inf n
    else if r.1 = 0 then .fin n 0 0 else .fin n r.1 r.2
  | x => x

/-- The code of a value that the format holds; `nanCode` for NaN. -/
def Fmt.encode (f : Fmt) (nanCode : Nat) : FV → Nat
  | .fin n m e =>
    let r := f.places m e
    let s := if n then 2 ^ (f.eb + f.mb) else 0
    if r.1 < 2 ^ f.mb then s + r.1
    else if f.ieee && (f.topField : Int) < r.2 - f.emin + 1 then s + (2 ^ f.eb - 1) * 2 ^ f.mb
    else s + (r.2 - f.emin + 1).toNat * 2 ^ f.mb + (r.1 - 2 ^ f.mb)
  | .inf n => (if n then 2 ^ (f.eb + f.mb) else 0) + (2 ^ f.eb - 1) * 2 ^ f.mb
  | .nan => nanCode

def f32 (x : FV) : FV := fmtF32.round x
def f32Bits (x : FV) : Nat := fmtF32.encode 0x7FC00000 x
def f32Of (b : Nat) : FV := fmtF32.decode b
def fadd (a b : FV) : FV := f32 (a.add b)
def fmul (a b : FV) : FV := f32 (a.mul b)

/-- Quotient in FP32, to nearest even, with the special cases of IEEE 754 (R196). -/
def fdiv (a b : FV) : FV :=
  match a, b with
  | .nan, _ => .nan
  | _, .nan => .nan
  | .inf _, .inf _ => .nan
  | .inf n, .fin k _ _ => .inf (n != k)
  | .fin n _ _, .inf k => .fin (n != k) 0 0
  | .fin n m e, .fin j k f =>
    if k = 0 then (if m = 0 then .nan else .inf (n != j))
    else
      let t := m * 2 ^ 80
      f32 (.fin (n != j) (2 * (t / k) + (if t % k = 0 then 0 else 1)) (e - f - 81))

/-- Finite and positive (R146, R168, R204). -/
def f32Positive (b : Nat) : Bool :=
  match f32Of b with
  | .fin n m _ => !n && m != 0
  | _ => false

/-! ## exp2 and recip (R195) -/

def one : FV := .fin false 1 0
def minus126 : FV := .fin true 126 0

/-- ln 2 in units of 2^-192. -/
def ln2Fixed : Nat := 4350955369971217654477563090224794165364344896676135745070

/-- 2^f in units of 2^-192 for a fraction f in the same units, by its power series: within 2^-180. -/
def exp2Frac (f : Nat) : Nat :=
  let y := f * ln2Fixed / 2 ^ 192
  ((List.range 48).reverse.foldl (fun acc k => 2 ^ 192 + y * acc / ((k + 1) * 2 ^ 192)) (2 ^ 192))

/-- 2^(-m·2^e), to 2^-180 of itself. -/
def exp2Near (m : Nat) (e : Int) : FV :=
  let x := if 0 ≤ e then m * 2 ^ (192 + e.toNat) else m * 2 ^ 192 / 2 ^ (-e).toNat
  let n := ceilDiv x (2 ^ 192)
  .fin false (exp2Frac (n * 2 ^ 192 - x)) (-192 - (n : Int))

/-- Whether a value lies within `t` of another. -/
def within (t x y : FV) : Bool :=
  let d := (x.add y.negate).abs
  d.isFin && !FV.lt t d

/-- exp2 of an FP32 value (R195): +0 below −126 and at −∞; up to 0 a free value whose relative error is at most 2^-22 (an
unconstrained choice that lies outside is replaced by the rounded result). Of a positive argument, which only the statistics that the
host gives ATTN_BWD can yield, the spec states no result: a free value (DESIGN CHOICE, log entry 150). -/
def exp2 (x : FV) : FV :=
  let c := f32Of (Config.exp2 (BitVec.ofNat 32 (f32Bits x))).toNat
  match x with
  | .nan => .nan
  | .inf n => if n then .zero else c
  | .fin n m e =>
    if !n && m != 0 then c
    else if FV.lt (.fin n m e) minus126 then .zero
    else
      let r := exp2Near m e
      if within (r.scale2 (-22)) c r then c else f32 r

/-- recip of an FP32 value (R195, R196): infinite at zero; elsewhere a free value within 1 ulp of the quotient, its unit taken at
the rounded quotient. -/
def recip (x : FV) : FV :=
  match x with
  | .nan => .nan
  | .inf n => .fin n 0 0
  | .fin n m e =>
    match fdiv one (.fin n m e) with
    | .fin k q u =>
      let c := f32Of (Config.recip (BitVec.ofNat 32 (f32Bits (.fin n m e)))).toNat
      let ulp : FV := .fin false 1 (fmtF32.places q u).2
      if within ((ulp.mul (.fin false m e))) (c.mul (.fin n m e)) one then c else .fin k q u
    | r => r

/-- log2(e) to 128 binary places. -/
def log2e : FV := .fin false 490923683258796565746369346286093237521 (-128)

/-! ## Storage formats -/

/-- Element type and emax of a storage format (R122, R128). -/
def storeFmt (f : Nat) : Fmt :=
  match f with
  | 1 => fmtBf16
  | 2 => fmtE4M3
  | 3 => fmtE4M3
  | 4 => fmtE2M3
  | _ => fmtE2M1

def emax (f : Nat) : Int := if f = 3 then 8 else 2

/-- Largest finite element (R128). -/
def maxElem (f : Nat) : FV :=
  match f with
  | 4 => .fin false 15 (-1)
  | 5 => .fin false 6 0
  | _ => .fin false 448 0

/-- What quantising a block yields: codes, scale code, whether it held a NaN, elements set to the largest value. -/
structure QBlock where
  codes : List Nat
  scale : Nat
  nan : Bool
  clipped : Nat
  deriving DecidableEq, Repr

/-- Round one element to E4M3, E2M3 or E2M1, setting it to the largest element where it is beyond (R128). -/
def quantElem (f : Nat) (x : FV) : Nat × Bool :=
  match x with
  | .nan => (0x7F, false)
  | .inf n => ((storeFmt f).encode 0x7F (if n then (maxElem f).negate else maxElem f), true)
  | .fin n m e =>
    if FV.lt (maxElem f) (FV.fin false m e) then
      ((storeFmt f).encode 0x7F (if n then (maxElem f).negate else maxElem f), true)
    else ((storeFmt f).encode 0x7F (.fin n m e), false)

/-- floor(log2 x) of a finite value that is not zero. -/
def floorLog2 : FV → Int
  | .fin _ m e => e + m.log2
  | _ => 0

/-- Quantise a block of 32 source values (R128); `scale` is the layer's FP8 scale. -/
def quantBlock (f : Nat) (scale : FV) (xs : List FV) : QBlock :=
  let hasNan := xs.any FV.isNan
  if f = 1 then { codes := xs.map (fmtBf16.encode 0x7FC0), scale := 0, nan := hasNan, clipped := 0 }
  else if f = 2 then
    let r := xs.map (fun x => quantElem 2 (fdiv x scale))
    { codes := r.map (fun y => y.1), scale := 0, nan := hasNan, clipped := (r.filter (fun y => y.2)).length }
  else if hasNan then { codes := xs.map (fun _ => 0), scale := 0xFF, nan := true, clipped := 0 }
  else
    let amax := (xs.filter FV.isFin).foldl (fun a x => FV.max2 a x.abs) FV.zero
    if amax.isZero then
      let r := xs.map (quantElem f)
      let zeros := xs.all FV.isFin
      { codes := if zeros then xs.map (fun _ => 0) else r.map (fun y => y.1), nan := false,
        clipped := (r.filter (fun y => y.2)).length, scale := if zeros then 0 else 0xFE }
    else
      let e := max (-127) (min 127 (floorLog2 amax - emax f))
      let r := xs.map (fun x => quantElem f (x.scale2 (-e)))
      { codes := r.map (fun y => y.1), scale := (e + 127).toNat, nan := false,
        clipped := (r.filter (fun y => y.2)).length }

/-- Cut a list into pieces of `n`; the fuel is the list's length. -/
def chunksFuel {α : Type} (n : Nat) : Nat → List α → List (List α)
  | 0, _ => []
  | k + 1, l => if l.isEmpty then [] else l.take n :: chunksFuel n k (l.drop n)

def chunks {α : Type} (n : Nat) (l : List α) : List (List α) := chunksFuel n l.length l

/-- Quantise a region of a token's record in blocks of 32 elements. -/
def quantRegion (f : Nat) (scale : FV) (xs : List FV) : List QBlock := (chunks 32 xs).map (quantBlock f scale)

/-- Source element codes (R146, R168): 0 BF16, 1 E4M3, 2 E5M2; FP8 sources are multiplied by the scale in FP32. -/
def sourceValue (fmt : Nat) (scale : FV) (c : Nat) : FV :=
  match fmt with
  | 0 => fmtBf16.decode c
  | 1 => fmul (fmtE4M3.decode c) scale
  | _ => fmul (fmtE5M2.decode c) scale

def sourceBytes (fmt : Nat) : Nat := if fmt = 0 then 2 else 1

/-- Elements of a source byte string, little-endian (R147). -/
def sourceElems (fmt : Nat) (scale : FV) (bs : Bytes) : List FV :=
  (chunks (sourceBytes fmt) bs).map (fun b => sourceValue fmt scale (leNat b))

/-- A token's record quantised into storage format, with NaN blocks and elements out of range. -/
structure QRec where
  tok : TokRec
  nans : Nat
  clipped : Nat
  deriving DecidableEq, Repr

/-- Quantise one token's record of a layer (R128, R147): its first region under the key scale, its second under the
value scale. -/
def quantRecord (g : MGroup) (ks vs : FV) (xs : List FV) : QRec :=
  let a := quantRegion g.format ks (xs.take (elemsA g))
  let b := quantRegion g.format vs ((xs.drop (elemsA g)).take (elemsB g))
  let sc (l : List QBlock) : List Nat := if formatMx g.format then l.map (fun q => q.scale) else []
  { tok := { a := a.flatMap (fun q => q.codes), b := b.flatMap (fun q => q.codes), sa := sc a, sb := sc b }
    nans := ((a ++ b).filter (fun q => q.nan)).length
    clipped := sumBy (fun q => q.clipped) (a ++ b) }

/-- A stored element's value (R194): its code under its block's E8M0 scale or the layer's scale, exactly. -/
def storedValue (f : Nat) (scale : FV) (sc : List Nat) (i c : Nat) : FV :=
  if f = 1 then fmtBf16.decode c
  else if f = 2 then (fmtE4M3.decode c).mul scale
  else
    let k := nth sc (i / 32)
    if k = 0xFF then .nan else ((storeFmt f).decode c).scale2 ((k : Int) - 127)

def storedValues (f : Nat) (scale : FV) (codes sc : List Nat) : List FV :=
  (indexed codes).map (fun x => storedValue f scale sc x.1 x.2)
where
  indexed (l : List Nat) : List (Nat × Nat) := (List.range l.length).zip l

/-- A query row as it enters the matrix engine (R194): BF16 for BF16 storage, else MXFP8. -/
def queryValues (storage : Nat) (xs : List FV) : List FV :=
  if storage = 1 then xs.map fmtBf16.round
  else
    (chunks 32 xs).flatMap (fun b =>
      let q := quantBlock 3 one b
      (q.codes).map (fun c => if q.scale = 0xFF then .nan else (fmtE4M3.decode c).scale2 ((q.scale : Int) - 127)))

/-! ## Matrix engine (R195) -/

/-- One level of the balanced tree: neighbours summed and rounded. -/
def pairSums : List FV → List FV
  | a :: b :: r => fadd a b :: pairSums r
  | [a] => [fadd a FV.zero]
  | [] => []

def treeLevels : Nat → List FV → List FV
  | 0, l => l
  | n + 1, l => treeLevels n (pairSums l)

/-- A leaf: the product exactly, or rounded where it lies outside FP32's range. -/
def leaf (p : FV) : FV :=
  match f32 p with
  | .fin n m e => if m = 0 || (e = -149 && m < 2 ^ 23) then .fin n m e else p
  | r => r

/-- The sum of one pass: 128 leaves, padded with zeros, in seven levels. -/
def passSum (ps : List FV) : FV :=
  ((treeLevels 7 (ps ++ List.replicate (128 - ps.length) FV.zero)).head?).getD FV.zero

/-- Products over a contraction axis, summed in passes of 128, each pass added to the running sum in order. -/
def dotAcc (acc : FV) (xs ys : List FV) : FV :=
  (chunks 128 (List.zipWith (fun x y => leaf (x.mul y)) xs ys)).foldl (fun a p => fadd a (passSum p)) acc

def dot (xs ys : List FV) : FV := dotAcc FV.zero xs ys

end Sys2Proof.Machine
end

