-- ==== Sys2Proof/Machine/Kv.lean ====
section
/-! DEFINITION. Commands on sequences and columns (R133 to R156): SEQ_OPEN, SEQ_CLOSE, SEQ_FORK, SEQ_TRUNCATE, COL_SEAL,
COL_PIN, COL_UNPIN, COL_DISCARD and KV_APPEND. Each is a check of everything it names, which answers a status and changes
nothing, or the new state with the result of the completion. -/

namespace Sys2Proof.Machine

/-- Whether two byte spans share a byte. -/
def overlaps (a n b m : Nat) : Bool := a < b + m && b < a + n && n != 0 && m != 0

/-- Bytes of a partition's range have been read in a step: it is the last use of the extents that hold them (R311). -/
def touchReadAt (step p off n : Nat) (s : State) : State :=
  let used (o : Obj) : Obj :=
    { o with exts := (indexed o.exts).map (fun x =>
        if overlaps off n (o.off + x.1 * 2 ^ 20) (2 ^ 20) then { x.2 with lastUsed := step } else x.2) }
  { s with objs := { s.objs with objs := mapIf (fun o => o.part == p && overlaps off n o.off o.size) used s.objs.objs } }

/-- A job or a command has read bytes of a partition's range in the current step. -/
def touchRead (p off n : Nat) (s : State) : State := touchReadAt (Pos.step s.wheel.cur) p off n s

/-- Complete a command by what its check and action answer: result and state, or a status with nothing changed. -/
def finish (c : Cmd) (r : Except Status (Nat × State)) (s : State) : State :=
  match r with
  | .ok (v, t) => complete c .ok v t
  | .error st => complete c st 0 s

/-- Make a started command wait for a heath port out of service, from now on (R354). -/
def stall (c : Cmd) (shelf : Nat) (s : State) : State :=
  let cmds := mapIf (fun (x : Cmd) => x.id == c.id) (fun x => { x with work := .stalled shelf, since := s.now }) s.queues.cmds
  { s with queues := { s.queues with cmds := cmds } }

/-- The heath port out of service that the copy of a column of a list needs (R150, R354). -/
def copyPort (s : State) (q : Seq) (idx : Nat) : Option Nat :=
  (findCol s (nth q.cols idx)).bind (fun c => if onDownPort s c.home then some c.home.unit else none)

/-- `finish` for a command that may copy the column at a list index: ST_MEDIA stands for the wait for its port. -/
def finishCopy (c : Cmd) (idx : Nat) (r : Except Status (Nat × State)) (s : State) : State :=
  match r with
  | .error .media => stall c (((findSeq s (dSeq c.desc)).bind (fun q => copyPort s q idx)).getD 0) s
  | _ => finish c r s

/-- A status unless the condition holds. -/
def need (b : Bool) (st : Status) : Except Status Unit := if b then .ok () else .error st

/-- A sequence of the partition (R16), failed ones included. -/
def anySeq (s : State) (p id : Nat) : Except Status Seq :=
  match findSeq s id with
  | some q => if q.part = p then .ok q else .error .badObject
  | none => .error .badObject

/-- A sequence of the partition that is open: a failed one answers ST_POISONED (R135). -/
def openSeq (s : State) (p id : Nat) : Except Status Seq :=
  match anySeq s p id with
  | .ok q => if q.failed then .error .poisoned else .ok q
  | .error st => .error st

/-- Every failed copy of a command ends it with ST_NO_SPACE (R151), a poisoned source with ST_POISONED (R150). -/
def asNoSpace : Status → Status
  | .quota => .noSpace
  | st => st

/-- Whether the job that a slice was brought for has started. -/
def sliceStarted (s : State) (x : Slice) : Bool :=
  s.jobs.jobs.any (fun j => j.started && j.step == x.step && j.seq == x.seq && j.layer == x.layer)

/-- Items of a job on a slice's cluster that read its head group. -/
def sliceItems (x : Slice) (j : Job) : List Nat :=
  ((indexed j.items).filter (fun i => i.2.core / 4 == x.cluster && (!j.split.isEmpty || i.2.headGroup == x.headGroup))).map (fun i => i.1)

/-- A released job that has not started misses a tile again (R155). -/
def missAgain (x : Slice) (j : Job) : Job :=
  if j.started || j.step != x.step || j.seq != x.seq || j.layer != x.layer then j
  else
    let again := ((sliceItems x j).map (fun i => (i, x.page))).filter (fun m => !j.missing.contains m)
    { j with missing := j.missing ++ again }

/-- Drop the slices that `p` picks, but for those of jobs that have started; they are fetched again (R155, R222). -/
def dropSlicesIf (p : Slice → Bool) (s : State) : State :=
  let gone := s.jobs.slices.filter (fun x => p x && !sliceStarted s x)
  { s with jobs := { s.jobs with
      slices := s.jobs.slices.filter (fun x => !p x || sliceStarted s x)
      jobs := s.jobs.jobs.map (fun j => gone.foldl (fun k x => missAgain x k) j) } }

/-- A column is edited, copied or moved: its slices are dropped; a cached line of it goes with R225. -/
def dropSlices (slot : Nat) (s : State) : State := dropSlicesIf (fun x => x.col == slot) s

/-- A write invalidates every slice that `p` picks, a started job's too; a job that has not started misses it again (R225). -/
def dropWrittenIf (p : Slice → Bool) (s : State) : State :=
  { s with jobs := { s.jobs with
      slices := s.jobs.slices.filter (fun x => !p x)
      jobs := s.jobs.jobs.map (fun j => (s.jobs.slices.filter p).foldl (fun k x => missAgain x k) j) } }

/-- A column is written. -/
def dropWritten (slot : Nat) (s : State) : State := dropWrittenIf (fun x => x.col == slot) s

/-- A page of a sequence's coil is written: its slices are dropped. -/
def dropCoilSlices (seq page : Nat) (s : State) : State :=
  dropWrittenIf (fun x => x.col == 0 && x.seq == seq && x.page == page) s

/-- Change the entry of a sequence in the sheet of a partition and step. -/
def editEntry (p step seq : Nat) (f : Entry → Entry) (s : State) : State :=
  { s with sheets := { s.sheets with admitted := s.sheets.admitted.map (fun h =>
      if h.partition == p && h.step == step then { h with entries := mapIf (fun e => e.seq == seq) f h.entries } else h) } }

def sheetEntry (s : State) (p step seq : Nat) : Option Entry :=
  (s.sheets.admitted.find? (fun h => h.partition == p && h.step == step)).bind (fun h => h.entries.find? (fun e => e.seq == seq))

/-! ## Sequences -/

/-- The next sequence ID (R134). -/
def nextSeqId (s : State) : Nat :=
  nextFree 0xFFFFFF (s.kv.seqs.map (fun q => q.id)) (s.kv.seqs.length + 1) s.kv.lastSeq

def openCount (s : State) (p : Nat) : Nat := (s.kv.seqs.filter (fun q => q.part == p)).length

/-- Room for one more sequence: the partition's limit (R142, R158), then the 16,777,215 descriptors. -/
def seqRoom (s : State) (p : Nat) : Except Status Unit :=
  if od s 0x4010 (p + 1) ≤ openCount s p then .error .quota
  else if 16777215 ≤ s.kv.seqs.length then .error .noSpace
  else .ok ()

/-- Empty coils of a model, each on the lowest stack of the mask with space (R130, R132, R299). -/
def newCoils (s : State) (p m policy : Nat) : List Coil :=
  let gs := windowGroups s m
  let ls := meadowLocs s (policyOf s p policy).stackMask (gs.map (fun g => (0, ceilDiv (coilBytes g) 4096)))
  (gs.zip ls).map (fun x => { group := x.1.idx, ring := coilRing x.1, newest := none, rows := [], loc := x.2 })

/-- The address of a new coil directory, 0 for a model without window groups (R120, R133). -/
def newCoilDir (s : State) (m : Nat) : Nat := if (windowGroups s m).isEmpty then 0 else Config.reservedAt s.fresh

def addSeq (q : Seq) (s : State) : State := { s with kv := { s.kv with seqs := s.kv.seqs ++ [q], lastSeq := q.id } }

/-- SEQ_OPEN (R141, R142). -/
def seqOpen (p : Nat) (d : Desc) (s : State) : Except Status (Nat × State) := do
  let m := dfield d 8 1
  let policy := dfield d 12 4
  need (m < 16 && modelLayers s m != 0 && policy < 256 && policyDefined s p policy) .badObject
  seqRoom s p
  need (meadowCheck s p (coilUnits s m) == .ok) .noSpace
  let id := nextSeqId s
  return (id, addSeq { id := id, part := p, model := m, policy := policy, coils := newCoils s p m policy,
                       coilDir := newCoilDir s m, hostTag := dfield d 16 16 } (draws (1 + (windowGroups s m).length) s))

/-- Columns set aside for a sequence's entries return to the pool. -/
def asideBack (seq : Nat) (s : State) : State :=
  { s with sheets := { s.sheets with admitted := s.sheets.admitted.map (fun h =>
      { h with entries := mapIf (fun e => e.seq == seq) (fun e => { e with setAside := 0, asideAt := [] }) h.entries }) } }

/-- Take a sequence off the table and drop its list's references. -/
def closeSeq (q : Seq) (s : State) : State :=
  let s1 := asideBack q.id { s with kv := { s.kv with seqs := s.kv.seqs.filter (fun x => x.id != q.id) } }
  forEach (fun k t => dropRef k (dropSlices k t)) q.cols (dropSlicesIf (fun x => x.col == 0 && x.seq == q.id) s1)

/-- SEQ_CLOSE (R134, R141, R150): every list entry drops one reference; tail, coils, list and descriptor are freed. -/
def seqClose (p : Nat) (d : Desc) (s : State) : Except Status (Nat × State) := do
  let q ← anySeq s p (dSeq d)
  let t := closeSeq q s
  return (s.kv.cols.length - t.kv.cols.length, t)

/-- Steps of the sheet entries of a sequence whose set-aside column is still held (R190). -/
def heldAside (s : State) (p seq : Nat) : List Nat :=
  (s.sheets.admitted.filter (fun h => h.partition == p && h.entries.any (fun e => e.seq == seq && e.cand != 0 && e.setAside == 1))).map
    (fun h => h.step)

/-- Set the second column of R190 aside for such an entry, at the place of list index `i`. -/
def moreAside (q : Seq) (i step : Nat) (s : State) : State :=
  let l := meadowLoc s (policyOf s q.part q.policy).stackMask i (columnUnits s q.model)
  editEntry q.part step q.id (fun e => { e with setAside := 2, asideAt := e.asideAt ++ [l] }) (drawn s)

/-- SEQ_FORK (R141, R143, R150, R190). -/
def seqFork (p : Nat) (d : Desc) (s : State) : Except Status (Nat × State) := do
  let q ← openSeq s p (dSeq d)
  let len := if dfield d 12 4 = 0 then q.length else dfield d 12 4
  need (len ≤ q.length && ((windowGroups s q.model).isEmpty || len == q.length)) .badDescriptor
  need (q.prov.isNone && q.pendCount == 0) .conflict
  seqRoom s p
  let n := ceilDiv len 16
  let cuts := len < q.length && len % 16 != 0
  let lastSlot := nth q.cols (n - 1)
  let lastRefs := (findCol s lastSlot).elim 0 (fun c => c.refs)
  let aside := if len == q.length && len % 16 != 0 && lastRefs == 1 then heldAside s p q.id else []
  need (meadowCheck s p (listUnits n + coilUnits s q.model + aside.length * columnUnits s q.model) == .ok) .noSpace
  let id := nextSeqId s
  let child : Seq :=
    { id := id, part := p, model := q.model, length := len, policy := q.policy, cols := q.cols.take n,
      coils := (q.coils.zip (newCoils s p q.model q.policy)).map (fun x => { x.1 with loc := x.2.loc }),
      coilDir := newCoilDir s q.model, hostTag := dfield d 16 16 }
  let s1 := forEach addRef (q.cols.take n) (fitList id (addSeq child (draws (1 + q.coils.length) s)))
  let s2 := forEach (moreAside q (n + 1)) aside s1
  if cuts then
    need (copyPort s q (n - 1)).isNone .media
    match copyCol ((findSeq s2 id).getD child) (n - 1) (len % 16) s2 with
    | .error st => .error (asNoSpace st)
    | .ok r => return (id + (n - 1) * 2 ^ 32 + 1 * 2 ^ 64, dropSlices lastSlot (readOver d [lastSlot] r.2))
  else return (id + n * 2 ^ 32, s2)

/-- Oldest position a coil holds (R130). -/
def coilOldest (c : Coil) : Nat :=
  match c.newest with
  | some n => 16 * (n + 1 - c.ring)
  | none => 0

/-- Whether a query at position `pos` is servable in every window group, or in one group (R131). -/
def servable (s : State) (q : Seq) (grp : Option Nat) (pos : Nat) : Bool :=
  (windowGroups s q.model).all (fun g =>
    (grp.isSome && grp != some g.idx) ||
    match q.coils.find? (fun c => c.group == g.idx) with
    | some c => coilOldest c ≤ pos + 1 - g.window
    | none => false)

/-- Shorten a sequence to `len` positions: list, rows of coils, and whether it is still failed (R135). -/
def cutSeq (id len n : Nat) (s : State) : State :=
  match findSeq s id with
  | none => s
  | some q =>
    let gone := q.cols.drop n
    let q1 : Seq :=
      { q with length := len, cols := q.cols.take n,
               coils := q.coils.map (fun c => { c with rows := c.rows.filter (fun r => r.row < len) }) }
    let s1 := forEach (fun k t => dropRef k (dropSlices k t)) gone (setSeq q1 s)
    fitList id (setSeq { q1 with failed := q.failed && (seqCols s1 q1).any (fun c => c.poisoned) } s1)

/-- SEQ_TRUNCATE (R141, R143, R150). -/
def seqTruncate (p : Nat) (d : Desc) (s : State) : Except Status (Nat × State) := do
  let q ← anySeq s p (dSeq d)
  let len := dfield d 12 4
  need (len ≤ q.length && servable s q none len) .badDescriptor
  need (q.prov.isNone && q.pendCount == 0) .conflict
  let n := ceilDiv len 16
  let res := len + (q.cols.length - n) * 2 ^ 32
  if len = q.length then return (res, s)
  else if len % 16 = 0 then return (res, cutSeq q.id len n s)
  else
    match findCol s (nth q.cols (n - 1)) with
    | none => .error .badObject
    | some c =>
      if c.isSealed || 1 < c.refs then
        need (copyPort s q (n - 1)).isNone .media
        match copyCol q (n - 1) (len % 16) s with
        | .error st => .error (asNoSpace st)
        | .ok r => return (res, cutSeq q.id len n (dropSlices c.slot r.2))
      else
        let c1 := { c with fill := len % 16, rows := c.rows.filter (fun r => r.row < len % 16) }
        return (res, cutSeq q.id len n (dropSlices c.slot (setCol c1 s)))

def runSeqOpen (c : Cmd) (s : State) : State := finish c (seqOpen c.part c.desc s) s
def runSeqClose (c : Cmd) (s : State) : State := finish c (seqClose c.part c.desc s) s
/-- List index of the last column that `len` positions of a sequence touch; `len` 0 in SEQ_FORK is the whole length. -/
def lastIndex (d : Desc) (whole : Bool) (s : State) : Nat :=
  let len := if whole && dfield d 12 4 = 0 then (findSeq s (dSeq d)).elim 0 (fun q => q.length) else dfield d 12 4
  ceilDiv len 16 - 1

def runSeqFork (c : Cmd) (s : State) : State := finishCopy c (lastIndex c.desc true s) (seqFork c.part c.desc s) s
def runSeqTruncate (c : Cmd) (s : State) : State := finishCopy c (lastIndex c.desc false s) (seqTruncate c.part c.desc s) s

def execSeqOpen (q : QRef) (s : State) : Host.Outcome State Fault Refusal := .next (startCmd 0x01 runSeqOpen q s)
def execSeqClose (q : QRef) (s : State) : Host.Outcome State Fault Refusal := .next (startCmd 0x02 runSeqClose q s)
def execSeqFork (q : QRef) (s : State) : Host.Outcome State Fault Refusal := .next (startCmd 0x03 runSeqFork q s)
def execSeqTruncate (q : QRef) (s : State) : Host.Outcome State Fault Refusal :=
  .next (startCmd 0x04 runSeqTruncate q s)

/-! ## Columns (R144, R145) -/

/-- The columns that a column command names, in order (R137, R144). -/
def targetCols (p : Nat) (d : Desc) (s : State) : Except Status (List Col) := do
  if bitOf (dFlags d) 0 then
    need (dSeq d == 0 && dfield d 16 4 == 1) .badDescriptor
    match colById s (dfield d 12 4) with
    | none => .error .badObject
    | some c =>
      need (c.part == p) .badObject
      return [c]
  else
    let q ← openSeq s p (dSeq d)
    need (1 ≤ dfield d 16 4 && dfield d 12 4 + dfield d 16 4 ≤ q.cols.length) .badDescriptor
    return (namedCols s d).filterMap (findCol s)

/-- Whether a column may be sealed: sealed already, or full with every layer written (R140). -/
def canSeal (s : State) (c : Col) : Bool := c.isSealed || (c.fill == 16 && rowsWritten s c 16)

/-- Change each of the given columns. -/
def editCols (f : Col → Col) (cs : List Col) (s : State) : State :=
  forEach (fun (c : Col) t =>
    match findCol t c.slot with
    | some x => setCol (f x) t
    | none => t) cs s

/-- Change each column whose slot is listed. -/
def editSlots (f : Col → Col) (slots : List Nat) (s : State) : State :=
  forEach (fun k t =>
    match findCol t k with
    | some x => setCol (f x) t
    | none => t) slots s

/-- COL_SEAL. -/
def colSeal (p : Nat) (d : Desc) (s : State) : Except Status (Nat × State) := do
  let cs ← targetCols p d s
  need (cs.all (canSeal s)) .badDescriptor
  return (cs.length, editCols (fun c => { c with isSealed := true }) cs s)

/-- COL_PIN and COL_UNPIN. -/
def colSetPin (v : Bool) (p : Nat) (d : Desc) (s : State) : Except Status (Nat × State) := do
  let cs ← targetCols p d s
  let s1 := editCols (fun c => { c with pinned := v }) cs s
  return (cs.length, if v then abandonSweepOf (fun i => cs.any (fun c => isColItem c.slot i)) s1 else s1)

/-- COL_DISCARD: full columns leave the list, which closes up; the length falls by 16 for each. -/
def colDiscard (p : Nat) (d : Desc) (s : State) : Except Status (Nat × State) := do
  let cs ← targetCols p d s
  need (!bitOf (dFlags d) 0) .badDescriptor
  let q ← openSeq s p (dSeq d)
  need (cs.all (fun c => c.fill == 16) && (windowGroups s q.model).isEmpty) .badDescriptor
  let first := dfield d 12 4
  let n := dfield d 16 4
  let q1 := { q with cols := q.cols.take first ++ q.cols.drop (first + n), length := q.length - 16 * n }
  return (n, forEach (fun (c : Col) t => dropRef c.slot (dropSlices c.slot t)) cs (fitList q.id (setSeq q1 s)))

def runColSeal (c : Cmd) (s : State) : State := finish c (colSeal c.part c.desc s) s
def runColPin (c : Cmd) (s : State) : State := finish c (colSetPin true c.part c.desc s) s
def runColUnpin (c : Cmd) (s : State) : State := finish c (colSetPin false c.part c.desc s) s
def runColDiscard (c : Cmd) (s : State) : State := finish c (colDiscard c.part c.desc s) s

def execColSeal (q : QRef) (s : State) : Host.Outcome State Fault Refusal := .next (startCmd 0x11 runColSeal q s)
def execColPin (q : QRef) (s : State) : Host.Outcome State Fault Refusal := .next (startCmd 0x13 runColPin q s)
def execColUnpin (q : QRef) (s : State) : Host.Outcome State Fault Refusal := .next (startCmd 0x14 runColUnpin q s)
def execColDiscard (q : QRef) (s : State) : Host.Outcome State Fault Refusal := .next (startCmd 0x15 runColDiscard q s)

/-! ## Rows -/

/-- Put a row into a list of rows, in place of the one it overwrites. -/
def putRow (r : KvRow) (l : List KvRow) : List KvRow := l.filter (fun x => !(x.layer == r.layer && x.row == r.row)) ++ [r]

/-- Write a token's record at a position of a coil (R130): a page above the newest overwrites its slot. -/
def coilPut (layer pos : Nat) (tok : TokRec) (c : Coil) : Coil :=
  let page := pos / 16
  let up : Bool := match c.newest with | some n => n < page | none => true
  let kept := if up then c.rows.filter (fun r => page < r.row / 16 + c.ring) else c.rows
  { c with newest := if up then some page else c.newest, rows := putRow { layer := layer, row := pos, tok := tok } kept }

/-- Write a token's record of a layer at a position of a sequence: into its column or its group's coil (R147, R188). -/
def writeToken (id layer pos : Nat) (tok : TokRec) (s : State) : State :=
  match findSeq s id with
  | none => s
  | some q =>
    match layerGroup s q.model layer with
    | none => s
    | some g =>
      if isWindow g then
        dropCoilSlices id (pos / 16) (setSeq { q with coils := mapIf (fun c => c.group == g.idx) (coilPut layer pos tok) q.coils } s)
      else
        match findCol s (nth q.cols (pos / 16)) with
        | none => s
        | some c => setCol { c with rows := putRow { layer := layer, row := pos % 16, tok := tok } c.rows } s

/-- Committed rows of list index `i` at a length. -/
def fillAt (len i : Nat) : Nat := min 16 (len - 16 * i)

/-- Set the length of a sequence and the `fill` of the columns from index `i` on (R148, R188). -/
def setLength (id len i : Nat) (s : State) : State :=
  match findSeq s id with
  | none => s
  | some q =>
    forEach (fun (x : Nat × Nat) t =>
      match findCol t x.2 with
      | some c => if i ≤ x.1 && !c.isSealed then setCol { c with fill := fillAt len x.1 } t else t
      | none => t) (indexed q.cols) (setSeq { q with length := len } s)

/-- Give a sequence `k` new columns in meadow, and the list blocks they need (R148, R306); a compaction's are `forced`: their
space was set aside (R151). -/
def addCols (forced : Bool) (id k : Nat) (s : State) : Except Status State :=
  match findSeq s id with
  | none => .error .badObject
  | some q =>
    let n := q.cols.length
    let need := k * columnUnits s q.model + (listUnits (n + k) - listUnits n)
    match if forced then .ok else meadowCheck s q.part need with
    | .ok => .ok (fitList id (forEach (fun i t =>
        match findSeq t id with
        | none => t
        | some x =>
          let loc := meadowLoc t (policyOf t x.part x.policy).stackMask (n + i) (columnUnits t x.model)
          let r := newCol x.part x.model x.policy loc 0 [] (drawn t)
          setSeq { x with cols := x.cols ++ [r.1] } r.2) (List.range k) s))
    | st => .error st

/-- Start the copy of the home of the column at list index `i` into meadow ahead of a write (R302). -/
def moveHome (slot i : Nat) (cause : MoveBy) (s : State) : Except Status (Nat × State) :=
  match findCol s slot with
  | none => .error .badObject
  | some c =>
    match allocate .meadow c.part (columnUnits s c.model) (policyOf s c.part c.policy).stackMask i false s with
    | .error st => .error st
    | .ok (l, s1) =>
      let m : Move := { id := s1.objs.nextMove, item := .col slot, part := c.part,
                        units := columnUnits s1 c.model, dest := l, image := false, cause := cause, since := s1.now }
      let s2 := { s1 with objs := { s1.objs with moves := s1.objs.moves ++ [m], nextMove := m.id + 1 } }
      .ok (m.id, heathRead c.home (columnUnits s c.model) (setCol { c with moving := true } s2))

/-! ## KV_APPEND (R146 to R148) -/

structure Append where
  seq : Seq
  fmt : Nat
  count : Nat
  first : Nat
  layers : Nat
  stride : Nat
  src : Nat
  scale : FV

/-- Source bytes of one token's record of a layer (R147). -/
def recordBytes (s : State) (m layer fmt : Nat) : Nat :=
  match layerGroup s m layer with
  | some g => (elemsA g + elemsB g) * sourceBytes fmt
  | none => 0

/-- The checks of R146 to R148 and R135. -/
def appendArgs (p : Nat) (d : Desc) (s : State) : Except Status Append := do
  let q ← openSeq s p (dSeq d)
  let fmt := dfield d 11 1
  let count := dfield d 16 2
  let first := dfield d 18 1
  let layers := dfield d 19 1
  let stride := dfield d 20 4
  let src := dfield d 24 8
  let sc := dfield d 32 4
  need (fmt ≤ 2 && 1 ≤ count && count ≤ 4096 && 1 ≤ layers && first + layers ≤ modelLayers s q.model) .badDescriptor
  need (dfield d 12 4 == q.length && q.length + count ≤ 8388608) .badDescriptor
  need (if q.pendCount == 0 then first == 0 else count == q.pendCount && first == q.pendLayer) .badDescriptor
  need (stride % 64 == 0 && src % 64 == 0 && (if fmt == 0 then sc == 0 else f32Positive sc)) .badDescriptor
  need ((List.range layers).all (fun i =>
    src + i * stride + count * recordBytes s q.model (first + i) fmt ≤ rangeBytes)) .badDescriptor
  need q.prov.isNone .conflict
  need (!(List.range layers).any (fun i =>
    s.objs.objs.any (fun o => o.part == p && o.poisoned && o.off < src + i * stride + count * recordBytes s q.model (first + i) fmt &&
      src + i * stride < o.off + o.size))) .poisoned
  return { seq := q, fmt := fmt, count := count, first := first, layers := layers, stride := stride, src := src,
           scale := f32Of sc }

/-- Copy the partial last column if others share it; answers whether it did (R150). A compaction's copy is `forced` (R151). -/
def privateLast (forced : Bool) (id : Nat) (s : State) : Except Status (Nat × State) :=
  match findSeq s id with
  | none => .error .badObject
  | some q =>
    if q.length % 16 = 0 then .ok (0, s)
    else
      match findCol s (nth q.cols (q.length / 16)) with
      | none => .error .badObject
      | some c =>
        if c.refs ≤ 1 then .ok (0, s)
        else if (copyPort s q (q.length / 16)).isSome then .error .media
        else
          match copyColBy forced q (q.length / 16) 16 s with
          | .ok r => .ok (1, dropSlices c.slot r.2)
          | .error st => .error (asNoSpace st)

/-- Quantise and write one layer of a run: NaN blocks and elements out of range so far, and the state. -/
def appendLayer (a : Append) (p i : Nat) (acc : Nat × Nat × State) : Nat × Nat × State :=
  let layer := a.first + i
  match layerGroup acc.2.2 a.seq.model layer with
  | none => acc
  | some g =>
    let n := recordBytes acc.2.2 a.seq.model layer a.fmt
    let ks := f32Of (keyScale acc.2.2 a.seq.model layer).toNat
    let vs := f32Of (valScale acc.2.2 a.seq.model layer).toNat
    (List.range a.count).foldl (fun (x : Nat × Nat × State) t =>
      let bs := memRead acc.2.2 p (a.src + i * a.stride + t * n) n
      let r := quantRecord g ks vs (sourceElems a.fmt a.scale bs)
      (x.1 + r.nans, x.2.1 + r.clipped, writeToken a.seq.id layer (a.seq.length + t) r.tok x.2.2)) acc

/-- Write a run's layers and close the run with its last one: the completion's result and the state. -/
def appendWrite (a : Append) (p copied : Nat) (s : State) : Nat × State :=
  let r := (List.range a.layers).foldl (fun acc i => appendLayer a p i acc) (0, 0, s)
  let done := a.first + a.layers = modelLayers s a.seq.model
  let s1 := odAdd 0x4000 0x08 64 r.2.1 (odAdd 0x4000 0x07 64 r.1 r.2.2)
  let len := if done then a.seq.length + a.count else a.seq.length
  let s2 :=
    match findSeq s1 a.seq.id with
    | none => s1
    | some q =>
      setSeq { q with pendCount := if done then 0 else a.count, pendLayer := if done then 0 else a.first + a.layers, stepRun := false } s1
  let s3 := forEach (fun k t => dropWritten k t)
    (((findSeq s2 a.seq.id).elim [] (fun q => q.cols)).drop (a.seq.length / 16)) s2
  let s4 := if done then setLength a.seq.id len (a.seq.length / 16) s3 else s3
  (len + r.1 * 2 ^ 32 + r.2.1 * 2 ^ 64 + copied * 2 ^ 96, s4)

/-- KV_APPEND after `copied` columns have been copied for it: a copy of a shared last column, then a move of each column that the
run writes from outside meadow, which the command waits for (R302), then new columns, then the rows. A column being moved
is waited for (R301). -/
def appendGo (copied : Nat) (c : Cmd) (s : State) : State :=
  match appendArgs c.part c.desc s with
  | .error st => complete c st 0 s
  | .ok a =>
    match privateLast false a.seq.id s with
    | .error .media => stall c ((copyPort s a.seq (a.seq.length / 16)).getD 0) s
    | .error st => complete c st 0 s
    | .ok (n, s1) =>
      let cols := (findSeq s1 a.seq.id).elim [] (fun q => (indexed q.cols).drop (q.length / 16))
      if cols.any (fun x => (findCol s1 x.2).any (fun k => k.moving)) then setWork c.id .deferred s
      else
      match cols.find? (fun x => (findCol s1 x.2).any (fun k => k.home.tier != .meadow)) with
      | some x =>
        match moveHome x.2 x.1 (.appendTo c.id) s1 with
        | .error st => complete c st 0 s
        | .ok (mv, s2) => setWork c.id (.moves [mv] (copied + n) none []) s2
      | none =>
        let have' := (findSeq s1 a.seq.id).elim 0 (fun q => q.cols.length)
        match addCols false a.seq.id (ceilDiv (a.seq.length + a.count) 16 - have') s1 with
        | .error st => complete c st 0 s
        | .ok s2 =>
          let r := appendWrite a c.part (copied + n) s2
          complete c .ok r.1 (forEach (fun i t =>
            touchRead c.part (a.src + i * a.stride) (a.count * recordBytes t a.seq.model (a.first + i) a.fmt) t)
            (List.range a.layers) r.2)

def runKvAppend (c : Cmd) (s : State) : State := appendGo 0 c s

def execKvAppend (q : QRef) (s : State) : Host.Outcome State Fault Refusal := .next (startCmd 0x10 runKvAppend q s)

end Sys2Proof.Machine
end

