-- ==== Sys2Proof/Machine/Sherds.lean ====
section
/-! DEFINITION. Sherds (R236 to R243, R248, R258, R260), tables (R242, R243), the encoder's free choices (R251, R253)
and coded images (R249). -/

namespace Sys2Proof.Machine

/-! ## The header (R237, R238) -/

/-- One bit of the CRC: polynomial 0x1021, no reflection. -/
def crcBit (c : Nat) (b : Bool) : Nat :=
  let c2 := c * 2 % 65536
  if bitOf c 15 != b then c2 ^^^ 0x1021 else c2

def crcByte (c : Nat) (b : Byte) : Nat :=
  (List.range 8).foldl (fun a i => crcBit a (bitOf b.toNat (7 - i))) c

/-- CRC-16 with initial value 0xFFFF. -/
def crc16 (bs : Bytes) : Nat := bs.foldl crcByte 0xFFFF

structure SherdHdr where
  check : Nat
  tabCheck : Nat
  eobCode : Nat
  eobLen : Nat
  codedLen : Nat
  rawLen : Nat
  gen : Nat
  slot : Nat
  lane : Nat
  mode : Nat
  zeros : Bool
  deriving DecidableEq, Repr

def sherdHdr (bs : Bytes) : SherdHdr :=
  let v := fieldAt bs 0 16
  { check := bitsOf v 127 112, tabCheck := bitsOf v 95 80, eobCode := bitsOf v 66 52, eobLen := bitsOf v 51 48,
    codedLen := bitsOf v 46 32, rawLen := bitsOf v 30 16, gen := bitsOf v 15 12, slot := bitsOf v 11 8,
    lane := bitsOf v 5 4, mode := bitsOf v 3 0,
    zeros := bitsOf v 111 96 == 0 && bitsOf v 79 67 == 0 && bitsOf v 47 47 == 0 && bitsOf v 31 31 == 0 && bitsOf v 7 6 == 0 }

/-- Multiple that `raw_len` must be of (R239). -/
def laneUnit (lane : Nat) : Nat := if lane = 1 then 3 else if lane = 3 then 2 else 1

/-- Bytes that a bitmap bit covers (R239). -/
def bitmapUnit (lane : Nat) : Nat := if lane = 3 then 2 else 1

/-- Check 1 of R258. -/
def hdrOk (h : SherdHdr) (bs : Bytes) : Bool :=
  h.check == crc16 (bs.take 14) && h.zeros && h.mode ≤ 3 && 1 ≤ h.rawLen && h.rawLen ≤ 16384 && 1 ≤ h.codedLen &&
  h.codedLen ≤ 16384 && h.rawLen % laneUnit h.lane == 0 &&
  (if h.mode = 0 then
    h.codedLen == h.rawLen && h.tabCheck == 0 && h.eobCode == 0 && h.eobLen == 0 && h.gen == 0 && h.slot == 0
  else h.codedLen < h.rawLen)

/-! ## Tables (R242, R243) -/

/-- The 273 code lengths of a table image. -/
def tableLens (image : Bytes) : List Nat :=
  let v := fieldAt image 0 137
  (List.range 273).map (fun i => v / 16 ^ i % 16)

/-- The table ID: the first 8 bytes of SHA-256 over bytes 0 to 247; a digest's first byte is its most significant. -/
def tableId (image : Bytes) : Nat :=
  leNat (((List.range 8).map (fun i => BitVec.ofNat 8 ((Config.sha256 (image.take 248)).toNat / 256 ^ (31 - i)))))

/-- Code lengths that make a table: end-of-block coded and the Kraft sum at most 1. -/
def lensOk (lens : List Nat) : Bool :=
  lens.length == 273 && lens.all (fun n => n ≤ 15) && nth lens 272 != 0 &&
  sumBy (fun n => if n = 0 then 0 else 2 ^ (15 - n)) lens ≤ 2 ^ 15

def imageOk (image : Bytes) : Bool :=
  image.length == 256 && lensOk (tableLens image) && ((image.take 248).drop 137).all (fun b => b == 0) &&
  bitsOf (fieldAt image 136 1) 7 4 == 0 && tableId image == fieldAt image 248 8

/-- A table image of code lengths. -/
def imageOf (lens : List Nat) : Bytes :=
  let body := natLe 137 ((List.range 273).foldl (fun a i => a + nth lens i * 16 ^ i) 0) ++ List.replicate 111 0
  body ++ natLe 8 (tableId body)

/-- Canonical codes: length, code, symbol, in order of length and symbol. -/
def canon (lens : List Nat) : List (Nat × Nat × Nat) :=
  let syms := (List.range 15).flatMap (fun k =>
    (List.range 273).filterMap (fun i => if nth lens i = k + 1 then some (k + 1, i) else none))
  (syms.foldl (fun (a : Nat × Nat × List (Nat × Nat × Nat)) x =>
    let code := a.2.1 * 2 ^ (x.1 - a.1)
    (x.1, code + 1, (x.1, code, x.2) :: a.2.2)) (0, 0, [])).2.2.reverse

/-- Length and code of a symbol. -/
def codeOf (tab : List (Nat × Nat × Nat)) (sym : Nat) : Option (Nat × Nat) :=
  (tab.find? (fun e => e.2.2 == sym)).map (fun e => (e.1, e.2.1))

/-! ## The symbol stream (R241) -/

/-- Bits of a byte string, bit 0 of its first byte first. -/
def bitStream (bs : Bytes) : List Bool := bs.flatMap (fun b => (List.range 8).map (fun i => bitOf b.toNat i))

inductive SymRead where
  | bad
  | ended
  | sym (n : Nat) (rest : List Bool)

/-- Read one code, most significant bit first. -/
def readSym (tab : List (Nat × Nat × Nat)) : Nat → Nat → Nat → List Bool → SymRead
  | 0, _, _, _ => .bad
  | _, _, _, [] => .ended
  | k + 1, len, acc, b :: bs =>
    let acc' := 2 * acc + (if b then 1 else 0)
    match tab.find? (fun e => e.1 == len + 1 && e.2.1 == acc') with
    | some e => .sym e.2.2 bs
    | none =>
      if tab.any (fun e => len + 1 < e.1 && e.2.1 / 2 ^ (e.1 - (len + 1)) == acc') then readSym tab k (len + 1) acc' bs
      else .bad

/-- A number of `k` bits, least significant first. -/
def readExtra (k : Nat) (bs : List Bool) : Option (Nat × List Bool) :=
  if bs.length < k then none
  else some ((indexedBits (bs.take k)).foldl (fun a x => a + (if x.2 then 2 ^ x.1 else 0)) 0, bs.drop k)
where
  indexedBits (l : List Bool) : List (Nat × Bool) := (List.range l.length).zip l

/-- End-of-block with `rest` bits of the payload unread (R241, checks 3 and 4 of R258). -/
def atEnd (out limit : Nat) (rest : List Bool) : Except Status Unit :=
  if (rest.take (rest.length % 8)).any id then .error .sherdCode
  else if out != limit || 8 ≤ rest.length then .error .sherdLength
  else .ok ()

/-- Decode a stream into `limit` bytes; `runs` allows zero runs. Answers the bytes and the symbols before end-of-block. -/
def readStream (tab : List (Nat × Nat × Nat)) (runs : Bool) (limit : Nat) :
    Nat → List Bool → Bytes → Nat → Except Status (Bytes × Nat)
  | 0, _, _, _ => .error .sherdLength
  | k + 1, bits, out, n =>
    match readSym tab 15 0 0 bits with
    | .bad => .error .sherdCode
    | .ended => .error .sherdLength
    | .sym x rest =>
      if x = 272 then
        match atEnd out.length limit rest with
        | .ok _ => .ok (out, n)
        | .error st => .error st
      else if x < 256 then
        if limit ≤ out.length then .error .sherdLength
        else readStream tab runs limit k rest (out ++ [BitVec.ofNat 8 x]) (n + 1)
      else if !runs then .error .sherdCode
      else
        match readExtra (x - 256) rest with
        | none => .error .sherdLength
        | some (e, rest') =>
          if limit < out.length + (2 ^ (x - 256) + e) then .error .sherdLength
          else readStream tab runs limit k rest' (out ++ List.replicate (2 ^ (x - 256) + e) 0) (n + 1)

/-! ## Modes (R240, R248) -/

/-- Digits of `base` in a byte string read as a little-endian number. -/
def digits (base n : Nat) (bs : Bytes) : List Nat := (List.range n).map (fun i => leNat bs / base ^ i % base)

def undigits (base nbytes : Nat) (l : List Nat) : Bytes := natLe nbytes (l.foldr (fun d a => d + base * a) 0)

/-- Combine two byte strings unit by unit of a lane; `sub` forms deltas, else values are rebuilt. -/
def laneOp (sub : Bool) (lane : Nat) (a b : Bytes) : Bytes :=
  let op (m x y : Nat) : Nat := if sub then (x + m - y) % m else (x + y) % m
  let b' := b ++ List.replicate (a.length - b.length) 0
  if lane = 3 then List.zipWith (fun x y => x ^^^ y) a b'
  else if lane = 0 then List.zipWith (fun x y => BitVec.ofNat 8 (op 256 x.toNat y.toNat)) a b'
  else
    let m := if lane = 1 then 64 else 16
    let n := if lane = 1 then a.length * 8 / 6 else a.length * 2
    undigits m a.length (List.zipWith (op m) (digits m n a) (digits m n b'))

/-- Bitmap units of a raw length. -/
def bitmapUnits (lane raw : Nat) : Nat := raw / bitmapUnit lane

/-- Put the bytes of set units back among zeros. -/
def spread (unit : Nat) : List Bool → Bytes → Bytes
  | [], _ => []
  | true :: bs, l => l.take unit ++ spread unit bs (l.drop unit)
  | false :: bs, l => List.replicate unit 0 ++ spread unit bs l

/-- Decode a payload by mode under a table: the raw block, and the cycles of R260. -/
def decodePayload (tab : List (Nat × Nat × Nat)) (mode lane raw : Nat) (base payload : Bytes) :
    Except Status (Bytes × Nat) :=
  let cyc (m n : Nat) : Nat := 16 + max (max (ceilDiv m 64) (ceilDiv n 16)) (ceilDiv raw 64)
  if mode = 2 then
    let units := bitmapUnits lane raw
    let m := ceilDiv units 8
    let map := bitStream (payload.take m)
    if payload.length < m then .error .sherdLength
    else if (map.drop units).any id then .error .sherdCode
    else
      let set := map.take units
      let bits := bitStream (payload.drop m)
      match readStream tab false ((set.filter id).length * bitmapUnit lane) (bits.length + 1) bits [] 0 with
      | .error st => .error st
      | .ok r => .ok (spread (bitmapUnit lane) set r.1, cyc m r.2)
  else
    let bits := bitStream payload
    match readStream tab true raw (bits.length + 1) bits [] 0 with
    | .error st => .error st
    | .ok r => .ok (if mode = 3 then laneOp false lane r.1 base else r.1, cyc 0 r.2)

/-- Expand one sherd (R258): the raw block and the cycles of R260. `base` is its base data for mode 3. -/
def expandSherd (tables : List TableSlot) (base : Bytes) (bs : Bytes) : Except Status (Bytes × Nat) :=
  let h := sherdHdr bs
  let payload := (bs.drop 16).take h.codedLen
  if bs.length < 16 || !hdrOk h bs then .error .sherdCode
  else if h.mode = 0 then .ok (payload, 16 + ceilDiv h.rawLen 2048)
  else
    match tables[h.slot]? with
    | none => .error .tableMismatch
    | some t =>
      match t.image with
      | none => .error .tableMismatch
      | some im =>
        let tab := canon (tableLens im)
        if t.gen = 0 || t.gen != h.gen || h.tabCheck != fieldAt im 248 2 || codeOf tab 272 != some (h.eobLen, h.eobCode) then
          .error .tableMismatch
        else decodePayload tab h.mode h.lane h.rawLen base payload

/-! ## Encoding (R251, R253)

The encoder's choices are no part of the interface: what it writes is a free value wherever that value decodes to the
block, and else the greedy stream below. -/

/-- Symbols with their extra bits of a run of `n` zeros: largest powers of two first. -/
def runSyms : Nat → Nat → List (Nat × Nat)
  | 0, _ => []
  | f + 1, n =>
    if n = 0 then []
    else
      let k := min 15 n.log2
      let e := min (n - 2 ^ k) (2 ^ k - 1)
      (256 + k, e) :: runSyms f (n - 2 ^ k - e)

/-- Greedy symbols of a transformed block; `z` counts the zeros before the rest. -/
def greedy (z : Nat) : Bytes → List (Nat × Nat)
  | [] => runSyms z z
  | b :: bs => if b = 0 then greedy (z + 1) bs else runSyms z z ++ (b.toNat, 0) :: greedy 0 bs

/-- Whether each bitmap unit holds any non-zero byte. -/
def unitBits (lane : Nat) (raw : Bytes) : List Bool :=
  (List.range (bitmapUnits lane raw.length)).map (fun i =>
    ((raw.drop (i * bitmapUnit lane)).take (bitmapUnit lane)).any (fun b => b != 0))

/-- Symbols that a mode emits for a block, end-of-block included. -/
def blockSyms (mode lane : Nat) (base raw : Bytes) : List (Nat × Nat) :=
  (if mode = 2 then
    let set := unitBits lane raw
    ((List.range set.length).zip set).flatMap (fun x =>
      if x.2 then ((raw.drop (x.1 * bitmapUnit lane)).take (bitmapUnit lane)).map (fun b => (b.toNat, 0)) else [])
  else greedy 0 (if mode = 3 then laneOp true lane raw base else raw)) ++ [(272, 0)]

/-- Bits of a symbol under a table, or none without a code. -/
def symBits (tab : List (Nat × Nat × Nat)) (x : Nat × Nat) : Option (List Bool) :=
  (codeOf tab x.1).map (fun c =>
    (List.range c.1).map (fun i => bitOf c.2 (c.1 - 1 - i)) ++
      (if 256 ≤ x.1 && x.1 < 272 then (List.range (x.1 - 256)).map (fun i => bitOf x.2 i) else []))

/-- Bytes of a bit string, padded with zeros. -/
def packBits (n : Nat) (bs : List Bool) : Bytes :=
  natLe n (bs.foldr (fun b a => (if b then 1 else 0) + 2 * a) 0)

/-- The greedy payload of a block, if every symbol has a code. -/
def greedyPayload (tab : List (Nat × Nat × Nat)) (mode lane : Nat) (base raw : Bytes) : Option Bytes :=
  ((blockSyms mode lane base raw).mapM (symBits tab)).map (fun l =>
    let bits := l.flatten
    let map := unitBits lane raw
    (if mode = 2 then packBits (ceilDiv map.length 8) map else []) ++ packBits (ceilDiv bits.length 8) bits)

/-- Whether a payload decodes to a block and is shorter than it. -/
def payloadOk (tab : List (Nat × Nat × Nat)) (mode lane : Nat) (base raw payload : Bytes) : Bool :=
  payload.length < raw.length && 1 ≤ payload.length &&
  match decodePayload tab mode lane raw.length base payload with
  | .ok r => r.1 == raw
  | .error _ => false

/-- The coded payload of a block, or none where it is stored raw. -/
def codedPayload (lens : List Nat) (mode lane : Nat) (base raw : Bytes) : Option Bytes :=
  let tab := canon lens
  let p := Config.codedChoice lens mode lane base raw
  if payloadOk tab mode lane base raw p then some p
  else (greedyPayload tab mode lane base raw).filter (payloadOk tab mode lane base raw)

/-- A sherd of a block: raw, or coded under slot `slot` at generation `gen`. -/
def sherdOf (slot gen : Nat) (image : Bytes) (mode lane : Nat) (base raw : Bytes) : Bytes × Bool :=
  let hdr (v : Nat) : Bytes :=
    let b := natLe 14 v
    b ++ natLe 2 (crc16 b)
  match if mode = 0 then none else codedPayload (tableLens image) mode lane base raw with
  | some p =>
    let e := (codeOf (canon (tableLens image)) 272).getD (0, 0)
    (hdr (mode + lane * 2 ^ 4 + slot * 2 ^ 8 + gen * 2 ^ 12 + raw.length * 2 ^ 16 + p.length * 2 ^ 32 + e.1 * 2 ^ 48 +
      e.2 * 2 ^ 52 + fieldAt image 248 2 * 2 ^ 80) ++ p, false)
  | none => (hdr (lane * 2 ^ 4 + raw.length * 2 ^ 16 + raw.length * 2 ^ 32) ++ raw, true)

/-- Counts of each symbol over blocks, with 1 added to each (R251). -/
def symCounts (mode lane : Nat) (blocks : List (Bytes × Bytes)) : List Nat :=
  let syms := blocks.flatMap (fun b => (blockSyms mode lane b.2 b.1).map (fun x => x.1))
  (List.range 273).map (fun i => 1 + (syms.filter (fun x => x == i)).length)

/-- The lengths TABLE_BUILD gives: a free choice among tables that code every symbol, else length 9 for all. -/
def builtLens (counts : List Nat) : List Nat :=
  let c := Config.tableChoice counts
  if lensOk c && c.all (fun n => n != 0) then c else List.replicate 273 9

/-! ## Coded images (R249) -/

structure Directory where
  lane : Nat
  block : Nat
  plainLen : Nat
  count : Nat
  baseObj : Nat
  baseOff : Nat
  imageBytes : Nat
  cycles : Nat
  deriving DecidableEq, Repr

/-- The directory header at the start of a byte string, if there is a valid one. -/
def directoryOf (bs : Bytes) : Option Directory :=
  let d : Directory :=
    { lane := fieldAt bs 5 1, block := 64 * fieldAt bs 6 2, plainLen := fieldAt bs 8 8, count := fieldAt bs 16 4,
      baseObj := fieldAt bs 20 4, baseOff := fieldAt bs 24 8, imageBytes := fieldAt bs 32 8, cycles := fieldAt bs 40 4 }
  if fieldAt bs 0 4 = 0x44524853 && fieldAt bs 4 1 = 1 && d.lane ≤ 3 && 64 ≤ d.block && d.block ≤ 16384 && 1 ≤ d.count &&
      d.count ≤ 65536 && d.count = ceilDiv d.plainLen d.block then some d
  else none

def pad64 (bs : Bytes) : Bytes := bs ++ List.replicate ((64 - bs.length % 64) % 64) 0

end Sys2Proof.Machine
end

