-- ==== Sys2Proof/Machine/Moves.lean ====
section
/-! DEFINITION. Tier copies (R292, R293, R300 to R304): the outcomes of R300 for columns and extents, COL_MOVE, and the
commit of a copy. -/

namespace Sys2Proof.Machine

/-- The unit that a place names in FLT_POISON (R517). -/
def placeUnit (s : State) (l : Loc) : Nat :=
  match l.tier with
  | .meadow => unitCluster l.unit
  | .heath => unitHeathPort l.unit
  | .pasture => (s.pasture.leases.find? (fun x => x.id == l.unit && !x.lent)).elim unitDevice (fun x => unitPeerPort x.port)

/-- Record FLT_POISON for a place with the source code of R517; its event is that of R319 or R320. -/
def poisonFault (src : Nat) (l : Loc) (off : Nat) (part : Nat) (s : State) : State :=
  let detail := if l.tier == .pasture then l.unit % 65536 * 2 ^ 48 + (l.addr * 4096 + off) % 2 ^ 48 else structAddr l + off
  fault .poison (placeUnit s l) (detail + src * 2 ^ 64) (some part) s

/-- A meadow granule fails its integrity tag (R229): OD 0x9050:01, and OD 0x9050:02 where the second read poisons it. -/
def tagMismatch (l : Loc) (poisons : Bool) (s : State) : State :=
  if l.tier != .meadow then s
  else
    onlyIf poisons (bump64 0x9050 0x02)
      (count (.cluster l.unit) 0x0107 1 { addr := some (structAddr l) } (bump64 0x9050 0x01 s))

/-- Tier speed: meadow, pasture, heath (R300). -/
def faster (a b : Tier) : Bool := a.code < b.code

/-- Space for a copy in a shelf whose port is out of service, where no ready shelf has it: the copy waits (R354). -/
def allocateAway (units : Nat) (s : State) : Except Status (Loc × State) :=
  let place (h : Nat) : Option (Nat × Nat) :=
    if (shelfOf s h).state == 5 then (shelfPlace s units (shelfOf s h)).map (fun u => (h, u)) else none
  match (List.range 16).findSome? place with
  | none => .error .noSpace
  | some (h, u) => .ok (allocAt h u units false s)

/-- Start a copy: space at the target, `moving` set, the source asked for and the target's pages issued (R301). -/
def copyTo (item : MoveItem) (part units : Nat) (src : Loc) (t : Tier) (mask i : Nat) (image : Bool) (cause : MoveBy)
    (s : State) : Except Status (Nat × State) :=
  if t == .heath && s.sec.tenSecret.isNone then .error .keyAbsent
  else
    let got : Except Status (Loc × State) :=
      match allocate t part units mask i false s with
      | .error .noSpace => if t == Tier.heath then allocateAway units s else .error .noSpace
      | r => r
    match got with
    | .error st => .error st
    | .ok (l, s1) =>
      let m : Move :=
        { id := s1.objs.nextMove, item := item, part := part, units := units, dest := l, image := image, cause := cause,
          since := s1.now }
      let s2 := { s1 with objs := { s1.objs with moves := s1.objs.moves ++ [m], nextMove := m.id + 1 } }
      .ok (m.id, heathWrite l units (heathRead src units (setMoving true item s2)))

/-- Place of a column in the first list that holds it (R299). -/
def listIndex (s : State) (slot : Nat) : Nat :=
  ((s.kv.seqs.find? (fun q => q.cols.contains slot)).map (fun q => q.cols.findIdx (fun x => x == slot))).getD 0

/-- Whether R304 lets a column lie in pasture. -/
def colRecomputable (c : Col) : Bool := c.dur == .none || c.dur == .failed

/-- Whether a command asked for a copy: what R300 refuses, it refuses to commands. -/
def byCommand : MoveBy → Bool
  | .cmd _ => true
  | _ => false

/-- Why R300 refuses an action on a column, whatever space or ports it would need. -/
def colRefusal (t : Tier) (mode : Nat) (cmd : Bool) (k : Col) : Option Status :=
  let far := t == .pasture && !colRecomputable k
  if mode = 2 then none
  else if (k.dur == .queued || k.dur == .ring) && cmd then some .conflict
  else if mode = 1 then (if !k.isSealed || !faster t k.home.tier || far then some .badDescriptor else none)
  else if k.home.tier != t && far then some .badDescriptor
  else none

/-- What R300 does to a column: the copy it starts, if any, or why it is refused. -/
def moveCol (t : Tier) (mode : Nat) (cause : MoveBy) (k : Col) (s : State) : Except Status (Option Nat × State) :=
  let n := columnUnits s k.model
  let mask := (policyOf s k.part k.policy).stackMask
  let copy (image : Bool) (u : State) : Except Status (Option Nat × State) :=
    match copyTo (.col k.slot) k.part n k.home t mask (listIndex s k.slot) image cause u with
    | .ok r => .ok (some r.1, r.2)
    | .error st => .error st
  let imageIn := k.image.any (fun l => l.tier == t)
  match colRefusal t mode (byCommand cause) k with
  | some st => .error st
  | none =>
  if mode = 2 then .ok (none, dropColImage k.slot s)
  else if mode = 1 then if imageIn then .ok (none, s) else copy true (dropColImage k.slot s)
  else if k.home.tier == t then .ok (none, s)
  else if k.dur == .heath && t == .meadow then
    if imageIn then .ok (none, s) else copy true (dropColImage k.slot s)
  else if faster t k.home.tier && imageIn then
    let s1 := setCol { k with home := k.image.getD k.home, image := none } s
    .ok (none, dropSlices k.slot (freeLoc k.home n s1))
  else copy false s

/-- Whether R300 needs the column's heath home to be read or its port to serve it. -/
def needsPort (s : State) (t : Tier) (mode : Nat) (k : Col) : Option Nat :=
  if mode != 2 && k.home.tier != t && onDownPort s k.home then some k.home.unit else none

/-- Act on items in order; answers the copies started. -/
def moveEach {α : Type} (f : α → State → Except Status (Option Nat × State)) :
    List α → State → Except Status (List Nat × State)
  | [], s => .ok ([], s)
  | x :: xs, s =>
    match f x s with
    | .error st => .error st
    | .ok (m, s1) =>
      match moveEach f xs s1 with
      | .error st => .error st
      | .ok (ms, s2) => .ok (m.toList ++ ms, s2)

/-- End a command that started copies, or let it wait for them. -/
def afterMoves (c : Cmd) (acted : Nat) (r : Except Status (List Nat × State)) (s : State) : State :=
  match r with
  | .error st => complete c st 0 s
  | .ok ([], t) => complete c .ok acted t
  | .ok (m :: ms, t) => setWork c.id (.moves (m :: ms) acted none []) t

def tierOf (n : Nat) : Tier := if n = 0 then .meadow else if n = 1 then .pasture else .heath

/-- COL_MOVE (R144, R145, R300). A column being moved is waited for. -/
def runColMove (c : Cmd) (s : State) : State :=
  let d := c.desc
  let t := tierOf (dfield d 20 1)
  let mode := dfield d 21 1
  match targetCols c.part d s with
  | .error st => complete c st 0 s
  | .ok cs =>
    if cs.any (fun k => k.poisoned) then complete c .poisoned 0 s
    else if 2 < dfield d 20 1 || 2 < mode then complete c .badDescriptor 0 s
    else
    match cs.findSome? (colRefusal t mode true) with
    | some st => complete c st 0 s
    | none =>
    if cs.any (fun k => k.moving) then setWork c.id .deferred s
    else
      match cs.findSome? (needsPort s t mode) with
      | some h => stall c h s
      | none => afterMoves c cs.length (moveEach (moveCol t mode (.cmd c.id)) cs s) s

def execColMove (q : QRef) (s : State) : Host.Outcome State Fault Refusal := .next (startCmd 0x12 runColMove q s)

/-! ## Extents -/

/-- Whether R300 or R304 refuses an action on an extent, whatever space or ports it would need. -/
def extRefused (s : State) (t : Tier) (mode : Nat) (o : Obj) (e : Ext) : Bool :=
  let far := t == .pasture && !bitOf (policyOf s o.part o.policy).opts 1
  if mode = 1 then !o.immutable || !faster t e.home.tier || far else mode == 0 && e.home.tier != t && far

/-- What R300 does to extent `i` of an object. -/
def moveExt (t : Tier) (mode : Nat) (cause : MoveBy) (id i : Nat) (s : State) : Except Status (Option Nat × State) :=
  match findObj s id with
  | none => .error .badObject
  | some o =>
    match o.exts[i]? with
    | none => .error .badDescriptor
    | some e =>
      let n := extUnits o i
      let pol := policyOf s o.part o.policy
      let copy (image : Bool) (u : State) : Except Status (Option Nat × State) :=
        match copyTo (.ext id i) o.part n e.home t pol.stackMask i image cause u with
        | .ok r => .ok (some r.1, r.2)
        | .error st => .error st
      let imageIn := e.image.any (fun l => l.tier == t)
      if extRefused s t mode o e then .error .badDescriptor
      else if mode = 2 then .ok (none, dropExtImage id i s)
      else if mode = 1 then if imageIn then .ok (none, s) else copy true (dropExtImage id i s)
      else if e.home.tier == t then .ok (none, s)
      else if faster t e.home.tier && imageIn then
        let e1 := { e with home := e.image.getD e.home, image := none }
        .ok (none, freeLoc e.home n (setObj { o with exts := o.exts.set i e1 } s))
      else copy false s

/-! ## Coded images in objects (R249, R256, R259) -/

def objBytes (s : State) (o : Obj) (off n : Nat) : Bytes := memRead s o.part (o.off + off) n

/-- The directory of an object that holds a coded image. -/
def objDirectory (s : State) (o : Obj) : Option Directory :=
  (directoryOf (objBytes s o 0 64)).filter (fun d => d.imageBytes ≤ o.size)

/-- Offset in 64-byte units of sherd `i`, from the directory's entries. -/
def sherdAt (s : State) (o : Obj) (i : Nat) : Nat :=
  64 * fieldAt (objBytes s o (64 + 4 * i) 4) 0 4

/-- The base object of a coded image, which is of the image's partition (R16, R249). -/
def baseOf (s : State) (o : Obj) (d : Directory) : Option Obj := (findObj s d.baseObj).filter (fun b => b.part == o.part)

/-- The bytes that sherd `i` rebuilds against in mode 3. -/
def baseBytes (s : State) (o : Obj) (d : Directory) (i : Nat) : Except Status Bytes :=
  if d.baseObj = 0 then .ok []
  else
    match baseOf s o d with
    | none => .error .badObject
    | some b => if b.poisoned then .error .poisoned else .ok (objBytes s b (d.baseOff + i * d.block) d.block)

/-- Stored bytes of sherd `i`: where they start in the object, and how many. -/
def sherdSpan (s : State) (o : Obj) (i : Nat) : Nat × Nat :=
  (sherdAt s o i, 16 + (sherdHdr (objBytes s o (sherdAt s o i) 16)).codedLen)

/-- Spans of the partition's range that the expansion of block `i` reads: its sherd, and its base where it is of mode 3. -/
def blockReads (s : State) (o : Obj) (d : Directory) (i : Nat) : List (Nat × Nat) :=
  let x := sherdSpan s o i
  let base := if (sherdHdr (objBytes s o x.1 16)).mode = 3 then (baseOf s o d).toList else []
  (o.off + x.1, x.2) :: base.map (fun b => (b.off + d.baseOff + i * d.block, d.block))

/-- The plain bytes of block `i` of an object: expanded from its sherd. -/
def expandBlock (s : State) (o : Obj) (d : Directory) (i : Nat) : Except Status Bytes :=
  let bs := objBytes s o (sherdAt s o i) 16400
  let base : Except Status Bytes := if (sherdHdr bs).mode = 3 then baseBytes s o d i else .ok []
  match base with
  | .error st => .error st
  | .ok b =>
    match expandSherd s.tables b bs with
    | .ok r => .ok r.1
    | .error st => .error st

/-- What a failed sherd leaves behind (R259): one event, FLT_SHERD naming the unit, a count. -/
def sherdFailed (unit : Nat) (o : Obj) (i : Nat) (st : Status) (s : State) : State :=
  let sub := match st with
    | .sherdLength => 0x03
    | .sherdCode => 0x04
    | _ => 0x05
  bump64 0x8000 sub (faultEvent .sherd unit (o.id * 2 ^ 32 + i + st.code * 2 ^ 64) (some o.part) st (o.id * 2 ^ 32 + i) s)

/-- Whether a status comes from the sherd itself (R258). -/
def isSherdStatus (st : Status) : Bool := st == .sherdLength || st == .sherdCode || st == .tableMismatch

/-- Note `k` expansions that succeeded, of `n` bytes together (OD 0x8000:01, :02). -/
def sherdsExpanded (k n : Nat) (s : State) : State := odAdd 0x8000 0x02 64 n (odAdd 0x8000 0x01 64 k s)

/-- Expand `n` sherds of an object from `i` on: how many succeeded, the bytes they delivered, and the one that failed. -/
def expandRun (s : State) (o : Obj) (d : Directory) : Nat → Nat → Nat × Nat × Option (Nat × Status)
  | 0, _ => (0, 0, none)
  | n + 1, i =>
    match expandBlock s o d i with
    | .error st => (0, 0, some (i, st))
    | .ok b =>
      let r := expandRun s o d n (i + 1)
      (r.1 + 1, r.2.1 + b.length, r.2.2)

/-- Note what a run of expansions delivered, a failed one's predecessors included. -/
def runExpanded (s0 : State) (o : Obj) (d : Directory) (n i : Nat) (s : State) : State :=
  let r := expandRun s0 o d n i
  sherdsExpanded r.1 r.2.1 s

/-- The plot whose load expanders serve a partition's WPUSH and moves: plot of the stack that homes the extent. -/
def loadUnit (l : Loc) : Nat := unitPlot (if l.tier == .meadow then l.unit / 4 else 0)

/-- Expand every block of a coded image in order: the plain bytes, or the block and status that failed. -/
def expandAll (s : State) (o : Obj) (d : Directory) : Nat → Nat → Except (Nat × Status) Bytes
  | 0, _ => .ok []
  | n + 1, i =>
    match expandBlock s o d i with
    | .error st => .error (i, st)
    | .ok b =>
      match expandAll s o d n (i + 1) with
      | .error e => .error e
      | .ok r => .ok (b ++ r)

/-! ## The commit of a copy (R301) -/

/-- Recalls of a lease that are met: its DONE goes out, the recalled bytes leave the lease (R317). -/
def recallSettle (id : Nat) (s : State) : State :=
  match s.pasture.leases.find? (fun l => !l.lent && l.id == id) with
  | none => s
  | some l =>
    let r := sumBy (fun x => x.bytes) l.recalls
    if l.recalls.isEmpty || leaseUnits (l.bytes - r) < leaseUse s id then s
    else
      let m : LeaseMsg := { lease := BitVec.ofNat 16 id, bytes := BitVec.ofNat 64 r, lender := l.lender, borrower := l.borrower }
      let ls := s.pasture.leases.map (fun x =>
        if !x.lent && x.id == id then { x with bytes := x.bytes - r, recalls := [] } else x)
      sendLease l.port 6 m { s with pasture := { s.pasture with leases := ls.filter (fun x => x.lent || x.id != id || x.bytes != 0) } }

/-- Take a copy off the list. -/
def endMove (m : Move) (s : State) : State :=
  setMoving false m.item { s with objs := { s.objs with moves := s.objs.moves.filter (fun x => x.id != m.id) } }

/-- A copy is over for whoever asked: a command that has no other ends, an append goes on, sweeps and recalls count. -/
def moveOver (m : Move) (s : State) : State :=
  match m.cause with
  | .cmd id =>
    match findCmd s id with
    | none => s
    | some c =>
      match c.work with
      | .moves left acted failed read =>
        let left' := left.filter (fun x => x != m.id)
        let read' := match m.item with
          | .col k => read ++ [k]
          | _ => read
        if !left'.isEmpty then setWork id (.moves left' acted failed read') s
        else
          let s1 := readOver c.desc read' s
          match failed with
          | some st => complete c st 0 s1
          | none => complete c .ok acted s1
      | _ => s
  | .appendTo id =>
    match findCmd s id with
    | none => s
    | some c =>
      match c.work with
      | .moves _ copied _ _ =>
        appendGo copied c (match m.item with
          | .col k => readOver c.desc [k] s
          | _ => s)
      | _ => s
  | .sweep => if m.image then s else bump64 0x5000 0x07 s
  | .recall lease => recallSettle lease s
  | .firing => s

/-- Image that stays beside a new home: only one in a faster tier (R293, R300). -/
def keptImage (image : Option Loc) (home : Loc) : Option Loc := image.filter (fun l => faster l.tier home.tier)

/-- Switch a column or extent to the copied place and free the old space. -/
def applyMove (m : Move) (s : State) : State :=
  match m.item with
  | .col k =>
    match findCol s k with
    | none => freeLoc m.dest m.units s
    | some c =>
      let n := m.units
      let s1 :=
        if m.image then setCol { c with image := some m.dest } s
        else
          let kept := keptImage c.image m.dest
          let s2 := freeLoc c.home n (if kept.isNone then freeOpt c.image n s else s)
          setCol { c with home := m.dest, image := kept } s2
      dropSlices k s1
  | .ext id i =>
    match findObj s id with
    | none => freeLoc m.dest m.units s
    | some o =>
      match o.exts[i]? with
      | none => freeLoc m.dest m.units s
      | some e0 =>
        let n := m.units
        let reads := match m.cause with | .cmd _ => true | .firing => true | _ => false
        let e := if reads then { e0 with lastUsed := Pos.step s.wheel.cur } else e0
        if m.image then setObj { o with exts := o.exts.set i { e with image := some m.dest } } s
        else
          let kept := keptImage e.image m.dest
          let s2 := freeLoc e.home n (if kept.isNone then freeOpt e.image n s else s)
          setObj { o with exts := o.exts.set i { e with home := m.dest, image := kept } } s2
  | .plain _ => s

/-- Plain size of an expanded object (R303). -/
def plainSize (d : Directory) : Nat := ceilDiv d.plainLen 65536 * 65536

/-- Meadow places for the extents of an object of `size` bytes (R299). -/
def extPlaces (s : State) (mask size : Nat) : List Loc :=
  meadowLocs s mask ((List.range (ceilDiv size (2 ^ 20))).map (fun i => (i, (min (size - i * 2 ^ 20) (2 ^ 20)) / 4096)))

/-- New meadow extents of an object of `size` bytes. -/
def meadowExts (s : State) (mask size : Nat) : List Ext := (extPlaces s mask size).map (fun l => { home := l })

/-- Free every home and image of an object. -/
def freeExts (o : Obj) (s : State) : State :=
  forEach (fun (x : Nat × Ext) t => freeOpt x.2.image (extUnits o x.1) (freeLoc x.2.home (extUnits o x.1) t)) (indexed o.exts) s

/-- Whether an object that grows to `size` bytes would run into another one, or out of the range (R303). -/
def growsOver (s : State) (o : Obj) (size : Nat) : Bool :=
  rangeBytes < o.off + size || s.objs.objs.any (fun y => y.part == o.part && y.id != o.id && overlaps o.off size y.off y.size)

/-- Commit a move that expands (R303, R257): every block, or nothing and the failing sherd's status. The blocks that expanded count
either way. -/
def applyPlain (m : Move) (id : Nat) (s0 : State) : Except Status State × State :=
  match findObj s0 id with
  | none => (.error .badObject, s0)
  | some o =>
    match objDirectory s0 o with
    | none => (.error .badDescriptor, s0)
    | some d =>
      if growsOver s0 o (plainSize d) then (.error .badDescriptor, s0)
      else
      let s := runExpanded s0 o d d.count 0 s0
      match expandAll s o d d.count 0 with
      | .error (i, st) =>
        (.error st, if isSherdStatus st then sherdFailed (loadUnit (o.exts.headD default).home) o i st s else s)
      | .ok bs =>
        let size := plainSize d
        let o1 := { o with size := size, exts := m.places.map (fun l => { home := l, lastUsed := Pos.step s.wheel.cur }) }
        let s1 := memWrite o.part o.off bs (memZero o.part o.off (max o.size size) (freeExts o s))
        (.ok (setObj o1 s1), s)

/-- Mark what a copy failed to read as poisoned (R301, R319, R320). -/
def poisonSource (m : Move) (s : State) : State :=
  match m.item with
  | .col k =>
    match findCol s k with
    | some c => poisonCol k (poisonFault 3 c.home 0 c.part s)
    | none => s
  | .ext id i =>
    match findObj s id with
    | some o => poisonObj id (poisonFault 3 (o.exts.getD i default).home 0 o.part s)
    | none => s
  | .plain id =>
    match findObj s id with
    | some o => poisonObj id (poisonFault 3 (o.exts.headD default).home 0 o.part s)
    | none => s

/-- Whether what a copy reads lies on a poisoned unit of heath, and not in a meadow image (R353). -/
def sourcePoisoned (s : State) (m : Move) : Bool :=
  let bad (home : Loc) (image : Option Loc) (n : Nat) : Bool :=
    home.tier == .heath && !image.any (fun l => l.tier == .meadow) && allocPoisoned (shelfOf s home.unit) home.addr n
  match m.item with
  | .col k => (findCol s k).any (fun c => bad c.home c.image m.units)
  | .ext id i => (findObj s id).any (fun o => bad (o.exts.getD i default).home (o.exts.getD i default).image m.units)
  | .plain id => (findObj s id).any (fun o => (indexed o.exts).any (fun x => bad x.2.home x.2.image (extUnits o x.1)))

/-- A copy that fails leaves the old home: its space at the target returns, and whoever asked hears the status. -/
def failMove (m : Move) (st : Status) (s : State) : State := moveGone st m (endMove m (freeLoc m.dest m.units s))

/-- A copy whose source cannot be read: it is poisoned, and the copy fails. -/
def copySourceLost (m : Move) (s : State) : State :=
  let t := poisonSource m s
  if t.objs.moves.any (fun x => x.id == m.id) then failMove m .poisoned t else t

/-- MOVE_COMMIT (R301): a copy whose heath pages are not all programmed cannot commit yet (R342). -/
def moveCommit (mv : Nat) (res : CopyResult) (s : State) : State :=
  match s.objs.moves.find? (fun m => m.id == mv) with
  | none => s
  | some m =>
    match res with
    | .srcFail => copySourceLost m s
    | .dstFail => failMove m .media s
    | .done =>
      if sourcePoisoned s m then copySourceLost m s
      else if m.dest.tier == .heath && !allocSettled (shelfOf s m.dest.unit) m.dest.addr m.units then s
      else
        match m.item with
        | .plain id =>
          match applyPlain m id s with
          | (.ok t, _) => moveOver m (endMove m t)
          | (.error st, t) => failMove m st t
        | _ => moveOver m (endMove m (applyMove m s))

end Sys2Proof.Machine
end

