-- ==== Sys2Proof/Machine/Objects.lean ====
section
/-! DEFINITION. Object commands (R295 to R298, R302, R303, R320), CXL.mem reads and writes (R44 to R46) and the wait for a
heath port out of service (R354). -/

namespace Sys2Proof.Machine

/-- An object of the partition (R16, R297). -/
def ownObj (s : State) (p id : Nat) : Except Status Obj :=
  match findObj s id with
  | some o => if o.part = p then .ok o else .error .badObject
  | none => .error .badObject

/-- Whether a span of a partition's range touches a poisoned object. -/
def spanPoisoned (s : State) (p off n : Nat) : Bool :=
  s.objs.objs.any (fun o => o.part == p && o.poisoned && overlaps off n o.off o.size)

/-- Extents that a byte span of an object touches. -/
def extsOf (o : Obj) (off n : Nat) : List Nat :=
  (List.range o.exts.length).filter (fun i => overlaps off n (i * 2 ^ 20) (2 ^ 20))

/-- The heath port out of service that a span of an object needs, reading images where it may. -/
def downPort (s : State) (o : Obj) (idx : List Nat) (write : Bool) : Option Nat :=
  idx.findSome? (fun i =>
    match o.exts[i]? with
    | some e => if onDownPort s e.home && (write || e.image.isNone) then some e.home.unit else none
    | none => none)

/-! ## What names an object (R297) -/

/-- Objects that a plan's image names: itself, its firings' and its templates' objects. -/
def planObjs (p : PlanSlot) : List Nat :=
  p.obj :: p.plan.firings.filterMap (fun f =>
    if (f.action == 2 && bitsOf f.operands 7 0 == 2) || f.action == 3 then some (bitsOf f.operands 63 32) else none) ++
  p.plan.templates.map (fun d => dfield d 56 4)

def slotsOf (s : State) : List PlanSlot :=
  s.wheel.active.toList ++ (s.wheel.next.bind (fun n => n.slot)).toList

def slotNames (s : State) (id : Nat) : Bool := (slotsOf s).any (fun p => (planObjs p).contains id)

/-- Objects that a command's descriptor names. -/
def cmdObjs (d : Desc) : List Nat :=
  match dOpcode d with
  | 0x31 => [dObj d]
  | 0x32 => [dObj d]
  | 0x33 => [dObj d]
  | 0x34 => if dfield d 12 1 = 1 then [dfield d 24 4] else []
  | 0x40 => [dfield d 56 4]
  | 0x50 => [dObj d, dfield d 36 4, dfield d 48 4]
  | 0x51 => [dfield d 12 4]
  | 0x52 => [dObj d, dfield d 36 4, dfield d 48 4]
  | _ => []

/-- Bytes of the source of an OBJ_WRITE: with `decrypt`, a 64-byte trailer follows each chunk of 64 KiB (R446). -/
def sourceSpan (decrypt : Bool) (len : Nat) : Nat := if decrypt then len + 64 * ceilDiv len 65536 else len

/-- Spans of the partition's range that a command's descriptor names; lengths that depend on a model record are bounded
by the rest of the range. -/
def cmdSpans (s : State) (d : Desc) : List (Nat × Nat) :=
  let rows := dfield d 12 2
  let modelOf := (findSeq s (dSeq d)).elim 0 (fun q => q.model)
  let g := layerGroup s modelOf (dfield d 11 1)
  let hq := modelHq s modelOf
  let dq := g.elim 0 (fun x => if x.kind = 3 then x.dc + x.dr else if x.kind = 2 then x.d + x.dr else x.d)
  let len := (findSeq s (dSeq d)).elim 0 (fun q => q.length + q.pendCount)
  match dOpcode d with
  | 0x10 =>
    (List.range (dfield d 19 1)).map (fun i =>
      (dfield d 24 8 + i * dfield d 20 4, dfield d 16 2 * recordBytes s modelOf (dfield d 18 1 + i) (dfield d 11 1)))
  | 0x20 => [(dfield d 16 8, 4 * dfield d 12 4)]
  | 0x21 => [(dfield d 24 8, 64 * dfield d 16 4), (dfield d 32 8, if dfield d 32 8 = 0 then 0 else 16 * dfield d 16 4)]
  | 0x31 => [(dfield d 24 8, sourceSpan (bitOf (dfield d 12 1) 1) (dfield d 32 8))]
  | 0x40 => [(dfield d 32 8, rows * hq * dq * 2),
             (dfield d 48 8, if bitOf (dfield d 15 1) 2 then ceilDiv rows 16 * ceilDiv len 16 * 32 else 0)]
  | 0x41 => [(dfield d 32 8, 4 * rows * hq * dq * 4), (dfield d 40 8, rows * hq * dq * 4),
             (dfield d 48 8, 2 * len * g.elim 0 (fun x => x.h) * dq * 4 + 64),
             (dfield d 56 8, if bitOf (dfield d 15 1) 2 then ceilDiv rows 16 * ceilDiv len 16 * 32 else 0)]
  | _ => []

/-- Whether an object is in use for `mode` 3 of OBJ_MOVE (R297). -/
def objInUse (s : State) (o : Obj) (self : Nat) : Bool :=
  slotNames s o.id ||
  s.queues.cmds.any (fun c => c.id != self &&
    ((cmdObjs c.desc).contains o.id ||
      (c.part == o.part && (cmdSpans s c.desc).any (fun x => overlaps x.1 x.2 o.off o.size)))) ||
  s.jobs.jobs.any (fun j => j.part == o.part && j.kind != .backward && dfield j.desc 56 4 == o.id) ||
  s.objs.moves.any (fun m => isObjItem o.id m.item) ||
  s.peer.qps.any (fun q => q.part == o.part && q.started.any (fun w =>
    overlaps (dfield w.desc 16 8) (dfield w.desc 24 4) o.off o.size))

/-! ## OBJ_CREATE -/

/-- Space for the extents of a new object, in order; the total has been checked. Those in meadow are placed under R299, each
beside those before it. -/
def allocExts (t : Tier) (p mask size : Nat) : Nat → Nat → State → Except Status (List Ext × State)
  | 0, _, s => .ok ([], s)
  | k + 1, i, s =>
    match allocate t p ((min (size - i * 2 ^ 20) (2 ^ 20)) / 4096) mask i false s with
    | .error st => .error st
    | .ok (l, s1) =>
      match allocExts t p mask size k (i + 1) s1 with
      | .error st => .error st
      | .ok (es, s2) => .ok ({ home := l } :: es, s2)

def nextObjId (s : State) : Nat :=
  nextFree 0xFFFFFFFF (s.objs.objs.map (fun o => o.id)) (s.objs.objs.length + 1) s.objs.lastObj

/-- Whether a tier can hold `units` more for a partition as a whole (R306, R308). -/
def tierCheck (s : State) (t : Tier) (p units : Nat) : Except Status Unit :=
  match t with
  | .meadow => match meadowCheck s p units with | .ok => .ok () | st => .error st
  | .heath => if od s (partIx p) 0x04 / 4096 < useOf s .heath p + units then .error .quota else .ok ()
  | .pasture => .ok ()

def keyHeld (s : State) (slot : Nat) : Option Bytes := (s.sec.weightKeys.find? (fun k => k.slot == slot)).map (fun k => k.key)

def objCreate (p : Nat) (d : Desc) (s : State) : Except Status (Nat × State) := do
  let kind := dfield d 8 1
  let tier := dfield d 9 1
  let policy := dfield d 12 4
  let size := dfield d 16 8
  let off := dfield d 24 8
  let key := dfield d 32 4
  need (policy < 256 && policyDefined s p policy) .badObject
  need (1 ≤ kind && kind ≤ 4 && (tier == 0 || tier == 2) && (key == 0 || (kind == 2 && key < 256))) .badDescriptor
  need (size % 65536 == 0 && 65536 ≤ size && size ≤ 2 ^ 40 && off % 65536 == 0 && 0x100000 ≤ off &&
    off + size ≤ rangeBytes) .badDescriptor
  need (!s.objs.objs.any (fun o => o.part == p && overlaps off size o.off o.size)) .conflict
  need (key == 0 || (keyHeld s key).isSome) .keyAbsent
  let t := tierOf tier
  tierCheck s t p (size / 4096)
  need (s.objs.objs.length < 1048576) .noSpace
  let mask := (policyOf s p policy).stackMask
  let r ← (if t == .meadow then .ok (meadowExts s mask size, draws (ceilDiv size (2 ^ 20)) s)
    else allocExts t p mask size (ceilDiv size (2 ^ 20)) 0 s)
  let id := nextObjId s
  let o : Obj := { id := id, part := p, kind := kind, size := size, off := off, policy := policy, key := key, exts := r.1 }
  return (id, memZero p off size { r.2 with objs := { r.2.objs with objs := r.2.objs.objs ++ [o], lastObj := id } })

def runObjCreate (c : Cmd) (s : State) : State := finish c (objCreate c.part c.desc s) s
def execObjCreate (q : QRef) (s : State) : Host.Outcome State Fault Refusal := .next (startCmd 0x30 runObjCreate q s)

/-! ## Writes and reload (R302, R320) -/

/-- Add a span to a list of disjoint spans kept in rising order, joining those it meets. -/
def coverAdd (a n : Nat) (l : List (Nat × Nat)) : List (Nat × Nat) :=
  let near := l.filter (fun x => a ≤ x.1 + x.2 && x.1 ≤ a + n)
  let lo := near.foldl (fun m x => min m x.1) a
  let hi := near.foldl (fun m x => max m (x.1 + x.2)) (a + n)
  sortBy (fun x y => x.1 < y.1) ((lo, hi - lo) :: l.filter (fun x => !(a ≤ x.1 + x.2 && x.1 ≤ a + n)))

/-- The first counting write of a poisoned object: every extent gets a new home in meadow, the old ones are freed. -/
def rehome (id : Nat) (s : State) : Except Status State :=
  match findObj s id with
  | none => .error .badObject
  | some o =>
    let s1 := freeExts o s
    match meadowCheck (setObj { o with exts := [] } s1) o.part (o.size / 4096) with
    | .ok => .ok (setObj { o with exts := meadowExts s1 (policyOf s o.part o.policy).stackMask o.size } (draws o.exts.length s1))
    | st => .error st

/-- Count a write toward the reload of a poisoned object; once every byte is written it leaves reload required. -/
def reloadCount (id off n : Nat) (s : State) : State :=
  match findObj s id with
  | none => s
  | some o =>
    if !o.poisoned then s
    else
      let cov := coverAdd off n o.rewritten
      if cov = [(0, o.size)] then
        event .ok (some o.part) 0 0 (id * 2 ^ 32) (setObj { o with poisoned := false, rewritten := [] } s)
      else setObj { o with rewritten := cov } s

/-- Lines of a written span leave the cluster caches (R225). -/
def dropLines (p off n : Nat) (s : State) : State :=
  { s with jobs := { s.jobs with lines := s.jobs.lines.filter (fun x =>
      !(x.2.1 == p && overlaps off n (64 * x.2.2) 64)) } }

/-- Physical address of the meadow granule that holds byte `off` of an object at a place (R450). -/
def granuleAt (l : Loc) (off : Nat) : Nat := (structAddr l + off % 2 ^ 20) / 256 * 256

/-- The granules of a span of an object's homes in meadow are written: what stood there altered is gone (R451). -/
def dropAltered (o : Obj) (off n : Nat) (s : State) : State :=
  { s with objs := { s.objs with altered := s.objs.altered.filter (fun g =>
    !(extsOf o off n).any (fun i =>
      let l := (o.exts.getD i default).home
      l.tier == .meadow && granuleAt l (max off (2 ^ 20 * i)) ≤ g.1 &&
        g.1 ≤ granuleAt l (min (off + n) (2 ^ 20 * (i + 1)) - 1))) } }

/-- Write bytes into an object at their homes: images are dropped, heath homes programmed (R302). -/
def objStore (id off : Nat) (bs : Bytes) (s : State) : State :=
  match findObj s id with
  | none => s
  | some o =>
    let idx := extsOf o off bs.length
    let s1 := forEach (fun i t => dropExtImage id i t) idx s
    let s2 := dropAltered o off bs.length (dropLines o.part (o.off + off) bs.length (memWrite o.part (o.off + off) bs s1))
    let s3 := forEach (fun i t =>
      match o.exts[i]? with
      | some e => heathWrite e.home (extUnits o i) t
      | none => t) idx s2
    reloadCount id off bs.length s3

/-- Whether a write into an object must wait: an extent that it touches is being moved, or an earlier write of the object waits. -/
def writeWaits (s : State) (id off n : Nat) : Bool :=
  s.objs.heldWrites.any (fun w => w.obj == id) ||
  (findObj s id).any (fun o => (extsOf o off n).any (fun i => (o.exts.getD i default).moving))

/-- A write by other than OBJ_WRITE, for a command where `cmd` names one: one that reaches an extent being moved waits for the commit
and then writes the new home (R301). -/
def objWriteFor (cmd : Option Nat) (id off : Nat) (bs : Bytes) (s : State) : State :=
  if writeWaits s id off bs.length then
    { s with objs := { s.objs with heldWrites := s.objs.heldWrites ++ [{ obj := id, off := off, bytes := bs, cmd := cmd }] } }
  else objStore id off bs s

def objWrite (id off : Nat) (bs : Bytes) (s : State) : State := objWriteFor none id off bs s

/-- The objects of a partition that a span touches. -/
def spanObjs (s : State) (p off len : Nat) : List Obj :=
  s.objs.objs.filter (fun o => o.part == p && overlaps off len o.off o.size)

/-- Bytes of a span that lie in an object. -/
def spanIn (o : Obj) (off len : Nat) : Nat := min (off + len) (o.off + o.size) - max off o.off

/-- Place bytes of the range in the objects of their span. -/
def placeBytes (cmd : Option Nat) (p off : Nat) (bs : Bytes) (s : State) : State :=
  forEach (fun (o : Obj) =>
    objWriteFor cmd o.id (max off o.off - o.off) ((bs.drop (max off o.off - off)).take (spanIn o off bs.length))) (spanObjs s p off bs.length) s

/-- Whether bytes placed at a span would have to wait for a copy. -/
def spanWaits (s : State) (p off len : Nat) : Bool :=
  (spanObjs s p off len).any (fun o => writeWaits s o.id (max off o.off - o.off) (spanIn o off len))

/-- Whether bytes that a command writes still wait for a copy. -/
def placesStill (s : State) (id : Nat) : Bool := s.objs.heldWrites.any (fun w => w.cmd == some id)

/-- Complete a command whose bytes are all visible; one whose bytes still wait for a copy completes after them (R74). -/
def completePlaced (c : Cmd) (st : Status) (result : Nat) (s : State) : State :=
  if placesStill s c.id then setWork c.id (.placing st result) s else complete c st result s

/-- Commands whose last bytes have become visible complete (R74). -/
def placedOver (s : State) : State :=
  forEach (fun (c : Cmd) t =>
    match c.work with
    | .placing st v => if placesStill t c.id then t else complete c st v t
    | _ => t) s.queues.cmds s

/-- A CXL.mem write into an object that is poisoned (R45, R320): it counts where the object is mutable, the first with new homes. -/
def reloadWrite (o : Obj) (off : Nat) (bs : Bytes) (s : State) : State :=
  if o.immutable then event .badObject (some o.part) 0 0 (o.off + off) s
  else
    match if o.rewritten.isEmpty then rehome o.id s else .ok s with
    | .ok s1 => objWrite o.id off bs s1
    | .error st => event st (some o.part) 0 0 (o.off + off) s

/-- A write that waited goes on, or waits further. Where its object has been poisoned meanwhile, a command's bytes are dropped and it
ends with ST_POISONED, and a CXL.mem write meets the object as one that comes now (R320). -/
def heldOn (w : HeldWrite) (s : State) : State :=
  match (findObj s w.obj).filter (fun o => o.poisoned), w.cmd with
  | none, c => objWriteFor c w.obj w.off w.bytes s
  | some o, none => reloadWrite o w.off w.bytes s
  | some _, some id => if (findCmd s id).isSome then setWork id (.placing .poisoned 0) s else s

/-! ## What MOVE firings bring into meadow (R312, R313) -/

/-- Whether a column has its home or image in meadow. -/
def inMeadow (c : Col) : Bool := c.home.tier == .meadow || c.image.any (fun l => l.tier == .meadow)

/-- Whether a place lies where nothing can be read now: a heath port down, a lease lost. -/
def placeOut (s : State) (l : Loc) : Bool :=
  onDownPort s l || (l.tier == .pasture && s.pasture.leases.any (fun x => !x.lent && x.id == l.unit && x.lostAt.isSome))

/-- Whether a copy of an item into meadow is under way. -/
def comesIn (s : State) (i : MoveItem) : Bool := s.objs.moves.any (fun m => m.item == i && m.dest.tier == .meadow)

/-- An item of a MOVE firing that is being copied elsewhere is brought into meadow after that copy: R301 lets no second one run beside it
(DEDUCED, log entry 151). -/
def bringLater (i : MoveItem) (s : State) : State :=
  if comesIn s i || s.objs.bring.contains i then s else { s with objs := { s.objs with bring := s.objs.bring ++ [i] } }

/-- Bring a column into meadow: an image when it is sealed, else its home (R312). -/
def bringCol (slot : Nat) (s : State) : State :=
  match findCol s slot with
  | none => s
  | some c =>
    if inMeadow c then s
    else if c.poisoned || placeOut s c.home || c.image.any (placeOut s) then bump64 0x5000 0x0E s
    else if c.moving then bringLater (.col slot) s
    else
      match moveCol .meadow (if c.isSealed then 1 else 0) .firing c s with
      | .ok r => r.2
      | .error _ => bump64 0x5000 0x09 s

/-- Bring an extent into meadow: an image of an immutable one, else its home (R313). -/
def bringExt (id i : Nat) (s : State) : State :=
  match findObj s id with
  | none => s
  | some x =>
    let e := x.exts.getD i default
    if x.poisoned || placeOut s e.home then bump64 0x5000 0x0E s
    else if e.home.tier == .meadow then s
    else if e.moving then bringLater (.ext id i) s
    else
      match moveExt .meadow (if x.immutable then 1 else 0) .firing id i s with
      | .ok r => r.2
      | .error _ => bump64 0x5000 0x09 s

def bringItem (i : MoveItem) (s : State) : State :=
  match i with
  | .col k => bringCol k s
  | .ext id n => bringExt id n s
  | .plain _ => s

/-- What waited for a copy that is over goes on, in order: writes, and what MOVE firings bring into meadow. -/
def flushHeld (s : State) : State :=
  let s1 :=
    if s.objs.heldWrites.isEmpty then s
    else placedOver (forEach heldOn s.objs.heldWrites { s with objs := { s.objs with heldWrites := [] } })
  if s1.objs.bring.isEmpty then s1 else forEach bringItem s1.objs.bring { s1 with objs := { s1.objs with bring := [] } }

/-- SHA-256 of a weight object's bytes, entered in ascending object ID (R436). -/
def sealWeight (o : Obj) (s : State) : State :=
  if o.kind != 2 then s
  else
    let e := (o.id, Config.sha256 (objBytes s o 0 o.size))
    let l := e :: s.sec.sealedWeights.filter (fun x => x.1 != o.id)
    { s with sec := { s.sec with sealedWeights := sortBy (fun a b => a.1 < b.1) l } }

/-- The plain chunks of a `decrypt` source that verify, up to the first that does not (R446). -/
def decryptChunks (s : State) (key : Bytes) (p src dst len : Nat) : Nat → Nat → Bytes × Bool
  | 0, _ => ([], true)
  | k + 1, i =>
    let n := min 65536 (len - 65536 * i)
    let ct := memRead s p (src + 65600 * i) n
    let tr := memRead s p (src + 65600 * i + n) 64
    let at_ := (tr.drop 32).take 8
    if leNat at_ != dst + 65536 * i then ([], false)
    else
      match Config.gcmOpen key (tr.take 12) at_ ct ((tr.drop 16).take 16) with
      | none => ([], false)
      | some pt =>
        let r := decryptChunks s key p src dst len k (i + 1)
        (pt.take n ++ r.1, r.2)

structure WriteArgs where
  obj : Obj
  sealing : Bool
  decrypt : Bool
  dst : Nat
  src : Nat
  len : Nat

def writeArgs (p : Nat) (d : Desc) (s : State) : Except Status WriteArgs := do
  let o ← ownObj s p (dObj d)
  let opts := dfield d 12 1
  let dst := dfield d 16 8
  let src := dfield d 24 8
  let len := dfield d 32 8
  let sealing := bitOf opts 0
  let dec := bitOf opts 1
  need (!spanPoisoned s p src (sourceSpan dec len)) .poisoned
  need (opts < 4 && dst % 64 == 0 && src % 64 == 0 && len % 64 == 0 && len ≤ 2 ^ 30 && (len != 0 || sealing)) .badDescriptor
  need (dst + len ≤ o.size && src + sourceSpan dec len ≤ rangeBytes && (!dec || o.key != 0)) .badDescriptor
  need ((!o.immutable || o.poisoned) && !(slotsOf s).any (fun x => x.obj == o.id)) .conflict
  need (!dec || (keyHeld s o.key).isSome) .keyAbsent
  return { obj := o, sealing := sealing, decrypt := dec, dst := dst, src := src, len := len }

/-- OBJ_WRITE (R296, R297, R302, R320, R436, R446). -/
def runObjWrite (c : Cmd) (s : State) : State :=
  match writeArgs c.part c.desc s with
  | .error st => complete c st 0 s
  | .ok a =>
    let idx := extsOf a.obj a.dst a.len
    let heath := idx.any (fun i => (a.obj.exts.getD i default).home.tier == .heath)
    if writeWaits s a.obj.id a.dst a.len then setWork c.id .deferred s
    else if heath && !a.obj.poisoned && s.sec.tenSecret.isNone then complete c .keyAbsent 0 s
    else
      match if a.obj.poisoned then none else downPort s a.obj idx true with
      | some h => stall c h s
      | none =>
        match if a.obj.poisoned && a.obj.rewritten.isEmpty && a.len != 0 then rehome a.obj.id s else .ok s with
        | .error st => complete c st 0 s
        | .ok s1 =>
          let r :=
            if a.decrypt then
              decryptChunks s ((keyHeld s a.obj.key).getD []) c.part a.src a.dst a.len (ceilDiv a.len 65536) 0
            else (memRead s c.part a.src a.len, true)
          let s2 := if r.1.isEmpty then s1 else objStore a.obj.id a.dst r.1 s1
          if !r.2 then complete c .integrity r.1.length s2
          else
            let s3 :=
              match findObj s2 a.obj.id with
              | some o => if a.sealing then sealWeight o (setObj { o with immutable := true } s2) else s2
              | none => s2
            complete c .ok r.1.length (touchRead c.part a.src (sourceSpan a.decrypt a.len) s3)

def execObjWrite (q : QRef) (s : State) : Host.Outcome State Fault Refusal := .next (startCmd 0x31 runObjWrite q s)

/-! ## OBJ_READ and WPUSH messages (R65, R256, R257) -/

/-- Send bytes as the fragments of one item; the first and the last are marked so (R64), and the last carries `last`. -/
def sendPieces (window obj tile part : Nat) (st : Status) (final : Bool) : Nat → Bool → Nat → Bytes → State → State
  | 0, _, _, _, s => s
  | k + 1, first, off, bs, s =>
    let ends := final && bs.length ≤ 16384
    let body : HostMsg := .wpush window off obj tile part st ends (bs.take 16384)
    let n := min 16384 bs.length
    let s1 := sendInside window 3 off n (if part < 32 then some part else none) (sendFrag3 first ends n body) s
    if bs.length ≤ 16384 then s1 else sendPieces window obj tile part st final k false (off + 16384) (bs.drop 16384) s1

def sendTile (window off obj tile part : Nat) (st : Status) (bs : Bytes) (s : State) : State :=
  sendPieces window obj tile part st true (bs.length / 16384 + 1) true off bs s

/-- Expand the blocks that cover plain bytes `off` to `off + n - 1`: bytes so far, and the block that failed. -/
def expandSpan (s : State) (o : Obj) (d : Directory) (off n : Nat) : Nat → Nat → Bytes × Option (Nat × Status)
  | 0, _ => ([], none)
  | k + 1, i =>
    if off + n ≤ i * d.block then ([], none)
    else
      match expandBlock s o d i with
      | .error st => ([], some (i, st))
      | .ok b =>
        let r := expandSpan s o d off n k (i + 1)
        (((b.drop (off - i * d.block)).take (off + n - max off (i * d.block))) ++ r.1, r.2)

/-- Blocks of a coded image that cover plain bytes `off` to `off + n - 1`. -/
def blocksOver (d : Directory) (off n : Nat) : List Nat :=
  (List.range (ceilDiv (off + n) d.block - off / d.block)).map (fun k => off / d.block + k)

def readArgs (p : Nat) (d : Desc) (s : State) : Except Status (Obj × Option Directory) := do
  let o ← ownObj s p (dObj d)
  need ((findWindow (dfield d 32 2) s).any (fun w => w.cls == 3)) .badObject
  let opts := dfield d 12 1
  need (opts != 1 || o.kind == 2 || o.kind == 3) .badObject
  need (!o.poisoned) .poisoned
  let off := dfield d 16 8
  let len := dfield d 24 8
  let dir := if opts == 1 then objDirectory s o else none
  need (opts < 2 && off % 64 == 0 && len ≤ 2 ^ 30 && dfield d 36 4 % 64 == 0 && (opts == 0 || dir.isSome)) .badDescriptor
  need (off + len ≤ dir.elim o.size (fun x => x.plainLen) && windowHolds (dfield d 32 2) 3 (dfield d 36 4) len s)
    .badDescriptor
  return (o, dir)

/-- OBJ_READ (R296): the bytes go out as WPUSH messages with tile index 0xFFFF_FFFF; a sherd that fails to expand ends
the command with its status (R258, R259). -/
def runObjRead (c : Cmd) (s : State) : State :=
  let d := c.desc
  match readArgs c.part d s with
  | .error st => complete c st 0 s
  | .ok (o, dir) =>
    let off := dfield d 16 8
    let len := dfield d 24 8
    let idx := match dir with
      | none => extsOf o off len
      | some x => (extsOf o 0 (64 + 4 * x.count) ++ (blocksOver x off len).flatMap (fun i => extsOf o (sherdSpan s o i).1 (sherdSpan s o i).2)).dedup
    match downPort s o idx false with
    | some h => stall c h s
    | none =>
      let s1 := forEach (fun i t =>
        match o.exts[i]? with
        | some e => if e.image.isNone then heathRead e.home (extUnits o i) t else t
        | none => t) idx s
      let s2 := setObj { o with exts := (indexed o.exts).map (fun x =>
        if idx.contains x.1 then { x.2 with lastUsed := Pos.step s.wheel.cur } else x.2) } s1
      match dir with
      | none => complete c .ok 0 (sendTile (dfield d 32 2) (dfield d 36 4) o.id 0xFFFFFFFF o.part .ok (objBytes s o off len) s2)
      | some x =>
        let blocks := blocksOver x off len
        let r := expandSpan s o x off len (x.count - off / x.block) (off / x.block)
        let s3 := runExpanded s o x blocks.length (off / x.block)
          (forEach (fun (y : Nat × Nat) t => touchRead o.part y.1 y.2 t) (blocks.flatMap (blockReads s o x)) s2)
        match r.2 with
        | none => complete c .ok 0 (sendTile (dfield d 32 2) (dfield d 36 4) o.id 0xFFFFFFFF o.part .ok r.1 s3)
        | some (i, st) =>
          let s4 := sendTile (dfield d 32 2) (dfield d 36 4 + r.1.length) o.id 0xFFFFFFFF o.part st [] s3
          complete c st 0 (if isSherdStatus st then sherdFailed (loadUnit (o.exts.headD default).home) o i st s4 else s4)

def execObjRead (q : QRef) (s : State) : Host.Outcome State Fault Refusal := .next (startCmd 0x32 runObjRead q s)

/-! ## OBJ_MOVE -/

/-- Whether a move of the byte span expands (R303): `plain`, asked for by the command or by the object's policy, of a whole object
that holds a coded image. -/
def expandsMove (s : State) (o : Obj) (asked : Bool) (off len : Nat) : Option Directory :=
  if (asked || bitOf (policyOf s o.part o.policy).opts 0) && off = 0 && (len = 0 || len = o.size) then objDirectory s o else none

/-- Start a move that expands: its new homes in meadow (R299), or why not. -/
def startPlain (cause : MoveBy) (o : Obj) (x : Directory) (s : State) : Except Status (Nat × State) :=
  let size := plainSize x
  let places := extPlaces s (policyOf s o.part o.policy).stackMask size
  if growsOver s o size then .error .badDescriptor
  else
    match meadowCheck s o.part (size / 4096) with
    | .ok =>
      let m : Move :=
        { id := s.objs.nextMove, item := .plain o.id, part := o.part, units := size / 4096, dest := places.headD { tier := .meadow },
          image := false, cause := cause, since := s.now, places := places }
      let s1 := setMoving true m.item { s with objs := { s.objs with moves := s.objs.moves ++ [m], nextMove := m.id + 1 } }
      .ok (m.id, forEach (fun (e : Nat × Ext) t => heathRead e.2.home (extUnits o e.1) t) (indexed o.exts) (draws places.length s1))
    | st => .error st

/-- Release an object: homes and images freed, its ID returned, its bytes gone from the range. -/
def releaseObj (o : Obj) (s : State) : State :=
  let s1 := memZero o.part o.off o.size (freeExts o s)
  { s1 with objs := { s1.objs with objs := s1.objs.objs.filter (fun x => x.id != o.id) }
            sec := { s1.sec with sealedWeights := s1.sec.sealedWeights.filter (fun x => x.1 != o.id) } }

def moveArgs (p : Nat) (d : Desc) (s : State) : Except Status Obj := do
  let o ← ownObj s p (dObj d)
  need (!o.poisoned) .poisoned
  let off := dfield d 16 8
  let len := dfield d 24 8
  need (dfield d 12 1 ≤ 2 && dfield d 13 1 ≤ 3 && dfield d 14 1 ≤ 1 && off % 64 == 0 && off + len ≤ o.size &&
    (len != 0 || off == 0)) .badDescriptor
  return o

/-- OBJ_MOVE (R296, R300, R303). -/
def runObjMove (c : Cmd) (s : State) : State :=
  let d := c.desc
  match moveArgs c.part d s with
  | .error st => complete c st 0 s
  | .ok o =>
    let mode := dfield d 13 1
    let t := tierOf (dfield d 12 1)
    let idx := if dfield d 24 8 = 0 then List.range o.exts.length else extsOf o (dfield d 16 8) (dfield d 24 8)
    if mode = 3 then
      if objInUse s o c.id then complete c .conflict 0 s else complete c .ok o.exts.length (releaseObj o s)
    else
      let expands := if mode = 0 && t == .meadow then expandsMove s o (bitOf (dfield d 14 1) 0) (dfield d 16 8) (dfield d 24 8) else none
      if expands.any (fun x => growsOver s o (plainSize x)) ||
          (expands.isNone && idx.any (fun i => extRefused s t mode o (o.exts.getD i default))) then complete c .badDescriptor 0 s
      else if idx.any (fun i => (o.exts.getD i default).moving) then setWork c.id .deferred s
      else
        match if mode = 2 then none else downPort s o (idx.filter (fun i => (o.exts.getD i default).home.tier != t)) true with
        | some h => stall c h s
        | none =>
          match expands with
          | some x => afterMoves c o.exts.length ((startPlain (.cmd c.id) o x s).map (fun r => ([r.1], r.2))) s
          | none => afterMoves c idx.length (moveEach (moveExt t mode (.cmd c.id) o.id) idx s) s

def execObjMove (q : QRef) (s : State) : Host.Outcome State Fault Refusal := .next (startCmd 0x33 runObjMove q s)

/-! ## OBJ_POLICY (R298) -/

def setPolicy (x : Policy) (l : List Policy) : List Policy := l.filter (fun y => !(y.part == x.part && y.id == x.id)) ++ [x]

/-- Whether an item's policy is never chosen by a sweep (R298, R310). -/
def neverSwept (s : State) : MoveItem → Bool
  | .col k => (findCol s k).any (fun c => (policyOf s c.part c.policy).spill == 2)
  | .ext id _ => (findObj s id).any (fun o => (policyOf s o.part o.policy).spill == 2)
  | .plain _ => false

def objPolicy (p : Nat) (d : Desc) (s : State) : Except Status (Nat × State) := do
  let id := dfield d 8 4
  let op := dfield d 12 1
  let target := dfield d 24 4
  if op = 0 then
    need (1 ≤ id && id < 256 && dfield d 16 4 != 0 && dfield d 16 4 < 2 ^ 24 && dfield d 20 1 ≤ 2 && dfield d 21 1 ≤ 3)
      .badDescriptor
    let x : Policy := { part := p, id := id, stackMask := dfield d 16 4, spill := dfield d 20 1, opts := dfield d 21 1 }
    return (0, { s with objs := { s.objs with policies := setPolicy x s.objs.policies } })
  else if op = 1 then
    let o ← ownObj s p target
    need (id < 256 && policyDefined s p id) .badObject
    return (0, setObj { o with policy := id } s)
  else if op = 2 then
    need (target < 2 ^ 24) .badDescriptor
    let q ← openSeq s p target
    need (id < 256 && policyDefined s p id) .badObject
    return (0, editCols (fun c => { c with policy := id }) (seqCols s q) (setSeq { q with policy := id } s))
  else .error .badDescriptor

def runObjPolicy (c : Cmd) (s : State) : State :=
  flushHeld (finish c ((objPolicy c.part c.desc s).map (fun r => (r.1, abandonSweepOf (neverSwept r.2) r.2))) s)
def execObjPolicy (q : QRef) (s : State) : Host.Outcome State Fault Refusal := .next (startCmd 0x34 runObjPolicy q s)

/-! ## CXL.mem (R43 to R46, R302, R320) -/

/-- Whether a line lies in a configured command ring (R43, R45): a queue is configured once its record names a completion window
(DESIGN CHOICE, log entry 135). -/
def inRing (s : State) (p off : Nat) : Bool :=
  (List.range 4).any (fun q => compWindow s (.part p q) != 0xFFFF && 0x40000 * q ≤ off &&
    off + 64 ≤ 0x40000 * q + 64 * ringSize s (.part p q))

/-- Answer a read with the line's present bytes, or with the poison indication. A read that waited, when every CXL module left service, is
answered all the same (R79 does not say; DESIGN CHOICE, log entry 128). -/
def cxlAnswer (p line : Nat) (poison : Bool) (s : State) : State :=
  send (.cxlData p line (BitVec.ofNat 512 (if poison then 0 else leNat (memRead s p (64 * line) 64))) poison) s

/-- Columns whose durability data goes to a unit, or whose record is being written there, and has not all been published. -/
def ringCols (s : State) (h u : Nat) : List Nat :=
  let recs := (unitLog s h u).elim [] (fun g => g.recs.map (fun r => r.recNo))
  s.pfx.ring.filterMap (fun e =>
    match e.item with
    | .data k l n => if coversUnit l n h u then some k else none
    | .publish k r => if recs.contains r.recNo then some k else none
    | _ => none)

/-- CXL.mem reads that wait for a unit are answered with poison, each with its event (R46, R353). -/
def poisonReads (h u : Nat) (s : State) : State :=
  let mine (w : CxlWait) : Bool := w.asked && w.shelf == h && w.unit == u
  forEach (fun (w : CxlWait) t => event .poisoned (some w.part) 0 0 (64 * w.line) (cxlAnswer w.part w.line true t))
    (s.host.cxlWaiting.filter mine) { s with host := { s.host with cxlWaiting := s.host.cxlWaiting.filter (fun w => !mine w) } }

/-- The poison flow for a unit that cannot be read (R319, R320, R353): what is homed there is poisoned, an image there is
dropped, CXL.mem reads that wait for it return poison, and durability that it was for has failed (R283). -/
def poisonFlow (h u : Nat) (s00 : State) : State :=
  let s := forEach (failDur .media) (ringCols s00 h u) s00
  let place : Loc := { tier := .heath, unit := h, addr := u * 4 }
  let s1 := forEach (fun (c : Col) t =>
    let n := columnUnits s c.model
    if coversUnit c.home n h u then
      if c.poisoned then t else poisonCol c.slot (poisonFault 1 place 0 c.part t)
    else if c.image.any (fun l => coversUnit l n h u) then dropColImage c.slot t
    else t) s.kv.cols s
  let s2 := forEach (fun (o : Obj) t =>
    forEach (fun (x : Nat × Ext) v =>
      if coversUnit x.2.home (extUnits o x.1) h u then
        if (findObj v o.id).any (fun y => y.poisoned) then v else poisonObj o.id (poisonFault 1 place 0 o.part v)
      else if x.2.image.any (fun l => coversUnit l (extUnits o x.1) h u) then dropExtImage o.id x.1 v
      else v) (indexed o.exts) t) s.objs.objs s1
  poisonReads h u s2

/-- A read whose page heath has not read yet waits for it; an unwritten unit needs no flash access (R324), and one that is poisoned
enters the poison flow (R353). -/
def cxlAsk (p line h u : Nat) (s : State) : State :=
  let w : CxlWait := { part := p, line := line, shelf := h, unit := u, since := s.now, asked := true }
  let waiting : State := { s with host := { s.host with cxlWaiting := s.host.cxlWaiting ++ [w] } }
  if unitPoisoned (shelfOf s h) u then poisonFlow h u waiting
  else if (unitSlot (shelfOf s h) u).isNone then cxlAnswer p line false s
  else pump h (setShelf h (readUnit u (.host u) (shelfOf s h)) waiting)

/-- Fine unit of an object's byte in a heath home. -/
def heathUnit (l : Loc) (inExt : Nat) : Nat := l.addr / 4 + inExt / 16384

/-- Count a meadow line's read at its cluster, and keep the line (R223, R225). -/
def lineRead (cl p line : Nat) (s : State) : State :=
  let hit := s.jobs.lines.contains (cl, p, line)
  let o : Occ := { part := some p, cls := 1 }
  let mine := (s.jobs.lines.filter (fun x => x != (cl, p, line))) ++ [(cl, p, line)]
  let extra := (mine.filter (fun x => x.1 == cl)).length - 65536
  let kept := if extra = 0 then mine else mine.filter (fun x => x.1 != cl) ++ (mine.filter (fun x => x.1 == cl)).drop extra
  count (.cluster cl) (if hit then 0x0102 else 0x0103) 1 o { s with jobs := { s.jobs with lines := kept } }

/-- How a line's granule meets its tag (R229, R450, R451): one whose stored bytes are not those last written there passes only if its
tag matches them at its address, and then gives what they decrypt to; any other one as the command says. -/
def granuleRead (place : Loc) (inObj : Nat) (check : ReadCheck) (s : State) : ReadCheck × Option Bytes :=
  let a := granuleAt place inObj
  match s.objs.altered.find? (fun g => g.1 == a && place.tier == .meadow) with
  | none => (check, none)
  | some g =>
    match openGranule s.sec.meadowKey a g.2 with
    | none => (.failed, none)
    | some plain => (check, some ((plain.drop (inObj % 256)).take 64))

/-- Answer a read with bytes that a granule gave, or with the line's present bytes. -/
def lineAnswer (p line : Nat) (found : Option Bytes) (s : State) : State :=
  match found with
  | none => cxlAnswer p line false s
  | some bs => send (.cxlData p line (BitVec.ofNat 512 (leNat bs)) false) s

/-- A read of a line whose place is heath: it waits for the port where that is out of service, and for its page (R46). -/
def heathLine (p line : Nat) (place : Loc) (inObj : Nat) (s : State) : State :=
  let u := heathUnit place (inObj % 2 ^ 20)
  if heathUp s place.unit then cxlAsk p line place.unit u s
  else
    let w : CxlWait := { part := p, line := line, shelf := place.unit, unit := u, since := s.now, asked := false }
    { s with host := { s.host with cxlWaiting := s.host.cxlWaiting ++ [w] } }

/-- CXL_MEM_READ (R44 to R46). `check` is how the granule read meets its tag (R229). Outside OWNED an access is refused (R14): a
read is answered with the poison indication, a write discarded, with one event (DESIGN CHOICE, log entry 128). -/
def cxlRead (p line : Nat) (check : ReadCheck) (s : State) : State :=
  let off := 64 * line
  if !cxlServes s then s
  else if !owned s then refuseOnce p (Pos.step s.wheel.cur) (cxlAnswer p line true s)
  else
    match objAt s p off 64 with
    | none => if inRing s p off then cxlAnswer p line false s else send (.cxlData p line 0 false) s
    | some o =>
      let i := (off - o.off) / 2 ^ 20
      let e := o.exts.getD i default
      let place := e.image.getD e.home
      if o.poisoned then event .poisoned (some p) 0 0 off (cxlAnswer p line true s)
      else if place.tier == .heath then
        heathLine p line place (off - o.off) s
      else
        let s1 := if place.tier == .meadow then lineRead place.unit p line s else s
        let r := granuleRead place (off - o.off) check s
        if r.1 == .clean then lineAnswer p line r.2 s1
        else if r.1 == .retried then lineAnswer p line r.2 (tagMismatch place false s1)
        else if e.image.isSome then
          let s2 := dropExtImage o.id i (tagMismatch place false s1)
          if e.home.tier == .heath then heathLine p line e.home (off - o.off) s2 else cxlAnswer p line false s2
        else
          let src := if place.tier == .meadow then 0 else 2
          poisonObj o.id (poisonFault src place ((off - o.off) % 2 ^ 20 / 256 * 256) p
            (event .integrity (some p) 0 0 off (cxlAnswer p line true (tagMismatch place true s1))))

def execCxlMemRead (p line : Nat) (check : ReadCheck) (s : State) : Host.Outcome State Fault Refusal :=
  .next (cxlRead p line check s)

/-- CXL_MEM_WRITE (R45, R302, R320). Where a write to heath meets both an absent secret and a port out of service, its one event is that of
the secret (DESIGN CHOICE, log entry 128). -/
def cxlWrite (p line : Nat) (data : BitVec 512) (s : State) : State :=
  let off := 64 * line
  let bs := natLe 64 data.toNat
  if !cxlServes s then s
  else if !owned s then refuseOnce p (Pos.step s.wheel.cur) s
  else
    match objAt s p off 64 with
    | none => if inRing s p off then memWrite p off bs s else event .badObject (some p) 0 0 off s
    | some o =>
      let e := o.exts.getD ((off - o.off) / 2 ^ 20) default
      if o.immutable || (slotsOf s).any (fun x => x.obj == o.id) then event .badObject (some p) 0 0 off s
      else if o.poisoned then reloadWrite o (off - o.off) bs s
      else if e.home.tier == .heath && s.sec.tenSecret.isNone then event .keyAbsent (some p) 0 0 off s
      else if onDownPort s e.home then event .media (some p) 0 0 off s
      else objWrite o.id (off - o.off) bs s

def execCxlMemWrite (p line : Nat) (data : BitVec 512) (s : State) : Host.Outcome State Fault Refusal :=
  .next (cxlWrite p line data s)

/-! ## Waits for a port (R46, R354) -/

/-- Whether a wait for a port out of service has run out (OD 0x6000:08). -/
def portWaitOver (s : State) (since : Nat) : Bool := since + od s 0x6000 0x08 * 1000000 ≤ s.now

/-- Whether a tier copy reads from a shelf or writes to it. -/
def moveMeets (s : State) (h : Nat) (m : Move) : Bool :=
  let on (l : Loc) : Bool := l.tier == .heath && l.unit == h
  on m.dest ||
    (match m.item with
     | .col k => (findCol s k).any (fun c => on c.home)
     | .ext o i => (findObj s o).any (fun x => on (x.exts.getD i default).home)
     | .plain o => (findObj s o).any (fun x => x.exts.any (fun e => on e.home)))

/-- PORT_DOWN_WAIT_EXPIRY: commands, tier copies and CXL.mem reads that have waited long enough for the shelf's port end. -/
def portDownWait (h : Nat) (s : State) : State :=
  if heathUp s h then s
  else
    let cmds := s.queues.cmds.filter (fun c =>
      match c.work with
      | .stalled x => x == h && portWaitOver s c.since
      | _ => false)
    let reads := s.host.cxlWaiting.filter (fun w => w.shelf == h && portWaitOver s w.since)
    let rest := s.host.cxlWaiting.filter (fun w => !(w.shelf == h && portWaitOver s w.since))
    let s1 := { s with host := { s.host with cxlWaiting := rest } }
    let s2 := forEach (fun (w : CxlWait) t =>
      event .media (some w.part) 0 0 (64 * w.line) (cxlAnswer w.part w.line true t)) reads s1
    let late := s2.objs.moves.filter (fun m => moveMeets s2 h m && portWaitOver s2 (max m.since (shelfOf s2 h).downAt))
    flushHeld (forEach (fun m t => failMove m .media t) late (forEach (fun c t => complete c .media 0 t) cmds s2))

def execPortDownWaitExpiry (shelf : Nat) (s : State) : Host.Outcome State Fault Refusal := .next (portDownWait shelf s)

end Sys2Proof.Machine
end

