-- ==== Sys2Proof/Machine/Prefix.lean ====
section
/-! DEFINITION. The prefix store (R262 to R291): fingerprints and matching, PREFIX_LOOKUP, PREFIX_COMMIT, PREFIX_EVICT,
durability through the save ring (R279 to R283, R473) and the rebuild (R289). -/

namespace Sys2Proof.Machine

/-! ## Fingerprints and the index (R262, R263, R266) -/

/-- Fingerprint of a run as a little-endian number. -/
def fingerprint (parent tag : Nat) (toks : List U32) : Nat :=
  leNat (digestBytes (Config.sha256 (natLe 16 parent ++ natLe 8 tag ++ toks.flatMap (fun t => natLe 4 t.toNat))) 16)

/-- The two buckets of a fingerprint. -/
def bucket1 (f : Nat) : Nat := f % 2 ^ 23
def bucket2 (f : Nat) : Nat := if f / 2 ^ 23 % 2 ^ 23 = bucket1 f then bucket1 f ^^^ 1 else f / 2 ^ 23 % 2 ^ 23

def inBucket (b : Nat) (e : PEntry) : Bool := e.no / 8 == b

/-- The entry that matches a run, by every condition of R266. -/
def matchEntry (l : List PEntry) (part tag parent f : Nat) (toks : List U32) : Option PEntry :=
  l.find? (fun e => (inBucket (bucket1 f) e || inBucket (bucket2 f) e) && e.part == part && e.tag == tag &&
    e.parent == parent && e.tokens == toks && e.fp == f)

/-- Fingerprint collisions that a walk meets at a run. -/
def collisions (l : List PEntry) (part tag parent f : Nat) (toks : List U32) : Nat :=
  (l.filter (fun e => (inBucket (bucket1 f) e || inBucket (bucket2 f) e) && e.part == part && e.fp == f &&
    !(e.tag == tag && e.parent == parent && e.tokens == toks))).length

/-- The lowest free entry of a bucket. -/
def freeIn (l : List PEntry) (b : Nat) : Option Nat :=
  ((List.range 8).map (fun i => 8 * b + i)).find? (fun n => n != 0 && !l.any (fun e => e.no == n))

/-- Where a new entry goes (R263). -/
def placeFor (l : List PEntry) (f : Nat) : Option Nat :=
  match freeIn l (bucket1 f) with
  | some n => some n
  | none => freeIn l (bucket2 f)

/-- List an entry as its parent's first child. -/
def linkEntry (e : PEntry) (l : List PEntry) : List PEntry :=
  let first := if e.parent = 0 then 0 else (l.find? (fun x => x.no == e.parent)).elim 0 (fun x => x.child)
  let e1 := { e with next := first, prev := 0 }
  (l.map (fun x =>
    let x1 := if e.parent != 0 && x.no == e.parent then { x with child := e.no } else x
    if first != 0 && x1.no == first then { x1 with prev := e.no } else x1)) ++ [e1]

/-- Token IDs at an offset of the range. -/
def tokensAt (s : State) (p off n : Nat) : List U32 :=
  (List.range n).map (fun i => BitVec.ofNat 32 (leNat (memRead s p (off + 4 * i) 4)))

/-! ## PREFIX_LOOKUP (R268 to R270) -/

/-- Walk the index: the entries matched in order and the collisions met. -/
def walk (s : State) (part tag src : Nat) : Nat → Nat → Nat → Nat → List PEntry × Nat
  | 0, _, _, _ => ([], 0)
  | k + 1, j, parentFp, parent =>
    let toks := tokensAt s part (src + 64 * j) 16
    let f := fingerprint parentFp tag toks
    let col := collisions s.pfx.entries part tag parent f toks
    match matchEntry s.pfx.entries part tag parent f toks with
    | none => ([], col)
    | some e =>
      if ((findCol s e.column).map (fun c => c.poisoned)).getD true then ([], col)
      else
        let r := walk s part tag src k (j + 1) f e.no
        (e :: r.1, col + r.2)

/-- Result of a lookup. -/
def lookupResult (s : State) (es : List PEntry) : Nat :=
  let cs := es.filterMap (fun e => findCol s e.column)
  let cold := cs.findIdx? (fun c => !inMeadow c)
  es.length + (cs.filter inMeadow).length * 2 ^ 32 + cold.getD 0xFFFFFFFF * 2 ^ 64 +
    (cs.filter (fun c => c.dur == .ring || c.dur == .heath)).length * 2 ^ 96

/-- Count a match in its entry. -/
def hitEntry (step : Nat) (e : PEntry) : PEntry := { e with lastHit := step, hits := min (e.hits + 1) 0xFFFFFFFF }

structure LookupArgs where
  model : Nat
  seq : Option Seq
  runs : Nat
  src : Nat

def lookupArgs (p : Nat) (d : Desc) (s : State) : Except Status LookupArgs := do
  let probe := bitOf (dFlags d) 0
  let n := dfield d 12 4
  let src := dfield d 16 8
  let cap := if dfield d 24 4 = 0 then n / 16 else min (n / 16) (dfield d 24 4)
  if probe then
    need (dfield d 11 1 < 16 && modelLayers s (dfield d 11 1) != 0) .badObject
    need (dSeq d == 0 && (windowGroups s (dfield d 11 1)).isEmpty && src % 64 == 0 && src + 4 * n ≤ rangeBytes &&
      1 ≤ n && n ≤ 8388608) .badDescriptor
    return { model := dfield d 11 1, seq := none, runs := cap, src := src }
  else
    let q ← openSeq s p (dSeq d)
    need (dfield d 11 1 == 0 && q.length == 0 && q.pendCount == 0 && q.cols.isEmpty &&
      (windowGroups s q.model).isEmpty && src % 64 == 0 && src + 4 * n ≤ rangeBytes && 1 ≤ n && n ≤ 8388608) .badDescriptor
    return { model := q.model, seq := some q, runs := cap, src := src }

def pfxLookup (p : Nat) (d : Desc) (s : State) : Except Status (Nat × State) := do
  let a ← lookupArgs p d s
  need (!spanPoisoned s p a.src (64 * a.runs)) .poisoned
  let r := walk s p (modelTag s a.model) a.src a.runs 0 0 0
  let k := r.1.length
  let s1 := odAdd 0x4020 0x05 64 r.2 (odAdd 0x4020 0x04 64 k (bump64 0x4020 0x03 (touchRead p a.src (64 * a.runs) s)))
  match a.seq with
  | none => return (lookupResult s r.1, s1)
  | some q =>
    match meadowCheck s p (listUnits k) with
    | .ok =>
      let nos := r.1.map (fun e => e.no)
      let slots := r.1.map (fun e => e.column)
      let s2 := fitList q.id (setSeq { q with cols := slots, length := 16 * k } (forEach addRef slots s1))
      let hit := s2.pfx.entries.map (fun e => if nos.contains e.no then hitEntry (Pos.step s.wheel.cur) e else e)
      return (lookupResult s r.1, { s2 with pfx := { s2.pfx with entries := hit } })
    | st => .error st

/-- While a rebuild runs, prefix commands wait as started commands (R289). -/
def afterRebuild (run : Cmd → State → State) (c : Cmd) (s : State) : State :=
  if s.pfx.rebuildState = 1 then setWork c.id .held s else run c s

def runPfxLookup (c : Cmd) (s : State) : State := afterRebuild (fun x t => finish x (pfxLookup x.part x.desc t) t) c s
def execPfxLookup (q : QRef) (s : State) : Host.Outcome State Fault Refusal := .next (startCmd 0x20 runPfxLookup q s)

/-! ## Durability (R279 to R283) -/

def ringCap : Nat := 4194304
def ringUsed (s : State) : Nat := sumBy (fun e => e.bytes) s.pfx.ring

/-- Whether the kiln is armed (R474, R482). -/
def kilnArmed (s : State) : Bool := 11400 ≤ s.power.kiln.vinMv && s.power.kiln.mramOk && !s.power.kiln.held

/-- The publish record of a column (R287). -/
def publishRec (s : State) (c : Col) (l : Loc) : Option LogRec :=
  (entryOf s c.slot).map (fun (e : PEntry) =>
    ({ fp := e.fp, tag := e.tag, tokens := e.tokens, recNo := s.pfx.nextRec,
       target := (findEntry s e.parent).elim 0 (fun x => x.recNo), part := e.part, withdrawal := false,
       units := columnUnits s c.model, addr := l.unit * 2 ^ 46 + l.addr * 4096, rows := c.rows } : LogRec))

/-- A column's record is in the log: its home is heath, its old meadow bytes an image, its entry logged (R280). A copy of the
column that is under way is given up, for the home is where the record says. -/
def publishDone (slot : Nat) (r : LogRec) (s0 : State) : State :=
  let s := abandonMoves (isColItem slot) .conflict s0
  match findCol s slot with
  | none => s
  | some c =>
    let l : Loc := { tier := .heath, unit := r.addr / 2 ^ 46, addr := r.addr % 2 ^ 46 / 4096 }
    let moved := c.home != l
    let s1 := if moved && c.home.tier == .heath then freeLoc c.home r.units s else s
    let c1 : Col :=
      if !moved then { c with dur := .heath }
      else { c with dur := .heath, home := l, image := if c.home.tier == .meadow then some c.home else c.image.filter (fun i => i.tier == .meadow) }
    let es := s1.pfx.entries.map (fun (e : PEntry) => if e.column == slot then { e with logged := true, recNo := r.recNo } else e)
    setCol c1 { s1 with pfx := { s1.pfx with entries := es } }

/-- 4 KiB units of a column's data that have entered the ring and that heath has programmed. -/
def programmedUnits (s : State) (l : Loc) (units left : Nat) : Nat :=
  ((allocPieces l.addr units).foldl (fun (a : Nat × Nat) p =>
    (p.2.2, if p.2.2 + left ≤ units && pieceSettled (shelfOf s l.unit) p.1 p.2.1 then a.2 + (p.2.2 - a.1) else a.2)) (0, 0)).2

/-- What heath has programmed has left the ring (R280). -/
def shrinkRing (s : State) : State :=
  { s with pfx := { s.pfx with ring := s.pfx.ring.map (fun e =>
    match e.item with
    | .data _ l n => { e with bytes := 4096 * (n - e.left - programmedUnits s l n e.left) }
    | _ => e) } }

/-! The heath prefix log (R287, R324, R325): fine units of class 1, each of 128 records, that the records fill in order. How the
records lie in them is the model's (DESIGN CHOICE, log entry 66). -/

/-- The fine unit that a record is being written into, or has been. -/
def logUnitOf (s : State) (r : LogRec) : Option LogUnit :=
  s.pfx.logUnits.find? (fun g => g.recs.any (fun x => x.recNo == r.recNo))

/-- Whether a fine unit of the log lies on flash as it is. -/
def logWritten (s : State) (g : LogUnit) : Bool :=
  let x := shelfOf s g.place.unit
  shelfPrograms x && pieceSettled x (g.place.addr / 4) false && (fineEnt x (g.place.addr / 4)).any (fun e => e.state == 2)

/-- Write a fine unit of the log. -/
def writeLog (g : LogUnit) (s : State) : State :=
  pump g.place.unit (setShelf g.place.unit (writeUnit none (g.place.addr / 4) false (shelfOf s g.place.unit)) s)

/-- The last fine unit of the log, while it has room. -/
def openLog (s : State) : Option LogUnit := s.pfx.logUnits.getLast?.filter (fun g => g.recs.length < 128)

/-- Write a record into the log, in a new fine unit where the last one is full; `none` where heath has no room for one. -/
def logAppend (r : LogRec) (s : State) : Option State :=
  match openLog s with
  | some g =>
    let g1 : LogUnit := { g with recs := g.recs ++ [r] }
    some (writeLog g1 { s with pfx := { s.pfx with logUnits := s.pfx.logUnits.dropLast ++ [g1] } })
  | none =>
    (heathAlloc 4 true s).map (fun p =>
      let g : LogUnit := { place := p.1, recs := [r] }
      writeLog g { p.2 with pfx := { p.2.pfx with logUnits := p.2.pfx.logUnits ++ [g] } })

/-- The map changes of the CLASS records of a place (R325). -/
def clsChanges (l : Loc) (units : Nat) : List MapChange :=
  (allocBales l.addr units).map (fun b => .cls (b * 64) true) ++ (allocFines l.addr units).map (fun u => .cls u false)

/-- CLASS records pass from the ring into their shelf's tail, once it has room for all of them. -/
def passCls (l : Loc) (units : Nat) (s : State) : Option State :=
  let x := shelfOf s l.unit
  let cs := clsChanges l units
  if shelfPrograms x && x.changes.isEmpty && x.tail.length + cs.length ≤ tailCap then
    some (setShelf l.unit (cs.foldl (fun y c => change c y) x) s)
  else none

/-- Let what is programmed whole leave the ring at its front, in order: data with the record behind it, CLASS records into the tail,
a record once its log unit is programmed (R280, R325). A shelf that is not ready has programmed nothing. A column whose record finds
no room enters state 4 (R283). -/
def drainRing : Nat → State → State
  | 0, s => s
  | n + 1, s =>
    match s.pfx.ring with
    | [] => s
    | e :: es =>
      let s1 := { s with pfx := { s.pfx with ring := es } }
      match e.item with
      | .withdraw r =>
        match logUnitOf s r with
        | some g => if logWritten s g then drainRing n { s1 with pfx := { s1.pfx with log := s1.pfx.log ++ [r] } } else s
        | none => (logAppend r s).getD s
      | .publish k r =>
        match logUnitOf s r with
        | some g => if logWritten s g then drainRing n (publishDone k r { s1 with pfx := { s1.pfx with log := s1.pfx.log ++ [r] } }) else s
        | none =>
          match logAppend r s with
          | some t => t
          | none => if (bestShelf s).isNone then s else drainRing n (failDur .media k s1)
      | .cls _ l u =>
        match passCls l u s1 with
        | some t => drainRing n t
        | none => s
      | .data k l u =>
        let settled := es.any (fun x =>
          match x.item with
          | .publish j _ => j == k && shelfPrograms (shelfOf s l.unit) && allocSettled (shelfOf s l.unit) l.addr u
          | _ => false)
        if settled then drainRing n s1 else s

/-- The data that is entering the ring goes on as far as there is room, and the programs of the pieces that have entered go out. -/
def fillRing (s : State) : State :=
  match s.pfx.ring.find? (fun e => e.left != 0) with
  | none => s
  | some e =>
    match e.item with
    | .data k l n =>
      let more := min e.left ((ringCap - ringUsed s) / 4096)
      let from_ := n - e.left
      let e1 := { e with bytes := e.bytes + 4096 * more, left := e.left - more }
      let ps := (allocPieces l.addr n).filter (fun p => from_ < p.2.2 && p.2.2 ≤ from_ + more)
      pump l.unit (setShelf l.unit (ps.foldl (fun y p => writeUnit none p.1 p.2.1 (sealUnit s l.unit p.1 p.2.1 y)) (shelfOf s l.unit))
        { s with pfx := { s.pfx with ring := mapIf (fun x => ringOf k x && x.left != 0) (fun _ => e1) s.pfx.ring } })
    | _ => s

/-- The column whose data has entered the ring, or is entering it, and whose record has not. -/
def inCopy (s : State) : Option (Col × RingEntry × Loc) :=
  s.pfx.ring.findSome? (fun e =>
    match e.item with
    | .data k l _ => ((findCol s k).filter (fun c => c.dur == .queued)).map (fun c => (c, e, l))
    | _ => none)

/-- Whether columns may enter the save ring. -/
def ringOpen (s : State) : Bool := kilnArmed s && s.power.kiln.sag.isNone

/-- The data of the column asked first begins to enter the ring, once that before it is in with its record: its place in heath is
allocated within the partition's limit (R308), or it enters state 4. A column homed in heath has only its record to pass. -/
def nextData : Nat → State → State
  | 0, s => s
  | n + 1, s =>
    if !ringOpen s || (inCopy s).isSome then s
    else
      match s.pfx.durQueue with
      | [] => s
      | k :: ks =>
        let s1 := { s with pfx := { s.pfx with durQueue := ks } }
        match findCol s k with
        | none => nextData n s1
        | some c =>
          let u := columnUnits s c.model
          if c.home.tier == .heath || c.moving then s
          else if od s (partIx c.part) 0x04 / 4096 < useOf s .heath c.part + u then nextData n (failDur .media k s1)
          else
            match heathAlloc u true s1 with
            | none => nextData n (failDur .media k s1)
            | some (l, s2) =>
              { s2 with pfx := { s2.pfx with ring := s2.pfx.ring ++ [{ item := .data k l u, bytes := 0, left := u }] } }

/-- Sealed pages leave the ring with the data that they hold. -/
def dropSealed (s : State) : State :=
  { s with shelves := s.shelves.map (fun x => { x with sealed := x.sealed.filter (fun p =>
    s.pfx.ring.any (fun e => match e.item with | .data _ l n => coversUnit l n x.no p.1 | _ => false)) }) }

/-- Programmed bytes leave the ring, and what waits outside enters it. -/
def tendRing (s : State) : State :=
  let s1 := dropSealed (shrinkRing (drainRing (2 * s.pfx.ring.length + 1) s))
  fillRing (nextData (s1.pfx.durQueue.length + 1) s1)

/-- Whether a restored save has been consumed (R482): every page programmed, every shelf concerned ready with its
checkpoint written. -/
def saveConsumed (s : State) : Bool :=
  s.power.kiln.held && s.pfx.ring.isEmpty && s.pfx.rcTail.isEmpty &&
  (List.range 16).all (fun h =>
    let x := shelfOf s h
    s.power.kiln.save.all (fun v => (v.tails.getD h []).isEmpty) ||
    (x.state == 4 && x.ckpt.isNone && !(x.ops ++ x.waiting).any (fun o => match o.use with | .root _ _ => true | _ => false)))

/-- A consumed save's trailer is erased: the kiln is armed again. -/
def consumeSave (s : State) : State :=
  if saveConsumed s then
    { s with power := { s.power with kiln := { s.power.kiln with held := false, save := none } } }
  else s

def drainAll (s : State) : State := consumeSave (settleDurable (tendRing s))

/-- A column's record enters the ring behind its data: state 2, or 3 at once where both are programmed (R279 to R281). -/
def enterRecord (c : Col) (l : Loc) (s : State) : State :=
  match publishRec s c l with
  | none => setDur c.slot .none s
  | some r =>
    let es := s.pfx.entries.map (fun (e : PEntry) => if e.column == c.slot then { e with recNo := r.recNo } else e)
    let s1 := setDur c.slot .ring { s with pfx := { s.pfx with
      ring := s.pfx.ring ++ [{ item := .publish c.slot r, bytes := 128 }], nextRec := s.pfx.nextRec + 1, entries := es } }
    let s2 := drainRing (2 * s1.pfx.ring.length + 1) s1
    drainAll (durEvent .ok c.slot ((findCol s2 c.slot).elim 2 (fun x => x.dur.code) * 2 ^ 24) s2)

/-- SAVE_RING_COPY_END (R280, R473): a withdrawal record that waits in the reference-count tail has entered the ring, else the record
of the column whose data is in it whole, or of a column that is homed in heath. A column's data enters as heath makes room. -/
def saveRingCopyEnd (s0 : State) : State :=
  if !ringOpen s0 then s0
  else
    let s := tendRing s0
    let room := ringUsed s + 128 ≤ ringCap
    match s.pfx.rcTail, inCopy s, s.pfx.durQueue with
    | r :: rs, _, _ =>
      if room then drainAll { s with pfx := { s.pfx with rcTail := rs, ring := s.pfx.ring ++ [{ item := .withdraw r, bytes := 128 }] } }
      else s
    | [], some (c, e, l), _ => if e.left = 0 && room then enterRecord c l s else s
    | [], none, k :: ks =>
      match findCol s k with
      | some c =>
        let u := columnUnits s c.model
        let bytes := 32 * (clsChanges c.home u).length
        if c.home.tier == .heath && ringUsed s + bytes + 128 ≤ ringCap then
          enterRecord c c.home { s with pfx := { s.pfx with
            durQueue := ks, ring := s.pfx.ring ++ [{ item := .cls k c.home u, bytes := bytes }] } }
        else s
      | none => s
    | [], none, [] => s


/-! ## PREFIX_COMMIT (R272 to R278) -/

/-- What a commit has done so far: the parent's number and fingerprint, outcomes with the published slot of each named
column, and whether an entry found both its buckets full. -/
structure Commit where
  st : State
  parent : Nat
  parentFp : Nat
  outs : List (Nat × Nat)
  crowded : Bool

def sealCol (slot : Nat) (s : State) : State :=
  match findCol s slot with
  | some c => setCol { c with isSealed := true } s
  | none => s

/-- Commit one named column (R275), or the status of R273 that forbids it. -/
def commitCol (p tag src : Nat) (i slot : Nat) (a : Commit) : Except Status Commit :=
  let toks := tokensAt a.st p (src + 64 * i) 16
  let f := fingerprint a.parentFp tag toks
  let hit := a.st.pfx.entries.find? (fun e => e.part == p && e.tag == tag && e.parent == a.parent && e.tokens == toks)
  let s0 := odAdd 0x4020 0x05 64 (collisions a.st.pfx.entries p tag a.parent f toks) a.st
  match entryOf s0 slot with
  | some e =>
    if hit.any (fun x => x.no == e.no) then
      .ok { a with st := s0, parent := e.no, parentFp := f, outs := a.outs ++ [(1, slot)] }
    else .error .conflict
  | none =>
    match hit with
    | some e => .ok { a with st := sealCol slot s0, parent := e.no, parentFp := f, outs := a.outs ++ [(2, e.column)] }
    | none =>
      let place := placeFor s0.pfx.entries f
      let no := place.getD (2 ^ 27 + i)
      let e : PEntry := { no := no, fp := f, tag := tag, tokens := toks, column := slot, parent := a.parent, part := p }
      let s1 := addRef slot (sealCol slot s0)
      .ok { st := { s1 with pfx := { s1.pfx with entries := linkEntry e s1.pfx.entries } }, parent := no, parentFp := f,
            outs := a.outs ++ [(0, slot)], crowded := a.crowded || place.isNone }

def commitCols (p tag src : Nat) : Nat → List Nat → Commit → Except Status Commit
  | _, [], a => .ok a
  | i, k :: ks, a =>
    match commitCol p tag src i k a with
    | .error st => .error st
    | .ok b => commitCols p tag src (i + 1) ks b

/-- Columns of the entries above one, from the root down. -/
def ancestors (s : State) : Nat → Nat → List Nat
  | 0, _ => []
  | k + 1, no =>
    match findEntry s no with
    | some e => ancestors s k e.parent ++ [e.column]
    | none => []

/-- Columns for which a durable commit asks durability (R279): those of the chain down to the last named column that asks, in state 0
or 4, from the root down; first the ancestors that it adds, then the named columns that ask, each after its ancestors. -/
def durAsks (s : State) (outs : List (Nat × Nat)) : List Nat × List Nat :=
  let open_ (k : Nat) : Bool := (findCol s k).any (fun c => c.dur == .none || c.dur == .failed)
  let named := ((outs.filter (fun o => o.1 != 2)).map (fun o => o.2)).filter open_
  let chain := ((named.getLast?.bind (entryOf s)).map (fun (e : PEntry) => ancestors s s.pfx.entries.length e.no)).getD []
  ((chain.filter open_).filter (fun k => !named.contains k), chain.filter open_)

/-- Columns device-wide in state 1 (R282). -/
def inState1 (s : State) : Nat := (s.kv.cols.filter (fun c => c.dur == .queued)).length

/-- Units that columns not homed in heath will take there. -/
def heathNeeds (s : State) (slots : List Nat) : List Nat :=
  slots.filterMap (fun k => (findCol s k).bind (fun c => if c.home.tier == .heath then none else some (columnUnits s c.model)))

/-- Whether heath can take the columns asked for beside those already waiting, each whole in one shelf (R273, R324). -/
def heathHolds (s : State) (slots : List Nat) : Bool :=
  ((heathNeeds s (slots ++ s.pfx.durQueue)).foldl
    (fun (t : Option State) n => t.bind (fun x => (heathAlloc n true x).map (fun p => p.2))) (some s)).isSome

/-- Whether the partition's heath limit leaves room for the columns, beside those of its own that wait (R308). -/
def heathLimitHolds (s : State) (p : Nat) (slots : List Nat) : Bool :=
  let mine := s.pfx.durQueue.filter (fun k => (findCol s k).any (fun c => c.part == p))
  useOf s .heath p + sumBy id (heathNeeds s (slots ++ mine)) ≤ od s (partIx p) 0x04 / 4096

/-- The checks of R273 down to the result span. -/
def commitArgs (p : Nat) (d : Desc) (s : State) : Except Status Seq := do
  let q ← anySeq s p (dSeq d)
  let first := dfield d 12 4
  let n := dfield d 16 4
  let src := dfield d 24 8
  let dst := dfield d 32 8
  let cs := ((q.cols.drop first).take n).filterMap (findCol s)
  need (!q.failed && !cs.any (fun c => c.poisoned)) .poisoned
  need ((windowGroups s q.model).isEmpty && 1 ≤ n && n ≤ 4096 && first + n ≤ ceilDiv q.length 16 &&
    first + n ≤ q.cols.length) .badDescriptor
  need (cs.all (fun c => c.fill == 16 && rowsWritten s c 16)) .badDescriptor
  need (first == 0 || (entryOf s (nth q.cols (first - 1))).any (fun e => e.part == p)) .badDescriptor
  need (src % 64 == 0 && src + 64 * n ≤ rangeBytes && dst % 64 == 0 && dst + 16 * n ≤ rangeBytes) .badDescriptor
  need (dst == 0 || (objAt s p dst (16 * n)).any (fun o => o.kind == 1 && !o.immutable)) .badObject
  need (!spanPoisoned s p src (64 * n)) .poisoned
  return q

/-- Replace duplicates in the sequence's list by the published columns (R275, `adopt`). -/
def adoptAll (id first : Nat) (outs : List (Nat × Nat)) (s : State) : State :=
  forEach (fun (x : Nat × (Nat × Nat)) t =>
    match findSeq t id with
    | none => t
    | some q =>
      let own := nth q.cols (first + x.1)
      if x.2.1 == 2 && own != x.2.2 then
        dropRef own (dropSlices own (setSeq { q with cols := q.cols.set (first + x.1) x.2.2 } (addRef x.2.2 t)))
      else t) (indexed outs) s

/-- One result record, its `dur` byte still to come. -/
def resultRec (s : State) (own : Nat) (o : Nat × Nat) : Bytes :=
  let idOf (k : Nat) : Nat := (findCol s k).elim 0 colId
  natLe 4 (idOf own) ++ natLe 1 o.1 ++ List.replicate 3 0 ++ natLe 4 (idOf o.2) ++ List.replicate 4 0

/-- Ask durability for columns, in order (R279). -/
def askDur (slots : List Nat) (s : State) : State :=
  forEach (fun k t =>
    setDur k .queued { t with pfx := { t.pfx with durQueue := t.pfx.durQueue ++ [k] } }) slots s

/-- PREFIX_COMMIT: checked whole, then done whole; held while its requests would pass 4,096 columns in state 1 (R282). -/
def pfxCommit (c : Cmd) (s : State) : State :=
  let d := c.desc
  let durable := bitOf (dFlags d) 0
  match commitArgs c.part d s with
  | .error st => complete c st 0 s
  | .ok q =>
    let first := dfield d 12 4
    let n := dfield d 16 4
    let dst := dfield d 32 8
    let owns := (q.cols.drop first).take n
    let up := if first = 0 then none else entryOf s (nth q.cols (first - 1))
    match commitCols c.part (modelTag s q.model) (dfield d 24 8) 0 owns
        { st := s, parent := up.elim 0 (fun e => e.no), parentFp := up.elim 0 (fun e => e.fp), outs := [], crowded := false } with
    | .error st => complete c st 0 s
    | .ok a =>
      let fresh := (a.outs.filter (fun o => o.1 == 0)).length
      let asks := if durable then durAsks a.st a.outs else ([], [])
      let all := asks.2
      if durable && (s.sec.tenSecret.isNone || !kilnArmed s) then complete c .keyAbsent 0 s
      else if fresh != 0 && od s 0x4030 (c.part + 1) < (s.pfx.entries.filter (fun e => e.part == c.part)).length + fresh then
        complete c .quota 0 s
      else if durable && !heathLimitHolds a.st c.part all then complete c .quota 0 s
      else if a.crowded then complete c .noSpace 0 (bump64 0x4020 0x06 s)
      else if durable && !heathHolds a.st all then complete c .noSpace 0 s
      else if all.length != 0 && inState1 s != 0 && 4096 < inState1 s + all.length then
        setWork c.id .full (onlyIf (c.work != .full) (bump64 0x4020 0x09) s)
      else
        let s1 :=
          if dst = 0 then a.st
          else forEach (fun (x : Nat × (Nat × (Nat × Nat))) t =>
            memWrite c.part (dst + 16 * x.1) (resultRec t x.2.1 x.2.2) t) (indexed (owns.zip a.outs)) a.st
        let s2 := if bitOf (dFlags d) 2 then adoptAll q.id first a.outs s1 else s1
        let s3 := tendRing (touchRead c.part (dfield d 24 8) (64 * n) (askDur all s2))
        let slots := a.outs.map (fun o => o.2)
        let res := fresh + (n - fresh) * 2 ^ 32 + asks.1.length * 2 ^ 96
        if bitOf (dFlags d) 1 then settleDurable (setWork c.id (.durable (slots ++ asks.1) res) s3)
        else finishCommit c slots res s3

def runPfxCommit (c : Cmd) (s : State) : State := afterRebuild pfxCommit c s

def execPfxCommit (q : QRef) (s : State) : Host.Outcome State Fault Refusal := .next (startCmd 0x21 runPfxCommit q s)

/-! ## PREFIX_EVICT (R284, R285) -/

/-- Withdraw the leaves last hit before a step, pass after pass, at most `left` of them. -/
def pruneLeaves (p before : Nat) : Nat → Nat → State → State
  | 0, _, s => s
  | k + 1, left, s =>
    let leaves := s.pfx.entries.filter (fun e => e.part == p && e.child == 0 && e.lastHit < before)
    if leaves.isEmpty || left = 0 then s
    else
      let take := leaves.take left
      pruneLeaves p before k (left - take.length) (withdrawAll true (take.map (fun e => e.no)) s)

/-- The state after an evict's withdrawals, or why it is refused. -/
def evictState (p : Nat) (d : Desc) (s : State) : Except Status State := do
  let scope := dfield d 11 1
  need (scope ≤ 3 && dfield d 29 3 == 0 && (scope == 0 || dSeq d == 0)) .badDescriptor
  if scope = 0 then
    let cs ← targetCols p d s
    return forEach (fun (c : Col) t =>
      match entryOf t c.slot with
      | some e => withdrawTree true e.no t
      | none => t) cs s
  else if scope = 3 then
    let n := s.pfx.entries.length
    return pruneLeaves p (dfield d 24 5) (n + 1) (if dfield d 20 4 = 0 then n else dfield d 20 4) s
  else
    let mine := s.pfx.entries.filter (fun e => e.part == p && e.parent == 0 && (scope == 1 || e.tag == dfield d 32 8))
    return forEach (fun (e : PEntry) t => withdrawTree true e.no t) mine s

def pfxEvict (p : Nat) (d : Desc) (s : State) : Except Status (Nat × State) := do
  let t ← evictState p d s
  let logged (x : State) : Nat := (x.pfx.entries.filter (fun e => e.logged)).length
  return ((s.pfx.entries.length - t.pfx.entries.length) + (s.kv.cols.length - t.kv.cols.length) * 2 ^ 32 +
    (logged s - logged t) * 2 ^ 64, t)

/-- PREFIX_EVICT; it waits while the reference-count tail is full (R473). -/
def pfxEvictGo (c : Cmd) (s : State) : State :=
  if 2048 ≤ s.pfx.rcTail.length then setWork c.id .held s else settleDurable (finish c (pfxEvict c.part c.desc s) s)

def runPfxEvict (c : Cmd) (s : State) : State := afterRebuild pfxEvictGo c s

/-! ## Prefix commands that wait (R282, R289, R473) -/

/-- A prefix command that is held goes on, as far as it can; one that edits a list waits for jobs and sheets as at its start (R276). -/
def resumePrefix (c : Cmd) (s : State) : State :=
  match findCmd s c.id with
  | none => s
  | some x =>
    if dOpcode c.desc = 0x20 then goOrDefer runPfxLookup x s
    else if dOpcode c.desc = 0x21 then goOrDefer runPfxCommit x s
    else runPfxEvict x s

/-- Prefix commands that are held. -/
def heldPrefix (s : State) : List Cmd := s.queues.cmds.filter (fun c => c.work == .held || c.work == .full)

/-- Commits with `wait` whose columns are over complete, and the prefix commands that are held go on in the order in which they
started, and again while one of them makes room for another. -/
def tendPrefix (s : State) : State :=
  forEach (fun _ t => forEach resumePrefix (heldPrefix t) t) (heldPrefix s) (settleDurable s)

/-- PREFIX_EVICT starts; what it frees may let a commit go on that waits for columns to leave state 1 (R282). -/
def execPfxEvict (q : QRef) (s : State) : Host.Outcome State Fault Refusal := .next (tendPrefix (startCmd 0x22 runPfxEvict q s))

def execSaveRingCopyEnd (s : State) : Host.Outcome State Fault Refusal := .next (tendPrefix (saveRingCopyEnd s))

/-! ## Rebuild (R289) -/

/-- Whether a record's column data can be read: its shelf ready, its units mapped and not poisoned. -/
def recReadable (s : State) (r : LogRec) : Bool :=
  let x := shelfOf s (r.addr / 2 ^ 46)
  x.state == 4 && !allocPoisoned x (r.addr % 2 ^ 46 / 4096) r.units &&
    (allocBales (r.addr % 2 ^ 46 / 4096) r.units).all (fun b => (baleEnt x b).isSome) &&
    (allocFines (r.addr % 2 ^ 46 / 4096) r.units).all (fun u => (fineEnt x u).isSome)

/-- Whether a live column lies where a record says. -/
def recHome (s : State) (r : LogRec) : Bool :=
  let l : Loc := { tier := .heath, unit := r.addr / 2 ^ 46, addr := r.addr % 2 ^ 46 / 4096 }
  s.kv.cols.any (fun c => c.home == l)

/-- Withdraw a record that is not rebuilt: its withdrawal enters the reference-count tail, its data is freed where no column lies
there, and it is counted. An entry whose own record it was is logged no more, and its column not durable (DEDUCED, log
entry 130). -/
def withdrawRec (r : LogRec) (s : State) : State :=
  let w : LogRec :=
    { fp := 0, tag := 0, tokens := [], recNo := s.pfx.nextRec, target := r.recNo, part := r.part, withdrawal := true,
      units := 0, addr := 0 }
  let own (e : PEntry) : Bool := e.logged && e.recNo == r.recNo
  let cols := (s.pfx.entries.filter own).map (fun e => e.column)
  let s1 := forEach (fun k => setDur k .none) cols { s with pfx := { s.pfx with
    rcTail := s.pfx.rcTail ++ [w], nextRec := s.pfx.nextRec + 1, entries := mapIf own (fun e => { e with logged := false }) s.pfx.entries } }
  let s2 := bump32 0x4020 0x0D s1
  if recHome s r then s2 else heathFree (r.addr / 2 ^ 46) (r.addr % 2 ^ 46 / 4096) r.units s2

/-- Rebuild one record that no later withdrawal names. -/
def rebuildRec (r : LogRec) (s : State) : State :=
  match modelByTag s r.tag with
  | none => bump32 0x4020 0x0C s
  | some m =>
    let parent := if r.target = 0 then some 0 else (s.pfx.rebuilt.find? (fun x => x.1 == r.target)).map (fun x => x.2)
    match parent with
    | none => withdrawRec r s
    | some pno =>
      let taken := s.pfx.entries.any (fun e => e.part == r.part && e.tag == r.tag && e.parent == pno && e.tokens == r.tokens)
      match placeFor s.pfx.entries r.fp with
      | none => withdrawRec r s
      | some no =>
        if taken || !recReadable s r then withdrawRec r s
        else
          let l : Loc := { tier := .heath, unit := r.addr / 2 ^ 46, addr := r.addr % 2 ^ 46 / 4096 }
          let n := newCol r.part m 0 l 16 r.rows s
          let s1 :=
            match findCol n.2 n.1 with
            | some c => setCol { c with isSealed := true, dur := .heath } n.2
            | none => n.2
          let e : PEntry :=
            { no := no, fp := r.fp, tag := r.tag, tokens := r.tokens, column := n.1, parent := pno, part := r.part,
              logged := true, recNo := r.recNo }
          { s1 with pfx := { s1.pfx with entries := linkEntry e s1.pfx.entries, rebuilt := (r.recNo, no) :: s1.pfx.rebuilt } }

/-- Whether the log unit of a record can be read. -/
def logReadable (s : State) (r : LogRec) : Bool :=
  (logUnitOf s r).any (fun g =>
    (shelfOf s g.place.unit).state == 4 && (fineEnt (shelfOf s g.place.unit) (g.place.addr / 4)).any (fun e => e.state == 2))

/-- The log's records that can be read, each once, in `rec` order, with the withdrawals that are still on their way to it. -/
def logRecs (s : State) : List LogRec :=
  let coming := s.pfx.ring.filterMap (fun e => match e.item with | .withdraw r => some r | _ => none)
  let all := sortBy (fun (a b : LogRec) => a.recNo < b.recNo) (s.pfx.log.filter (logReadable s) ++ coming ++ s.pfx.rcTail)
  all.foldl (fun acc r => if acc.any (fun (x : LogRec) => x.recNo == r.recNo) then acc else acc ++ [r]) []

/-- A rebuild starts (OD 0x4020:0A): ST_CONFLICT while one runs. -/
def rebuildStart (s : State) : Status × State :=
  if s.pfx.rebuildState = 1 then (.conflict, s)
  else
    let recs := logRecs s
    let top := recs.foldl (fun n x => max n (x.recNo + 1)) s.pfx.nextRec
    (.ok, { s with pfx := { s.pfx with nextRec := top, rebuildState := 1, rebuildRead := 0, rebuildLeft := recs, rebuilt := [] } })

/-- A rebuild reads one record of the log; after the last it is done, and the prefix commands that waited go on. -/
def rebuildStep (s : State) : State :=
  if s.pfx.rebuildState != 1 then s
  else
    match s.pfx.rebuildLeft with
    | [] => tendPrefix { s with pfx := { s.pfx with rebuildState := 2 } }
    | r :: rs =>
      let s1 := { s with pfx := { s.pfx with rebuildLeft := rs, rebuildRead := s.pfx.rebuildRead + 1 } }
      if r.withdrawal || rs.any (fun w => w.withdrawal && w.target == r.recNo) then s1 else rebuildRec r s1

end Sys2Proof.Machine
end

