-- ==== Sys2Proof/Machine/Coding.lean ====
section
/-! DEFINITION. Compression commands (R244 to R255): TABLE_BUILD, TABLE_LOAD, COMPRESS, and the blocks that cores encode. -/

namespace Sys2Proof.Machine

/-! ## Cores (R213, R234, R235, R255) -/

/-- The physical core under test (R504). -/
def coreUnderTest (s : State) : Nat :=
  match s.power.test with
  | some t => if t.kind = 1 then t.unit else 255
  | none => 255

/-- Whether a logical core is enabled and in service (R235, R504, R508). -/
def coreUp (s : State) (n : Nat) : Bool :=
  n < 96 && physOf s n != 255 && !s.power.failedCores.contains (physOf s n) && !s.power.coresOut.contains n &&
  coreUnderTest s != physOf s n

def coresUp (s : State) : List Nat := (List.range 96).filter (coreUp s)

/-- Whether a core holds an item that is not done. -/
def coreHasItem (s : State) (n : Nat) : Bool :=
  s.jobs.jobs.any (fun j => j.items.any (fun i => i.core == n && i.state != .done))

/-- Cores that run compression commands: those with a purpose 4 region, or every core with no plan active. -/
def codeCores (s : State) : List Nat :=
  match s.wheel.active with
  | none => coresUp s
  | some p => (coresUp s).filter (fun n => p.plan.claims.any (fun c => c.kind == 4 && c.purpose == 4 && c.unit / 16 == n))

/-- Blocks under way on a core. -/
def codingOn (s : State) (n : Nat) : Bool :=
  s.queues.cmds.any (fun c =>
    match c.work with
    | .coding k => k.busy.any (fun b => b.1 == n)
    | _ => false)

/-- The next block of a command, in order. -/
def nextBlock (k : Coding) : Option Nat :=
  (List.range k.total).find? (fun i => !k.done.contains i && !k.busy.any (fun b => b.2 == i))

/-- Give a core the next block of the oldest command that has one. -/
def giveBlock (core : Nat) (s : State) : State :=
  if coreHasItem s core || codingOn s core then s
  else
    let pick (c : Cmd) : Option State :=
      match c.work with
      | .coding k => (nextBlock k).map (fun i => setWork c.id (.coding { k with busy := k.busy ++ [(core, i)] }) s)
      | _ => none
    (s.queues.cmds.findSome? pick).getD s

/-- Give every idle core a block. -/
def assignCoding (s : State) : State := forEach giveBlock (codeCores s) s

/-- Abandon the block under way on a core to which an item has been released: it is restarted later (R255). -/
def abandonBlock (core : Nat) (s : State) : State :=
  { s with queues := { s.queues with cmds := s.queues.cmds.map (fun (c : Cmd) =>
      match c.work with
      | .coding k => { c with work := .coding { k with busy := k.busy.filter (fun b => b.1 != core) } }
      | _ => c) } }

/-! ## Operands (R250, R254) -/

structure CodeArgs where
  src : Obj
  srcOff : Nat
  len : Nat
  mode : Nat
  lane : Nat
  base : Option Obj
  baseOff : Nat
  dst : Obj
  dstOff : Nat
  block : Nat
  slot : Nat

/-- An object of the partition that a command reads as plain data. -/
def plainSource (s : State) (p id off len : Nat) : Except Status Obj := do
  let o ← ownObj s p id
  need (!o.poisoned) .poisoned
  need ((objDirectory s o).isNone && off % 64 == 0 && off + len ≤ o.size) .badDescriptor
  return o

/-- Bytes that the destination of COMPRESS must have (R254). -/
def imageRoom (n : Nat) : Nat := 64 + ceilDiv (4 * n) 64 * 64 + n * 16448

/-- The checks of R254 that TABLE_BUILD and COMPRESS share; `block` is the raw block size, `low` the lowest mode. -/
def codeArgs (p : Nat) (d : Desc) (low block slot : Nat) (build : Bool) (s : State) : Except Status CodeArgs := do
  let mode := dfield d 32 1
  let lane := dfield d 33 1
  let len := dfield d 24 8
  let srcOff := dfield d 16 8
  let baseOff := dfield d 40 8
  let dstOff := dfield d 56 8
  let src ← ownObj s p (dObj d)
  let dst ← ownObj s p (dfield d 48 4)
  need (mode != 3 || (ownObj s p (dfield d 36 4)).toOption.isSome) .badObject
  need (!dst.immutable && !(slotsOf s).any (fun x => x.obj == dst.id)) .badObject
  need (!dst.poisoned) .poisoned
  let _ ← plainSource s p src.id srcOff len
  let base ← (if mode = 3 then (plainSource s p (dfield d 36 4) baseOff len).map some else .ok none)
  need (mode == 3 || (dfield d 36 4 == 0 && baseOff == 0)) .badDescriptor
  need (low ≤ mode && mode ≤ 3 && lane ≤ 3 && 1 ≤ len && len ≤ 2 ^ 30 && len % laneUnit lane == 0) .badDescriptor
  let n := ceilDiv len block
  need (dstOff % 64 == 0 && (if build then 256 else imageRoom n) ≤ dst.size - dstOff && dstOff ≤ dst.size) .badDescriptor
  need (build || n ≤ 65536) .badDescriptor
  return { src := src, srcOff := srcOff, len := len, mode := mode, lane := lane, base := base, baseOff := baseOff,
           dst := dst, dstOff := dstOff, block := block, slot := slot }

def buildArgs (p : Nat) (d : Desc) (s : State) : Except Status CodeArgs :=
  codeArgs p d 1 (if dfield d 33 1 = 1 then 16320 else 16384) 0 true s

def compressArgs (p : Nat) (d : Desc) (s : State) : Except Status CodeArgs := do
  let units := dfield d 12 2
  let mode := dfield d 32 1
  let slot := dfield d 34 1
  let a ← codeArgs p d 0 (64 * max 1 units) slot false s
  need (1 ≤ units && units ≤ 256 && (a.lane != 1 || units % 3 == 0) && slot < 16 && (mode != 0 || slot == 0)) .badDescriptor
  need (mode == 0 || (s.tables.getD slot {}).gen != 0) .tableMismatch
  return a

def codeArgsOf (c : Cmd) (s : State) : Except Status CodeArgs :=
  if dOpcode c.desc = opTableBuild then buildArgs c.part c.desc s else compressArgs c.part c.desc s

/-- The heath port out of service that a command's objects need. -/
def codePort (s : State) (a : CodeArgs) : Option Nat :=
  let all (o : Obj) : List Nat := List.range o.exts.length
  match downPort s a.src (extsOf a.src a.srcOff a.len) false with
  | some h => some h
  | none =>
    match a.base.bind (fun b => downPort s b (extsOf b a.baseOff a.len) false) with
    | some h => some h
    | none => downPort s a.dst (all a.dst) true

/-- Start a command's blocks, once its heath ports serve. -/
def startCoding (c : Cmd) (s : State) : State :=
  match codeArgsOf c s with
  | .error st => complete c st 0 s
  | .ok a =>
    if a.dst.exts.any (fun e => e.home.tier == .heath) && s.sec.tenSecret.isNone then complete c .keyAbsent 0 s
    else if a.dst.exts.any (fun e => e.moving) then setWork c.id .deferred s
    else
      match codePort s a with
      | some h => stall c h s
      | none =>
        let k : Coding :=
          { total := ceilDiv a.len a.block, busy := [], done := [], gen := (s.tables.getD a.slot {}).gen }
        assignCoding (setWork c.id (.coding k) s)

def runTableBuild (c : Cmd) (s : State) : State := startCoding c s
def execTableBuild (q : QRef) (s : State) : Host.Outcome State Fault Refusal := .next (startCmd 0x50 runTableBuild q s)

def runCompress (c : Cmd) (s : State) : State := startCoding c s
def execCompress (q : QRef) (s : State) : Host.Outcome State Fault Refusal := .next (startCmd 0x52 runCompress q s)

/-! ## Results (R250, R251, R253) -/

/-- Block `i` of a source with its base bytes. -/
def codeBlock (s : State) (a : CodeArgs) (i : Nat) : Bytes × Bytes :=
  let n := min a.block (a.len - i * a.block)
  (objBytes s a.src (a.srcOff + i * a.block) n,
   match a.base with
   | some b => objBytes s b (a.baseOff + i * a.block) n
   | none => [])

def codeBlocks (s : State) (a : CodeArgs) : List (Bytes × Bytes) := (List.range (ceilDiv a.len a.block)).map (codeBlock s a)

/-- Cycles that a sherd's expansion takes (R260). -/
def sherdCycles (image base sherd : Bytes) : Nat :=
  let h := sherdHdr sherd
  if h.mode = 0 then 16 + ceilDiv h.rawLen 2048
  else
    match decodePayload (canon (tableLens image)) h.mode h.lane h.rawLen base ((sherd.drop 16).take h.codedLen) with
    | .ok r => r.2
    | .error _ => 0

/-- Where each sherd starts, from `at_` on, in 64-byte units. -/
def sherdOffsets (at_ : Nat) : List Bytes → List Nat
  | [] => []
  | b :: bs => at_ / 64 :: sherdOffsets (at_ + b.length) bs

/-- A coded image with its raw blocks and cycles (R249). -/
def codedImage (s : State) (a : CodeArgs) (gen : Nat) (table : Bytes) : Bytes × Nat × Nat :=
  let blocks := codeBlocks s a
  let coded := blocks.map (fun b => sherdOf a.slot gen table a.mode a.lane b.2 b.1)
  let sherds := coded.map (fun x => pad64 x.1)
  let n := blocks.length
  let first := 64 + ceilDiv (4 * n) 64 * 64
  let total := first + sumBy List.length sherds
  let cycles := min 0xFFFFFFFF (sumBy (fun x => sherdCycles table x.1.2 x.2.1) (blocks.zip coded))
  let hdr := natLe 4 0x44524853 ++ natLe 1 1 ++ natLe 1 a.lane ++ natLe 2 (a.block / 64) ++ natLe 8 a.len ++ natLe 4 n ++
    natLe 4 (a.base.elim 0 (fun b => b.id)) ++ natLe 8 a.baseOff ++ natLe 8 total ++ natLe 4 cycles ++ List.replicate 20 0
  (hdr ++ pad64 ((sherdOffsets first sherds).flatMap (natLe 4)) ++ sherds.flatten,
   (coded.filter (fun x => x.2)).length, cycles)

/-- What a coding command has read. -/
def touchCoded (a : CodeArgs) (s : State) : State :=
  let s1 := touchRead a.src.part (a.src.off + a.srcOff) a.len s
  match a.base with
  | some b => touchRead b.part (b.off + a.baseOff) a.len s1
  | none => s1

/-- Write what a command whose last block is encoded made, and complete it. -/
def finishCoding (c : Cmd) (k : Coding) (s0 : State) : State :=
  match codeArgsOf c s0 with
  | .error st => complete c st 0 s0
  | .ok a =>
    let s := touchCoded a s0
    if dOpcode c.desc = opTableBuild then
      let lens := builtLens (symCounts a.mode a.lane (codeBlocks s a))
      let image := imageOf lens
      completePlaced c .ok ((codedImage s a 1 image).1.length + lens.foldl max 0 * 2 ^ 64)
        (objWriteFor (some c.id) a.dst.id a.dstOff image s)
    else
      let r := codedImage s a k.gen ((s.tables.getD a.slot {}).image.getD [])
      completePlaced c .ok (r.1.length + r.2.1 * 2 ^ 64 + r.2.2 * 2 ^ 96)
        (odAdd 0x8000 0x07 64 r.2.1 (objWriteFor (some c.id) a.dst.id a.dstOff r.1 s))

/-- BLOCK_ENCODED (R255): a core has encoded its block and takes the next one; the command ends after the last, or with
ST_ABORTED where the core has left service. -/
def blockEncoded (id core : Nat) (lost : Bool) (s : State) : State :=
  match findCmd s id with
  | none => s
  | some c =>
    match c.work with
    | .coding k =>
      match k.busy.find? (fun b => b.1 == core) with
      | none => s
      | some b =>
        if lost then assignCoding (complete c .aborted 0 s)
        else
          let k1 := { k with busy := k.busy.filter (fun x => x.1 != core), done := k.done ++ [b.2] }
          if k1.done.length = k.total then assignCoding (finishCoding c k1 s)
          else assignCoding (setWork id (.coding k1) s)
    | _ => s

def execBlockEncoded (id core : Nat) (lost : Bool) (s : State) : Host.Outcome State Fault Refusal :=
  .next (blockEncoded id core lost s)

/-! ## TABLE_LOAD (R244 to R246, R252) -/

/-- The slot that sherd `i` of an object names, none for a raw one. -/
def sherdSlot (s : State) (o : Obj) (i : Nat) : Option Nat :=
  let h := sherdHdr (objBytes s o (sherdAt s o i) 16)
  if h.mode = 0 then none else some h.slot

/-- Coded sherds of an object that name a slot, from block `i`, `n` of them. -/
def sherdsOn (s : State) (o : Obj) (slot i n : Nat) : Nat :=
  ((List.range n).filter (fun k => sherdSlot s o (i + k) == some slot)).length

/-- Bytes of one head group's up-projection slice (R209, R211). -/
def sliceBytes (g : MGroup) (G : Nat) : Nat := g.dc * 2 * g.h * g.d / G * 33 / 32

/-- Where the slice of a layer and head group starts in the weight object (R211). -/
def sliceAt (g : MGroup) (G layer headGroup : Nat) : Nat := ((layer - g.first) * G + headGroup) * sliceBytes g G

/-- Sherds of a slice in a half of a core's regions, or on its way there, that are still to be expanded. -/
def halfSherds (s : State) (slot : Nat) (x : WeightHalf) : Nat :=
  match (if x.used then none else findObj s x.aux) with
  | none => 0
  | some o =>
    match objDirectory s o with
    | none => 0
    | some d => sherdsOn s o slot (x.off / d.block) (ceilDiv (x.off + x.len) d.block - x.off / d.block)

/-- Sherds in flight on a slot, with the count a running COMPRESS holds (R245). -/
def slotInFlight (s : State) (slot : Nat) : Nat :=
  (s.queues.cmds.filter (fun c =>
    match c.work with
    | .coding _ => dOpcode c.desc == opCompress && dfield c.desc 32 1 != 0 && dfield c.desc 34 1 == slot
    | _ => false)).length +
  sumBy (fun m =>
    match m.item with
    | .plain id =>
      match findObj s id with
      | some o => (objDirectory s o).elim 0 (fun d => sherdsOn s o slot 0 d.count)
      | none => 0
    | _ => 0) s.objs.moves +
  sumBy (halfSherds s slot) s.jobs.halves

def nextGen (g : Nat) : Nat := if 15 ≤ g then 1 else g + 1

/-- TABLE_LOAD: the check of the count and the load are one action. -/
def tableLoad (p : Nat) (d : Desc) (s : State) : Except Status (Nat × State) := do
  let slot := dfield d 8 1
  let id := dfield d 12 4
  let off := dfield d 16 8
  let t := s.tables.getD slot {}
  let put (im : Option Bytes) : Nat × State :=
    (nextGen t.gen, { s with tables := s.tables.set slot { gen := nextGen t.gen, image := im } })
  if id = 0 then
    need (slot < 16 && off == 0) .badDescriptor
    need (slotInFlight s slot == 0) .conflict
    return put none
  else
    let o ← ownObj s p id
    need (!o.poisoned) .poisoned
    let im := objBytes s o off 256
    need (slot < 16 && off % 64 == 0 && off + 256 ≤ o.size && imageOk im) .badDescriptor
    need (slotInFlight s slot == 0) .conflict
    let r := put (some im)
    return (r.1, touchRead p (o.off + off) 256 r.2)

def runTableLoad (c : Cmd) (s : State) : State :=
  match tableLoad c.part c.desc s with
  | .ok (v, t) => complete c .ok v t
  | .error st => complete c st 0 (if st == .conflict then bump32 0x8000 0x06 s else s)

def execTableLoad (q : QRef) (s : State) : Host.Outcome State Fault Refusal := .next (startCmd 0x51 runTableLoad q s)

end Sys2Proof.Machine
end

