-- ==== Sys2Proof/Machine/Attention.lean ====
section
/-! DEFINITION. What an attention job computes (R160 to R199): visibility and masks, pages computed, scores and values,
split partials and their merge, output regions, and the gradients of ATTN_BWD. -/

namespace Sys2Proof.Machine

/-! ## Arithmetic of the vector engine (R173, R197) -/

def negInf : FV := .inf true

/-- a × b + c, rounded once or twice. -/
def vmadd (a b c : FV) : FV := if Config.vecFused then f32 ((a.mul b).add c) else fadd (fmul a b) c

/-- Largest finite FP32 number. -/
def maxF32 : FV := .fin false (2 ^ 24 - 1) 104

/-- Whether every order of adding some finite values is exact: they are multiples of one unit, of which their magnitudes together make
at most 2^24. -/
def exactSum (l : List FV) : Bool :=
  let even (m : Nat) : Nat := ((List.range 64).takeWhile (fun k => m % 2 ^ (k + 1) == 0)).length
  let q := l.foldl (fun a x => match x with | .fin _ m e => min a (e + even m) | _ => a) (127 : Int)
  let units (x : FV) : Nat := match x with | .fin _ m e => if q ≤ e then m * 2 ^ (e - q).toNat else m / 2 ^ (q - e).toNat | _ => 0
  sumBy units l ≤ 2 ^ 24

/-- Sum of FP32 numbers in an order that the spec does not give: exact where at most one is not zero, or where every order is; one rounded
addition for two; NaN where a NaN or both infinities are among them; an infinity where no order of the others can overflow against
it. Else a free value: of finite terms that cannot overflow one within the error that any order has, n·2^-23 of their magnitudes together
(an unconstrained choice that lies outside is replaced by the sum in list order). -/
def vsum (xs : List FV) : FV :=
  match xs.filter (fun x => !x.isZero) with
  | [] => FV.zero
  | [x] => x
  | [x, y] => fadd x y
  | l =>
    let up := l.any (fun x => x == .inf false)
    let down := l.any (fun x => x == .inf true)
    let size (k : List FV) : FV := k.foldl (fun a x => a.add x.abs) FV.zero
    let small (k : List FV) : Bool := FV.lt (size k) (maxF32.scale2 (-1))
    let against := l.filter (fun x => x.isFin && FV.lt x FV.zero == up)
    let free := f32Of (Config.vecSum (l.map (fun v => BitVec.ofNat 32 (f32Bits v)))).toNat
    if l.any FV.isNan || (up && down) then .nan
    else if up || down then (if small against then .inf down else free)
    else if !small l then free
    else
      let exact := l.foldl FV.add FV.zero
      if exactSum l then f32 exact
      else if within (((size l).mul (.fin false l.length 0)).scale2 (-23)) free exact then free
      else l.foldl fadd FV.zero

/-! ## A job's inputs -/

/-- One query row: its position and its elements for each query head. -/
structure QRow where
  pos : Nat
  heads : List (List FV)

/-- What a job computes from: layer group, query heads, FP8 scales, `scale` × log2(e), the computed pages (16 places
each, a place holding a committed key), the step rows, and for kind 2 the up-projection columns of each KV head. -/
structure AttnIn where
  g : MGroup
  hq : Nat
  ks : FV
  vs : FV
  c : FV
  rows : List QRow
  pages : List (List (Option (Nat × TokRec)))
  steps : List (Nat × TokRec)
  up : List (List (List FV) × List (List FV))
  bits : Option (List (List Bool))
  limit : Nat
  causal : Bool
  window : Bool
  tree : List Nat

/-- Query, key and value dimensions of a layer group (R165, R166). -/
def dimQ (g : MGroup) : Nat := if g.kind = 3 then g.dc + g.dr else if g.kind = 2 then g.d + g.dr else g.d
def dimOut (g : MGroup) : Nat := if g.kind = 3 then g.dc else g.d

/-- KV head that a query head reads (R160). -/
def kvHead (a : AttnIn) (h : Nat) : Nat := h * a.g.h / (max 1 a.hq)

/-- Whether a stored key at position `k` is visible to row `i` (R172, R175). -/
def seesStored (a : AttnIn) (i q k : Nat) : Bool :=
  k < a.limit && (!a.causal || k ≤ q) && (!a.window || q < k + a.g.window) &&
  (match a.bits with
    | none => true
    | some rows => (rows.getD i []).getD k false)

/-- Whether row `i` sees step row `j` (R162, R180, R182, R184): itself, or what its tree word names; within the window. -/
def seesStep (a : AttnIn) (i q j pj : Nat) : Bool :=
  (if a.tree.isEmpty then i == j else bitOf (nth a.tree i) j) && (!a.window || q < pj + a.g.window)

/-- Whether page `p` has a key visible to any row (R176, R179). -/
def pageVisible (a : AttnIn) (p : Nat) : Bool :=
  (indexed a.rows).any (fun r => (List.range 16).any (fun k => seesStored a r.1 r.2.pos (16 * p + k)))

/-- Key and value of a token for a KV head (R160, R173, R174, R194). -/
def keyValue (a : AttnIn) (kv : Nat) (t : TokRec) : List FV × List FV :=
  let k := storedValues a.g.format a.ks t.a t.sa
  let v := storedValues a.g.format a.vs t.b t.sb
  if a.g.kind = 2 then
    let u := a.up.getD kv ([], [])
    (u.1.map (fun col => dot k col) ++ v, u.2.map (fun col => dot k col))
  else if a.g.kind = 3 then (k ++ v, k)
  else ((k.drop (kv * a.g.d)).take a.g.d, (v.drop (kv * a.g.d)).take a.g.d)

/-! ## Forward (R173, R194 to R196) -/

/-- Running state of a row and head: maximum, sum, accumulator. -/
structure Soft where
  mx : FV
  l : FV
  acc : List FV

/-- A probability as it enters the value product (R194): BF16, or the E4M3 code of p × 2^8. -/
def probOperand (storage : Nat) (p : FV) : FV :=
  if storage = 1 then fmtBf16.round p else fmtE4M3.decode (fmtE4M3.encode 0x7F (p.scale2 8))

/-- One block of keys: `none` for a key that the row does not see. -/
def softBlock (a : AttnIn) (q : List FV) (blk : List (Option (List FV × List FV))) (st : Soft) : Soft :=
  let s := blk.map (fun e =>
    match e with
    | some kv => fmul a.c (dot q kv.1)
    | none => negInf)
  let mnew := s.foldl FV.max2 st.mx
  if mnew == negInf then st
  else
    let alpha := exp2 (fadd st.mx mnew.negate)
    let p := (s.zip blk).map (fun x => if x.2.isSome then exp2 (fadd x.1 mnew.negate) else FV.zero)
    let ops := p.map (probOperand a.g.format)
    { mx := mnew, l := vmadd st.l alpha (vsum p),
      acc := (indexed st.acc).map (fun x => dotAcc (fmul x.2 alpha) ops
        (blk.map (fun e =>
          match e with
          | some kv => kv.2.getD x.1 FV.zero
          | none => FV.zero))) }

/-- The stored keys of a block of pages as row `i` sees them. -/
def seenBlock (a : AttnIn) (i q kv : Nat) (pages : List (List (Option (Nat × TokRec)))) : List (Option (List FV × List FV)) :=
  pages.flatten.map (fun e =>
    match e with
    | some x => if seesStored a i q x.1 then some (keyValue a kv x.2) else none
    | none => none)

def stepBlock (a : AttnIn) (i q kv : Nat) : List (Option (List FV × List FV)) :=
  (indexed a.steps).map (fun x => if seesStep a i q x.1 x.2.1 then some (keyValue a kv x.2.2) else none)

/-- The keys that a row sees in blocks: up to 8 pages each, the step rows last. -/
def blocksOf (a : AttnIn) (i q kv : Nat) (pages : List (List (Option (Nat × TokRec)))) (withSteps : Bool) :
    List (List (Option (List FV × List FV))) :=
  (chunks 8 pages).map (seenBlock a i q kv) ++ (if withSteps && !a.steps.isEmpty then [stepBlock a i q kv] else [])

/-- Whether any element that a row and head reads is NaN (R196). -/
def readsNan (q : List FV) (blocks : List (List (Option (List FV × List FV)))) : Bool :=
  let seen := blocks.flatten.filterMap id
  !seen.isEmpty && (q.any FV.isNan || seen.any (fun kv => kv.1.any FV.isNan || kv.2.any FV.isNan))

/-- Result of a row and head. -/
structure HeadOut where
  out : List FV
  mx : FV
  l : FV
  empty : Bool
  nan : Bool

/-- Output elements of a sum and accumulator: the 2^-8 of R194 is applied here. -/
def normalise (storage : Nat) (l : FV) (acc : List FV) : List FV :=
  acc.map (fun x => fmul (if storage = 1 then x else x.scale2 (-8)) (recip l))

def nanOut (n : Nat) : HeadOut := { out := List.replicate n .nan, mx := .nan, l := .nan, empty := false, nan := true }

def emptyOut (n : Nat) : HeadOut := { out := List.replicate n FV.zero, mx := negInf, l := FV.zero, empty := true, nan := false }

/-- A row and head over given pages, whole (R173). -/
def headOut (a : AttnIn) (i h : Nat) (row : QRow) : HeadOut :=
  let q := queryValues a.g.format (row.heads.getD h [])
  let n := dimOut a.g
  let blocks := blocksOf a i row.pos (kvHead a h) a.pages true
  if readsNan q blocks then nanOut n
  else
    let st := blocks.foldl (fun s b => softBlock a q b s) { mx := negInf, l := FV.zero, acc := List.replicate n FV.zero }
    if st.l.isZero then emptyOut n
    else
      let out := normalise a.g.format st.l st.acc
      { out := out, mx := st.mx, l := st.l, empty := false, nan := out.any FV.isNan }

/-! ## Split decode (R191, R192) -/

/-- Pages of split core `i` of `k` (R191). -/
def splitPages {α : Type} (k i : Nat) (pages : List α) : List α :=
  (pages.take ((i + 1) * pages.length / k)).drop (i * pages.length / k)

/-- A split core's partial. -/
def partialOf (a : AttnIn) (k part i h : Nat) (row : QRow) : Soft :=
  let q := queryValues a.g.format (row.heads.getD h [])
  let blocks := blocksOf a i row.pos (kvHead a h) (splitPages k part a.pages) (part + 1 == k)
  let st := blocks.foldl (fun s b => softBlock a q b s)
    { mx := negInf, l := FV.zero, acc := List.replicate (dimOut a.g) FV.zero }
  if st.l.isZero then { st with acc := st.acc.map (fun _ => FV.zero) }
  else { st with acc := normalise a.g.format st.l st.acc }

/-- One partial folded into the merge. -/
def mergeStep (m p : Soft) : Soft :=
  if p.l.isZero then m
  else
    let mn := FV.max2 m.mx p.mx
    let am := exp2 (fadd m.mx mn.negate)
    let ap := exp2 (fadd p.mx mn.negate)
    { mx := mn, l := vmadd m.l am (fmul p.l ap),
      acc := List.zipWith (fun x o => vmadd x am (fmul (fmul p.l ap) o)) m.acc p.acc }

/-- Bytes that the partials of one row take in purpose 1 regions of the merge core (R209, R210). -/
def partialBytes (k hq dOut : Nat) : Nat := k * hq * (4 * dOut + 8)

/-- The rows that the merge core folds together, band after band (R210): at least one row at a time. -/
def mergeBands {α : Type} (scratch k hq dOut : Nat) (rows : List α) : List (List α) :=
  chunks (max 1 (scratch / max 1 (partialBytes k hq dOut))) rows

/-- A row and head of a split entry: partials folded in the order of `split_cores`. -/
def splitOut (a : AttnIn) (k i h : Nat) (row : QRow) : HeadOut :=
  let q := queryValues a.g.format (row.heads.getD h [])
  let n := dimOut a.g
  if readsNan q (blocksOf a i row.pos (kvHead a h) a.pages true) then nanOut n
  else
    let st := (List.range k).foldl (fun m p => mergeStep m (partialOf a k p i h row))
      { mx := negInf, l := FV.zero, acc := List.replicate n FV.zero }
    if st.l.isZero then emptyOut n
    else
      let out := st.acc.map (fun x => fmul x (recip st.l))
      { out := out, mx := st.mx, l := st.l, empty := false, nan := out.any FV.isNan }

/-! ## The output region (R166) -/

/-- Bytes and code of an element in an output format. -/
def outBytes (fmt : Nat) : Nat := if fmt = 2 then 4 else 2

def outCode (fmt : Nat) (x : FV) : Nat :=
  if fmt = 0 then fmtBf16.encode 0x7FC0 x else if fmt = 1 then fmtF16.encode 0x7E00 x else f32Bits x

/-- Bytes of a region: rows × heads outputs, flags, and statistics where asked. -/
def regionBytes (m hq dOut fmt : Nat) (stats : Bool) : Nat :=
  let up (n : Nat) : Nat := ceilDiv n 64 * 64
  let rowsB := up (m * hq * dOut * outBytes fmt)
  let flagsB := ceilDiv m 512 * 64
  rowsB + flagsB + (if stats then m * hq * 8 else 0)

/-- The region that outcomes by row and head spell. -/
def regionOf (fmt : Nat) (stats : Bool) (outs : List (List HeadOut)) : Bytes :=
  let o := pad64 (outs.flatMap (fun r => r.flatMap (fun h => h.out.flatMap (fun x => natLe (outBytes fmt) (outCode fmt x)))))
  let flags := natLe (ceilDiv outs.length 512 * 64)
    ((indexed outs).foldl (fun n r => n + (if r.2.any (fun h => h.empty) then 2 ^ r.1 else 0)) 0)
  let st := outs.flatMap (fun r => r.flatMap (fun h => natLe 4 (f32Bits h.mx) ++ natLe 4 (f32Bits h.l)))
  o ++ flags ++ (if stats then st else [])

/-- Every row and head of a job; a split entry's rows are merged in bands, in row order. -/
def jobOuts (a : AttnIn) (split scratch : Nat) : List (List HeadOut) :=
  if split = 0 then (indexed a.rows).map (fun r => (List.range a.hq).map (fun h => headOut a r.1 h r.2))
  else
    (mergeBands scratch split a.hq (dimOut a.g) (indexed a.rows)).flatMap (fun band =>
      band.map (fun r => (List.range a.hq).map (fun h => splitOut a split r.1 h r.2)))

/-! ## Timing of an item (R200 to R202) -/

/-- Cycles of a block per KV head. -/
def blockCycles (g : MGroup) (hq m : Nat) (backward : Bool) : Nat :=
  let r := if g.kind = 3 then m * hq else m * hq / (max 1 g.h)
  let rf := if g.format = 1 then 4096 else 16384
  let pass := max (ceilDiv (r * 16384) rf) (formatBits g.format)
  let per := if backward then 5 * ceilDiv g.d 128 else ceilDiv (dimQ g) 128 + ceilDiv (dimOut g) 128
  per * pass + (if g.kind = 2 then 2 * g.dc * g.d / 128 else 0)

/-- Engine cycles of `pages` computed pages over some KV heads. -/
def pagesCycles (g : MGroup) (hq m heads pages : Nat) (backward : Bool) : Nat :=
  ceilDiv pages 8 * heads * blockCycles g hq m backward

/-! ## Backward (R199) -/

/-- One query row and head of a backward job: query, output, its gradient, maximum and sum. -/
structure BackRow where
  q : List FV
  o : List FV
  dO : List FV
  mx : FV
  l : FV

/-- The products that enter a gradient's sum, each rounded to FP32 (DESIGN CHOICE, log entry 150: the spec does not say whether they enter
it so or exactly). -/
def scaled (x : FV) (v : List FV) : List FV := v.map (fun y => fmul x y)

/-- Element sums of contributions of one length. -/
def addVec (n : Nat) (l : List (List FV)) : List FV := (List.range n).map (fun e => vsum (l.map (fun v => v.getD e FV.zero)))

/-- p and ds of a row and key. -/
def backPair (a : AttnIn) (r : BackRow) (kv : List FV × List FV) : FV × FV :=
  let p := fdiv (exp2 (fadd (fmul a.c (dot (queryValues a.g.format r.q) kv.1)) r.mx.negate)) r.l
  let dp := dot r.dO kv.2
  let delta := vsum (List.zipWith fmul r.dO r.o)
  (p, fmul p (fadd dp delta.negate))

/-- Gradients: dQ by row and head, dK and dV by key and KV head. `rows` gives each row's heads. -/
def backward (a : AttnIn) (scale : FV) (rows : List (Nat × List BackRow)) (keys : List (Nat × TokRec)) :
    List (List (List FV)) × List (List (List FV)) × List (List (List FV)) :=
  let d := a.g.d
  let live (r : BackRow) : Bool := !r.l.isZero
  let dq := (indexed rows).map (fun r => (indexed r.2.2).map (fun h =>
    if !live h.2 then List.replicate d FV.zero
    else addVec d (keys.filterMap (fun k =>
      if seesStored a r.1 r.2.1 k.1 then
        let kv := keyValue a (kvHead a h.1) k.2
        some (scaled (fmul (backPair a h.2 kv).2 scale) kv.1)
      else none))))
  let grad (f : BackRow → List FV × List FV → List FV) (k : Nat × TokRec) (kvh : Nat) : List FV :=
    addVec d ((indexed rows).flatMap (fun r =>
      (indexed r.2.2).filterMap (fun h =>
        if kvHead a h.1 == kvh && live h.2 && seesStored a r.1 r.2.1 k.1 then some (f h.2 (keyValue a kvh k.2)) else none)))
  let dk := keys.map (fun k => (List.range a.g.h).map (grad (fun r kv => scaled (fmul (backPair a r kv).2 scale) (queryValues a.g.format r.q)) k))
  let dv := keys.map (fun k => (List.range a.g.h).map (grad (fun r kv => scaled (backPair a r kv).1 r.dO) k))
  (dq, dk, dv)

end Sys2Proof.Machine
end

