-- ==== Sys2Proof/Machine/JobData.lean ====
section
/-! DEFINITION. What a job reads and writes: its query rows, step rows, keys, masks and weights (R161 to R165, R169 to R176,
R211), the step row's write (R162), the provisional tail (R183), and its output region (R166). -/

namespace Sys2Proof.Machine

/-! ## Fields of an ATTN descriptor (R168) -/

def atFmtQ (d : Desc) : Nat := bitsOf (dfield d 14 1) 1 0
def atFmtKv (d : Desc) : Nat := bitsOf (dfield d 14 1) 3 2
def atFmtOut (d : Desc) : Nat := bitsOf (dfield d 14 1) 5 4
def atStats (d : Desc) : Bool := bitOf (dfield d 14 1) 6
def atCausal (d : Desc) : Bool := bitOf (dfield d 15 1) 0
def atWindow (d : Desc) : Bool := bitOf (dfield d 15 1) 1
def atBitmap (d : Desc) : Bool := bitOf (dfield d 15 1) 2
def atScale (d : Desc) : FV := f32Of (dfield d 24 4)
def atAux (d : Desc) : Nat := dfield d 56 4

/-- Depth of candidate `i` (R182). -/
def depthOf (tree : List Nat) (i : Nat) : Nat := ((List.range 16).filter (fun b => bitOf (nth tree i) b)).length - 1

/-- Parent of candidate `i`: the highest bit of its word below `i`. -/
def parentOf (tree : List Nat) (i : Nat) : Nat := (((List.range i).filter (fun b => bitOf (nth tree i) b)).getLast?).getD 0

/-! ## Submission buffers (R105, R165) -/

/-- One byte of a submission buffer; a byte nothing has written reads as zero. -/
def subByte (s : State) (half : Bool) (p b off : Nat) : Byte :=
  match (s.sheets.subs.filter (fun x => x.half == half && x.partition == p && x.buffer == b && x.off ≤ off &&
      off < x.off + x.bytes.length)).getLast? with
  | some x => x.bytes.getD (off - x.off) 0
  | none => 0

def subRead (s : State) (half : Bool) (p b off n : Nat) : Bytes := (List.range n).map (fun i => subByte s half p b (off + i))

/-- The buffer of a layer in a step. -/
def subBuffer (layer step : Nat) : Nat := 2 * layer + step % 2

/-- Bytes of a job's query block. -/
def queryBytes (g : MGroup) (hq m fmt : Nat) : Nat := m * hq * dimQ g * sourceBytes fmt

/-- Where the new key-value block of an entry's submission starts. -/
def newKvOff (g : MGroup) (hq m fmt off : Nat) : Nat := off + ceilDiv (queryBytes g hq m fmt) 64 * 64

/-- Bytes of an entry's submission for a layer. -/
def submissionBytes (g : MGroup) (hq m fq fkv : Nat) : Nat :=
  ceilDiv (queryBytes g hq m fq) 64 * 64 + m * ((elemsA g + elemsB g) * sourceBytes fkv)

/-! ## Rows -/

def jobSeq (s : State) (j : Job) : Option Seq := findSeq s j.seq

/-- Positions of a job's query rows (R161, R172). -/
def rowPos (j : Job) (i : Nat) : Nat :=
  if j.kind == .planned then j.len + (if j.tree.isEmpty then 0 else depthOf j.tree i) else dfield j.desc 16 4 + i

/-- The query block. -/
def queryBlock (s : State) (g : MGroup) (hq : Nat) (j : Job) : Bytes :=
  let n := queryBytes g hq j.rows (atFmtQ j.desc)
  if j.kind == .planned then subRead s j.half j.part (subBuffer j.layer j.step) (dfield j.desc 32 8) n
  else memRead s j.part (dfield j.desc 32 8) n

/-- Query rows with their heads' elements (R165, R194). -/
def queryRows (s : State) (g : MGroup) (hq : Nat) (j : Job) : List QRow :=
  let es := sourceElems (atFmtQ j.desc) (f32Of (dfield j.desc 28 4)) (queryBlock s g hq j)
  (indexed (chunks (hq * dimQ g) es)).map (fun r => { pos := rowPos j r.1, heads := chunks (dimQ g) r.2 })

/-- The quantised records of a planned job's step rows, with NaN blocks and elements out of range (R128, R162, R183). -/
def stepRecords (s : State) (m hq : Nat) (g : MGroup) (j : Job) : List QRec :=
  let fkv := atFmtKv j.desc
  let n := (elemsA g + elemsB g) * sourceBytes fkv
  let off := newKvOff g hq j.rows (atFmtQ j.desc) (dfield j.desc 32 8)
  (List.range j.rows).map (fun i =>
    quantRecord g (f32Of (keyScale s m j.layer).toNat) (f32Of (valScale s m j.layer).toNat)
      (sourceElems fkv (f32Of (dfield j.desc 60 4))
        (subRead s j.half j.part (subBuffer j.layer j.step) (off + i * n) n)))

/-! ## Pages -/

/-- The places of page `p` of a layer: committed keys, and for commands those of a pending run. -/
def pageOf (s : State) (q : Seq) (g : MGroup) (j : Job) (p : Nat) : List (Option (Nat × TokRec)) :=
  let rows : List KvRow :=
    if isWindow g then (q.coils.find? (fun c => c.group == g.idx)).elim [] (fun c => c.rows)
    else (findCol s (nth j.cols p)).elim [] (fun c => c.rows)
  (List.range 16).map (fun r =>
    let pos := 16 * p + r
    if j.len ≤ pos then none
    else
      match rows.find? (fun x => x.layer == j.layer && x.row == (if isWindow g then pos else r)) with
      | some x => some (pos, x.tok)
      | none => none)

/-- Pages a job has (R164, R177): ceil(positions ÷ 16). A planned job's positions are those below ℓ and one for each of its step
rows (DESIGN CHOICE, log entry 122); a command's are those below V (DESIGN CHOICE, log entry 123). -/
def realPages (j : Job) : Nat :=
  ceilDiv (j.len + (if j.kind == .planned then max 1 j.rows else 0)) 16

/-- Mask rows of a job with bit 2 of `mask` (R175). -/
def maskRows (s : State) (j : Job) : Option (List (List Bool)) :=
  if j.kind == .planned || !atBitmap j.desc then none
  else
    let src := if j.kind == .backward then dfield j.desc 56 8 else dfield j.desc 48 8
    let pages := ceilDiv j.len 16
    some ((List.range j.rows).map (fun i =>
      (List.range j.len).map (fun k =>
        let bit := 16 * (i % 16) + k % 16
        bitOf (memByte s j.part (src + 32 * (i / 16 * pages + k / 16) + bit / 8)).toNat (bit % 8))))

/-! ## Up-projection weights (R174, R211) -/

/-- The stored bytes of a head group's slice, expanded; or the block that failed and its status. -/
def auxSlice (s : State) (o : Obj) (g : MGroup) (G layer hg : Nat) : Except (Nat × Status) Bytes :=
  let off := sliceAt g G layer hg
  let n := sliceBytes g G
  match objDirectory s o with
  | none => .ok (objBytes s o off n)
  | some d =>
    let r := expandSpan s o d off n (d.count - off / d.block) (off / d.block)
    match r.2 with
    | none => .ok r.1
    | some e => .error e

/-- Columns of one projection for one KV head: codes row by row, then scales by 32 rows (DEDUCED, log entry 18). -/
def projection (g : MGroup) (G inGroup : Nat) (bs : Bytes) : List (List FV) :=
  let cols := g.h / G * g.d
  (List.range g.d).map (fun e =>
    let c := inGroup * g.d + e
    (List.range g.dc).map (fun r =>
      let sc := (bs.getD (g.dc * cols + r / 32 * cols + c) 0).toNat
      if sc = 0xFF then .nan
      else (fmtE4M3.decode (bs.getD (r * cols + c) 0).toNat).scale2 ((sc : Int) - 127)))

/-- Key and value projections of every KV head of a kind 2 group, from the plain bytes of its head groups' slices. -/
def upOf (g : MGroup) (G : Nat) (slices : List (Nat × Bytes)) : List (List (List FV) × List (List FV)) :=
  let per := g.h / G
  let half := g.dc * (g.h / G * g.d) * 33 / 32
  (List.range g.h).map (fun h =>
    let bs := ((slices.find? (fun x => x.1 == h / (max 1 per))).map (fun x => x.2)).getD []
    (projection g G (h % (max 1 per)) (bs.take half), projection g G (h % (max 1 per)) (bs.drop half)))

/-! ## The computation's input -/

/-- A failure to read a job's weights: the object, and the block and status of a failed sherd. -/
structure AuxFail where
  status : Status
  obj : Option (Obj × Nat)

/-- What decides which keys a job's rows see, with no key and no element read: masks, positions and limits (R172). -/
def viewOf (s : State) (j : Job) (q : Seq) (g : MGroup) : AttnIn :=
  { g := g, hq := modelHq s q.model, ks := .zero, vs := .zero, c := .zero,
    rows := (List.range j.rows).map (fun i => { pos := rowPos j i, heads := [] }), pages := [], steps := [], up := [],
    bits := maskRows s j, limit := j.len, causal := atCausal j.desc, window := atWindow j.desc, tree := j.tree }

def jobView (s : State) (j : Job) : Option AttnIn :=
  (jobSeq s j).bind (fun q => (layerGroup s q.model j.layer).map (viewOf s j q))

/-- What a job computes from, with the up-projection columns of a kind 2 group. -/
def inputOf (s : State) (j : Job) (q : Seq) (g : MGroup) (up : List (List (List FV) × List (List FV))) : AttnIn :=
  let hq := modelHq s q.model
  { viewOf s j q g with
    ks := f32Of (keyScale s q.model j.layer).toNat, vs := f32Of (valScale s q.model j.layer).toNat,
    c := f32 ((atScale j.desc).mul log2e), rows := queryRows s g hq j,
    pages := (List.range (realPages j)).map (pageOf s q g j), up := up,
    steps := if j.kind == .planned then (indexed (stepRecords s q.model hq g j)).map (fun x => (rowPos j x.1, x.2.tok)) else [] }

/-- Gather what a job computes from; the weights are those that its items have expanded (R217, R259). -/
def jobInput (s : State) (j : Job) : Except Status AttnIn :=
  match jobSeq s j with
  | none => .error .badObject
  | some q =>
    match layerGroup s q.model j.layer with
    | none => .error .badDescriptor
    | some g => .ok (inputOf s j q g (if g.kind = 2 then upOf g j.groups j.weights else []))

/-- Whether a partition runs in bucket mode (R177, R178). -/
def bucketMode (s : State) (p : Nat) : Bool := od s 0x3010 (p + 1) == 0

/-- The mode in which a job released now runs: under a change of it that has split, the old one (R114). -/
def runMode (s : State) (p : Nat) : Bool :=
  match s.wheel.modes.find? (fun m => m.failed && m.olds.any (fun e => e.1 == odKey 0x3010 (p + 1))) with
  | some m => ((m.olds.find? (fun e => e.1 == odKey 0x3010 (p + 1))).map (fun e => e.2)) == some 0
  | none => bucketMode s p

/-- Whether a page index holds step rows of a planned job. -/
def hasStep (j : Job) (p : Nat) : Bool :=
  j.kind == .planned && (List.range (max 1 j.rows)).any (fun i => rowPos j i / 16 == p)

/-- Whether a page has a key, stored or of a step row, that some row sees. -/
def pageUsed (j : Job) (a : AttnIn) (p : Nat) : Bool := pageVisible a p || hasStep j p

/-- The pages that a job computes, by index, in page order (R176 to R178): the real ones less those skipped, or, in bucket mode,
all of them up to a power of two; an index at or above the real count is padding. -/
def computedIx (j : Job) (a : AttnIn) : List Nat :=
  let n := realPages j
  if j.bucket then List.range (if n = 0 then 0 else pow2Up n) else (List.range n).filter (pageUsed j a)

/-- Pages skipped (R176). -/
def skippedPages (j : Job) (a : AttnIn) : Nat := if j.bucket then 0 else realPages j - (computedIx j a).length

/-- Padding pages among some computed ones (R178). -/
def paddingIn (j : Job) (ix : List Nat) : Nat := (ix.filter (fun p => realPages j ≤ p)).length

/-- The computed pages that an item works on: a split core its share of them (R191), another item all of them. -/
def itemIx (j : Job) (a : AttnIn) (item : Nat) : List Nat :=
  if j.split.isEmpty then computedIx j a else splitPages j.split.length item (computedIx j a)

/-- A job's input with the pages that it computes, in blocks of which it works (R173); padding holds no key. -/
def computedInput (j : Job) (a : AttnIn) : AttnIn :=
  { a with pages := (computedIx j a).map (fun p => a.pages.getD p (List.replicate 16 none)) }

/-- Bytes of the purpose 1 regions of a core in the plan of a job's half (R209, R210). -/
def mergeScratch (s : State) (j : Job) : Nat :=
  let n := ((s.wheel.active.toList ++ (s.wheel.next.bind (fun n => n.slot)).toList).find? (fun p => p.half == j.half)).elim 0 (fun p =>
    (p.plan.claims.filter (fun c => c.kind == 4 && c.purpose == 1 && c.unit / 16 == j.merge)).length)
  n * 2 ^ 19

/-! ## Writes of a planned job (R162, R163, R183) -/

/-- Move the home of the column at list index `i` into meadow at once, for a step row or a compaction (R302), its space set aside
where the move is `forced` (R151). ST_MEDIA stands for a wait: for a heath port, or for the commit of a copy (R301). -/
def pullHome (forced : Bool) (slot i : Nat) (s : State) : Except Status State :=
  match findCol s slot with
  | none => .error .badObject
  | some c0 =>
    if c0.home.tier == .meadow then .ok s
    else if c0.poisoned then .error .poisoned
    else if c0.moving || onDownPort s c0.home then .error .media
    else
      let n := columnUnits s c0.model
      let mask := (policyOf s c0.part c0.policy).stackMask
      let got := if forced then .ok (meadowLoc s mask i n, drawn s) else allocate .meadow c0.part n mask i false s
      match got with
      | .error st => .error st
      | .ok (l, s1) =>
        let s2 := freeLoc c0.home n (freeOpt c0.image n s1)
        .ok (dropSlices slot (editCols (fun c => { c with home := l, image := none }) [c0] s2))

/-- Ready the last column of a sequence for `k` new positions (R148, R150, R163): a copy where it is shared, its home in
meadow, new columns. A compaction's space was set aside (R151). -/
def readyColumns (forced : Bool) (id k : Nat) (s : State) : Except Status State :=
  match privateLast forced id s with
  | .error st => .error st
  | .ok (_, s1) =>
    match findSeq s1 id with
    | none => .error .badObject
    | some q =>
      let pulled := if q.length % 16 = 0 then .ok s1 else pullHome forced (nth q.cols (q.length / 16)) (q.length / 16) s1
      match pulled with
      | .error st => .error st
      | .ok s2 => addCols forced id (ceilDiv (q.length + k) 16 - q.cols.length) s2

/-- Whether a model keeps columns at all. -/
def hasColumns (s : State) (m : Nat) : Bool := !(columnPages s m).isEmpty

/-- Write the step row of an entry with `cand` 0, as an append run of count 1 (R148, R162); other jobs' slices of its page are
dropped (R155, R225). -/
def writeStepRow (j : Job) (s : State) : State :=
  match jobSeq s j with
  | none => s
  | some q =>
    match layerGroup s q.model j.layer with
    | none => s
    | some g =>
      match stepRecords s q.model (modelHq s q.model) g j with
      | [] => s
      | r :: _ =>
        let s0 := odAdd 0x4000 0x08 64 r.clipped (odAdd 0x4000 0x07 64 r.nans (writeToken q.id j.layer j.len r.tok s))
        let s1 := if isWindow g then s0 else dropWritten (nth q.cols (j.len / 16)) s0
        let done := j.layer + 1 = modelLayers s q.model
        match findSeq s1 q.id with
        | none => s1
        | some x =>
          if x.pendLayer != j.layer || x.length != j.len then s1
          else if done then
            setLength q.id (j.len + 1) (j.len / 16) (setSeq { x with pendCount := 0, pendLayer := 0, stepRun := false } s1)
          else setSeq { x with pendCount := 1, pendLayer := j.layer + 1, stepRun := true } s1

/-- The plan active at a step: the next one from its takeover step on. -/
def planAt (s : State) (step : Nat) : Option PlanSlot :=
  match s.wheel.next with
  | some n => if n.takeover ≤ step then n.slot else s.wheel.active
  | none => s.wheel.active

/-- Layers for which the active plan releases jobs of a partition in a step. -/
def releasedLayers (s : State) (p step : Nat) : List Nat :=
  match s.wheel.active with
  | none => []
  | some k =>
    ((k.plan.firings.filter (fun f => f.action == 1 && step % f.period == f.residue && (f.partition == p || f.partition == 0xFF))).map
      (fun f => if f.layer = 0xFF then k.plan.layers - 1 else f.layer)).dedup

/-- Write a verify job's candidates into the provisional tail, making it with the first one: the meadow copy, and the core copy of
each core that runs a head group of the entry (R183). -/
def writeTail (j : Job) (s : State) : State :=
  match jobSeq s j with
  | none => s
  | some q =>
    match layerGroup s q.model j.layer with
    | none => s
    | some g =>
      let entry := (sheetEntry s j.part j.step j.seq).filter (fun e => !e.tailMade)
      let fresh := q.prov.isNone && entry.isSome
      let ended := entry.elim [] (fun e => e.overLayers)
      let t0 : Option Tail :=
        if fresh then
          some { step := j.step, count := j.rows, tree := j.tree, rows := [], failed := entry.any (fun e => e.verifyFailed),
                 left := (releasedLayers s j.part j.step).filter (fun l => !ended.contains l) }
        else q.prov.filter (fun t => t.step == j.step)
      match t0 with
      | none => s
      | some t =>
        let rs := stepRecords s q.model (modelHq s q.model) g j
        let rows := (indexed rs).map (fun x => ({ layer := j.layer, row := x.1, tok := x.2.tok } : KvRow))
        let t1 := { t with rows := t.rows.filter (fun r => r.layer != j.layer) ++ rows,
                           copies := t.copies ++ (j.items.map (fun i => (i.core, j.layer))).dedup }
        let s1 := odAdd 0x4000 0x08 64 (sumBy (fun r => r.clipped) rs) (odAdd 0x4000 0x07 64 (sumBy (fun r => r.nans) rs)
          (setSeq { q with prov := some t1 } s))
        if fresh then odAdd 0x3000 0x04 64 j.rows (editEntry j.part j.step j.seq (fun e => { e with tailMade := true }) s1)
        else s1

/-! ## Exceptions of a sweep (R310, R311) -/

/-- The rows of a tail that the core copy of a core holds for a layer: those of its head groups' KV heads, of which `G` divide the
group; whole in a latent layer (R183). -/
def coreCopy (g : MGroup) (G headGroup layer : Nat) (t : Tail) : List KvRow :=
  let n := g.h / max 1 G * g.d
  let part (l : List Nat) (k : Nat) : List Nat := (l.drop (headGroup * k)).take k
  (t.rows.filter (fun r => r.layer == layer)).map (fun r =>
    if g.kind = 2 || g.kind = 3 then r
    else { r with tok := { a := part r.tok.a n, b := part r.tok.b n, sa := part r.tok.sa (n / 32), sb := part r.tok.sb (n / 32) } })

/-- Whether a column is an exception of R310. -/
def colExempt (s : State) (c : Col) : Bool :=
  c.pinned || c.moving || c.poisoned || jobReadsCol s c.slot ||
  (holders s c.slot).any (sheetNames s) || (policyOf s c.part c.policy).spill == 2

/-- Offsets of O, dO and the statistics in the source area of ATTN_BWD, and its end (R198). -/
def bwdOffs (g : MGroup) (hq m : Nat) (d : Desc) : Nat × Nat × Nat × Nat :=
  let up (n : Nat) : Nat := ceilDiv n 64 * 64
  let eb := if bitsOf (dfield d 14 1) 3 2 = 1 then 4 else 2
  let src := dfield d 32 8
  let o := src + up (queryBytes g hq m (atFmtQ d))
  let dO := o + up (m * hq * g.d * eb)
  let st := dO + up (m * hq * g.d * eb)
  (o, dO, st, st + m * hq * 8)

/-- Where ATTN_BWD writes dQ, and dK with dV, for `v` positions (R198). -/
def bwdDsts (g : MGroup) (hq m v : Nat) (d : Desc) : List (Nat × Nat) :=
  let n := v * g.h * g.d * 4
  [(dfield d 40 8, m * hq * g.d * 4), (dfield d 48 8, ceilDiv n 64 * 64 + n)]

/-- A job's model and layer group. -/
def jobGroup (s : State) (j : Job) : Option (Nat × MGroup) :=
  (jobSeq s j).bind (fun q => (layerGroup s q.model j.layer).map (fun g => (modelHq s q.model, g)))

/-- Spans of the partition's range that a command's job reads itself: its queries, gradients and mask. -/
def ownReads (j : Job) (hq : Nat) (g : MGroup) : List (Nat × Nat) :=
  let mask (at_ : Nat) : Nat × Nat := (at_, if atBitmap j.desc then ceilDiv j.rows 16 * ceilDiv j.len 16 * 32 else 0)
  match j.kind with
  | .planned => []
  | .attn => [(dfield j.desc 32 8, queryBytes g hq j.rows (atFmtQ j.desc)), mask (dfield j.desc 48 8)]
  | .backward => [(dfield j.desc 32 8, (bwdOffs g hq j.rows j.desc).2.2.2 - dfield j.desc 32 8), mask (dfield j.desc 56 8)]

/-- Spans of the partition's range that a job reads: its own, and a kind 2 layer's weights with what their expansion reads. -/
def jobReads (s : State) (j : Job) : List (Nat × Nat) :=
  match jobGroup s j with
  | none => []
  | some (hq, g) =>
    let weights := match (if g.kind = 2 && j.kind != .backward then findObj s (atAux j.desc) else none) with
      | none => []
      | some o =>
        let at_ := sliceAt g j.groups j.layer 0
        let n := j.groups * sliceBytes g j.groups
        match objDirectory s o with
        | some d => (blocksOver d at_ n).flatMap (blockReads s o d)
        | none => [(o.off + at_, n)]
    ownReads j hq g ++ weights

/-- Whether a command's job needs a byte of a poisoned object (R320): of what it reads itself, or of where its gradients go. -/
def spansPoisoned (s : State) (j : Job) : Bool :=
  match jobGroup s j with
  | none => false
  | some (hq, g) =>
    (ownReads j hq g ++ (if j.kind == .backward then bwdDsts g hq j.rows j.len j.desc else [])).any (fun x => spanPoisoned s j.part x.1 x.2)

/-- Whether extent `i` of an object is an exception of R310. -/
def objExempt (s : State) (o : Obj) (i : Nat) (e : Ext) : Bool :=
  o.kind == 4 || e.moving || o.poisoned || (policyOf s o.part o.policy).spill == 2 ||
  s.jobs.jobs.any (fun j => j.part == o.part && (jobReads s j).any (fun x => overlaps x.1 x.2 (o.off + i * 2 ^ 20) (extUnits o i * 4096)))

/-- A sweep's move is abandoned once its item becomes an exception (R311). -/
def abandonSweeps (s : State) : State :=
  forEach (fun (m : Move) t =>
    let exempt :=
      match m.item with
      | .col k => (findCol t k).any (fun c => colExempt t { c with moving := false })
      | .ext id i => (findObj t id).any (fun o => objExempt t o i { o.exts.getD i default with moving := false })
      | .plain _ => false
    if m.cause == .sweep && exempt then failMove m .conflict t else t) s.objs.moves s

end Sys2Proof.Machine
end

