-- ==== Sys2Proof/Machine/Jobs.lean ====
section
/-! DEFINITION. Jobs on cores (R110 to R117, R159 to R193, R214 to R222): dispatch by length, the tiles a job needs, items
on cores, ATTN and ATTN_BWD, outputs and lateness, and the confirm and compaction of verify entries (R186 to R190). -/

namespace Sys2Proof.Machine

def findJob (s : State) (id : Nat) : Option Job := s.jobs.jobs.find? (fun j => j.id == id)

def setJob (j : Job) (s : State) : State :=
  { s with jobs := { s.jobs with jobs := s.jobs.jobs.map (fun x => if x.id == j.id then j else x) } }

/-! ## Dispatch by length (R117) -/

def coresOf (mask : Nat) : List Nat := (List.range 96).filter (fun n => bitOf mask n)

/-- Pages of a sheet entry for dispatch. -/
def entryPages (bucket : Bool) (e : Entry) : Nat :=
  let p := ceilDiv (e.lenMax + e.cand) 16
  if bucket then pow2Up p else p

/-- Split layouts of a partition in table order. -/
def layoutsOf (p : Plan) (part : Nat) : List SplitLayout := p.splits.filter (fun l => l.partition == part)

/-- The layout of a split-class entry: the i-th one of its partition's sheet takes the i-th layout (R92). -/
def layoutFor (p : Plan) (part : Nat) (es : List Entry) (e : Entry) : Option SplitLayout :=
  (layoutsOf p part)[((es.filter (fun x => x.split)).findIdx (fun x => x.seq == e.seq))]?

/-- Loads that split entries put on their cores. -/
def splitLoads (p : Plan) (part G : Nat) (bucket : Bool) (es : List Entry) : List Nat :=
  (es.filter (fun e => e.split)).foldl (fun l e =>
    match layoutFor p part es e with
    | none => l
    | some y => y.cores.foldl (fun a c => addAt a c (G * (ceilDiv (entryPages bucket e) y.k + 2))) l) (List.replicate 96 0)

/-- The core of least load, the lowest number winning ties. -/
def leastCore (loads : List Nat) : List Nat → Nat
  | [] => 0
  | c :: cs => cs.foldl (fun b x => if nth loads x < nth loads b then x else b) c

/-- Assignment of the items of a sheet's entries for a layer group: sequence, head group, core, in order. -/
def assignItems (p : Plan) (part G mask : Nat) (bucket : Bool) (es : List Entry) : List (Nat × Nat × Nat) :=
  let items := (es.filter (fun e => !e.split)).flatMap (fun e =>
    (List.range G).map (fun h => (entryPages bucket e + 2, e.seq, h)))
  let before (a b : Nat × Nat × Nat) : Bool :=
    b.1 < a.1 || (a.1 == b.1 && (a.2.1 < b.2.1 || (a.2.1 == b.2.1 && a.2.2 < b.2.2)))
  ((sortBy before items).foldl (fun (a : List Nat × List (Nat × Nat × Nat)) it =>
    let c := leastCore a.1 (coresOf mask)
    (addAt a.1 c it.1, a.2 ++ [(it.2.1, it.2.2, c)])) (splitLoads p part G bucket es, [])).2

/-! ## Tiles (R112, R212, R220 to R222) -/

/-- The list index that stands for an item's up-projection slice. -/
def weightTile : Nat := 0xFFFFFFFF

/-- Pages of stored keys that an item reads (R176, R177, R191): its computed pages, but for padding and for those that hold step
rows only; of a window group those that its coil still holds. -/
def itemPages (s : State) (j : Job) (item : Nat) : List Nat :=
  match jobView s j with
  | none => []
  | some a =>
    let held (p : Nat) : Bool :=
      !isWindow a.g || (jobSeq s j).any (fun q => q.coils.any (fun c => c.group == a.g.idx && c.newest.any (fun n => n < p + c.ring)))
    (itemIx j a item).filter (fun p => 16 * p < j.len && held p)

/-- Whether a job's pages lie in a coil. -/
def inCoil (s : State) (j : Job) : Bool := ((jobSeq s j).bind (fun q => layerGroup s q.model j.layer)).any isWindow

/-- Head groups whose slices an item reads: its own, or all of them on a split core (R191). -/
def itemGroups (j : Job) (it : Item) : List Nat := if j.split.isEmpty then [it.headGroup] else List.range (max 1 j.groups)

/-- Whether a slice in a cluster cache is that of a page and head group of a job. -/
def sliceIs (coil : Bool) (j : Job) (cluster hg p : Nat) (x : Slice) : Bool :=
  x.cluster == cluster && x.layer == j.layer && x.headGroup == hg &&
    (if coil then x.col == 0 && x.seq == j.seq && x.page == p else x.col == nth j.cols p)

/-- Whether a page's slices have landed in the cluster cache of an item's core (R221). -/
def sliceLanded (s : State) (j : Job) (it : Item) (p : Nat) : Bool :=
  (itemGroups j it).all (fun hg => s.jobs.slices.any (fun x => x.landed && sliceIs (inCoil s j) j (it.core / 4) hg p x))

/-- Whether a half of a core's regions holds an item's weight slice (R212). A split core's slices stand as one, under head group 0
(DESIGN CHOICE, log entry 126). -/
def halfIs (j : Job) (it : Item) (x : WeightHalf) : Bool :=
  x.core == it.core && x.aux == atAux j.desc && x.layer == j.layer && x.headGroup == it.headGroup

def weightLanded (s : State) (j : Job) (it : Item) : Bool := s.jobs.halves.any (fun x => x.landed && halfIs j it x)

/-- Whether an unfinished item on a core needs a half as it stands. -/
def halfNeeded (s : State) (x : WeightHalf) : Bool :=
  s.jobs.jobs.any (fun j => j.items.any (fun i => i.state != .done && halfIs j i x))

/-- An idle half of a core's purpose 3 regions: one that no unfinished item needs. -/
def idleHalf (s : State) (core : Nat) : Option Nat :=
  [0, 1].find? (fun h => !s.jobs.halves.any (fun x => x.core == core && x.half == h && halfNeeded s x))

/-- The loader fetches a slice into a half (R212). -/
def fetchHalf (x : WeightHalf) (s : State) : State :=
  { s with jobs := { s.jobs with halves := s.jobs.halves.filter (fun y => !(y.core == x.core && y.half == x.half)) ++ [x] } }

/-- Tiles of an item that have not landed. -/
def itemMissing (s : State) (j : Job) (kind2 : Bool) (x : Nat × Item) : List (Nat × Nat) :=
  ((itemPages s j x.1).filter (fun p => !sliceLanded s j x.2 p)).map (fun p => (x.1, p)) ++
    (if kind2 && !weightLanded s j x.2 then [(x.1, weightTile)] else [])

/-- Tiles that have not landed at a job's release. -/
def missingTiles (s : State) (j : Job) (kind2 : Bool) : List (Nat × Nat) := (indexed j.items).flatMap (itemMissing s j kind2)

/-- Whether a job is of a kind 2 layer group. -/
def needsWeights (s : State) (j : Job) : Bool := ((jobSeq s j).bind (fun q => layerGroup s q.model j.layer)).any (fun g => g.kind == 2)

/-- Where a job's page is read from (R220): a meadow image, a meadow home, else an image in pasture, else the home; and whether it
is an image. A page of a coil has no column. -/
def tilePlace (s : State) (j : Job) (p : Nat) : Option (Col × Loc × Bool) :=
  if inCoil s j then none
  else
    (findCol s (nth j.cols p)).map (fun c =>
      match c.image with
      | some l => if l.tier == .meadow || c.home.tier != .meadow then (c, l, true) else (c, c.home, false)
      | none => (c, c.home, false))

/-- Where a page of a sequence's coil lies: the sequence, the coil's place, and the page's offset in it (R130, R132). -/
def coilAt (s : State) (seq layer p : Nat) : Option (Seq × Loc × Nat) :=
  (findSeq s seq).bind (fun q => (layerGroup s q.model layer).bind (fun g =>
    (q.coils.find? (fun c => c.group == g.idx)).map (fun c => (q, c.loc, coilPageStart g layer p))))

/-- The place of a job's page. -/
def pageLoc (s : State) (j : Job) (p : Nat) : Option Loc :=
  match tilePlace s j p with
  | some x => some x.2.1
  | none => (coilAt s j.seq j.layer p).map (fun x => x.2.1)

/-- The address of a job's page (R121, R125, R132). -/
def tileAddr (s : State) (j : Job) (p : Nat) : Option Nat :=
  match tilePlace s j p with
  | some (c, l, _) => some (structAddr l + pageStart s c.model j.layer)
  | none => (coilAt s j.seq j.layer p).map (fun x => structAddr x.2.1 + x.2.2)

/-- List indices of the pages that a job reads, whichever of its items reads them. -/
def jobPages (s : State) (j : Job) : List Nat :=
  ((if j.items.isEmpty then [0] else List.range j.items.length).flatMap (itemPages s j)).dedup

/-- Whether a job needs a tile of a poisoned column (R319), one of the pages that it reads lying there, or a byte of a poisoned object
(R320). -/
def jobPoisoned (s : State) (j : Job) : Bool :=
  (!inCoil s j && (jobPages s j).any (fun p => (findCol s (nth j.cols p)).any (fun c => c.poisoned))) || spansPoisoned s j

/-- The plain bytes of a weight object that hold an item's slice of a layer: where they start, and how many (R211). -/
def weightSpan (s : State) (j : Job) (it : Item) (layer : Nat) : Nat × Nat :=
  match (jobSeq s j).bind (fun q => layerGroup s q.model layer) with
  | none => (0, 0)
  | some g => (sliceAt g j.groups layer ((itemGroups j it).headD 0), (itemGroups j it).length * sliceBytes g j.groups)

/-- The half that an item's slice of a layer takes. -/
def weightHalf (s : State) (j : Job) (it : Item) (layer half : Nat) : WeightHalf :=
  let x := weightSpan s j it layer
  { core := it.core, half := half, aux := atAux j.desc, layer := layer, headGroup := it.headGroup, off := x.1, len := x.2, landed := false }

/-- An item is to expand a slice that stands in a half of its core's regions, or has done so, and no other item is to (R245). -/
def halfUsed (done : Bool) (j : Job) (it : Item) (s : State) : State :=
  let f (x : WeightHalf) : WeightHalf := { x with used := done && !halfNeeded s x }
  { s with jobs := { s.jobs with halves := mapIf (halfIs j it) f s.jobs.halves } }

/-- A tile that has not landed is fetched: a page slice misses its cluster's cache (R220, R221, R488). -/
def tileFetch (j : Job) (core p : Nat) (s : State) : State :=
  let o : Occ := { part := some j.part, master := 2, addr := if p = weightTile then none else tileAddr s j p }
  let s1 := count (.core core) 0x000D 1 o s
  if p = weightTile then s1 else count (.cluster (core / 4)) 0x0103 1 o s1

/-- Fetches of page slices that a core has outstanding, at most 256 (R207). -/
def fetchesOut (s : State) (core : Nat) : Nat :=
  sumBy (fun j => (j.fetching.filter (fun m => m.2 != weightTile && (j.items.getD m.1 default).core == core)).length) s.jobs.jobs

/-- Issue the fetch of a missing tile, where the walker has room for it or a half of the core's regions is idle; a weight slice that a
half has, or that is on its way into one, is not fetched again. -/
def issueFetch (x : Nat × Nat × Nat) (s : State) : State :=
  match s.jobs.jobs.find? (fun j => j.id == x.1) with
  | none => s
  | some j =>
    let it := j.items.getD x.2.1 default
    let go (t : State) : State :=
      let jobs := mapIf (fun (k : Job) => k.id == j.id) (fun k => { k with fetching := k.fetching ++ [x.2] }) t.jobs.jobs
      tileFetch j it.core x.2.2 { t with jobs := { t.jobs with jobs := jobs } }
    if x.2.2 = weightTile then
      match if s.jobs.halves.any (halfIs j it) then none else idleHalf s it.core with
      | none => s
      | some h =>
        go (fetchHalf (weightHalf s j it j.layer h) s)
    else if fetchesOut s it.core < 256 then go s else s

/-- The loader fetches an item's slice of another layer into an idle half, unless a half has it (R212). -/
def loadLayer (j : Job) (it : Item) (layer : Nat) (s : State) : State :=
  match idleHalf s it.core with
  | none => s
  | some h =>
    if s.jobs.halves.any (fun y => y.core == it.core && y.aux == atAux j.desc && y.layer == layer && y.headGroup == it.headGroup) then s
    else fetchHalf (weightHalf s j it layer h) s

/-- Issue the fetches that wait, in page order (R207, R220). -/
def issueFetches (s : State) : State :=
  forEach issueFetch (s.jobs.jobs.flatMap (fun j =>
    (j.missing.filter (fun m => !j.fetching.contains m && (j.items.getD m.1 default).core < 96)).map (fun m => (j.id, m)))) s

/-! ## Running items (R113, R115, R117, R214, R216) -/

/-- Clusters whose cache has not failed. -/
def clustersUp (s : State) : List Nat := (List.range 24).filter (fun k => !s.power.failedCaches.contains k)

/-- Whether the unit of a mode change is in service: a core, a cluster, a module or a peer port (R113, R514). -/
def unitServes (s : State) (u : Nat) : Bool :=
  match u / 256 with
  | 1 => coreUp s (u % 256)
  | 3 => (clustersUp s).contains (u % 256)
  | 5 => s.host.modules.getLsbD (u % 256)
  | 6 => portUp s (u % 256)
  | _ => true

/-- Whether work on a core needs a unit: the core itself, or its cluster. -/
def coreNeeds (core u : Nat) : Bool := core < 96 && (unitCore core == u || unitCluster (core / 4) == u)

/-- Whether a unit of a mode change has not acknowledged: it is out of service, a job released before runs on it or is to run
there, or a module has not joined its new group (R39, R113). -/
def modeLags (s : State) (m : ModeChange) (u : Nat) : Bool :=
  !unitServes s u || (u / 256 == 5 && s.host.retraining.getLsbD (u % 256)) ||
  s.jobs.jobs.any (fun j => j.id < m.firstJob && j.items.any (fun i => i.state != .done && coreNeeds i.core u))

/-- Whether a mode change holds a job's work on a core until every unit has acknowledged; of one that split, until the revert, unless the
job was released since and the core needs only units that had not applied it (R113, R114). -/
def modeWaits (s : State) (m : ModeChange) (id core : Nat) : Bool :=
  if m.failed then id < m.checkJob || (m.units.filter (fun u => !m.lags.contains u)).any (coreNeeds core)
  else m.units.any (modeLags s m)

/-- Whether a mode change holds work of a job on a core: released at or after its position, and in need of one of its units. -/
def modeBars (s : State) (j : Job) (core : Nat) : Bool :=
  s.wheel.modes.any (fun m => m.firstJob ≤ j.id && m.units.any (coreNeeds core) && modeWaits s m j.id core)

def modeHolds (s : State) (j : Job) : Bool := j.items.any (fun i => modeBars s j i.core)

/-! ## Submissions that wait (R105) -/

/-- Bytes `off` to `off + n - 1` of a message's header; `args` are bytes 16 to 31 (R64). -/
def argField (m : TppMsg) (off n : Nat) : Nat := m.args.toNat / 256 ^ (off - 16) % 256 ^ n

/-- The plan a submission is for: the one active at the step of its position, or now where it gives none (DEDUCED, log
entry 24). -/
def subPlan (m : TppMsg) (s : State) : Option PlanSlot :=
  planAt s (if m.wpos = 0 then Pos.step s.wheel.cur else Pos.step m.wpos)

/-- Store a submission's bytes in its buffer. -/
def putSub (half : Bool) (m : TppMsg) (s : State) : State :=
  let x : SubBytes := { half := half, partition := m.partition.toNat, buffer := argField m 16 4, off := argField m 20 4, bytes := m.payload }
  let stays (y : SubBytes) : Bool :=
    !(y.half == x.half && y.partition == x.partition && y.buffer == x.buffer && x.off ≤ y.off &&
      y.off + y.bytes.length ≤ x.off + x.bytes.length)
  { s with sheets := { s.sheets with subs := s.sheets.subs.filter stays ++ [x] } }

/-- Whether jobs of an earlier step still read the buffer that a submission names. -/
def bufferBusy (half : Bool) (m : TppMsg) (s : State) : Bool :=
  s.jobs.jobs.any (fun j => j.kind == .planned && j.half == half && j.part == m.partition.toNat &&
    subBuffer j.layer j.step == argField m 16 4 && (m.wpos == 0 || j.step < Pos.step m.wpos))

/-- Hand on the held submissions whose buffers are free. -/
def releaseSubmits (s : State) : State :=
  forEach (fun (m : TppMsg) t =>
    match subPlan m t with
    | none => { t with host := { t.host with heldSubmits := t.host.heldSubmits.filter (fun x => x != m) } }
    | some ps =>
      if bufferBusy ps.half m t then t
      else putSub ps.half m { t with host := { t.host with heldSubmits := t.host.heldSubmits.filter (fun x => x != m) } })
    s.host.heldSubmits s

/-- Whether a job waits for a SUBMIT that is held back behind the jobs of an earlier step (R105). -/
def subHeld (s : State) (j : Job) : Bool :=
  j.kind == .planned &&
  s.jobs.jobs.any (fun k => k.kind == .planned && k.part == j.part && k.layer == j.layer && k.step < j.step &&
    k.step % 2 == j.step % 2 && k.half == j.half) &&
  s.host.heldSubmits.any (fun m =>
    m.partition.toNat == j.part && bitsOf m.args.toNat 31 0 == subBuffer j.layer j.step)

/-- Whether the last column of a sequence, into which its next row goes, is being moved: a write waits for the commit (R301). -/
def lastMoving (s : State) (q : Seq) : Bool := (findCol s (nth q.cols (q.length / 16))).any (fun c => c.moving)

/-- Whether a job's step row goes into a column that is being moved, or whose heath port is out of service: the job waits (R301,
R302, R354). -/
def rowWaits (s : State) (j : Job) : Bool :=
  j.kind == .planned && j.tree.isEmpty && (jobSeq s j).any (fun q =>
    lastMoving s q || (findCol s (nth q.cols (q.length / 16))).any (fun c => onDownPort s c.home))

/-- Whether a job may start: nothing holds it, and a planned job's tiles have landed; a command's item fetches its tiles on the core
that it takes. -/
def startable (s : State) (j : Job) : Bool :=
  (j.kind != .planned || j.missing.isEmpty) && !j.held && !modeHolds s j && !subHeld s j && !rowWaits s j

def coreRunning (s : State) (n : Nat) : Bool :=
  s.jobs.jobs.any (fun j => j.items.any (fun i => i.core == n && i.state == .running))

/-- The core of an item that none has been chosen for. -/
def noCore : Nat := 255

/-- The items assigned to a core and not done, in order: job, item, batch and rank. -/
def itemsOn (s : State) (n : Nat) : List (Nat × Nat × Nat × Nat) :=
  let l := s.jobs.jobs.flatMap (fun j =>
    (indexed j.items).filterMap (fun x =>
      if x.2.core == n && x.2.state != .done then some (j.id, x.1, j.batch, x.2.rank) else none))
  sortBy (fun a b => a.2.2.1 < b.2.2.1 || (a.2.2.1 == b.2.2.1 && a.2.2.2 < b.2.2.2)) l

/-- Cores that run commands' jobs (R216). -/
def cmdCores (s : State) : List Nat :=
  match s.wheel.active with
  | none => coresUp s
  | some _ => (coresUp s).filter (fun n => !(slotsOf s).any (fun p =>
      (List.range 32).any (fun i => p.plan.slices.any (fun k => bitOf k i) && bitOf (p.plan.parts.getD i default).cores n)))

/-- The next item that may start: a core's first one, or the first waiting one of a command on the lowest free core. -/
def nextItem (s : State) : Option (Nat × Nat × Nat) :=
  let planned := (coresUp s).findSome? (fun n =>
    if coreRunning s n then none
    else
      match itemsOn s n with
      | [] => none
      | x :: _ => if (findJob s x.1).any (startable s) then some (x.1, x.2.1, n) else none)
  match planned with
  | some r => some r
  | none =>
    match (cmdCores s).find? (fun n => !coreRunning s n && (itemsOn s n).isEmpty) with
    | none => none
    | some n =>
      (s.jobs.jobs.findSome? (fun j =>
        if startable s j && !modeBars s j n then
          ((indexed j.items).find? (fun x => x.2.core == noCore && x.2.state == .waiting)).map (fun x => (j.id, x.1))
        else none)).map (fun x => (x.1, x.2, n))

/-- The space of an entry's step row, claimed with layer 0 (R163): ST_NO_SPACE where the pool cannot supply it. A claim that meets
a heath port out of service is made when the job starts (R354); of a sequence that is poisoned none is made. -/
def claimStep (p step seq : Nat) (s : State) : State :=
  match readyColumns false seq 1 s with
  | .ok t => t
  | .error st =>
    if st == .quota || st == .noSpace then
      editEntry p step seq (fun e => { e with bad := some .noSpace }) (event .noSpace (some p) 0 0 seq s)
    else s

/-- The column that a step row of a layer above 0 goes into is brought home into meadow first (R302); where meadow cannot take it, the
job ends with that status. -/
def pullRow (j : Job) (s : State) : State :=
  match jobSeq s j with
  | none => s
  | some q =>
    match pullHome false (nth q.cols (q.length / 16)) (q.length / 16) s with
    | .ok t => t
    | .error st => if st == .quota || st == .noSpace then setJob { j with started := true, status := .noSpace } s else s

/-- A job starts: its step rows are written first (R162, R183), their claim before them where a port was out of service. -/
def startJob (j : Job) (s : State) : State :=
  if j.started then s
  else
    let s1 := setJob { j with started := true } s
    if j.kind != .planned || j.status.isError then s1
    else if j.tree.isEmpty then
      let s2 := if j.layer == 0 then claimStep j.part j.step j.seq s1 else pullRow j s1
      match (sheetEntry s2 j.part j.step j.seq).bind (fun e => e.bad) with
      | some st => setJob { j with started := true, status := st } s2
      | none => if (findJob s2 j.id).any (fun k => k.status.isError) then s2 else writeStepRow j s2
    else writeTail j s1

/-- Slices of the stream area that an item uses become the most recently used of their cluster (R223). -/
def useSlices (j : Job) (it : Item) (item : Nat) (s : State) : State :=
  let ps := itemPages s j item
  let used (x : Slice) : Bool := !x.planned && x.landed &&
    (itemGroups j it).any (fun hg => ps.any (fun p => sliceIs (inCoil s j) j (it.core / 4) hg p x))
  { s with jobs := { s.jobs with slices := s.jobs.slices.filter (fun x => !used x) ++ s.jobs.slices.filter used } }

/-- A core starts an item of a kind 2 group: its loader fetches the slice of the group's next layer into the idle half (R212). -/
def loadNext (j : Job) (it : Item) (s : State) : State :=
  match (jobSeq s j).bind (fun q => layerGroup s q.model j.layer) with
  | none => s
  | some g => if g.kind == 2 && j.layer < g.final then loadLayer j it (j.layer + 1) s else s

/-- Start items until none may start. A command's item takes its core first and fetches what it misses there. -/
def pumpItems : Nat → State → State
  | 0, s => s
  | n + 1, s =>
    match nextItem s with
    | none => s
    | some (id, item, core) =>
      match findJob s id with
      | none => s
      | some j =>
        let s1 := startJob j s
        match findJob s1 id with
        | none => s1
        | some k =>
          let it := { k.items.getD item default with core := core, state := .running }
          let more := if k.kind == .planned then [] else itemMissing s1 k (needsWeights s1 k) (item, it)
          pumpItems n (onlyIf (k.kind == .planned) (loadNext k it)
            (onlyIf (!more.isEmpty) (count (.core core) 0x000E more.length { part := some k.part, master := 2 })
              (halfUsed false k it (useSlices k it item
                (setJob { k with items := k.items.set item it, missing := k.missing ++ more } (abandonBlock core s1))))))

def itemCount (s : State) : Nat := sumBy (fun j => j.items.length) s.jobs.jobs

/-- Start what may start, once the submissions whose buffers are free have been handed on (R105), and issue the fetches that wait. -/
def runCores (s : State) : State :=
  issueFetches (assignCoding (pumpItems (itemCount s) (releaseSubmits (flushHeld (tendPrefix s)))))

/-! ## Item completion (R200, R214, R224, R499) -/

/-- KV heads that an item covers. -/
def itemHeads (g : MGroup) (j : Job) : Nat := if j.split.isEmpty then g.h / (max 1 j.groups) else g.h

/-- Micro-operations of an item (R214). -/
def microOps (step : Bool) (blocks : Nat) : Nat := 5 + (if step then 1 else 0) + 4 * blocks

/-- MACs of `pages` computed pages over some KV heads (R200, R202, R488). -/
def pagesMacs (g : MGroup) (hq m heads pages : Nat) (backward : Bool) : Nat :=
  let r := if g.kind = 3 then m * hq else m * hq / (max 1 g.h)
  heads * pages * 16 * (r * (if backward then 5 * g.d else dimQ g + dimOut g) + (if g.kind = 2 then 2 * g.dc * g.d else 0))

/-- Sherds of a head group's slice of a coded weight object: the first, and how many (R211). -/
def sliceSherds (d : Directory) (g : MGroup) (G layer hg : Nat) : Nat × Nat :=
  let off := sliceAt g G layer hg
  (off / d.block, (off + sliceBytes g G - 1) / d.block - off / d.block + 1)

/-- The plain bytes of the slices of an item's head groups, where all of them expand. -/
def plainSlices (s : State) (j : Job) (it : Item) (g : MGroup) (o : Obj) : List (Nat × Bytes) :=
  (itemGroups j it).map (fun hg => (hg, (auxSlice s o g j.groups j.layer hg).toOption.getD []))

/-- An item's weights at the operand port (R218, R256, R259): the sherds of its head groups' slices expand in order, up to the first
that fails; expansions count (OD 0x8000, event 0x000C). -/
def itemExpand (j : Job) (it : Item) (g : MGroup) (s : State) : State × Except AuxFail (List (Nat × Bytes)) :=
  if g.kind != 2 then (s, .ok [])
  else
    match findObj s (atAux j.desc) with
    | none => (s, .error { status := .badObject, obj := none })
    | some o =>
      if o.poisoned then (s, .error { status := .poisoned, obj := none })
      else
        match objDirectory s o with
        | none => (s, .ok (plainSlices s j it g o))
        | some d =>
          let idx := (itemGroups j it).flatMap (fun hg =>
            let x := sliceSherds d g j.groups j.layer hg
            (List.range x.2).map (fun k => x.1 + k))
          let r := idx.foldl (fun (a : Nat × Nat × Option (Nat × Status)) i =>
            if a.2.2.isSome then a
            else
              let y := expandRun s o d 1 i
              (a.1 + y.1, a.2.1 + y.2.1, y.2.2)) (0, 0, none)
          let s1 := count (.core it.core) 0x000C r.1 { part := some j.part } (odAdd 0x8000 0x02 64 r.2.1 (odAdd 0x8000 0x01 64 r.1 s))
          match r.2.2 with
          | some e => (s1, .error { status := e.2, obj := some (o, e.1) })
          | none => (s1, .ok (plainSlices s j it g o))

/-- Account for an item's work at its core (R179, R488, R499): of a split entry the last core alone has the step rows (R191). -/
def countItem (j : Job) (it : Item) (a : AttnIn) (item : Nat) (s : State) : State × Nat :=
  let share (n : Nat) : Nat :=
    if j.split.isEmpty then n else (item + 1) * n / j.split.length - item * n / j.split.length
  let ix := itemIx j a item
  let pages := ix.length
  let unseen := (ix.filter (fun p => !pageUsed j a p)).length
  let bwd := j.kind == .backward
  let cyc := pagesCycles a.g a.hq j.rows (itemHeads a.g j) pages bwd
  let wasted := if pages = 0 then 0 else cyc * unseen / pages
  let step := j.kind == .planned && (j.split.isEmpty || item + 1 == j.split.length)
  let o : Occ := { part := some j.part }
  let l := CtrLoc.core it.core
  let s1 := count l 0x0007 1 o (count l 0x0006 (paddingIn j ix) o (count l 0x0005 (share (skippedPages j a)) o
    (count l 0x0004 pages o (count l 0x0001 (microOps step (ceilDiv pages 8)) o
    (count l 0x0002 cyc o (count l 0x0003 (pagesMacs a.g a.hq j.rows (itemHeads a.g j) pages bwd / 1024) o s))))))
  let s2 := countFixed it.core 8 (cyc + 64) (countFixed it.core 12 64 (countFixed it.core 10 wasted s1))
  (odAdd (0xA100 + it.core) 0x1E 64 (cyc - wasted) s2, cyc - wasted)

/-- Slices an item consumed leave the planned area (R224): those of its head groups, on a split core those of its share of the
pages. -/
def dropItemSlices (j : Job) (it : Item) (item : Nat) (s : State) : State :=
  let ps := itemPages s j item
  { s with jobs := { s.jobs with slices := s.jobs.slices.filter (fun x =>
      !(x.planned && x.layer == j.layer && x.step == j.step && x.seq == j.seq && x.cluster == it.core / 4 &&
        (if j.split.isEmpty then x.headGroup == it.headGroup else ps.contains x.page))) } }

/-- A core completes its last item of a kind 2 group in a step: its loader fetches the slice of the group's first layer (R212). -/
def loadFirst (j : Job) (it : Item) (s : State) : State :=
  match (jobSeq s j).bind (fun q => layerGroup s q.model j.layer) with
  | none => s
  | some g =>
    let more := s.jobs.jobs.any (fun k => k.kind == .planned && k.step == j.step && g.first ≤ k.layer && k.layer ≤ g.final &&
      k.items.any (fun i => i.core == it.core && i.state != .done))
    if j.kind == .planned && g.kind == 2 && j.layer == g.final && !more then loadLayer j it g.first s else s

/-- A job meets an error status: the numerically lowest it met (R167). -/
def worsen (st : Status) (j : Job) : Job :=
  if st.isError && (!j.status.isError || st.code < j.status.code) then { j with status := st } else j

/-- A failed sherd of a job's weights leaves its record and event (R218, R259). -/
def auxFailed (f : AuxFail) (core : Nat) (s : State) : State :=
  match f.obj with
  | some (o, i) => if isSherdStatus f.status then sherdFailed (unitCore core) o i f.status s else s
  | none => s

/-- ITEM_COMPLETE: a core has completed an item, whose tiles have all landed, and starts its next one. -/
def itemComplete (id item : Nat) (s : State) : State :=
  match findJob s id with
  | none => s
  | some j =>
    match j.items[item]? with
    | none => s
    | some it =>
      if it.state != .running || j.missing.any (fun m => m.1 == item) then s
      else
        let fin (n : Nat) (k : Job) (t : State) : State :=
          runCores (loadFirst k it (halfUsed true k it (setJob { k with lastCore := it.core, items := k.items.set item { it with state := .done, cycles := n } }
            (dropItemSlices k it item (useSlices k it item t)))))
        if (j.status.isError && !isSherdStatus j.status) || jobPoisoned s j then fin 0 j s
        else
          match jobView s j with
          | none => fin 0 (worsen .badObject j) s
          | some a =>
            let r := itemExpand j it a.g s
            match r.2 with
            | .error f => fin 0 (worsen f.status j) (auxFailed f it.core r.1)
            | .ok w =>
              let c := countItem j it a item r.1
              fin c.2 { j with weights := j.weights.filter (fun x => !w.any (fun y => y.1 == x.1)) ++ w } c.1

def execItemComplete (job item : Nat) (s : State) : Host.Outcome State Fault Refusal := .next (itemComplete job item s)

/-! ## Tiles landing (R112, R221, R229) -/

/-- The tile of an item has landed, or ended with its job's error. -/
def tileIn (j : Job) (m : Nat × Nat) : Job :=
  { j with missing := j.missing.filter (fun x => x != m), fetching := j.fetching.filter (fun x => x != m) }

/-- A granule in meadow that met its tag at the second read only (R229). -/
def retried (check : ReadCheck) (place : Option Loc) (s : State) : State :=
  match check, place with
  | .retried, some l => tagMismatch l false s
  | _, _ => s

/-- A tile that failed its check twice ends with the job that waits for it, if any: ST_INTEGRITY (R229). -/
def tileLost (waits : Option (Job × (Nat × Nat))) (s : State) : State :=
  match waits.bind (fun x => (findJob s x.1.id).map (fun k => (k, x.2))) with
  | none => s
  | some (k, m) => runCores (setJob (tileIn (worsen .integrity k) m) s)

/-- A page that fails its integrity check twice (R229): a failed image is dropped and the home read instead (R293); a failed home
is poisoned, and a job that waits for the page, if any, ends with ST_INTEGRITY. -/
def pageFailed (c : Col) (l : Loc) (isImage : Bool) (off : Nat) (waits : Option (Job × (Nat × Nat))) (s : State) : State :=
  if isImage then dropColImage c.slot (tagMismatch l false s)
  else
    let src := match l.tier with | .meadow => 0 | .heath => 1 | .pasture => 2
    tileLost waits (poisonCol c.slot (poisonFault src l off c.part (tagMismatch l true s)))

/-- A page of a coil that fails its check twice (R229). The coil is its sequence's own: the sequence enters `failed`, with one event
ST_POISONED that names it and column 0 (DESIGN CHOICE, log entry 147). -/
def coilFailed (seq layer p : Nat) (waits : Option (Job × (Nat × Nat))) (s : State) : State :=
  match coilAt s seq layer p with
  | none => tileLost waits s
  | some (q, l, off) =>
    let s1 := poisonFault 0 l off q.part (tagMismatch l true s)
    let s2 := if q.failed then s1 else event .poisoned (some q.part) 0 0 (q.id * 2 ^ 40) (setSeq { q with failed := true } s1)
    tileLost waits s2

/-- A job's page has failed its check twice: a column's, or a coil's. -/
def jobPageFailed (j : Job) (p : Nat) (waits : Option (Job × (Nat × Nat))) (s : State) : State :=
  match tilePlace s j p with
  | some (c, l, image) => pageFailed c l image (pageStart s c.model j.layer) waits s
  | none => coilFailed j.seq j.layer p waits s

/-- A weight slice that fails its check twice: its object is poisoned (R229, R320). -/
def weightFailed (aux : Nat) (s : State) : State :=
  match findObj s aux with
  | none => s
  | some o =>
    let home := (o.exts.headD default).home
    let src := match home.tier with | .meadow => 0 | .heath => 1 | .pasture => 2
    poisonObj aux (poisonFault src home 0 o.part (tagMismatch home true s))

/-- Bytes that a cluster's stream area holds at most (R223). -/
def streamBytes : Nat := 12 * 2 ^ 20

/-- Take slices from the front, the least recently used, until the rest fit. -/
def trimStream : Nat → List Slice → List Slice
  | 0, l => l
  | n + 1, l => if sumBy (fun x => x.bytes) l ≤ streamBytes then l else trimStream n (l.drop 1)

/-- Land a slice in the stream area of its cluster: the least recently used make room (R223). -/
def landStream (x : Slice) (s : State) : State :=
  let mine := (s.jobs.slices.filter (fun y => !y.planned && y.cluster == x.cluster && !(y.layer == x.layer && y.headGroup == x.headGroup &&
    y.col == x.col && y.page == x.page && (x.col != 0 || y.seq == x.seq)))) ++ [x]
  { s with jobs := { s.jobs with slices := s.jobs.slices.filter (fun y => y.planned || y.cluster != x.cluster) ++ trimStream mine.length mine } }

/-- Bytes of one slice of a page: a head group's share, or a latent page whole (R220). -/
def sliceShare (g : MGroup) (G : Nat) : Nat := if g.kind ≤ 1 then pageBytes g / max 1 G else pageBytes g

/-- The slice of a page of a job for a head group. -/
def sliceFor (s : State) (j : Job) (cluster hg p : Nat) (planned landed : Bool) : Slice :=
  { planned := planned, cluster := cluster, step := j.step, seq := j.seq, layer := j.layer, headGroup := hg, page := p,
    col := if inCoil s j then 0 else nth j.cols p, landed := landed,
    bytes := ((jobSeq s j).bind (fun q => layerGroup s q.model j.layer)).elim 0 (fun g => sliceShare g j.groups) }

/-- A page's slices land in the stream area of an item's cluster (R221, R223). -/
def landPage (j : Job) (it : Item) (p : Nat) (s : State) : State :=
  forEach (fun hg t => landStream (sliceFor t j (it.core / 4) hg p false true) t) (itemGroups j it) s

/-- Whether a job's page lies in meadow: its column's home or image, or a coil. -/
def pageNear (s : State) (j : Job) (p : Nat) : Bool :=
  match tilePlace s j p with
  | some (_, l, _) => l.tier == .meadow
  | none => inCoil s j

/-- The first pages of an item, at most 32, up to the first one that is skipped or lies outside meadow (R222). -/
def firstPages (s : State) (j : Job) (item : Nat) : List Nat :=
  let ps := itemPages s j item
  (((indexed ps).takeWhile (fun x => x.2 == ps.headD 0 + x.1 && pageNear s j x.2)).take 32).map (fun x => x.2)

/-- Whether the stream prefetcher reaches a page of an item (R222): a page that the running item reads, in meadow, or one of the
first pages of the core's next item, not of a later layer. The block in SCORE is not a state of this model: a running item's pages come
within reach one after another, and its last block may be in SCORE (DESIGN CHOICE, log entry 127). -/
def streamReaches (s : State) (j : Job) (item p : Nat) : Bool :=
  let core := (j.items.getD item default).core
  let at_ (x : Nat × Nat × Nat × Nat) : Bool := x.1 == j.id && x.2.1 == item
  match if core < 96 then itemsOn s core else [] with
  | [] => false
  | x :: rest =>
    match findJob s x.1 with
    | none => false
    | some k =>
      if (k.items.getD x.2.1 default).state != .running then false
      else if at_ x then (itemPages s j item).contains p && pageNear s j p
      else rest.head?.any at_ && j.layer ≤ k.layer && (firstPages s j item).contains p

/-- The tiles of released jobs that a slice in the caches, or in a half of a core's regions, satisfies have landed (R212, R221). -/
def satisfy (s : State) : State :=
  let there (j : Job) (m : Nat × Nat) : Bool :=
    if m.2 = weightTile then weightLanded s j (j.items.getD m.1 default) else sliceLanded s j (j.items.getD m.1 default) m.2
  runCores { s with jobs := { s.jobs with jobs := s.jobs.jobs.map (fun j => (j.missing.filter (there j)).foldl tileIn j) } }

/-- A tile of a job's item lands. -/
def landJobTile (id item p : Nat) (check : ReadCheck) (s : State) : State :=
  match findJob s id with
  | none => s
  | some j =>
    let it := j.items.getD item default
    if j.fetching.contains (item, p) then
      if p = weightTile then
        let done (st : Option Status) (t : State) : State :=
          match findJob t id with
          | none => t
          | some k => satisfy (setJob (tileIn (st.elim k (fun x => worsen x k)) (item, p)) t)
        let place := (findObj s (atAux j.desc)).map (fun o => (o.exts.headD default).home)
        if check == .failed then
          done (some .integrity) (weightFailed (atAux j.desc)
            { s with jobs := { s.jobs with halves := s.jobs.halves.filter (fun x => !halfIs j it x) } })
        else done none (retried check place
          { s with jobs := { s.jobs with halves := mapIf (halfIs j it) (fun x => { x with landed := true }) s.jobs.halves } })
      else if check == .failed then jobPageFailed j p (some (j, (item, p))) s
      else runCores (setJob (tileIn j (item, p)) (landPage j it p (retried check (pageLoc s j p) s)))
    else if p != weightTile && !j.missing.contains (item, p) && streamReaches s j item p then
      if check == .failed then jobPageFailed j p none s else landPage j it p (retried check (pageLoc s j p) s)
    else s

/-- A slice that a MOVE firing asked for lands (R224), or fails its check: its page meets R229, and it is fetched at release. -/
def landPlanned (x : Slice) (check : ReadCheck) (s : State) : State :=
  let place := (findCol s x.col).map (fun c =>
    match c.image with
    | some l => if l.tier == .meadow || c.home.tier != .meadow then (c, l, true) else (c, c.home, false)
    | none => (c, c.home, false))
  let rest := { s with jobs := { s.jobs with slices := s.jobs.slices.filter (fun y => y != x) } }
  if check == .failed then
    match place with
    | some (c, l, image) => pageFailed c l image (pageStart s c.model x.layer) none rest
    | none => coilFailed x.seq x.layer x.page none rest
  else
    let loc := if x.col = 0 then (coilAt s x.seq x.layer x.page).map (fun y => y.2.1) else place.map (fun y => y.2.1)
    satisfy (retried check loc
      { s with jobs := { s.jobs with slices := mapIf (fun y => y == x) (fun y => { y with landed := true }) s.jobs.slices } })

/-- The slice that a loader fetched ahead lands in its half (R212); one that fails its check leaves the half empty. -/
def landHalf (x : WeightHalf) (check : ReadCheck) (s : State) : State :=
  if check == .failed then
    runCores (weightFailed x.aux { s with jobs := { s.jobs with halves := s.jobs.halves.filter (fun y => y != x) } })
  else
    satisfy (retried check ((findObj s x.aux).map (fun o => (o.exts.headD default).home))
      { s with jobs := { s.jobs with halves := mapIf (fun y => y == x) (fun y => { y with landed := true }) s.jobs.halves } })

/-- TILE_LANDED: a tile lands, and a job waiting for it may start. `owner` and `index` are the item and its page, the head group and
page, or the core and the half that the reference leaves open; `check` is how the tile's granules meet their tags. -/
def tileLanded (t : TileRef) (owner index : Nat) (check : ReadCheck) (s : State) : State :=
  match t with
  | .page job => landJobTile job owner index check s
  | .planned cluster step seq layer =>
    match s.jobs.slices.find? (fun x => x.planned && !x.landed && x.cluster == cluster && x.step == step && x.seq == seq &&
        x.layer == layer && x.headGroup == owner && x.page == index) with
    | none => s
    | some x => landPlanned x check s
  | .weights =>
    match s.jobs.halves.find? (fun x => x.core == owner && x.half == index && !x.landed) with
    | none => s
    | some x => landHalf x check s

def execTileLanded (t : TileRef) (owner index : Nat) (check : ReadCheck) (s : State) : Host.Outcome State Fault Refusal :=
  .next (tileLanded t owner index check s)

/-! ## Making jobs -/

/-- Put a job on the list, with its missing tiles counted (R112, R488); runCores issues their fetches. -/
def addJob (j : Job) (kind2 : Bool) (s : State) : State :=
  let j1 := { j with missing := if j.kind == .planned then missingTiles s j kind2 else [] }
  let s1 := { s with jobs := { s.jobs with jobs := s.jobs.jobs ++ [j1], nextJob := j.id + 1 } }
  forEach (fun (x : Nat × Item) t =>
    let ps := (j1.missing.filter (fun m => m.1 == x.1)).map (fun m => m.2)
    let o : Occ := { part := some j.part, master := 2 }
    let hits (planned : Bool) : Nat := ((itemPages s j x.1).filter (fun p =>
      sliceLanded s j x.2 p && (itemGroups j x.2).all (fun hg => s.jobs.slices.any (fun y => y.landed && y.planned &&
        sliceIs (inCoil s j) j (x.2.core / 4) hg p y)) == planned)).length
    if x.2.core == noCore then t
    else halfUsed false j1 x.2 (abandonBlock x.2.core (count (.core x.2.core) 0x000E ps.length o (count (.cluster (x.2.core / 4)) 0x0102 (hits false) o
      (count (.cluster (x.2.core / 4)) 0x0101 (hits true) o t))))) (indexed j1.items) s1

/-- Columns outside meadow, with no meadow image, whose pages a job reads are asked for: heath reads its pages, and no page that is
skipped or lies in a coil (R176, R220). -/
def fetchCols (j : Job) (s : State) : State :=
  let items := if j.items.isEmpty then [0] else List.range j.items.length
  let ps := (items.flatMap (itemPages s j)).dedup
  forEach (fun p t =>
    match tilePlace t j p with
    | some (c, l, _) => if l.tier == .heath then heathRead l (columnUnits t c.model) t else t
    | none => t) ps s

/-- Positions of a sequence that a command may attend in a layer (R140, R170, R172): those of a pending append run whose layer is
written among them, never a step row (R162). -/
def visibleLen (q : Seq) (layer : Nat) : Nat := if layer < q.pendLayer && !q.stepRun then q.length + q.pendCount else q.length

/-- Head groups of a command's job: the active plan's for the model, else one for each KV head (DESIGN CHOICE, log
entry 19). -/
def cmdGroups (s : State) (q : Seq) (layer : Nat) (g : MGroup) : Nat :=
  let ofPlan := s.wheel.active.bind (fun p =>
    if p.plan.modelTag == modelTag s q.model then (p.plan.groups.find? (fun x => x.first ≤ layer && layer ≤ x.final)).map (fun x => x.headGroups)
    else none)
  if g.kind = 3 then 1 else ofPlan.getD (max 1 g.h)

/-- The checks of R170 that ATTN and ATTN_BWD share. -/
def attnArgs (p : Nat) (d : Desc) (s : State) : Except Status (Seq × MGroup) := do
  let q ← anySeq s p (dSeq d)
  need (!q.failed) .poisoned
  let layer := dfield d 11 1
  match layerGroup s q.model layer with
  | none => .error .badDescriptor
  | some g =>
    need (layer < modelLayers s q.model) .badDescriptor
    return (q, g)

/-- Whether a mask bitmap lies in objects homed in meadow (R175): every 4 KiB of it in one of the partition's. -/
def maskHomed (s : State) (p src n : Nat) : Bool :=
  n == 0 || (List.range (ceilDiv (src % 4096 + n) 4096)).all (fun k =>
    let a := max src ((src / 4096 + k) * 4096)
    let b := min (src + n) ((src / 4096 + k + 1) * 4096)
    (objAt s p a (b - a)).any (fun o => (extsOf o (a - o.off) (b - a)).all (fun i => (o.exts.getD i default).home.tier == .meadow)))

/-- The descriptor checks common to both commands: rows, reserved bits, lengths, scales, mask and servability. -/
def attnFields (p : Nat) (d : Desc) (q : Seq) (g : MGroup) (maskSrc : Nat) (s : State) : Bool :=
  let m := dfield d 12 2
  let layer := dfield d 11 1
  let mask := dfield d 15 1
  let v := if dfield d 20 4 = 0 then visibleLen q layer else dfield d 20 4
  let maskBytes := ceilDiv m 16 * ceilDiv v 16 * 32
  1 ≤ m && m ≤ 4096 && dFlags d == 0 && mask < 8 && dfield d 20 4 ≤ visibleLen q layer &&
  f32Positive (dfield d 24 4) && (if atFmtQ d = 0 then dfield d 28 4 == 0 else f32Positive (dfield d 28 4)) &&
  atFmtQ d != 3 && bitOf mask 1 == isWindow g &&
  (if bitOf mask 2 then maskSrc % 64 == 0 && maskSrc + maskBytes ≤ rangeBytes && maskHomed s p maskSrc maskBytes
    else maskSrc == 0) &&
  (!isWindow g || (List.range m).all (fun i => servable s q (some g.idx) (dfield d 16 4 + i)))

/-- Whether an aux object is one that a kind 2 layer may use; on another layer only zero is, and another value answers ST_BAD_OBJECT like
an aux that names no weight object (R170; DESIGN CHOICE, log entry 158). -/
def auxOk (s : State) (p : Nat) (g : MGroup) (aux : Nat) : Bool :=
  if g.kind = 2 then (findObj s aux).any (fun o => o.part == p && o.kind == 2) else aux == 0

/-- ATTN's checks in the order of R170. -/
def attnCheck (p : Nat) (d : Desc) (s : State) : Except Status (Seq × MGroup) := do
  let q ← anySeq s p (dSeq d)
  let g? := layerGroup s q.model (dfield d 11 1)
  need (match g? with | some g => auxOk s p g (atAux d) | none => true) .badObject
  need ((findWindow (dfield d 40 2) s).any (fun w => w.cls == 2)) .badObject
  let r ← attnArgs p d s
  let g := r.2
  let hq := modelHq s q.model
  let m := dfield d 12 2
  need (!spanPoisoned s p (dfield d 32 8) (queryBytes g hq m (atFmtQ d)) && !(findObj s (atAux d)).any (fun o => o.poisoned)) .poisoned
  need (attnFields p d q g (dfield d 48 8) s && dfield d 42 2 == 0 && atFmtKv d == 0 && atFmtOut d != 3 &&
    !bitOf (dfield d 14 1) 7 && dfield d 60 4 == 0 && dfield d 32 8 % 64 == 0 &&
    dfield d 32 8 + queryBytes g hq m (atFmtQ d) ≤ rangeBytes && dfield d 44 4 % 64 == 0 &&
    windowHolds (dfield d 40 2) 2 (dfield d 44 4) (regionBytes m hq (dimOut g) (atFmtOut d) (atStats d)) s) .badDescriptor
  return r

/-- The job of a command: one item for each head group, on cores chosen as they fall free (R216). -/
def cmdJob (kind : JobKind) (c : Cmd) (q : Seq) (g : MGroup) (s : State) : Job :=
  let d := c.desc
  let layer := dfield d 11 1
  let G := cmdGroups s q layer g
  let v := if dfield d 20 4 = 0 then visibleLen q layer else dfield d 20 4
  { id := s.jobs.nextJob, kind := kind, part := c.part, seq := q.id, layer := layer, step := Pos.step s.wheel.cur,
    entry := 0, desc := d, len := v, rows := dfield d 12 2, tree := [], cols := q.cols,
    items := (List.range G).map (fun h => { headGroup := h, core := noCore, state := .waiting, cycles := 0, wasted := 0 }),
    missing := [], status := .ok, window := dfield d 40 2, outOff := dfield d 44 4, dueAt := none, held := false,
    cmd := c.id, skipped := 0, pages := 0, groups := G, batch := s.jobs.nextJob, bucket := runMode s c.part }

/-- Start a command's job, once its columns' heath ports serve. -/
def startCmdJob (kind : JobKind) (c : Cmd) (q : Seq) (g : MGroup) (s : State) : State :=
  let j0 := cmdJob kind c q g s
  let down := ((List.range j0.items.length).flatMap (itemPages s j0)).findSome? (fun p =>
    (tilePlace s j0 p).bind (fun x => if onDownPort s x.2.1 then some x.2.1.unit else none))
  match down with
  | some h => stall c h s
  | none =>
    let j := cmdJob kind c q g s
    runCores (abandonSweeps (fetchCols j (addJob j (g.kind == 2) (setWork c.id (.job j.id) s))))

def runAttn (c : Cmd) (s : State) : State :=
  match attnCheck c.part c.desc s with
  | .error st => complete c st 0 s
  | .ok (q, g) => startCmdJob .attn c q g s

def execAttn (q : QRef) (s : State) : Host.Outcome State Fault Refusal := .next (startCmd 0x40 runAttn q s)

/-! ## ATTN_BWD (R198, R199) -/

/-- Whether gradients may go to a span: every byte of it lies in objects that are neither immutable nor plans (DESIGN CHOICE, log entry
148). -/
def gradSpan (s : State) (p off n : Nat) : Bool :=
  let os := spanObjs s p off n
  n == 0 || (sumBy (fun o => spanIn o off n) os == n && os.all (fun o => !o.immutable && o.kind != 4))

/-- The checks of R198, in the order of R170; last comes that of the destinations, whose status is ST_BAD_OBJECT (DESIGN CHOICE, log
entry 148). -/
def bwdCheck (p : Nat) (d : Desc) (s : State) : Except Status (Seq × MGroup) := do
  let r ← attnArgs p d s
  let q := r.1
  let g := r.2
  let hq := modelHq s q.model
  let m := dfield d 12 2
  let v := if dfield d 20 4 = 0 then visibleLen q (dfield d 11 1) else dfield d 20 4
  let dsts := bwdDsts g hq m v d
  let endSrc := (bwdOffs g hq m d).2.2.2
  need (!(((dfield d 32 8, endSrc - dfield d 32 8) :: dsts).any (fun x => spanPoisoned s p x.1 x.2))) .poisoned
  need (g.kind ≤ 1 && attnFields p d q g (dfield d 56 8) s && bitsOf (dfield d 14 1) 3 2 ≤ 1 && bitsOf (dfield d 14 1) 7 4 == 0 &&
    dfield d 32 8 % 64 == 0 && endSrc ≤ rangeBytes && dsts.all (fun x => x.1 + x.2 ≤ rangeBytes)) .badDescriptor
  need (dsts.all (fun x => gradSpan s p x.1 x.2)) .badObject
  return r

def runAttnBwd (c : Cmd) (s : State) : State :=
  match bwdCheck c.part c.desc s with
  | .error st => complete c st 0 s
  | .ok (q, g) => startCmdJob .backward c q g s

def execAttnBwd (q : QRef) (s : State) : Host.Outcome State Fault Refusal := .next (startCmd 0x41 runAttnBwd q s)

/-- F32 or BF16 elements at an offset. -/
def elemsAt (s : State) (p off n : Nat) (wide : Bool) : List FV :=
  (List.range n).map (fun i =>
    if wide then f32Of (leNat (memRead s p (off + 4 * i) 4)) else fmtBf16.decode (leNat (memRead s p (off + 2 * i) 2)))

/-- The gradients of a backward job, written (R199): EMPTY rows, and the state. -/
def writeGrads (j : Job) (a : AttnIn) (s : State) : Nat × State :=
  let d := j.desc
  let g := a.g
  let o := bwdOffs g a.hq j.rows d
  let wide := bitsOf (dfield d 14 1) 3 2 = 1
  let n := j.rows * a.hq * g.d
  let os := chunks g.d (elemsAt s j.part o.1 n wide)
  let dos := chunks g.d (elemsAt s j.part o.2.1 n wide)
  let st := elemsAt s j.part o.2.2.1 (2 * j.rows * a.hq) true
  let rows := (indexed a.rows).map (fun r => (r.2.pos, (indexed r.2.heads).map (fun h =>
    let k := r.1 * a.hq + h.1
    ({ q := h.2, o := os.getD k [], dO := dos.getD k [], mx := st.getD (2 * k) FV.zero, l := st.getD (2 * k + 1) FV.zero } : BackRow))))
  let keys := a.pages.flatten.filterMap id
  let all := (List.range j.len).map (fun p => (keys.find? (fun k => k.1 == p)).getD (p, { a := [], b := [], sa := [], sb := [] }))
  let r := backward a (atScale d) rows all
  let bytes (l : List (List (List FV))) : Bytes := l.flatMap (fun x => x.flatMap (fun y => y.flatMap (fun v => natLe 4 (f32Bits v))))
  let empty := ((indexed a.rows).filter (fun x => a.pages.flatten.all (fun e =>
    match e with
    | some k => !seesStored a x.1 x.2.pos k.1
    | none => true))).length
  (empty, placeBytes (some j.cmd) j.part (dfield d 48 8) (pad64 (bytes r.2.1) ++ bytes r.2.2)
    (placeBytes (some j.cmd) j.part (dfield d 40 8) (bytes r.1) s))

/-! ## Outputs (R65, R106, R167) -/

/-- Send a region as OUTPUT messages of up to 16,384 bytes, the first and the last marked so (R64); `rowB` is the bytes of one row of the output block and
`outB` those of the block. -/
def sendRegion (j : Job) (st : Status) (rowB outB : Nat) : Nat → Nat → Bytes → State → State
  | 0, _, _, s => s
  | k + 1, off, bs, s =>
    let n := min 16384 bs.length
    let row0 := if rowB = 0 || outB ≤ off then 0 else off / rowB
    let rows := if rowB = 0 || outB ≤ off then 0 else ceilDiv (min (off + n) outB) rowB - row0
    let body : HostMsg := .output j.window (j.outOff + off) j.seq j.layer row0 rows j.part st (bs.take 16384)
    let s1 := sendInside j.window 2 (j.outOff + off) n (some j.part) (sendFrag2 (off == 0) (bs.length ≤ 16384) n body none) s
    if bs.length ≤ 16384 then s1 else sendRegion j st rowB outB k (off + 16384) (bs.drop 16384) s1

/-- The one OUTPUT of a job that ends with an error status. -/
def sendEmptyOutput (j : Job) (st : Status) (s : State) : State :=
  sendInside j.window 2 j.outOff 0 (some j.part) (sendClass2 0 (.output j.window j.outOff j.seq j.layer 0 0 j.part st []) none) s

/-! ## Settlement of pending cycles (R179, R500) -/

/-- Move a core's pending cycles: `kept` of them retired, the rest wasted. -/
def settleCore (core total kept : Nat) (s : State) : State :=
  let p := od s (0xA100 + core) 0x1E
  countFixed core 10 (total - kept) (countFixed core 9 kept (odSet (0xA100 + core) 0x1E (p - total) s))

def settleItems (good : Bool) (items : List Item) (s : State) : State :=
  forEach (fun i t => if i.core == noCore then t else settleCore i.core i.cycles (if good then i.cycles else 0) t) items s

/-- Settle a verify entry's cycles at its confirm or expiry: `a` of `c` candidates accepted. -/
def settleVerify (seq step a c : Nat) (s : State) : State :=
  let mine := s.jobs.settling.filter (fun x => x.1 == seq && x.2.1 == step)
  let rest := s.jobs.settling.filter (fun x => !(x.1 == seq && x.2.1 == step))
  forEach (fun (x : Nat × Nat × Nat × Nat) t => settleCore x.2.2.1 x.2.2.2 (x.2.2.2 * a / (max 1 c)) t) mine
    { s with jobs := { s.jobs with settling := rest } }

/-! ## Job completion (R111, R156, R167, R171) -/

/-- The logical core of a job's last head group to finish: its last item's, or the merge core of a split (R111). -/
def lastCore (j : Job) : Nat := if j.split.isEmpty then j.lastCore else j.merge

/-- The first ST_DEADLINE of a late job, with lateness fetchesOut, and its count (R110). -/
def lateEvent (j : Job) (s : State) : State :=
  event .deadline (some j.part) 0 0 (j.seq * 2 ^ 40 + j.layer * 2 ^ 32 + 0xFFFFFFFF) (bump64 0x2030 0x01 s)

/-- Record the lateness of a job that was fetchesOut at its DUE. -/
def recordLate (j : Job) (s : State) : State :=
  match j.dueAt with
  | none => s
  | some t =>
    let late := min (s.now - t) 0xFFFFFFFE
    let whole := s.now - t
    let det := j.seq * 2 ^ 40 + j.layer * 2 ^ 32 + late
    let s1 := faultEvent .deadline (unitCore (lastCore j)) (det + lastCore j * 2 ^ 64) (some j.part) .deadline det s
    odSet 0x2030 0x03 (max late (od s1 0x2030 0x03)) (odAdd 0x2030 0x02 64 whole s1)

/-- Whether a class 2 message is one of a completed job's. -/
def messageOf (x : Leaving) (m : TxMsg) : Bool := m.cls == 2 && (m.seq - x.from_).toNat < x.count

/-- Completed jobs whose last OUTPUT has left: on time, or late by the time since their DUE (R71, R111). -/
def outputsLeft (s : State) : State :=
  forEach (fun (x : Leaving) t =>
    if t.host.unacked.any (fun m => !m.sent && messageOf x m) then t
    else recordLate x.job { t with jobs := { t.jobs with leaving := t.jobs.leaving.filter (fun y => y.job.id != x.job.id) } })
    s.jobs.leaving s

/-- A job's messages, those since number `from_`, are to leave. -/
def leaveWith (j : Job) (from_ : U16) (s : State) : State :=
  outputsLeft { s with jobs := { s.jobs with leaving := s.jobs.leaving ++ [{ job := j, from_ := from_, count := (s.host.tx2 - from_).toNat }] } }

/-- The status of an OUTPUT that goes out late (R111). -/
def lateBody : HostMsg → HostMsg
  | .output w o q l r n p st b => .output w o q l r n p (if st.isError then st else .okLate) b
  | m => m

/-- A completed job whose outputs have not all left at its DUE is late: so say those that still wait (R71, R110, R111). -/
def leavingLate (id : Nat) (s : State) : State :=
  match s.jobs.leaving.find? (fun x => x.job.id == id) with
  | none => s
  | some x =>
    if x.job.dueAt.isSome then s
    else
      lateEvent x.job { s with
        jobs := { s.jobs with leaving := s.jobs.leaving.map (fun y =>
          if y.job.id == id then { y with job := { y.job with dueAt := some s.now } } else y) }
        host := { s.host with unacked := s.host.unacked.map (fun m => if !m.sent && messageOf x m then { m with body := lateBody m.body } else m) } }

/-- Columns, sequence and objects that a job read were last used in the current step (R156): the columns of the pages that it read,
none for pages of a coil. -/
def touchUsed (j : Job) (s0 : State) : State :=
  let s := forEach (fun (x : Nat × Nat) => touchRead j.part x.1 x.2) (jobReads s0 j) s0
  let step := Pos.step s.wheel.cur
  let s1 := if inCoil s j then s else editSlots (fun c => { c with lastUsed := step }) ((jobPages s j).map (nth j.cols)) s
  match findSeq s1 j.seq with
  | some q => setSeq { q with lastUsed := step } s1
  | none => s1

/-- A verify job is over: its entry notes it, and its tail forgets its layer, and fails with it (R187). -/
def verifyOver (j : Job) (failed : Bool) (s : State) : State :=
  if j.tree.isEmpty then s
  else
    let s1 := editEntry j.part j.step j.seq (fun e =>
      { e with overLayers := e.overLayers ++ [j.layer], verifyFailed := e.verifyFailed || failed }) s
    match findSeq s1 j.seq with
    | none => s1
    | some q =>
      match q.prov with
      | none => s1
      | some t =>
        if t.step != j.step then s1
        else setSeq { q with prov := some { t with left := t.left.filter (fun l => l != j.layer), failed := t.failed || failed } } s1

/-- Take a job off the list, and let what waited for it go on. -/
def removeJob (j : Job) (s : State) : State :=
  { s with jobs := { s.jobs with jobs := s.jobs.jobs.filter (fun x => x.id != j.id) } }

/-- End a job with an error status: one OUTPUT for jobs with a region, every cycle wasted. -/
def endJobError (j : Job) (st : Status) (s : State) : State :=
  let s1 := if j.kind == .backward then s else sendEmptyOutput j st s
  let s2 := leaveWith j s.host.tx2 (settleItems false j.items (verifyOver j true (removeJob j s1)))
  let s3 := bump64 0x3000 0x01 (touchUsed j s2)
  match findCmd s3 j.cmd with
  | some c => if c.work == .job j.id then complete c st 0 s3 else s3
  | none => s3

/-- Counts that a job's completion adds (OD 0x3000): padding, skipped pages, NaN rows, EMPTY rows, the job. -/
def countJob (padding skipped empty nan : Nat) (s : State) : State :=
  odAdd 0x3000 0x08 64 padding (odAdd 0x3000 0x07 64 skipped (odAdd 0x3000 0x03 64 nan (odAdd 0x3000 0x02 64 empty
    (bump64 0x3000 0x01 s))))

/-- Whether a verify job's tail still waits for its confirm or expiry. -/
def tailWaits (s : State) (j : Job) : Bool := (jobSeq s j).any (fun q => q.prov.any (fun t => t.step == j.step))

/-- End a job that computed: outputs, flags and statistics, counts, lateness. -/
def endJobGood (j : Job) (a : AttnIn) (s : State) : State :=
  let ix := computedIx j a
  let skipped := skippedPages j a
  if j.kind == .backward then
    let r := writeGrads j a s
    let st : Status := if r.1 != 0 then .okEmptyRows else .ok
    let s1 := countJob (paddingIn j ix) skipped r.1 0 (touchUsed j (settleItems true j.items (removeJob j r.2)))
    match findCmd s1 j.cmd with
    | some c => completePlaced c st (r.1 + ix.length * 2 ^ 32) s1
    | none => s1
  else
    let outs := jobOuts (computedInput j a) j.split.length (mergeScratch s j)
    let empty := (outs.filter (fun r => r.any (fun h => h.empty))).length
    let nan := (outs.filter (fun r => r.any (fun h => h.nan))).length
    let st : Status := if j.dueAt.isSome then .okLate else if empty != 0 then .okEmptyRows else .ok
    let fmt := atFmtOut j.desc
    let rowB := a.hq * dimOut a.g * outBytes fmt
    let region := regionOf fmt (atStats j.desc) outs
    let s1 := sendRegion j st rowB (rowB * j.rows) (region.length / 16384 + 1) 0 region s
    let s2 := leaveWith j s.host.tx2 (verifyOver j false (removeJob j s1))
    let s3 :=
      if j.tree.isEmpty then settleItems true j.items s2
      else if !tailWaits s2 j then settleItems false j.items s2
      else { s2 with jobs := { s2.jobs with settling := s2.jobs.settling ++
        (j.items.filter (fun i => i.core != noCore)).map (fun i => (j.seq, j.step, i.core, i.cycles)) } }
    let s4 := countJob (paddingIn j ix) skipped empty nan (touchUsed j s3)
    match findCmd s4 j.cmd with
    | some c => if c.work == .job j.id then complete c st (empty + ix.length * 2 ^ 32 + skipped * 2 ^ 64 + nan * 2 ^ 96) s4 else s4
    | none => s4

/-- Slices of the planned area whose job will run no item any more are freed: their step has ended, and no job of it is left
(R224). -/
def pruneSlices (s : State) : State :=
  { s with jobs := { s.jobs with slices := s.jobs.slices.filter (fun x =>
      !x.planned || s.wheel.cur.toNat < (Pos.mk (x.step + 1) 0 0).toNat ||
      s.jobs.jobs.any (fun j => j.step == x.step && j.seq == x.seq && j.layer == x.layer)) } }

/-- Sheets none of whose entries still names its sequence (R104), or holds columns set aside until its confirm (R151), are
forgotten. -/
def pruneSheets (s : State) : State :=
  pruneSlices { s with sheets := { s.sheets with admitted := s.sheets.admitted.filter (fun h =>
      s.wheel.cur.toNat < (Pos.mk (h.step + 1) 0 0).toNat || h.entries.any (fun e => entryNames s h e || e.setAside != 0)) } }

/-- JOB_COMPLETE: every item is done, and the last OUTPUT leaves (R70: before the COMPLETION). -/
def jobComplete (id : Nat) (s : State) : State :=
  match findJob s id with
  | none => s
  | some j =>
    if !j.items.all (fun i => i.state == .done) then s
    else
      let st := if jobPoisoned s j then (worsen .poisoned j).status else j.status
      let t :=
        if st.isError then endJobError j st s
        else
          match jobInput s j with
          | .error f => endJobError j f s
          | .ok a => endJobGood j a s
      runCores (pruneSheets t)

/-- JOB_COMPLETE (R110, R111), and what waited for the job: submissions, then cores. -/
def execJobComplete (job : Nat) (s : State) : Host.Outcome State Fault Refusal := .next (jobComplete job s)

/-! ## SPEC_CONFIRM and COMPACTION (R186 to R190) -/

/-- Free a provisional tail: the columns set aside return to the pool (R190). -/
def dropTail (q : Seq) (step : Nat) (s : State) : State :=
  setSeq { q with prov := none } (editEntry q.part step q.id (fun e => { e with setAside := 0, asideAt := [] }) s)

/-- Whether a path is one of the tree (R187). -/
def pathOk (t : Tail) (d : Desc) : Bool :=
  let a := dfield d 11 1
  let path := (List.range 16).map (fun i => dfield d (24 + i) 1)
  a ≤ t.count && a ≤ 16 && (path.drop a).all (fun b => b == 0xFF) &&
  (a == 0 || nth path 0 == 0) &&
  (List.range (a - 1)).all (fun i =>
    nth path (i + 1) < t.count && nth path (i + 1) != 0 && parentOf t.tree (nth path (i + 1)) == nth path i)

/-- Write accepted candidate `k` of a path in every layer. -/
def acceptRow (q : Seq) (t : Tail) (cand pos : Nat) (s : State) : State :=
  forEach (fun (r : KvRow) u => if r.row == cand then writeToken q.id r.layer pos r.tok u else u) t.rows s

/-- Write a path's rows at the end of the sequence, its length and `fill`, and drop its slices (R188). -/
def compactRows (q : Seq) (t : Tail) (path : List Nat) (s : State) : Except Status State :=
  match readyColumns true q.id path.length s with
  | .error st => .error st
  | .ok s1 =>
    let s2 := forEach (fun (x : Nat × Nat) u => acceptRow q t x.2 (q.length + x.1) u) (indexed path) s1
    let s3 := forEach (fun k u => dropWritten k u) (((findSeq s2 q.id).elim [] (fun x => x.cols)).drop (q.length / 16)) s2
    .ok (setLength q.id (q.length + path.length) (q.length / 16) s3)

/-- Send an unservable entry's output for a layer (R103, R163). -/
def refuseOutput (h : Sheet) (e : Entry) (layer : Nat) (st : Status) (s : State) : State :=
  sendInside h.outWindow 2 (e.outOff + layer * h.outStride) 0 (some h.partition)
    (sendClass2 0 (.output h.outWindow (e.outOff + layer * h.outStride) e.seq layer 0 0 h.partition st []) none) s

/-- The check of R103 and R149 for one entry at the start of its step; a sequence whose confirm is held waits (R188). -/
def checkEntry (h : Sheet) (idx : Nat) (e : Entry) (s : State) : State :=
  match findSeq s e.seq with
  | none => s
  | some q =>
    if q.prov.isSome then s
    else
      let reason := if q.pendCount != 0 then 0x15 else if e.lenMax < q.length then 0x14 else 0
      if reason = 0 then s
      else
        editEntry h.partition h.step e.seq (fun x => { x with bad := some .rejectedSheet })
          (event .rejectedSheet (some h.partition) 0 0 (h.step * 2 ^ 24 + reason * 2 ^ 16 + idx) s)

/-- Tiles that a job misses (R112): the pages of its column list, however many cores wait for one, and weight slices. -/
def tilesMissing (j : Job) : Nat :=
  ((j.missing.map (fun x => x.2)).filter (fun p => p != weightTile)).dedup.length +
  (j.missing.filter (fun x => x.2 == weightTile)).length

/-- Tiles missing at release (R112): one FLT_PREFETCH_LATE and its event for the job. -/
def reportMissing (id : Nat) (s : State) : State :=
  match findJob s id with
  | none => s
  | some j =>
    if j.missing.isEmpty || j.held then s
    else
      let det := j.seq * 2 ^ 40 + j.layer * 2 ^ 32 + tilesMissing j
      let core := (j.items.headD default).core
      bump64 0x2030 0x04 (faultEvent .prefetchLate (unitCluster (core / 4)) det (some j.part) .prefetchLate det s)

/-- A held job takes its sequence as it stands, or ends where its entry cannot be served. -/
def unholdJob (id : Nat) (s : State) : State :=
  match findJob s id with
  | none => s
  | some j =>
    let s1 := if j.tree.isEmpty && j.layer == 0 && (sheetEntry s j.part j.step j.seq).any (fun e => e.bad.isNone) then
      claimStep j.part j.step j.seq s else s
    match (sheetEntry s1 j.part j.step j.seq).bind (fun e => e.bad), findSeq s1 j.seq with
    | some st, _ => endJobError { j with held := false } st s1
    | none, some q =>
      let k := { j with held := false, len := q.length, cols := q.cols, fetching := [] }
      let kind2 := (layerGroup s1 q.model j.layer).any (fun g => g.kind == 2)
      reportMissing id (setJob { k with missing := missingTiles s1 k kind2 } s1)
    | none, none => endJobError { j with held := false } .badObject s1

/-- After a sequence's confirm: the postponed check of the next step, then its held jobs. -/
def releaseHeld (seq : Nat) (s : State) : State :=
  let s1 := forEach (fun (h : Sheet) t =>
    if h.step == Pos.step s.wheel.cur then
      forEach (fun (x : Nat × Entry) u => if x.2.seq == seq && x.2.bad.isNone then checkEntry h x.1 x.2 u else u) (indexed h.entries) t
    else t) s.sheets.admitted s
  runCores (forEach unholdJob ((s1.jobs.jobs.filter (fun j => j.held && j.seq == seq)).map (fun j => j.id)) s1)

/-- The rows of R187 that end a confirm at once, and the tail it holds for. -/
def confirmStart (c : Cmd) (s : State) : State :=
  let d := c.desc
  match openSeq s c.part (dSeq d) with
  | .error st => complete c st 0 s
  | .ok q =>
    match q.prov.filter (fun t => t.step == dfield d 16 8) with
    | none => complete c .specExpired 0 s
    | some t =>
      let res := q.length + t.count * 2 ^ 32
      if t.failed then complete c .aborted 0 (releaseHeld q.id (settleVerify q.id t.step 0 t.count (dropTail q t.step s)))
      else if !pathOk t d then complete c .badDescriptor 0 s
      else if dfield d 11 1 = 0 then
        complete c .ok res (releaseHeld q.id (settleVerify q.id t.step 0 t.count (dropTail q t.step s)))
      else setWork c.id .confirm s

def runSpecConfirm (c : Cmd) (s : State) : State := confirmStart c s
def execSpecConfirm (q : QRef) (s : State) : Host.Outcome State Fault Refusal := .next (startCmd 0x42 runSpecConfirm q s)

/-- The shelf that holds a sequence's last column. -/
def lastShelf (s : State) (q : Seq) : Nat := ((findCol s (nth q.cols (q.length / 16))).map (fun c => c.home.unit)).getD 0

/-- COMPACTION (R188): a held confirm whose verify jobs have all completed. -/
def compaction (id : Nat) (s : State) : State :=
  match findCmd s id with
  | none => s
  | some c =>
    if c.work != .confirm then s
    else
      match findSeq s (dSeq c.desc) with
      | none => complete c .badObject 0 s
      | some q =>
        match q.prov.filter (fun t => t.step == dfield c.desc 16 8) with
        | none => complete c .specExpired 0 s
        | some t =>
          if !t.left.isEmpty || (!t.failed && lastMoving s q) then s
          else if t.failed then
            complete c .aborted 0 (releaseHeld q.id (settleVerify q.id t.step 0 t.count (dropTail q t.step s)))
          else
            let a := dfield c.desc 11 1
            let path := (List.range a).map (fun i => dfield c.desc (24 + i) 1)
            let q1 := { q with prov := none }
            match compactRows q1 t path (dropTail q t.step s) with
            | .error .media => stall c (lastShelf s q) s
            | .error st => complete c (asNoSpace st) 0 s
            | .ok s1 =>
              let s2 := odAdd 0x3000 0x05 64 a (settleVerify q.id t.step a t.count s1)
              complete c .ok (q.length + a + (t.count - a) * 2 ^ 32) (releaseHeld q.id s2)

def execCompaction (id : Nat) (s : State) : Host.Outcome State Fault Refusal := .next (compaction id s)

end Sys2Proof.Machine
end

