-- ==== Sys2Proof/Machine/Commands.lean ====
section
/-! DEFINITION. Commands that go on after a wait: deferred ones (R37, R104), those that waited for a position (R152) and
those stopped by a heath port out of service (R354). -/

namespace Sys2Proof.Machine

/-- The meaning of a started command, by its opcode. -/
def runCmd (c : Cmd) (s : State) : State :=
  match dOpcode c.desc with
  | 0x01 => runSeqOpen c s
  | 0x02 => runSeqClose c s
  | 0x03 => runSeqFork c s
  | 0x04 => runSeqTruncate c s
  | 0x10 => runKvAppend c s
  | 0x11 => runColSeal c s
  | 0x12 => runColMove c s
  | 0x13 => runColPin c s
  | 0x14 => runColUnpin c s
  | 0x15 => runColDiscard c s
  | 0x20 => runPfxLookup c s
  | 0x21 => runPfxCommit c s
  | 0x22 => runPfxEvict c s
  | 0x30 => runObjCreate c s
  | 0x31 => runObjWrite c s
  | 0x32 => runObjRead c s
  | 0x33 => runObjMove c s
  | 0x34 => runObjPolicy c s
  | 0x40 => runAttn c s
  | 0x41 => runAttnBwd c s
  | 0x42 => runSpecConfirm c s
  | 0x50 => runTableBuild c s
  | 0x51 => runTableLoad c s
  | 0x52 => runCompress c s
  | 0x60 => runWaitCount c s
  | 0x61 => runFence c s
  | _ => s

/-- A deferred command starts once nothing names what it changes (R37, R104). -/
def deferredStart (id : Nat) (s : State) : State :=
  match findCmd s id with
  | none => s
  | some c => if c.work == .deferred && !mustWait s c.desc && !deferredBehind s c then runCmd c s else s

def execDeferredCommandStart (id : Nat) (s : State) : Host.Outcome State Fault Refusal := .next (deferredStart id s)

/-- Commands whose position has been reached, in the order in which they started (R152). -/
def commandsAt (w : WPos) (s : State) : State :=
  let due := s.queues.cmds.filter (fun c => match c.work with | .atPos p => p.toNat ≤ w.toNat | _ => false)
  forEach (fun (c : Cmd) t =>
    match findCmd t c.id with
    | some d => goOrDefer runCmd d (setWork d.id .starting t)
    | none => t) due s

/-- A heath port is back: what waited for it goes on (R46, R354). -/
def portReturns (h : Nat) (s : State) : State :=
  let stopped := s.queues.cmds.filter (fun c => c.work == .stalled h)
  let s1 := forEach (fun (c : Cmd) t =>
    match findCmd t c.id with
    | some d => runCmd d (setWork d.id .starting t)
    | none => t) stopped s
  runCores (forEach (fun (x : CxlWait) t =>
    if x.shelf == h && !x.asked then
      cxlAsk x.part x.line h x.unit { t with host := { t.host with cxlWaiting := t.host.cxlWaiting.filter (fun y => y != x) } }
    else t) s1.host.cxlWaiting s1)

end Sys2Proof.Machine
end

