-- ==== Sys2Proof/Machine/HeathFix.lean ====
section
/-! DEFINITION. What heath keeps going behind its commands: superblocks that close (R337), collection (R350, R351), wear and read
disturb (R352), units that cannot be read (R351, R353), pages of the metadata stream, checkpoints and root pages (R335, R346), and
what a failed program or erase takes with it (R354). -/

namespace Sys2Proof.Machine

/-! ## Collection (R350, R351) -/

def inSb (x : Shelf) (id : Nat) : List Nat :=
  match findSb x id with
  | some b => b.uses.map (fun e => e.2)
  | none => []

/-- Units to copy out of a superblock: fine units, and whole bales by their first units. -/
def itemsOfSb (x : Shelf) (id : Nat) : List (Nat × Bool) :=
  ((inSb x id).map (fun u =>
    if (baleEnt x (u / 64)).any (fun e => e.state == 2) then (u / 64 * 64, true) else (u, false))).dedup

/-- Ask for the pages of an item that collection copies. -/
def gcReads (v : Nat) (i : Nat × Bool) (x : Shelf) : Shelf :=
  (List.range (if i.2 then 64 else 1)).foldl (fun y k => readUnit (i.1 + k) (.gc v (i.1 + k)) y) x

/-- Superblocks that collection may choose: closed, not under collection. -/
def candidates (x : Shelf) : List Superblock :=
  x.sbs.filter (fun b => (b.state == 2 || b.state == 3) && x.collecting != some b.id && !x.erasing.contains b.id)

def firstId (l : List Superblock) : Option Nat := (sortBy (fun a b => a < b) (l.map (fun b => b.id))).head?

/-- Whether free superblocks are below a mark in 1/256 (R350). -/
def belowMark (x : Shelf) (mark : Nat) : Bool :=
  match x.geom with
  | none => false
  | some g => freeSuperblocks x * 256 < mark * superblockSum x g

/-- The next victim (R350): closed early, queued for relocation, fewest valid slots; the lowest ID winning ties. -/
def victim (x : Shelf) : Option Nat :=
  let cs := candidates x
  match firstId (cs.filter (fun b => b.state == 3)) with
  | some v => some v
  | none =>
    match firstId (cs.filter (fun b => x.relocate.contains b.id)) with
    | some v => some v
    | none =>
      ((sortBy (fun (a b : Superblock) => a.uses.length < b.uses.length || (a.uses.length == b.uses.length && a.id < b.id))
        cs).head?).map (fun b => b.id)

/-- What collection takes next: a victim while free superblocks are below the mark, and a superblock queued for relocation in any
case (R350, R352). -/
def nextVictim (x : Shelf) (mark : Nat) : Option Nat :=
  if belowMark x mark then victim x else firstId ((candidates x).filter (fun b => x.relocate.contains b.id))

/-- Whether collection goes on. -/
def wantsGc (x : Shelf) (mark : Nat) : Bool := (nextVictim x mark).isSome

/-- Slots that collection has mapped elsewhere from a superblock, and that another one not yet closed holds. -/
def destOpen (x : Shelf) (v : Nat) : Bool :=
  x.moved.any (fun m => m.2.1 == v &&
    match unitSlot x m.1 with
    | some p => (findSb x p.1).any (fun b => b.state == 1)
    | none => false)

def erasesQueued (x : Shelf) (v : Nat) : Bool :=
  (x.ops ++ x.waiting).any (fun o => match o.use with | .erase b => b == v | _ => false)

/-- Take an erased superblock off the table: its blocks are free. -/
def dropSb (v : Nat) (x : Shelf) : Shelf :=
  { x with sbs := x.sbs.filter (fun b => b.id != v), erasing := x.erasing.filter (fun i => i != v),
           moved := x.moved.filter (fun m => m.2.1 != v) }

/-- Ask to erase the good blocks of a superblock; one without any is free at once. -/
def eraseSb (v : Nat) (x : Shelf) : Shelf :=
  match x.geom, findSb x v with
  | some g, some b =>
    let ps := (List.range 16).filter (fun p =>
      let cl := lunAt g b.group p
      (blockEnt x cl.1 cl.2 (nth b.blocks p)).state == 0 && !lunOutOf x cl.1 cl.2)
    if ps.isEmpty then dropSb v x
    else ps.foldl (fun y p =>
      let cl := lunAt g b.group p
      queueOp brErase cl.1 cl.2 (nth b.blocks p) 0 (.erase v) y) x
  | _, _ => x

/-- Erase the copied victims whose data lie in closed superblocks, or are gone (R351). -/
def eraseIdle (x : Shelf) : Shelf :=
  x.erasing.foldl (fun y v =>
    if (inSb y v).isEmpty && !destOpen y v && !erasesQueued y v then eraseSb v y else y) x

/-- Start on a victim: its items are read, or it waits for its erase. -/
def startVictim (v : Nat) (x : Shelf) : Shelf :=
  let x1 := { x with
    relocate := x.relocate.filter (fun i => i != v), lunMoves := x.lunMoves.filter (fun i => i != v),
    wear := if x.wear = some v then none else x.wear }
  if (inSb x v).isEmpty then { x1 with erasing := x1.erasing ++ [v] }
  else (itemsOfSb x v).foldl (fun y i => gcReads v i y) { x1 with collecting := some v }

/-- Go on collecting up to a mark; counts the relocations begun for reads or wear (OD 0x6000:0E). -/
def collect (mark : Nat) : Nat → Shelf → Shelf × Nat
  | 0, x => (x, 0)
  | n + 1, x =>
    if x.collecting.isSome then (x, 0)
    else
      match nextVictim x mark with
      | none => (x, 0)
      | some v =>
        let moved := if x.relocate.contains v && !x.lunMoves.contains v then 1 else 0
        let r := collect mark n (startVictim v x)
        (r.1, moved + r.2)

/-- Whether a victim has no valid slot left and waits for its erase. -/
def victimCopied (x : Shelf) : Shelf :=
  match x.collecting with
  | some v => if (inSb x v).isEmpty then { x with collecting := none, erasing := x.erasing ++ [v] } else x
  | none => x

/-- The superblock that a program goes to. -/
def useSb : OpUse → Option Nat
  | .program _ _ sb _ _ _ => some sb
  | .parity sb _ _ => some sb
  | .idle sb _ => some sb
  | .mpage sb _ _ _ => some sb
  | _ => none

/-- A stream's open superblock closes when its last stripe is programmed (R337). -/
def closeStream (stream : Nat) (x : Shelf) : Shelf :=
  let pages := (x.geom.map (fun g => g.pages)).getD 0
  match (openOf x stream).bind (findSb x) with
  | some b => if pages ≤ b.stripes then setOpen stream none (setSb { b with state := if b.state = 1 then 2 else b.state } x) else x
  | none => x

def closeFull (x : Shelf) : Shelf := [0, 1, 2].foldl (fun y n => closeStream n y) x

/-- Close a superblock early. -/
def closeEarly (id : Nat) (x : Shelf) : Shelf :=
  let close (o : Option Nat) : Option Nat := if o = some id then none else o
  { x with
    openBale := close x.openBale
    openFine := close x.openFine
    openMeta := close x.openMeta
    sbs := mapIf (fun (b : Superblock) => b.id == id && b.state == 1) (fun b => { b with state := 3 }) x.sbs }

/-- Write a page of the metadata stream, once its open superblock has a slot for it. -/
def metaPage (p : MetaPage) (x : Shelf) : Shelf :=
  match takeSlots 2 1 x with
  | some (sb, slot, y) => programSlot sb slot none (fun q => .mpage sb slot q p) y
  | none => { x with metaWait := x.metaWait ++ [p] }

/-- Write the pages of the metadata stream that wait, as far as there are slots. -/
def retryMeta (x : Shelf) : Shelf := x.metaWait.foldl (fun y p => metaPage p y) { x with metaWait := [] }

/-- Whether a write that waits for a superblock can never have one: no group forms any, none is filling, and collection can free
none. -/
def stuck (x : Shelf) : Bool :=
  match x.geom with
  | none => false
  | some g => !x.unplaced.isEmpty && x.collecting.isNone && x.erasing.isEmpty &&
      (x.ops ++ x.waiting).all (fun o => (useSb o.use).isNone) &&
      (List.range (groupCount g)).all (fun n => (newBlocks x g n).isNone) && (candidates x).all (fun b => sbSlots x ≤ b.uses.length)

/-- A column whose durable programming cannot complete, for its rewrite finds no superblock, enters state 4 (R283, R354), and the
commits that waited for it go on (R278). -/
def dropStuck (h : Nat) (s : State) : State :=
  let x := shelfOf s h
  if stuck x then
    tendPrefix (forEach (failDur .media) ((x.unplaced.filter (fun w => w.victim.isNone)).flatMap (fun w => ringCols s h w.unit)).dedup s)
  else s

/-- What follows any change: full superblocks close, victims copied are erased, collection goes on to the high mark unless the
supply sags (R355), held writes are tried, and operations go out. -/
def tend (h : Nat) (s : State) : State :=
  let x := victimCopied (closeFull (shelfOf s h))
  let goesOn := x.collecting.isNone && (shelfOf s h).collecting.isSome && s.power.kiln.sag.isNone
  let r := if goesOn then collect (od s 0x6000 0x02) (x.sbs.length + 1) x else (x, 0)
  let x2 := retryUnplaced (retryMeta (eraseIdle r.1))
  dropStuck h (pump h (odAdd 0x6000 0x0E 64 r.2 (setShelf h x2 s)))

/-- Start collecting (R350). -/
def gcStart (h : Nat) (s : State) : State :=
  let x := shelfOf s h
  if x.state != 4 || x.collecting.isSome || s.power.kiln.sag.isSome || !wantsGc x (od s 0x6000 0x01) then s
  else
    let r := collect (od s 0x6000 0x02) (x.sbs.length + 1) x
    tend h (odAdd 0x6000 0x0E 64 r.2 (setShelf h r.1 s))

/-! ## Poison (R351, R353) -/

/-- A unit cannot be rebuilt: it is poisoned, journalled and counted, and what reads it enters the poison flow; prefix commands that
its columns held up go on. -/
def unitLost (h u : Nat) (s : State) : State :=
  let x := shelfOf s h
  tend h (tendPrefix (poisonFlow h u
    (odAdd 0x6000 0x0D 64 (poisonUnits x u).length (setShelf h (change (.poison u) x) s))))

/-! ## Reads (R351 to R353) -/

/-- CXL.mem reads that wait for a unit are answered; one whose object has been poisoned meanwhile is so with its event (R44,
R319). -/
def serveUnit (h u : Nat) (s : State) : State :=
  let mine (w : CxlWait) : Bool := w.asked && w.shelf == h && w.unit == u
  forEach (fun (w : CxlWait) t =>
    if (objAt t w.part (64 * w.line) 64).any (fun o => o.poisoned) then
      event .poisoned (some w.part) 0 0 (64 * w.line) (cxlAnswer w.part w.line true t)
    else cxlAnswer w.part w.line false t)
    (s.host.cxlWaiting.filter mine) { s with host := { s.host with cxlWaiting := s.host.cxlWaiting.filter (fun w => !mine w) } }

/-- Whether a unit belongs to a mapped bale, which moves whole (R351). -/
def inBale (x : Shelf) (u : Nat) : Bool := (baleEnt x (u / 64)).any (fun e => e.state == 2)

/-- Whether pages of the item of a unit are still being read for its copy. -/
def itemReads (x : Shelf) (u : Nat) : Bool :=
  let mine : ReadFor → Bool
    | .gc _ w => inBale x u && w / 64 == u / 64
    | .rescue w => inBale x u && w / 64 == u / 64
    | _ => false
  (x.ops ++ x.waiting).any (fun o => match o.use with | .read w => mine w | .rebuild w _ _ => mine w | _ => false)

/-- A page of an item that is copied has been read: the item is written once all of its pages have, if it is still there. -/
def copyGot (victim : Option Nat) (u : Nat) (x : Shelf) : Shelf :=
  let here := match victim with
    | some v => (inSb x v).contains u
    | none => (unitSlot x u).isSome
  if itemReads x u || !here then x else writeUnit victim (if inBale x u then u / 64 * 64 else u) (inBale x u) x

/-- The superblock that holds a block. -/
def sbOfBlock (x : Shelf) (channel lun block : Nat) : Option Nat :=
  match x.geom with
  | none => none
  | some g =>
    (x.sbs.find? (fun b => b.group == groupOfLun g channel lun && nth b.blocks (channel % 16) == block)).map (fun b => b.id)

def relocate (id : Nat) (x : Shelf) : Shelf :=
  if x.relocate.contains id || x.erasing.contains id || x.collecting == some id then x
  else { x with relocate := x.relocate ++ [id] }

/-- Count a page read of a block, and queue its superblock for relocation on read disturb or corrected bits (R343,
R352). -/
def noteRead (s : State) (o : BridgeOp) (corrected : Nat) (x : Shelf) : Shelf :=
  let b := blockEnt x o.channel o.lun o.block
  let n := min (b.reads + 1) (2 ^ 24 - 1)
  let x1 := setBlock { b with reads := n } x
  if od s 0x6000 0x05 ≤ n || od s 0x6000 0x06 * x.capability < corrected * 100 then
    match sbOfBlock x o.channel o.lun o.block with
    | some id => relocate id x1
    | none => x1
  else x1

/-! ## Checkpoints and root pages (R335, R346) -/

/-- Program a root page, alternating between the two root blocks; one that is full is erased and used again (R335; DESIGN CHOICE,
log entry 54). -/
def rootPage (x : Shelf) : Shelf :=
  let pages := (x.geom.map (fun g => g.pages)).getD 1
  let i := x.rootPages
  let page := i / 2 % pages
  let x1 := if page = 0 && 2 ≤ i then queueOp brErase (i % 2) 0 0 0 .rootErase x else x
  queueOp brProgram (i % 2) 0 0 page (.root i x.seqCtr) { x1 with seqCtr := x.seqCtr + 1, rootPages := i + 1 }

/-- The `seq` from which on records may enter the tail after a checkpoint has begun: that of the oldest page whose mapping is still to
come, else the next one (DESIGN CHOICE, log entry 146). -/
def firstSeq (x : Shelf) : Nat :=
  let ops := (x.ops ++ x.waiting).filterMap (fun o => match o.use with | .program _ _ _ _ q _ => some q | _ => none)
  let recs := x.changes.filterMap (fun c => match c with | .map _ _ _ _ q _ _ => some q | _ => none)
  (ops ++ recs ++ x.sealed.map (fun p => (hdrOf p.2.spare).seq)).foldl min x.seqCtr

/-- Begin a checkpoint: it holds the maps and tables as they stand, and its first page is written (R346). -/
def startCkpt (x : Shelf) : Shelf :=
  match x.geom with
  | none => x
  | some g =>
    metaPage (.ckpt 0) { x with
      journalPages := 0
      ckpt := some {
        at_ := { first := firstSeq x, pages := ckptPages g (x.bales.filter (fun e => e.state == 3)).length }
        tabs := { blocks := x.blocks, sbs := x.sbs, bales := x.bales, fines := x.fines } } }

/-- Page `i` of the checkpoint is programmed at a slot: the next one is written, and after the last one the root page that names
it. -/
def ckptDone (i sb slot : Nat) (x : Shelf) : Shelf :=
  match x.ckpt with
  | none => x
  | some c =>
    let at' := if i = 0 then { c.at_ with sb := sb, slot := slot } else c.at_
    if i + 1 < at'.pages then metaPage (.ckpt (i + 1)) { x with ckpt := some { c with at_ := at', done := i + 1 } }
    else rootPage { x with ckpt := none, named := at' }

/-- A journal page is programmed: its records leave the tail, and changes that waited enter it (R345). -/
def journalDone (rs : List JRec) (x : Shelf) : Shelf :=
  flushChanges x.changes.length { x with tail := x.tail.filter (fun r => !rs.contains r), journalPages := x.journalPages + 1 }

/-- Program the records at the front of the tail, a half at most, as a journal page (R345). -/
def journalPage (x : Shelf) : Shelf :=
  metaPage (.journal x.journalNo (x.tail.take 512)) { x with journalNo := x.journalNo + 1 }

/-- Metadata superblocks older than the checkpoint that the root page names return to the free pool by an erase (R346). -/
def freeMeta (x : Shelf) : Shelf :=
  match findSb x x.named.sb with
  | none => x
  | some b =>
    let old := (x.sbs.filter (fun y => y.state == 4 && y.openSeq < b.openSeq && x.openMeta != some y.id && !x.erasing.contains y.id)).map
      (fun y => y.id)
    { x with erasing := x.erasing ++ old }

/-! ## Programs that fail (R354) -/

def isCopy : OpUse → Bool
  | .program _ _ _ _ _ v => v.isSome
  | .idle _ c => c
  | _ => false

/-- The item that a program writes: first unit, whether a bale, victim. -/
def itemOf : OpUse → Option (Nat × Bool × Option Nat)
  | .program u bale _ _ _ v => some (if bale then u / 64 * 64 else u, bale, v)
  | _ => none

/-- The place where a unit was before collection mapped it into superblock `sb`. -/
def cameFrom (x : Shelf) (u : Nat) : Option (Nat × Nat) :=
  (x.moved.find? (fun m => m.1 == u && (findSb x m.2.1).isSome)).map (fun m => m.2)

/-- Write an item again: from the victim that it is copied from, or from its source. -/
def writeAgain (i : Nat × Bool × Option Nat) (x : Shelf) : Shelf :=
  match i.2.2 with
  | some v => gcReads v (i.1, i.2.1) x
  | none => writeUnit none i.1 i.2.1 x

/-- Move a mapped item out of a retired block: mapped back to where collection took it from and copied again from there, or read back
and rewritten once it has been. -/
def rescue (key : Nat) (i : Nat × Bool) (x : Shelf) : Shelf :=
  match cameFrom x i.1 with
  | some (v, slot) =>
    let y := change (.map i.1 i.2 v slot x.seqCtr key false) { x with seqCtr := x.seqCtr + 1 }
    gcReads v i { y with
      erasing := y.erasing.filter (fun n => n != v)
      collecting := if y.collecting.isNone then some v else y.collecting }
  | none => (List.range (if i.2 then 64 else 1)).foldl (fun z k => readUnit (i.1 + k) (.rescue (i.1 + k)) z) x

/-- The page of the metadata stream that a program writes. -/
def metaOf : OpUse → Option MetaPage
  | .mpage _ _ _ p => some p
  | _ => none

/-- A program into superblock `sb` at a block did not succeed (R354): the superblock closes early, whatever was still to
be written into it, and what the block already holds, is written elsewhere. -/
def programLost (key sb : Nat) (o : BridgeOp) (x : Shelf) : Shelf :=
  let mine (y : BridgeOp) : Bool := useSb y.use == some sb
  let unsent := o :: x.waiting.filter mine
  let items := (unsent.filterMap (fun y => itemOf y.use)).dedup
  let given (y : BridgeOp) : Bool := mine y && (match itemOf y.use with | some i => i.2.1 && items.contains i | none => false)
  let x1 := closeEarly sb { x with
    waiting := x.waiting.filter (fun y => !mine y)
    ops := mapIf given (fun y => { y with use := .idle sb (isCopy y.use) }) x.ops }
  let pos := o.channel % 16
  let held : List (Nat × Bool) :=
    match findSb x sb with
    | some b => (itemsOfSb x sb).filter (fun (i : Nat × Bool) =>
        b.uses.any (fun e => (slotPlace e.1).1 == pos && (if i.2 then e.2 / 64 * 64 else e.2) == i.1))
    | none => []
  let x2 := (unsent.filterMap (fun y => metaOf y.use)).foldl (fun y p => metaPage p y) x1
  let x3 := items.foldl (fun y i => writeAgain i y) x2
  held.foldl (fun y i => rescue key i y) x3

/-- Retire a block (R343). -/
def retire (state : Nat) (o : BridgeOp) (h : Nat) (s : State) : State :=
  let b := blockEnt (shelfOf s h) o.channel o.lun o.block
  bump64 0x6000 0x0B (setShelf h (setBlock { b with state := state } (shelfOf s h)) s)

def blockDetail (o : BridgeOp) : Nat := o.channel + o.lun * 2 ^ 8 + o.block * 2 ^ 16

/-! ## Erases (R351, R352, R354) -/

/-- Erase counts of the shelf's good blocks that its table lists. -/
def goodErases (x : Shelf) : List Nat :=
  (x.blocks.filter (fun b => b.state == 0 && !isRootBlock b)).map (fun b => b.erases)

def maxErases (x : Shelf) : Nat := (goodErases x).foldl max x.eraseBase

/-- Whether the shelf has a good block that its table does not list. -/
def unlistedGood (x : Shelf) : Bool :=
  match x.geom with
  | none => false
  | some g => (x.blocks.filter (fun b => !isRootBlock b)).length < g.channels * g.luns * g.blocks - 2

def minErases (x : Shelf) : Nat :=
  if unlistedGood x then (goodErases x).foldl min x.eraseBase else minOf (goodErases x)

/-- Queue a superblock that holds a block of the lowest erase count on wear grounds, one at a time (R352). -/
def checkWear (s : State) (x : Shelf) : Shelf :=
  match x.geom with
  | none => x
  | some g =>
    if x.wear.isSome || maxErases x ≤ minErases x + od s 0x6000 0x04 then x
    else
      let holds (b : Superblock) : Bool := (List.range 16).any (fun p =>
        let cl := lunAt g b.group p
        let e := blockEnt x cl.1 cl.2 (nth b.blocks p)
        e.state == 0 && e.erases == minErases x)
      match firstId ((candidates x).filter holds) with
      | some id => { relocate id x with wear := some id }
      | none => x

/-- The erases of a superblock have all been answered: it is gone, and a victim is counted. -/
def eraseOver (h sb : Nat) (s : State) : State :=
  let x := shelfOf s h
  if erasesQueued x sb then pump h s
  else
    let victimCount := if (findSb x sb).any (fun b => b.state != 4) then 1 else 0
    tend h (odAdd 0x6000 0x09 64 victimCount (setShelf h (checkWear s (dropSb sb x)) s))

/-- An erase returned status 0x00: counts, and retirement on wear of a block whose erase count had reached `endurance` (R352). -/
def eraseDone (h sb : Nat) (o : BridgeOp) (s : State) : State :=
  let x := shelfOf s h
  let b := blockEnt x o.channel o.lun o.block
  let b1 := { b with erases := b.erases + 1, reads := 0 }
  let worn := (x.geom.map (fun g => g.endurance)).getD 0 ≤ b.erases
  let s1 := setShelf h (setBlock b1 x) s
  eraseOver h sb (if worn then retire 4 o h s1 else s1)

/-- An erase returned status 0x04. -/
def eraseFailed (h sb : Nat) (o : BridgeOp) (s : State) : State :=
  eraseOver h sb (fault .heathErase (unitHeathPort h) (blockDetail o) none (retire 3 o h s))

end Sys2Proof.Machine
end

