-- ==== Sys2Proof/Machine/HeathBoot.lean ====
section
/-! DEFINITION. How a shelf comes up (R335, R339, R347, R348, R356): its root pages are read, an erased shelf is formatted, the maps are
rebuilt from checkpoint and journal or by a full scan, and the steps of R356 follow. Each page is asked of the bridge, and each
answer takes the shelf one step further. -/

namespace Sys2Proof.Machine

/-! ## Going through the blocks of a shelf -/

def editBoot (f : Boot → Boot) (x : Shelf) : Shelf := { x with boot := f x.boot }

/-- A sequence number found on flash (R339). -/
def sawSeq (q : Nat) (x : Shelf) : Shelf := editBoot (fun b => { b with high := max b.high q }) x

/-- The operation that a phase asks at each place that it goes through. -/
def cursorOp : BootPhase → Nat × OpUse
  | .format => (brErase, .format)
  | .roots => (brRead, .rootRead)
  | _ => (brReadMeta, .scanMeta)

def askCursor (x : Shelf) (c : Cursor) : Shelf :=
  match c.blocks with
  | [] => x
  | b :: _ => queueOp (cursorOp x.boot.phase).1 c.channel c.lun b c.page (cursorOp x.boot.phase).2 x

/-- Enter a phase that goes through blocks, all LUNs in parallel. -/
def startCursors (p : BootPhase) (cs : List Cursor) (x : Shelf) : Shelf :=
  cs.foldl askCursor (editBoot (fun b => { b with phase := p, cursors := cs }) x)

/-- The LUN of an operation goes on: to the next page of its block (`stay`), or to its next block. -/
def stepCursor (o : BridgeOp) (stay : Bool) (x : Shelf) : Shelf :=
  let pages := (x.geom.map (fun g => g.pages)).getD 0
  let mine (c : Cursor) : Bool := c.channel == o.channel && c.lun == o.lun
  let go (c : Cursor) : Cursor :=
    if stay && c.page + 1 < pages then { c with page := c.page + 1 } else { c with blocks := c.blocks.drop 1, page := 0 }
  let cs := mapIf mine go x.boot.cursors
  (cs.filter mine).foldl askCursor (editBoot (fun b => { b with cursors := cs }) x)

/-- Nothing more is read of a LUN. -/
def dropCursor (channel lun : Nat) (x : Shelf) : Shelf :=
  editBoot (fun b => { b with cursors := b.cursors.filter (fun c => !(c.channel == channel && c.lun == lun)) }) x

def isScanRead (o : BridgeOp) : Bool := o.use == .scanRead

/-- Whether every LUN has gone through its blocks, and what was read besides has come. -/
def cursorsDone (x : Shelf) : Bool := x.boot.cursors.all (fun c => c.blocks.isEmpty) && !(x.ops ++ x.waiting).any isScanRead

/-- For each LUN in service, its good blocks that `p` picks. -/
def goodCursors (p : BlockEnt → Bool) (x : Shelf) (g : ShelfRec) : List Cursor :=
  ((List.range (g.channels * g.luns)).map (fun i =>
    let c := i / g.luns
    let l := i % g.luns
    ({ channel := c, lun := l, blocks := (List.range g.blocks).filter (fun b =>
        (blockEnt x c l b).state == 0 && p (blockEnt x c l b)) } : Cursor))).filter
    (fun c => !c.blocks.isEmpty && !lunOutOf x c.channel c.lun)

/-- For each LUN, its blocks in the superblocks of a list. -/
def sbCursors (x : Shelf) (g : ShelfRec) (l : List Superblock) : List Cursor :=
  ((List.range (g.channels * g.luns)).map (fun i =>
    let c := i / g.luns
    let n := i % g.luns
    ({ channel := c, lun := n, blocks := (l.filter (fun b => b.group == groupOfLun g c n)).map (fun b => nth b.blocks (c % 16)) } : Cursor))).filter
    (fun c => !c.blocks.isEmpty && !lunOutOf x c.channel c.lun)

/-! ## Applying records (R347, R348) -/

/-- A map entry in place of the one under its key. -/
def putEnt (e : MapEnt) (l : List MapEnt) : List MapEnt := l.filter (fun y => y.key != e.key) ++ [e]

/-- No fine block: the mark of a bale whose fine block is still to be given. -/
def noFine : Nat := 2 ^ 23

/-- A fine unit has an entry, and its bale is in state 3. -/
def putFine (e : MapEnt) (x : Shelf) : Shelf :=
  let owner : MapEnt := { key := e.key / 64, state := 3, cls := false, fine := noFine }
  { x with
    bales := if (baleEnt x (e.key / 64)).any (fun b => b.state == 3) then x.bales else putEnt owner x.bales
    fines := putEnt e x.fines }

/-- A bale has an entry, and no fine units. -/
def putBale (e : MapEnt) (x : Shelf) : Shelf :=
  { x with bales := putEnt e x.bales, fines := x.fines.filter (fun f => f.key / 64 != e.key) }

def dropBale (b : Nat) (x : Shelf) : Shelf := { x with bales := x.bales.filter (fun y => y.key != b || y.state == 3) }

def dropFine (u : Nat) (x : Shelf) : Shelf :=
  let fines' := x.fines.filter (fun y => y.key != u)
  { x with
    fines := fines'
    bales := x.bales.filter (fun b => b.key != u / 64 || b.state != 3 || fines'.any (fun f => f.key / 64 == b.key)) }

/-- Apply a record whose mapping was written under a key (R344, R347). -/
def applyRec (r : JRec) (key : Nat) (x : Shelf) : Shelf :=
  let u := r.unit % 2 ^ 32
  let e (k st : Nat) : MapEnt := { key := k, state := st, cls := r.cls, sb := r.sb, slot := r.slot, keyId := key }
  match r.op with
  | 1 => { putBale (e (u / 64) 2) x with keyId := keyNow x r.cls key }
  | 2 => { putFine (e u 2) x with keyId := keyNow x r.cls key }
  | 3 => dropBale (u / 64) x
  | 4 => dropFine u x
  | 5 => { x with bales := mapIf (fun (y : MapEnt) => y.key == u / 64) (fun y => { y with state := 4 }) x.bales }
  | 6 => { x with fines := mapIf (fun (y : MapEnt) => y.key == u) (fun y => { y with state := 4 }) x.fines }
  | 7 =>
    if (baleEnt x (u / 64)).any (fun b => b.state != 3) then
      { x with bales := mapIf (fun (y : MapEnt) => y.key == u / 64) (fun y => { y with cls := true }) x.bales }
    else { x with fines := mapIf (fun (y : MapEnt) => y.key == u) (fun y => { y with cls := true }) x.fines }
  | 8 => { forget (underKey r.unit) x with keyId := if x.keyId = r.unit then 0 else x.keyId }
  | _ => x

/-- Apply records in `seq` order: one that repeats another changes nothing (R347), and the highest `seq` decides (R348). -/
def applyRecs (rs : List (JRec × Nat)) (x : Shelf) : Shelf :=
  (sortBy (fun (a b : JRec × Nat) => a.1.seq < b.1.seq) rs).foldl (fun y r => applyRec r.1 r.2 (sawSeq r.1.seq y)) x

/-- List every superblock's valid slots as the maps have them. -/
def countUses (x : Shelf) : Shelf :=
  let ofBales := (x.bales.filter (fun e => e.state == 2)).flatMap (fun e => (List.range 64).map (fun i => (e.sb, e.slot + i, e.key * 64 + i)))
  let all := ofBales ++ (x.fines.filter (fun e => e.state == 2)).map (fun e => (e.sb, e.slot, e.key))
  { x with sbs := x.sbs.map (fun b => { b with uses := (all.filter (fun e => e.1 == b.id)).map (fun e => e.2) }) }

/-- Give a fine block to each bale of a shelf in state 3 that has none (R341). -/
def giveFines (h : Nat) (s : State) : State :=
  let owners := (shelfOf s h).bales.filter (fun e => e.state == 3 && e.fine == noFine)
  let give (n : Nat) (e : MapEnt) (x : Shelf) : Shelf :=
    { x with bales := mapIf (fun (y : MapEnt) => y.key == e.key && y.state == 3) (fun y => { y with fine := n }) x.bales }
  forEach (fun (e : MapEnt) t => setShelf h (give ((freeFine t).getD 0) e (shelfOf t h)) t) owners s

/-! ## Steps 3 to 7 (R356) -/

/-- Issue again what the save ring holds for a shelf (R355, R356 step 6). -/
def reissue (h : Nat) (s : State) : State :=
  forEach (fun (e : RingEntry) t =>
    match e.item with
    | .publish _ r =>
      if r.addr / 2 ^ 46 != h then t
      else
        let addr := r.addr % 2 ^ 46 / 4096
        let x := shelfOf t h
        let bs := (allocBales addr r.units).filter (fun b => (baleEnt x b).isNone)
        let us := (allocFines addr r.units).filter (fun u => (fineEnt x u).isNone)
        let newBales := bs.map (fun b => ({ key := b, state := 1, cls := true } : MapEnt))
        let newFines := us.map (fun u => ({ key := u, state := 1, cls := true } : MapEnt))
        let owner := ((us.map (fun u => u / 64)).dedup.filter (fun b => (baleEnt x b).isNone)).map
          (fun b => ({ key := b, state := 3, cls := false, fine := noFine } : MapEnt))
        let x1 := { x with bales := x.bales ++ newBales ++ owner, fines := x.fines ++ newFines }
        let x2 := bs.foldl (fun y b => writeUnit none (b * 64) true y) x1
        giveFines h (setShelf h (us.foldl (fun y u => writeUnit none u false y) x2) t)
    | _ => t) s.pfx.ring s

/-- Whether nothing that the ring had for a shelf is still to be programmed. -/
def ringWritten (x : Shelf) : Bool := settledFor x (fun _ _ => true) && x.unplaced.isEmpty

/-- The ring's programs are over: the checkpoint is written, after which the shelf is ready (R356 steps 6 and 7). -/
def ringDone (h : Nat) (s : State) : State :=
  let x := shelfOf s h
  if x.boot.phase == .ring && ringWritten x then tend h (setShelf h (startCkpt (editBoot (fun b => { b with phase := .ckpt }) x)) s) else s

/-- Class 0 mappings of a shelf are discarded, each with its record (R344, R356 step 3). -/
def dropClass0 (x : Shelf) : Shelf :=
  let bs := (x.bales.filter (fun e => e.state != 3 && !e.cls)).map (fun e => e.key)
  let us := (x.fines.filter (fun e => !e.cls)).map (fun e => e.key)
  us.foldl (fun y u => change (.freeUnit u) y) (bs.foldl (fun y b => change (.freeBale b) y) x)

/-- Forget the prefix log's records whose data or whose log unit lies on a shelf, and the withdrawals of records that are gone. -/
def logWithout (h : Nat) (p : PfxStore) : PfxStore :=
  let units := p.logUnits.filter (fun g => g.place.unit != h)
  let here (r : LogRec) : Bool := units.any (fun g => g.recs.any (fun x => x.recNo == r.recNo))
  let pubs := p.log.filter (fun r => !r.withdrawal && r.addr / 2 ^ 46 != h && here r)
  { p with logUnits := units, log := p.log.filter (fun r =>
      if r.withdrawal then here r && pubs.any (fun x => x.recNo == r.target) else r.addr / 2 ^ 46 != h && here r) }

/-- TRIM_KEY on a shelf (R357): every mapping written under a key is discarded, and where it is the shelf's key the records of the prefix
log that lie there (R288). -/
def trimKey (h key : Nat) (s : State) : State :=
  let x := shelfOf s h
  let s1 := setShelf h (change (.trim key) x) s
  if x.keyId = key then { s1 with pfx := logWithout h s1.pfx } else s1

/-- The old key of a shelf that another tenancy is served by (R357, R439). -/
def oldKeys (s : State) (x : Shelf) : List Nat :=
  if s.sec.tenSecret.isSome && x.keyId != 0 && x.keyId != s.sec.heathKeyId then [x.keyId] else []

/-- The keys to trim of a shelf are trimmed: those named before it was up (R443), and the old one. -/
def trimStale (h : Nat) (s : State) : State :=
  let x := shelfOf s h
  forEach (trimKey h) (oldKeys s x ++ x.trims) (setShelf h { x with trims := [] } s)

/-- The maps are known: the sequence counter goes on 2^32 above the highest value found (R339; before step 3, whose records draw from it:
DESIGN CHOICE, log entry 26), class 0 mappings are discarded, stale keys trimmed, open superblocks closed early, and the ring programmed. -/
def finishBoot (h : Nat) (s : State) : State :=
  let x := shelfOf s h
  let x1 : Shelf := { x with
    state := 2, seqCtr := x.boot.high + 2 ^ 32, openBale := none, openFine := none, openMeta := none
    capSum := if x.capSum = 0 then x.geom.elim 0 (superblockSum x) else x.capSum }
  let s1 := trimStale h (setShelf h (dropClass0 x1) s)
  let y := shelfOf s1 h
  let y1 := ((y.sbs.filter (fun b => b.state == 1)).map (fun b => b.id)).foldl (fun z i => closeEarly i z) y
  ringDone h (tend h (reissue h (setShelf h (editBoot (fun b => { b with phase := .ring }) y1) s1)))

/-- A shelf enters state ready: what waited for it goes on (R46, R354, R356 step 7). -/
def shelfReady (h : Nat) (s : State) : State :=
  tendPrefix (drainAll (portReturns h (setShelf h { shelfOf s h with state := 4, boot := {} } s)))

/-! ## Formatting (R335) -/

/-- Start to format a shelf: every block that is not factory bad is erased, and what the shelf held is forgotten. -/
def beginFormat (h : Nat) (s : State) : State :=
  let x := shelfOf s h
  match x.geom with
  | none => s
  | some g =>
    let x1 : Shelf :=
      { no := x.no, state := 1, geom := x.geom, capability := x.capability, seqCtr := x.seqCtr, luns := x.luns, nextTag := x.nextTag,
        params := x.params, eraseBase := x.eraseBase, blocks := x.blocks, discards := x.discards, badSeen := x.badSeen }
    pump h (setShelf h (startCursors .format (goodCursors (fun _ => true) x1 g) x1) { s with pfx := logWithout h s.pfx })

/-- Every block has been erased: r and S are fixed, and the first root page is written (R334, R335). -/
def formatted (h : Nat) (s : State) : State :=
  let x := shelfOf s h
  match x.geom with
  | none => s
  | some g =>
    pump h (setShelf h (rootPage (editBoot (fun b => { b with phase := .ckpt }) { x with
      reserve := od s 0x6000 0x03, capSum := superblockSum x g })) s)

/-! ## Full scans (R348) -/

/-- Start a full scan for a cause of R517: the header of every page of every good block is read, root blocks apart. -/
def startScan (h cause : Nat) (s : State) : State :=
  let x := shelfOf s h
  match x.geom with
  | none => s
  | some g =>
    let x1 := editBoot (fun b => { b with cause := cause, heads := [], recs := [], image := [], todo := [] }) { x with state := 3 }
    pump h (setShelf h (startCursors .scan (goodCursors (fun b => !isRootBlock b) x1 g) x1)
      (fault .heathScan (unitHeathPort h) cause none (bump32 0x6000 0x0F s)))

/-- The data slot of a page of a superblock, none of a parity page (R336). -/
def slotAt (pos page : Nat) : Option Nat :=
  if pos = page % 16 then none else some (15 * page + (if pos < page % 16 then pos else pos - 1))

/-- Whether a header counts in a scan: it is a data page's, under no key or the root's. -/
def scanCounts (key : Nat) (h : PageHdr) : Bool := (h.kind == 0 || h.kind == 1) && (h.keyId == 0 || h.keyId == key)

/-- Data pages that a scan found, by superblock and slot. -/
def scanPages (x : Shelf) : List (Nat × Nat × PageHdr) :=
  x.boot.heads.filterMap (fun p =>
    if scanCounts x.keyId p.head then
      (sbOfBlock x p.channel p.lun p.block).bind (fun id => (slotAt (p.channel % 16) p.page).map (fun n => (id, n, p.head)))
    else none)

/-- The units that pages map (R348): a fine unit by its page, a bale by 64 consecutive slots of one superblock that carry its units. -/
def pageMaps (ps : List (Nat × Nat × PageHdr)) : List (JRec × Nat) :=
  let fine := (ps.filter (fun p => p.2.2.kind == 1)).map (fun p =>
    (({ seq := p.2.2.seq, unit := p.2.2.unit, op := 2, cls := p.2.2.cls, sb := p.1, slot := p.2.1 } : JRec), p.2.2.keyId))
  let firsts := ps.filter (fun p => p.2.2.kind == 0 && p.2.1 % 64 == 0 && p.2.2.unit % 64 == 0)
  fine ++ firsts.filterMap (fun p =>
    let run := (List.range 64).filterMap (fun i => ps.find? (fun q => q.1 == p.1 && q.2.1 == p.2.1 + i && q.2.2.kind == 0 &&
      q.2.2.unit == p.2.2.unit + i))
    let high := run.foldl (fun n q => max n q.2.2.seq) 0
    let rec_ : JRec := { seq := high, unit := p.2.2.unit, op := 1, cls := p.2.2.cls, sb := p.1, slot := p.2.1 }
    if run.length = 64 then some (rec_, p.2.2.keyId) else none)

/-- The key of the page that a record maps. -/
def recKey (x : Shelf) (ps : List (Nat × Nat × PageHdr)) (r : JRec) : Nat :=
  (ps.find? (fun p => p.1 == r.sb && p.2.1 == r.slot)).elim x.keyId (fun p => p.2.2.keyId)

/-- A scan has read everything: for each unit the page or record with the highest `seq` decides, class and TRIM_KEY records take
effect in their order, and blocks whose erase count nothing recalls take the largest known (R348). -/
def scanMaps (x : Shelf) : Shelf :=
  let ps := scanPages x
  let x1 := { x with bales := [], fines := [], eraseBase := maxErases x }
  countUses (applyRecs (pageMaps ps ++ (x.boot.recs ++ x.tail).map (fun r => (r, recKey x ps r))) x1)

/-- A scan is over: at start-up the steps of R356 follow, else a checkpoint (R348). -/
def scanned (h : Nat) (s : State) : State :=
  let s1 := giveFines h (setShelf h (scanMaps (shelfOf s h)) s)
  let start (t : State) : State := setShelf h (startCkpt (editBoot (fun b => { b with phase := .ckpt }) (shelfOf t h))) t
  if (shelfOf s h).boot.cause = 2 then tend h (start (trimStale h s1)) else finishBoot h s1

/-! ## Rebuilds (R347) -/

/-- Superblocks as they are found on flash, open until step 4 closes them. -/
def foundSb (f : SbFound) : Superblock :=
  { id := f.id, group := f.group, blocks := f.blocks, state := if f.stream = 2 then 4 else 1, stream := f.stream, openSeq := 0 }

/-- Whether two superblocks have a block in common. -/
def sharesBlock (a b : Superblock) : Bool :=
  a.group == b.group && (List.range 16).any (fun p => nth a.blocks p == nth b.blocks p)

/-- Superblocks of a table beside those found, which have taken over the blocks that they share, or the ID. -/
def withFound (found : List SbFound) (l : List Superblock) : List Superblock :=
  let fs := found.map foundSb
  l.filter (fun b => !fs.any (fun f => f.id == b.id || sharesBlock f b)) ++ fs

/-- The key under which class 1 data of a shelf that comes up was written: its own, or where its root page is older the one that the
kiln saved (DESIGN CHOICE, log entry 26). -/
def bootKey (s : State) (x : Shelf) : Nat := if x.keyId != 0 then x.keyId else s.power.kiln.save.elim 0 (fun v => v.heathKeyId)

/-- The bytes of a checkpoint whose pages have all been read. -/
def ckptImage (x : Shelf) : Option Bytes :=
  ((List.range x.named.pages).mapM (fun i => (x.boot.image.find? (fun p => p.1 == i)).map (fun p => p.2))).map (fun l => l.flatten)

/-- Maps and tables from a checkpoint, then the journal's records and those of the saved tail in `seq` order (R347). A LUN that
answers again has its blocks back (DESIGN CHOICE, log entry 26). -/
def rebuiltMaps (key : Nat) (g : ShelfRec) (img : Bytes) (x : Shelf) : Shelf :=
  let t : MapTables := if x.named.pages = 0 then {} else tablesFrom key g img
  let bad := t.blocks.map (fun (b : BlockEnt) => if b.state = 5 && !lunOutOf x b.channel b.lun then { b with state := 0 } else b)
  let x1 := sawSeq x.named.first { x with
    blocks := bad ++ x.blocks.filter (fun b => !bad.any (fun c => c.channel == b.channel && c.lun == b.lun && c.block == b.block))
    sbs := withFound x.boot.found t.sbs
    bales := t.bales, fines := t.fines }
  countUses (applyRecs ((x.boot.recs ++ x.tail).map (fun r => (r, key))) x1)

/-- The maps are rebuilt: the headers of the superblocks that were open are read for their sequence numbers (R339). -/
def rebuildDone (h : Nat) (g : ShelfRec) (img : Bytes) (s : State) : State :=
  let s1 := giveFines h (setShelf h (rebuiltMaps (bootKey s (shelfOf s h)) g img (shelfOf s h)) s)
  let x := shelfOf s1 h
  let cs := sbCursors x g (x.sbs.filter (fun b => b.state == 1))
  if cs.isEmpty then finishBoot h s1 else pump h (setShelf h (startCursors .opened cs x) s1)

/-- Ask for the next metadata page, or finish: without every page of the checkpoint the shelf is scanned (R348). -/
def nextMeta (h : Nat) (s : State) : State :=
  let x := shelfOf s h
  match x.boot.todo, x.geom with
  | b :: _, _ => pump h (setShelf h (readSlot b.id x.boot.slot .boot x) s)
  | [], some g =>
    match ckptImage x with
    | some img => rebuildDone h g img s
    | none => startScan h 0 s
  | [], none => s

/-- Start to read the metadata superblocks from the checkpoint's on: those that the root page names, and those found. -/
def startMetas (h : Nat) (d : Bytes) (s : State) : State :=
  let x := shelfOf s h
  let from_ := ((rootMetas d).find? (fun b => b.id == x.named.sb)).elim 0 (fun b => b.openSeq)
  let old := (rootMetas d).filter (fun b => x.named.pages == 0 || from_ ≤ b.openSeq)
  let all := withFound (x.boot.found.filter (fun f => f.stream == 2)) old
  nextMeta h (setShelf h { editBoot (fun b => { b with phase := .metas, todo := all, slot := 0 }) x with sbs := all, state := 2 } s)

/-- What a metadata page says: records above the checkpoint's first `seq`, or a page of the checkpoint. -/
def metaSeen (s : State) (r : PageRec) (x : Shelf) : Shelf :=
  let hd := hdrOf r.spare
  let y := sawSeq hd.seq x
  if hd.kind = 3 then
    let rs := (journalRecs (pagePlain s r)).filter (fun j => x.named.first ≤ j.seq)
    editBoot (fun b => { b with recs := b.recs ++ rs }) { y with journalNo := max y.journalNo (hd.unit + 1) }
  else if hd.kind = 4 && x.named.first ≤ hd.seq then
    editBoot (fun b => { b with image := b.image.filter (fun p => p.1 != hd.unit) ++ [(hd.unit, pagePlain s r)] }) y
  else y

/-- A metadata page has been read, has been found erased (`none`), or cannot be read (R347, R348). -/
def bootPage (h : Nat) (r : Except Unit (Option PageRec)) (s : State) : State :=
  let x := shelfOf s h
  let nextSb (b : Boot) : Boot := { b with todo := b.todo.drop 1, slot := 0 }
  match r with
  | .error _ => startScan h 0 s
  | .ok none => nextMeta h (setShelf h (editBoot nextSb x) s)
  | .ok (some p) =>
    if !pageTagOk s p then startScan h 0 s
    else
      let last := sbSlots x ≤ x.boot.slot + 1
      nextMeta h (setShelf h (editBoot (fun b => if last then nextSb b else { b with slot := b.slot + 1 }) (metaSeen s p x)) s)

/-! ## Root pages (R335) -/

/-- Start to read the root blocks. -/
def startRoots (found : List SbFound) (x : Shelf) : Shelf :=
  startCursors .roots [{ channel := 0, lun := 0, blocks := [0] }, { channel := 1, lun := 0, blocks := [0] }]
    { x with boot := { found := found } }

/-- The root blocks have been read: an erased shelf is formatted, one of another device or geometry refused, one whose root pages
cannot be read scanned, as is every one after an unplanned loss of power without a save (R348, R481); any other one rebuilds its
maps. -/
def rootsRead (h : Nat) (s : State) : State :=
  let x := shelfOf s h
  match x.boot.root, x.geom with
  | some (_, d), some g =>
    if !rootNames s.sec.unitId g d then setShelf h { x with state := 6, boot := {} } s
    else
      let x1 := { x with keyId := rootKeyId d, reserve := rootReserve d, capSum := rootSum d, named := rootCkpt d }
      if s.power.tailsLost then
        startScan h 1 (setShelf h { x1 with sbs := withFound x.boot.found (rootMetas d) } s)
      else startMetas h d (setShelf h x1 s)
  | none, some _ =>
    if x.boot.marked then
      startScan h 0 (setShelf h { x with keyId := bootKey s x, sbs := withFound x.boot.found [], reserve := od s 0x6000 0x03 } s)
    else beginFormat h s
  | _, none => s

/-- A page of a root block: the newest valid root page counts (R335, R347). -/
def rootSeen (s : State) (status : Nat) (r : PageRec) (o : BridgeOp) (x : Shelf) : Shelf :=
  let hd := hdrOf r.spare
  let valid := status == 0 && hcrcOk r.spare && hd.kind == 5 && pageTagOk s r
  let y := if status = 7 then x else editBoot (fun b => { b with marked := true }) x
  let newer := (x.boot.root.map (fun p => p.1)).all (fun q => q < hd.seq)
  let z := if valid && newer then
      sawSeq hd.seq (editBoot (fun b => { b with root := some (hd.seq, pagePlain s r) }) { y with rootPages := hd.unit + 1 })
    else y
  stepCursor o (status != 7) z

/-- A header that a scan, or the reading of open superblocks, has met: a journal page is read for its records (R348). -/
def headSeen (status : Nat) (spare : Bytes) (o : BridgeOp) (x : Shelf) : Shelf :=
  let hd := hdrOf spare
  let good := status == 0 && hcrcOk spare
  let y := if good then sawSeq hd.seq x else x
  let z :=
    if x.boot.phase != .scan || !good then y
    else if hd.kind = 3 then queueOp brRead o.channel o.lun o.block o.page .scanRead { y with journalNo := max y.journalNo (hd.unit + 1) }
    else editBoot (fun b => { b with heads := b.heads ++ [{ channel := o.channel, lun := o.lun, block := o.block, page := o.page, head := hd }] }) y
  stepCursor o (status != 7) z

/-- A journal page that a scan has read. -/
def scanJournal (s : State) (status : Nat) (r : PageRec) (x : Shelf) : Shelf :=
  if status == 0 && hcrcOk r.spare && pageTagOk s r then
    editBoot (fun b => { b with recs := b.recs ++ journalRecs (pagePlain s r) }) x
  else x

/-- What comes next once a phase that goes through blocks is over. -/
def bootNext (h : Nat) (s : State) : State :=
  let x := shelfOf s h
  if !cursorsDone x then pump h s
  else
    match x.boot.phase with
    | .roots => rootsRead h s
    | .format => formatted h s
    | .opened => finishBoot h s
    | .scan => scanned h s
    | _ => pump h s

/-- A root page has been programmed: metadata older than the checkpoint that it names is freed (R346), and a shelf whose start-up,
format or scan it ends is ready. -/
def rootDone (h : Nat) (s : State) : State :=
  let s1 := consumeSave (tend h (setShelf h (freeMeta (shelfOf s h)) s))
  if (shelfOf s1 h).boot.phase == .ckpt then shelfReady h s1 else s1

end Sys2Proof.Machine
end

