-- ==== Sys2Proof/Machine/HeathCmds.lean ====
section
/-! DEFINITION. The commands of heath: bridge responses (R328 to R331) with what each brings about (R332, R342, R348, R351 to R354),
LUNs that do not respond, journal and checkpoints (R345, R346), scans and formats asked for (R335, R348), start-up (R356), and
ports that go down and come back (R354). -/

namespace Sys2Proof.Machine

/-! ## Pages read (R348, R351 to R353) -/

/-- Whether a header names what was asked: the unit that is read (R353). -/
def namesWanted (x : Shelf) (w : ReadFor) (spare : Bytes) : Bool :=
  let mine (u : Nat) : Bool := (hdrOf spare).unit == unitNo x u && (hdrOf spare).kind ≤ 1
  match w with
  | .host u => mine u
  | .gc _ u => mine u
  | .rescue u => mine u
  | .boot => true

/-- Whether a page is the one wanted: not uncorrectable or erased, its header whole and naming it (R353). -/
def pageFits (x : Shelf) (w : ReadFor) (status : Nat) (r : PageRec) : Bool := status == 0 && hcrcOk r.spare && namesWanted x w r.spare

/-- The page wanted is at hand; where its tag does not verify the poison flow begins (R353). -/
def pageHere (h : Nat) (w : ReadFor) (r : PageRec) (s : State) : State :=
  match w with
  | .host u => if pageTagOk s r then serveUnit h u s else tendPrefix (poisonFlow h u s)
  | .gc v u => if pageTagOk s r then tend h (setShelf h (copyGot (some v) u (shelfOf s h)) s) else unitLost h u s
  | .rescue u => if pageTagOk s r then tend h (setShelf h (copyGot none u (shelfOf s h)) s) else unitLost h u s
  | .boot => bootPage h (.ok (some r)) s

/-- The page wanted can neither be read nor rebuilt. -/
def pageGone (h : Nat) (w : ReadFor) (s : State) : State :=
  match w with
  | .host u => unitLost h u s
  | .gc _ u => unitLost h u s
  | .rescue u => unitLost h u s
  | .boot => bootPage h (.error ()) s

/-- Where the page wanted lies. -/
def placeOf (x : Shelf) (w : ReadFor) : Option (Nat × Nat) :=
  match w with
  | .host u => unitSlot x u
  | .gc _ u => unitSlot x u
  | .rescue u => unitSlot x u
  | .boot => (x.boot.todo.head?).map (fun b => (b.id, x.boot.slot))

/-- Rebuild a page from its stripe. -/
def startRebuild (h : Nat) (w : ReadFor) (s : State) : State :=
  match placeOf (shelfOf s h) w with
  | some p => pump h (setShelf h (readStripe p.1 p.2 w (shelfOf s h)) s)
  | none => s

/-- The pages of a stripe that are still asked for are wanted no more. -/
def dropRebuild (w : ReadFor) (x : Shelf) : Shelf :=
  let other (o : BridgeOp) : Bool := match o.use with | .rebuild v _ _ => v != w | _ => true
  { x with ops := mapIf (fun o => !other o) (fun (o : BridgeOp) => { o with use := .idle 0 false }) x.ops,
           waiting := x.waiting.filter other, gathered := x.gathered.filter (fun e => e.1 != w) }

/-- Take a page of the stripe into the XOR: its data bytes, and bytes 0 to 63 of a data page's metadata, 64 to 127 of the parity
page's (R353). -/
def gather (w : ReadFor) (parity : Bool) (r : PageRec) (x : Shelf) : Shelf :=
  let old := ((x.gathered.find? (fun e => e.1 == w)).map (fun e => e.2)).getD ([], [])
  let head := if parity then (r.spare.drop 64).take 64 else r.spare.take 64
  { x with gathered := (w, xorBytes old.1 r.data, xorBytes old.2 head) :: x.gathered.filter (fun e => e.1 != w) }

/-- The page that the XOR gives. -/
def rebuilt (w : ReadFor) (x : Shelf) : PageRec :=
  let g := ((x.gathered.find? (fun e => e.1 == w)).map (fun e => e.2)).getD ([], [])
  { data := g.1, spare := fit spareSize g.2 }

/-- A page of a stripe has been read or not: the last of the fifteen completes the page wanted, and a second failed one ends the
rebuild (R353). -/
def stripePage (h : Nat) (w : ReadFor) (o : BridgeOp) (status : Nat) (r : PageRec) (s : State) : State :=
  let x := shelfOf s h
  if status != 0 || !hcrcOk r.spare then pageGone h w (setShelf h (dropRebuild w x) s)
  else
    let y := gather w (o.channel % 16 == o.page % 16) r x
    if rebuilding y w then pump h (setShelf h y s)
    else
      let p := rebuilt w y
      let t := setShelf h { y with gathered := y.gathered.filter (fun e => e.1 != w) } s
      if pageFits y w 0 p then pageHere h w p (bump64 0x6000 0x0C t) else pageGone h w t

/-- A page has been read, or its read has failed, by what it was asked for. -/
def pageRead (h : Nat) (o : BridgeOp) (status : Nat) (r : PageRec) (s : State) : State :=
  let x := shelfOf s h
  match o.use with
  | .read w =>
    if pageFits x w status r then pageHere h w r s
    else if w == .boot && status == 7 then bootPage h (.ok none) s
    else startRebuild h w s
  | .rebuild w _ _ => stripePage h w o status r s
  | .rootRead => bootNext h (setShelf h (rootSeen s status r o x) s)
  | .scanRead => bootNext h (setShelf h (scanJournal s status r x) s)
  | _ => s

/-! ## Programs answered (R342, R345, R346, R354) -/

/-- A program returned status 0x03. -/
def programFailed (h : Nat) (o : BridgeOp) (s : State) : State :=
  let copy := if isCopy o.use then 2 ^ 48 else 0
  let s1 := fault .heathProgram (unitHeathPort h) (blockDetail o + o.page * 2 ^ 32 + copy) none (retire 2 o h s)
  let key := s.sec.heathKeyId
  match o.use with
  | .root _ _ => tend h (setShelf h (rootPage (shelfOf s1 h)) s1)
  | u =>
    match useSb u with
    | some sb => tend h (setShelf h (programLost key sb o (shelfOf s1 h)) s1)
    | none => s1

def anyUse (x : Shelf) (p : OpUse → Bool) : Bool := (x.ops ++ x.waiting).any (fun o => p o.use)

def isRootUse : OpUse → Bool
  | .root _ _ => true
  | _ => false

def isJournal : MetaPage → Bool
  | .journal _ _ => true
  | .ckpt _ => false

/-- Whether a journal page is on its way to flash. -/
def journalBusy (x : Shelf) : Bool := anyUse x (fun u => (metaOf u).any isJournal) || x.metaWait.any isJournal

/-- Whether a shelf writes journal pages: it is ready, or its maps are known at start-up. -/
def shelfJournals (x : Shelf) : Bool := x.state == 4 || x.boot.phase == .ring || x.boot.phase == .ckpt

/-- Whether a TRIM_KEY record of a shelf is still to reach flash. -/
def trimWaits (x : Shelf) : Bool :=
  x.tail.any (fun r => r.op == 8) || x.changes.any (fun c => match c with | .trim _ => true | _ => false)

/-- A shelf's tail goes to flash before a half is full (R441): as a journal page, one at a time. -/
def flushTail (h : Nat) (s : State) : State :=
  let x := shelfOf s h
  if !shelfJournals x || x.tail.isEmpty || journalBusy x then s else pump h (setShelf h (journalPage x) s)

/-- A journal page is programmed; in a release the rest of the tail follows while it holds a TRIM_KEY record (R441). -/
def journalWritten (h : Nat) (rs : List JRec) (x : Shelf) (s : State) : State :=
  let t := drainAll (tend h (setShelf h (journalDone rs x) s))
  if s.sec.tenancy == .releasing && trimWaits (shelfOf t h) then flushTail h t else t

/-- A program returned status 0x00 (R342, R345, R346): its stripe takes the page in; a unit, or a bale whose pages have all returned,
is mapped, its record taking the `seq` of the last of them; journal, checkpoint and root pages go on. -/
def programDone (h : Nat) (o : BridgeOp) (s : State) : State :=
  let x := shelfOf s h
  let r : PageRec := { data := o.data.take pageSize, spare := o.data.drop pageSize }
  match o.use with
  | .program u bale sb slot seq v =>
    let y := stripeDone sb slot r x
    let pending := bale && (x.ops ++ x.waiting).any (fun z =>
      match z.use with
      | .program w true sb' _ _ _ => sb' == sb && w / 64 == u / 64
      | _ => false)
    if pending then pump h (setShelf h y s)
    else
      let first := if bale then u / 64 * 64 else u
      let last := if bale then seq + 63 - (u - first) else seq
      let z := change (.map first bale sb (slot - (u - first)) last (hdrOf r.spare).keyId v.isSome) y
      let s1 := odAdd 0x6000 0x0A 64 (if v.isSome then (if bale then 64 else 1) else 0) (setShelf h z s)
      ringDone h (tendPrefix (drainAll (tend h s1)))
  | .mpage sb slot _ (.journal _ rs) => journalWritten h rs (stripeDone sb slot r x) s
  | .mpage sb slot _ (.ckpt i) => tend h (setShelf h (ckptDone i sb slot (stripeDone sb slot r x)) s)
  | .parity sb p _ => tend h (setShelf h (parityDone sb p x) s)
  | .root _ _ => rootDone h s
  | _ => tend h s

/-! ## LUNs (R331, R354) -/

/-- An operation whose LUN has left service. -/
def opOnDeadLun (h : Nat) (o : BridgeOp) (s : State) : State :=
  let x := shelfOf s h
  match o.use with
  | .param => setShelf h { x with params := x.params ++ [(16 * o.channel + o.lun, [])] } s
  | .badmap => setShelf h { x with badSeen := x.badSeen + 1 } s
  | .erase sb => eraseOver h sb s
  | .root _ _ => tend h (setShelf h (rootPage x) s)
  | .program _ _ sb _ _ _ => tend h (setShelf h (programLost s.sec.heathKeyId sb o x) s)
  | .mpage sb _ _ _ => tend h (setShelf h (programLost s.sec.heathKeyId sb o x) s)
  | .parity sb _ _ => tend h (setShelf h (programLost s.sec.heathKeyId sb o x) s)
  | .read w => startRebuild h w s
  | .rebuild w _ _ => pageGone h w (setShelf h (dropRebuild w x) s)
  | .rootRead => bootNext h (setShelf h (dropCursor o.channel o.lun x) s)
  | .scanMeta => bootNext h (setShelf h (dropCursor o.channel o.lun x) s)
  | .format => bootNext h (setShelf h (dropCursor o.channel o.lun x) s)
  | .scanRead => bootNext h s
  | _ => tend h s

/-- A LUN leaves service: its blocks take state 5, its group's closed superblocks are queued for relocation, and what waits for it
ends. -/
def lunOut (h channel lun : Nat) (op : Option BridgeOp) (s : State) : State :=
  let x := shelfOf s h
  let on (o : BridgeOp) : Bool := o.channel == channel && o.lun == lun
  let gone := (x.ops ++ x.waiting).filter on
  let entry : LunState := { channel := channel, lun := lun, out := true }
  let others := x.luns.filter (fun l => !(l.channel == channel && l.lun == lun))
  let group := (x.geom.map (fun g => groupOfLun g channel lun)).getD 0
  let closed := (x.sbs.filter (fun b => b.group == group && (b.state == 2 || b.state == 3))).map (fun b => b.id)
  let x1 := { x with
    luns := others ++ [entry]
    blocks := mapIf (fun (b : BlockEnt) => b.channel == channel && b.lun == lun && b.state == 0) (fun b => { b with state := 5 }) x.blocks
    ops := x.ops.filter (fun o => !on o)
    waiting := x.waiting.filter (fun o => !on o)
    lunMoves := x.lunMoves ++ closed.filter (fun id => !x.relocate.contains id) }
  let s1 := setShelf h (closed.foldl (fun y id => relocate id y) x1) s
  let s2 := faultEvent .heathLun (unitHeathPort h) (channel + lun * 2 ^ 8) none .media 0 s1
  tend h (forEach (fun o t => opOnDeadLun h o t) ((op.toList ++ gone).filter (fun o => o.op != brReset)) s2)

/-- A LUN does not respond: one RESET, and the operation again; it leaves service if it fails again. What a LUN out of service is
still asked for, as the page of a stripe, fails (R354). -/
def lunSilent (h : Nat) (o : BridgeOp) (s : State) : State :=
  let x := shelfOf s h
  if lunOutOf x o.channel o.lun then tend h (opOnDeadLun h o s)
  else if o.op == brReset || x.luns.any (fun l => l.channel == o.channel && l.lun == o.lun) then
    lunOut h o.channel o.lun (some o) s
  else
    let entry : LunState := { channel := o.channel, lun := o.lun, out := false }
    let x1 := { x with luns := x.luns ++ [entry], waiting := o :: x.waiting }
    pump h (setShelf h (queueOp brReset o.channel o.lun 0 0 .reset x1) s)

/-- A LUN has served an operation: a reset it had is forgotten. -/
def lunWell (o : BridgeOp) (x : Shelf) : Shelf :=
  if o.op == brReset then x
  else { x with luns := x.luns.filter (fun l => l.out || !(l.channel == o.channel && l.lun == o.lun)) }

/-! ## Responses -/

/-- Whether the data that a response brings have the length that R329 gives; one that reports a failure brings none. -/
def bringsData (b : BridgeHdr) (n : Nat) (actual : Nat) : Bool := b.status != 0 || (b.length.toNat == n && actual == n)

/-- Deal with a bridge response (R328 to R331): one that answers nothing asked, or is none by its flags or length (`ok`), is ignored;
status 0x05 is a LUN that does not respond; status 0x06 is a fault of the device, and the operation is asked again (log entry 25). -/
def answer (h code : Nat) (b : BridgeHdr) (ok : Bool) (act : BridgeOp → State → State) (s : State) : State :=
  let x := shelfOf s h
  match x.ops.find? (fun o => o.tag == b.tag.toNat && o.op == code) with
  | none => s
  | some o =>
    let x1 := { x with ops := x.ops.filter (fun y => y.tag != o.tag) }
    if !heathUp s h || !b.flags.getLsbD 0 || !ok then s
    else if b.status = 6 then
      let detail := o.op + o.channel * 2 ^ 8 + o.lun * 2 ^ 16 + o.tag * 2 ^ 24
      pump h (setShelf h { x1 with waiting := o :: x1.waiting } (fault .heathBridge (unitHeathPort h) detail none s))
    else if b.status = 5 && o.op != brIdentify then lunSilent h o (setShelf h x1 s)
    else act o (setShelf h (lunWell o x1) s)

/-! ## Discovery (R326, R332) -/

/-- What R326 asks of a shelf record. -/
def shelfRecOk (r : ShelfRec) : Bool :=
  (r.channels == 16 || r.channels == 32) && 1 ≤ r.luns && r.luns ≤ 16 && 1 ≤ r.blocks && r.blocks ≤ 8192 &&
  r.pages % 64 == 0 && 64 ≤ r.pages && r.pages ≤ 4096 && r.pageBytes == 16384 && 128 ≤ r.metaBytes && r.tRead ≤ 40 &&
  r.tProg ≤ 150 && r.tErase ≤ 10

/-- Ask for the parameter page and the bad-block bitmap of every LUN. -/
def askLuns (r : ShelfRec) (x : Shelf) : Shelf :=
  (List.range (r.channels * r.luns)).foldl (fun y i =>
    queueOp brBadmap (i / r.luns) (i % r.luns) 0 0 .badmap (queueOp brParam (i / r.luns) (i % r.luns) 0 0 .param y)) x

/-- IDENTIFY response: a bridge that does not meet R326 leaves its shelf refused. -/
def identified (h : Nat) (b : BridgeHdr) (r : ShelfRec) (s : State) : State :=
  let x := shelfOf s h
  if x.state != 1 then s
  else if b.status != 0 || !shelfRecOk r then setShelf h { x with state := 6, geom := none } s
  else
    pump h (setShelf h (askLuns r { x with
      geom := some r
      capability := b.capability.toNat
      params := []
      badSeen := 0 }) s)

def execIdentify (shelf : Nat) (h : BridgeHdr) (r : ShelfRec) (s : State) : Host.Outcome State Fault Refusal :=
  .next (answer shelf brIdentify h (bringsData h 64 64) (fun _ => identified shelf h r) s)

/-- PARAM response: the LUN's parameter page is kept. -/
def paramSeen (h : Nat) (data : Bytes) (o : BridgeOp) (s : State) : State :=
  pump h (setShelf h { shelfOf s h with params := (shelfOf s h).params ++ [(16 * o.channel + o.lun, data)] } s)

def execParam (shelf : Nat) (h : BridgeHdr) (s : State) : Host.Outcome State Fault Refusal :=
  .next (answer shelf brParam h (bringsData h 256 h.data.length) (paramSeen shelf h.data) s)

/-- Bytes of a bad-block bitmap of a shelf's LUNs (R329). -/
def badmapBytes (x : Shelf) : Nat := ceilDiv ((x.geom.map (fun g => g.blocks)).getD 0) 8

/-- BADMAP response: factory-marked blocks enter the block table (R332, R343). -/
def badmapSeen (h : Nat) (o : BridgeOp) (bad : List Nat) (s : State) : State :=
  let x := shelfOf s h
  let mark (y : Shelf) (n : Nat) : Shelf :=
    let b := blockEnt y o.channel o.lun n
    if b.state == 0 then setBlock { b with state := 1 } y else y
  let limit := (x.geom.map (fun g => g.blocks)).getD 0
  let x1 := (bad.filter (fun n => n < limit)).foldl mark x
  pump h (setShelf h { x1 with badSeen := x1.badSeen + 1 } s)

def execBadmap (shelf : Nat) (h : BridgeHdr) (bad : List Nat) (s : State) : Host.Outcome State Fault Refusal :=
  .next (answer shelf brBadmap h (bringsData h (badmapBytes (shelfOf s shelf)) (badmapBytes (shelfOf s shelf)))
    (fun o => badmapSeen shelf o bad) s)

/-! ## Array operations -/

/-- READ response (R348, R352, R353). -/
def readDone (h : Nat) (b : BridgeHdr) (r : PageRec) (o : BridgeOp) (s : State) : State :=
  pageRead h o b.status.toNat r (setShelf h (noteRead s o b.corrected.toNat (shelfOf s h)) s)

def execBridgeRead (shelf : Nat) (h : BridgeHdr) (rec : PageRec) (s : State) : Host.Outcome State Fault Refusal :=
  .next (answer shelf brRead h (bringsData h 16512 (if rec.data.length = pageSize then pageSize + rec.spare.length else 0))
    (readDone shelf h rec) s)

/-- READ_META response (R339, R348). -/
def metaDone (h : Nat) (b : BridgeHdr) (spare : Bytes) (o : BridgeOp) (s : State) : State :=
  bootNext h (setShelf h (headSeen b.status.toNat spare o (noteRead s o b.corrected.toNat (shelfOf s h))) s)

def execReadMeta (shelf : Nat) (h : BridgeHdr) (spare : Bytes) (s : State) : Host.Outcome State Fault Refusal :=
  .next (answer shelf brReadMeta h (bringsData h spareSize spare.length) (metaDone shelf h spare) s)

/-- PROGRAM response (R342, R354). -/
def programAnswer (h : Nat) (b : BridgeHdr) (o : BridgeOp) (s : State) : State :=
  if b.status = 0 then programDone h o s else programFailed h o s

def execProgram (shelf : Nat) (h : BridgeHdr) (s : State) : Host.Outcome State Fault Refusal :=
  .next (answer shelf brProgram h (bringsData h 0 0) (programAnswer shelf h) s)

/-- An erase of a format has been answered (R335, R354). -/
def formatErased (h : Nat) (b : BridgeHdr) (o : BridgeOp) (s : State) : State :=
  let e := blockEnt (shelfOf s h) o.channel o.lun o.block
  let s1 :=
    if b.status = 0 then setShelf h (setBlock { e with erases := e.erases + 1, reads := 0 } (shelfOf s h)) s
    else fault .heathErase (unitHeathPort h) (blockDetail o) none (retire 3 o h s)
  bootNext h (setShelf h (stepCursor o false (shelfOf s1 h)) s1)

/-- An erase of a root block has been answered. -/
def rootErased (h : Nat) (b : BridgeHdr) (o : BridgeOp) (s : State) : State :=
  let e := blockEnt (shelfOf s h) o.channel o.lun o.block
  tend h (if b.status = 0 then setShelf h (setBlock { e with erases := e.erases + 1, reads := 0 } (shelfOf s h)) s
    else fault .heathErase (unitHeathPort h) (blockDetail o) none (retire 3 o h s))

/-- ERASE response (R335, R351, R354). -/
def eraseAnswer (h : Nat) (b : BridgeHdr) (o : BridgeOp) (s : State) : State :=
  match o.use with
  | .erase sb => if b.status = 0 then eraseDone h sb o s else eraseFailed h sb o s
  | .format => formatErased h b o s
  | .rootErase => rootErased h b o s
  | _ => s

def execErase (shelf : Nat) (h : BridgeHdr) (s : State) : Host.Outcome State Fault Refusal :=
  .next (answer shelf brErase h (bringsData h 0 0) (eraseAnswer shelf h) s)

/-- RESET response (R354): the LUN has recovered and what waits for it goes out, or it leaves service. -/
def resetAnswer (h : Nat) (b : BridgeHdr) (o : BridgeOp) (s : State) : State :=
  if b.status = 0 then pump h s else lunOut h o.channel o.lun none s

def execBridgeReset (shelf : Nat) (h : BridgeHdr) (s : State) : Host.Outcome State Fault Refusal :=
  .next (answer shelf brReset h (bringsData h 0 0) (resetAnswer shelf h) s)

/-- BRIDGE_RESPONSE_TIMEOUT (R331): 50 ms without a response make the LUN count as not responding. -/
def responseLate (h tag : Nat) (s : State) : State :=
  let x := shelfOf s h
  match x.ops.find? (fun o => o.tag == tag && o.at_ + 50000000 ≤ s.now) with
  | none => s
  | some o =>
    if !heathUp s h then s
    else
      let s1 := setShelf h { x with ops := x.ops.filter (fun y => y.tag != tag) } s
      if o.op == brIdentify then setShelf h { shelfOf s1 h with state := 6, geom := none } s1 else lunSilent h o s1

def execBridgeResponseTimeout (shelf : Nat) (tag : U16) (s : State) : Host.Outcome State Fault Refusal :=
  .next (responseLate shelf tag.toNat s)

/-! ## Journal and checkpoints (R345, R346) -/

/-- JOURNAL_HALF_FULL: a half of 512 records is programmed as one journal page. -/
def journalHalf (h : Nat) (s : State) : State :=
  let x := shelfOf s h
  if !shelfJournals x || x.tail.length < 512 || journalBusy x || s.power.kiln.sag.isSome then s
  else pump h (setShelf h (journalPage x) s)

def execJournalHalfFull (shelf : Nat) (s : State) : Host.Outcome State Fault Refusal := .next (journalHalf shelf s)

/-- CHECKPOINT: due after OD 0x6000:07 journal pages, one at a time (R346). -/
def checkpointDue (h : Nat) (s : State) : State :=
  let x := shelfOf s h
  if x.state != 4 || x.journalPages < od s 0x6000 0x07 || x.ckpt.isSome || anyUse x isRootUse || s.power.kiln.sag.isSome then s
  else pump h (setShelf h (startCkpt x) s)

def execCheckpoint (shelf : Nat) (s : State) : Host.Outcome State Fault Refusal := .next (checkpointDue shelf s)

def execGarbageCollection (shelf : Nat) (s : State) : Host.Outcome State Fault Refusal := .next (gcStart shelf s)

/-! ## Scans and formats asked for (R335, R348) -/

/-- OD 0x6000:11: full scans of the ready shelves named (R348, R358). -/
def startFullScan (mask : Nat) (s : State) : Status × State :=
  if owned s then (.conflict, s)
  else
    (.ok, forEach (fun h t => if bitOf mask h && (shelfOf t h).state == 4 then startScan h 2 t else t) (List.range 16) s)

/-- OD 0x6100+h:0E: format a refused shelf (R335); a shelf in another state is not formatted (log entry 27). -/
def startFormat (h : Nat) (s : State) : Status × State :=
  if owned s || (shelfOf s h).state != 6 || (shelfOf s h).geom.isNone || !heathUp s h then (.conflict, s)
  else (.ok, beginFormat h s)

/-! ## Start-up (R356) -/

/-- SHELF_STARTUP (R335, R356): once every LUN has told of itself the root blocks are read. `found` are the superblocks that the flash
holds and no checkpoint names. -/
def shelfStartup (h : Nat) (found : List SbFound) (s : State) : State :=
  let x := shelfOf s h
  match x.geom with
  | none => s
  | some g =>
    let luns := g.channels * g.luns
    if x.state != 1 || x.boot.phase != .none || x.badSeen < luns || x.params.length < luns || !heathUp s h then s
    else pump h (setShelf h (startRoots found x) s)

def execShelfStartup (shelf : Nat) (found : List SbFound) (s : State) : Host.Outcome State Fault Refusal :=
  .next (shelfStartup shelf found s)

/-! ## Ports (R354) -/

/-- What a shelf keeps when its maps are lost: the journal tail and the pages of the save ring, which lie in the kiln domain, a key to
trim, and what it has counted. -/
def bareShelf (x : Shelf) : Shelf :=
  { no := x.no, tail := x.tail, sealed := x.sealed, trims := x.trims, discards := x.discards, nextTag := x.nextTag }

/-- A heath port leaves service: FLT_HEATH_PORT with its event, and operations on its shelf wait; a shelf not yet ready
starts again from discovery. -/
def heathPortDown (h : Nat) (s : State) : State :=
  let x := shelfOf s h
  let x1 : Shelf :=
    if x.state == 4 then { x with state := 5, downAt := s.now, waiting := x.ops ++ x.waiting, ops := [] }
    else if x.state == 5 then x
    else bareShelf x
  faultEvent .heathPort (unitHeathPort h) 0 none .media 0 (setShelf h x1 s)

/-- A shelf is discovered (R332): IDENTIFY goes out. -/
def discoverShelf (h : Nat) (s : State) : State :=
  pump h (setShelf h (queueOp brIdentify 0 0 0 0 .identify { bareShelf (shelfOf s h) with state := 1 }) s)

/-- A heath port is in service: a shelf that was out of service goes on, another one is discovered (R332). -/
def heathPortUp (h : Nat) (s : State) : State :=
  let x := shelfOf s h
  if x.state == 5 then portReturns h (tend h (setShelf h { x with state := 4 } s)) else discoverShelf h s

end Sys2Proof.Machine
end

