-- ==== Sys2Proof/Machine/Leases.lean ====
section
/-! DEFINITION. Leases of pasture (R315 to R318): what a lender and a borrower do at each lease message, at the loss of a
lease, and when a recall is due. A borrowed lease is held under its port and its lender's number together, since each
lender numbers its own leases. -/

namespace Sys2Proof.Machine

def gib : Nat := 2 ^ 30

/-- The number under which a neighbour's lease is held. -/
def leaseKey (port id : Nat) : Nat := port * 65536 + id

/-- Bytes a lender can still lend, in whole GiB: within its lend limit and what is free beyond every guarantee (R306,
R316). Only an owned device lends, since one that leaves OWNED recalls every lease (R318; DEDUCED, log entry 20). -/
def lendable (s : State) : Nat :=
  if !owned s then 0
  else min (od s 0x5010 0x01 - lentBytes s) ((poolFree s - owedOthers s 32) * 4096) / gib * gib

def setLeases (f : List Lease → List Lease) (s : State) : State :=
  { s with pasture := { s.pasture with leases := f s.pasture.leases } }

/-- A REQUEST: the lender grants up to `bytes`, or refuses (R316). -/
def leaseRequest (port : Nat) (m : LeaseMsg) (s : State) : State :=
  let n := min (m.bytes.toNat / gib * gib) (lendable s)
  if n = 0 then sendLease port 3 { m with lender := s.sec.unitId } s
  else
    let id := s.pasture.lastLease % 65535 + 1
    let base := freeOf 64 s
    let l : Lease := { id := id, port := port, lent := true, bytes := n, notice := od s 0x5010 0x02, lender := s.sec.unitId,
                       borrower := m.borrower, base := base.toNat }
    let r : LeaseMsg := { lease := BitVec.ofNat 16 id, notice := BitVec.ofNat 32 l.notice, bytes := BitVec.ofNat 64 n,
                          lender := s.sec.unitId, borrower := m.borrower, base := base }
    sendLease port 2 r (drawn { s with pasture := { leases := s.pasture.leases ++ [l], lastLease := id } })

/-- A GRANT adds a lease to the borrower's pasture (R316), under random pasture keys (R452). -/
def leaseGrant (port : Nat) (m : LeaseMsg) (s : State) : State :=
  let l : Lease := { id := leaseKey port m.lease.toNat, port := port, lent := false, bytes := m.bytes.toNat,
                     notice := m.notice.toNat, lender := m.lender, borrower := m.borrower, base := m.base.toNat,
                     key := freeOf 768 s }
  drawn (setLeases (fun ls => ls.filter (fun x => x.lent || x.id != l.id) ++ [l]) s)

/-- Take bytes off a lent lease; a lease of no bytes is over. -/
def freeLent (port id bytes : Nat) (recalls : Bool) (s : State) : State :=
  setLeases (fun ls => (ls.map (fun x =>
    if x.lent && x.port == port && x.id == id then
      { x with bytes := x.bytes - bytes, recalls := if recalls then [] else x.recalls }
    else x)).filter (fun x => !x.lent || x.bytes != 0)) s

/-- A RETURN: the lender frees the bytes (R316). -/
def leaseReturn (port : Nat) (m : LeaseMsg) (s : State) : State := freeLent port m.lease.toNat m.bytes.toNat false s

/-- A DONE: the lender frees the recalled bytes (R317). -/
def leaseDone (port : Nat) (m : LeaseMsg) (s : State) : State := freeLent port m.lease.toNat m.bytes.toNat true s

/-- Ask back bytes of a lent lease with its minimum notice (R316, R318). -/
def recallLent (id bytes : Nat) (s : State) : State :=
  match s.pasture.leases.find? (fun l => l.lent && l.id == id) with
  | none => s
  | some l =>
    if bytes = 0 then s
    else
      let m : LeaseMsg := { lease := BitVec.ofNat 16 id, notice := BitVec.ofNat 32 l.notice, bytes := BitVec.ofNat 64 bytes,
                            lender := l.lender, borrower := l.borrower }
      let r : Recall := { bytes := bytes, due := 0, late := false }
      sendLease l.port 5 m (setLeases (fun ls => ls.map (fun x =>
        if x.lent && x.id == id then { x with recalls := x.recalls ++ [r] } else x)) s)

/-- Bytes of a lease not yet asked back. -/
def unrecalled (l : Lease) : Nat := l.bytes - sumBy (fun r => r.bytes) l.recalls

/-- A lender that leaves OWNED recalls every lease (R318). -/
def recallAll (s : State) : State :=
  forEach (fun (l : Lease) => onlyIf l.lent (recallLent l.id (unrecalled l))) s.pasture.leases s

/-- Recalls that a lowered lend limit asks for, newest lease first (R321). -/
def recallExcess : List Lease → Nat → State → State
  | [], _, s => s
  | l :: ls, n, s =>
    let b := min (unrecalled l) (ceilDiv n gib * gib)
    if n = 0 then s else recallExcess ls (n - b) (recallLent l.id b s)

/-- What a new lend limit asks for (R321): recalls, never a cancelled lease. -/
def applyLendLimit (s : State) : State :=
  let lent := s.pasture.leases.filter (fun l => l.lent)
  recallExcess lent.reverse (sumBy unrecalled lent - od s 0x5010 0x01) s

/-! ## The borrower's side of a recall -/

def inLease (id : Nat) (l : Loc) : Bool := l.tier == .pasture && l.unit == id

/-- Images in a lease: columns, and extents by object and index. -/
def leaseImages (s : State) (id : Nat) : List MoveItem :=
  (s.kv.cols.filter (fun c => c.image.any (inLease id))).map (fun c => MoveItem.col c.slot) ++
  s.objs.objs.flatMap (fun o =>
    ((indexed o.exts).filter (fun x => x.2.image.any (inLease id))).map (fun x => MoveItem.ext o.id x.1))

/-- Homes in a lease, with their partitions. -/
def leaseHomes (s : State) (id : Nat) : List (Nat × Nat × MoveItem) :=
  (s.kv.cols.filter (fun c => inLease id c.home)).map (fun c => (c.part, columnUnits s c.model, MoveItem.col c.slot)) ++
  s.objs.objs.flatMap (fun o =>
    ((indexed o.exts).filter (fun x => inLease id x.2.home)).map (fun x => (o.part, extUnits o x.1, MoveItem.ext o.id x.1)))

def dropImageOf (i : MoveItem) (s : State) : State :=
  match i with
  | .col k => dropColImage k s
  | .ext id n => dropExtImage id n s
  | .plain _ => s

/-- Whether a copy of an item is under way. -/
def itemMoving (s : State) (i : MoveItem) : Bool := s.objs.moves.any (fun m => m.item == i)

/-- Start the move of a home out of a recalled lease: to meadow if R306 allows it, otherwise to heath (R317). An item whose copy is under
way, or that neither tier takes now, is tried again later. -/
def recallMove (lease : Nat) (i : MoveItem) (s : State) : State :=
  let go (t : Tier) : Except Status (Option Nat × State) :=
    match i with
    | .col k =>
      match findCol s k with
      | some c => moveCol t 0 (.recall lease) c s
      | none => .error .badObject
    | .ext id n => moveExt t 0 (.recall lease) id n s
    | .plain _ => .error .badObject
  if itemMoving s i then s
  else
    match go .meadow with
    | .ok r => r.2
    | .error _ =>
      match go .heath with
      | .ok r => r.2
      | .error _ => s

/-- The homes to move for `n` units to become empty, in order. -/
def takeUnits : Nat → List (Nat × Nat × MoveItem) → List (Nat × Nat × MoveItem)
  | _, [] => []
  | n, x :: xs => if n = 0 then [] else x :: takeUnits (n - x.2.1) xs

/-- The homes that lie in the recalled bytes of a lease: those whose copy out of it is under way first. -/
def recalledHomes (s : State) (l : Lease) : List (Nat × Nat × MoveItem) :=
  let left := leaseUnits (l.bytes - sumBy (fun x => x.bytes) l.recalls)
  let homes := leaseHomes s l.id
  takeUnits (leaseUse s l.id - left) (homes.filter (fun x => itemMoving s x.2.2) ++ homes.filter (fun x => !itemMoving s x.2.2))

/-- Recalls go on until their bytes are empty, and DONE is sent (R317). -/
def tendRecall (id : Nat) (s : State) : State :=
  match s.pasture.leases.find? (fun l => !l.lent && l.id == id && !l.recalls.isEmpty && l.lostAt.isNone) with
  | none => s
  | some l => recallSettle id (forEach (fun x => recallMove id x.2.2) (recalledHomes s l) s)

def tendRecalls (s : State) : State :=
  forEach (fun (l : Lease) => onlyIf (!l.lent && !l.recalls.isEmpty) (tendRecall l.id)) s.pasture.leases s

/-- A RECALL (R317): images in the lease are dropped, the homes that the recalled bytes hold start to move, each
partition concerned is told the units affected, and DONE follows once the bytes are empty. -/
def leaseRecall (port : Nat) (m : LeaseMsg) (s : State) : State :=
  let id := leaseKey port m.lease.toNat
  match s.pasture.leases.find? (fun l => !l.lent && l.id == id) with
  | none => s
  | some l =>
    let r : Recall := { bytes := m.bytes.toNat, due := Pos.mk (Pos.step s.wheel.cur + m.notice.toNat) 0 0, late := false }
    let l1 := { l with recalls := l.recalls ++ [r] }
    let s1 := setLeases (fun ls => ls.map (fun x => if !x.lent && x.id == id then l1 else x)) s
    let s2 := forEach dropImageOf (leaseImages s1 id) s1
    let old := recalledHomes s2 l
    let homes := (recalledHomes s2 l1).filter (fun x => !old.contains x)
    let parts := (homes.map (fun x => x.1)).dedup
    let s3 := forEach (fun p => event .peerRecall (some p) 0 0
      (sumBy (fun (x : Nat × Nat × MoveItem) => if x.1 = p then x.2.1 else 0) homes % 2 ^ 32 * 2 ^ 32)) parts s2
    tendRecall id s3

/-- Recalls whose position has been reached with bytes not yet empty: FLT_PASTURE_LATE, once each (R317). -/
def recallsDue (w : WPos) (s : State) : State :=
  forEach (fun (l : Lease) s' =>
    let due := l.recalls.filter (fun r => !l.lent && !r.late && r.due.toNat ≤ w.toNat)
    if due.isEmpty then s'
    else
      forEach (fun (r : Recall) => fault .pastureLate (unitPeerPort l.port) (r.due.toNat + l.id % 65536 * 2 ^ 64) none) due
        (setLeases (fun ls => ls.map (fun x =>
          if x.lent || x.id != l.id then x
          else { x with recalls := x.recalls.map (fun r => if r.due.toNat ≤ w.toNat then { r with late := true } else r) })) s'))
    s.pasture.leases (tendRecalls s)

/-! ## A lease that is lost (R318) -/

/-- The home of an item in a lost lease enters the poison flow (source 2, offset 0). -/
def poisonHome (id : Nat) (x : Nat × Nat × MoveItem) (s : State) : State :=
  let l : Loc := { tier := .pasture, unit := id }
  match x.2.2 with
  | .col k => poisonCol k (poisonFault 2 l 0 x.1 s)
  | .ext o _ => poisonObj o (poisonFault 2 l 0 x.1 s)
  | .plain _ => s

/-- A borrowed lease is lost: copies into it fail, images in it are dropped, homes in it are poisoned. -/
def loseLease (id : Nat) (s : State) : State :=
  let s0 := forEach (fun (m : Move) => onlyIf (inLease id m.dest) (failMove m .peerUnreachable)) s.objs.moves s
  let s1 := forEach dropImageOf (leaseImages s0 id) s0
  let homes := leaseHomes s1 id
  let s2 := forEach (poisonHome id) homes s1
  setLeases (fun ls => ls.map (fun l => if !l.lent && l.id == id then { l with lostAt := some s2.now } else l)) s2

/-- What a lease control message does (R316, R317); a REFUSE tells the borrower that nothing was granted. -/
def leaseAct (kind port : Nat) (m : LeaseMsg) (s : State) : State :=
  match kind with
  | 1 => leaseRequest port m s
  | 2 => leaseGrant port m s
  | 4 => leaseReturn port m s
  | 5 => leaseRecall port m s
  | 6 => leaseDone port m s
  | _ => s

/-- The message of a 64-byte payload (R315), after its type. -/
def leaseOf (bs : Bytes) : LeaseMsg :=
  { lease := BitVec.ofNat 16 (fieldAt bs 2 2), notice := BitVec.ofNat 32 (fieldAt bs 4 4), bytes := BitVec.ofNat 64 (fieldAt bs 8 8),
    lender := BitVec.ofNat 128 (fieldAt bs 16 16), borrower := BitVec.ofNat 128 (fieldAt bs 32 16), base := BitVec.ofNat 64 (fieldAt bs 48 8) }

/-- A neighbour is out of reach: every lease borrowed over the port is lost, every lease lent over it starts its hold. -/
def loseNeighbour (port : Nat) (s : State) : State :=
  let s1 := forEach (fun (l : Lease) => onlyIf (!l.lent && l.port == port && l.lostAt.isNone) (loseLease l.id)) s.pasture.leases s
  setLeases (fun ls => ls.map (fun l => if l.lent && l.port == port && l.lostAt.isNone then { l with lostAt := some s1.now } else l)) s1

/-- The lender frees the bytes of a borrower out of reach once OD 0x5010:03 has passed (R318). -/
def holdExpiry (lease : Nat) (s : State) : State :=
  setLeases (fun ls => ls.filter (fun l =>
    !(l.lent && l.id == lease && l.lostAt.any (fun t => t + od s 0x5010 0x03 * 1000000 ≤ s.now)))) s

/-- A REQUEST is sent only while borrowing is enabled (R316). -/
def borrow (port bytes : Nat) (s : State) : State :=
  if od s 0x5010 0x04 = 0 then s
  else
    let m : LeaseMsg := { bytes := BitVec.ofNat 64 bytes, lender := (s.links.ports.getD port {}).neighbour, borrower := s.sec.unitId }
    sendLease port 1 m s

def execBorrowerHoldExpiry (lease : Nat) (s : State) : Host.Outcome State Fault Refusal := .next (holdExpiry lease s)
end Sys2Proof.Machine
end

