-- ==== Sys2Proof/Machine/Frames.lean ====
section
/-! DEFINITION. Frames of an Isver link as they go onto its lanes (R397 to R401, R403, R407). -/

namespace Sys2Proof.Machine

/-! ## Payloads -/

/-- A payload of 220 bytes: the bytes given and zeros to the end. -/
def padFrame (bs : Bytes) : Bytes := bs.take 220 ++ List.replicate (220 - bs.length) 0

/-- The payload of a control frame (R403): CREDIT, NAK or LANE. -/
def creditPayload (h : Nat) (rcvd freed : List Nat) : Bytes :=
  padFrame (recordOf ((8, h) :: ((List.range 4).map (fun c => (8, nth rcvd c)) ++ (List.range 4).map (fun c => (8, nth freed c)))))
def nakPayload (e : Nat) : Bytes := padFrame (natLe 8 e)
def lanePayload (mask c : Nat) : Bytes := padFrame (natLe 1 mask ++ List.replicate 7 0 ++ natLe 8 c)

/-- The payload of the `i`-th frame of a packet or message, which starts in a frame of its own, and its `start_off` (R399, R401; that
none begins behind another in one frame is a DESIGN CHOICE, log entry 159). -/
def chunkOf (bs : Bytes) (i : Nat) : Bytes := padFrame (bs.drop (220 * i))
def chunkStart (i : Nat) : Nat := if i = 0 then 0 else 0xFFFF

/-! ## Error correction (R400) -/

/-- A product in GF(2^8) with the field polynomial of R400. -/
def gfMul (a b : Nat) : Nat :=
  ((List.range 8).foldl (fun (st : Nat × Nat) i =>
    (if bitOf b i then st.1 ^^^ st.2 else st.1, if 128 ≤ st.2 then (2 * st.2) ^^^ 0x11D else 2 * st.2)) (0, a)).1

/-- The generator polynomial's coefficients below x^8, from x^7 down: roots α^0 to α^7 (R400). -/
def rsGenerator : List Nat :=
  ((List.range 8).foldl (fun (st : List Nat × Nat) _ =>
    (List.zipWith (fun a b => a ^^^ b) (st.1 ++ [0]) (0 :: st.1.map (gfMul st.2)), gfMul 2 st.2)) ([1], 1)).1.drop 1

/-- The remainder after one more data byte. -/
def rsStep (g par : List Nat) (b : Nat) : List Nat :=
  let f := b ^^^ nth par 0
  List.zipWith (fun p c => p ^^^ gfMul f c) (par.drop 1 ++ [0]) g

/-- The 8 parity bytes of 120 data bytes, both highest power first (R400; the order is a DESIGN CHOICE, log entry 138). -/
def rsParity (data : Bytes) : Bytes :=
  (data.foldl (fun par b => rsStep rsGenerator par b.toNat) (List.replicate 8 0)).map (BitVec.ofNat 8)

/-- Every second byte of a string, from its first. -/
def everyOther : Bytes → Bytes
  | [] => []
  | [b] => [b]
  | b :: _ :: bs => b :: everyOther bs

/-! ## Frames -/

/-- A frame's header (R399): its class is that of a DATA frame. -/
def frameHdr (ftype cls epoch ctr start : Nat) : Bytes :=
  recordOf [(1, ftype), (1, epoch % 2 + 4 * cls), (2, ctr), (2, start), (2, 0)]

/-- The key and salt under which a port sends in its epoch (R407). -/
def portKey (s : State) (n : Nat) : Bytes :=
  let p := portOf s n
  p.secret.elim [] (fun x => linkKey x s.sec.unitId p.neighbour (32 ≤ n) p.txEpoch)

/-- A frame on the wire (R398, R400, R407): header, encrypted payload and 96-bit tag, and the parities of codewords A and B. -/
def frameWire (key : Bytes) (ctr : Nat) (header payload : Bytes) : Bytes :=
  let b := header ++ (Config.gcmSeal (key.take 32) (saltNonce (key.drop 32) ctr) header payload).take 232
  b ++ rsParity (everyOther b) ++ rsParity (everyOther (b.drop 1))

/-- The active lane, by its place among those of a mask in ascending order, of word `i` of the word stream (R397). -/
def wordLane (mask i : Nat) : Nat :=
  let lanes := (List.range 8).filter (fun l => bitOf mask l)
  nth lanes (i % lanes.length)

/-- A slot in which each lane carries its 32-byte alignment marker in place of a frame (R397). Which of every 65,536 it is is not
said: the first (DESIGN CHOICE, log entry 138). -/
def markerSlot (slot : Nat) : Bool := slot % 65536 == 0

/-- How long a frame slot lasts on `n` lanes, in picoseconds, rounded up (R397). -/
def slotPs (n : Nat) : Nat := ceilDiv 16000 n

end Sys2Proof.Machine
end

