-- ==== Sys2Proof/Machine/LinkOps.lean ====
section
/-! DEFINITION. What every part of a link uses: lanes, frames sent (R399, R402, R406), and a port going down (R396). -/

namespace Sys2Proof.Machine

/-- Index of a port's record (R419). -/
def portIx (n : Nat) : Nat := 0x7120 + n

def isHeathPort (n : Nat) : Bool := 32 ≤ n

/-- The lanes a port uses (R392). -/
def allLanes (n : Nat) : Nat := if n < 32 then 0xFF else 0x0F

def laneCount (mask : Nat) : Nat := ((List.range 8).filter (fun i => bitOf mask i)).length

/-- The fewest lanes with which a port stays up (R396). -/
def minLanes (s : State) (n : Nat) : Nat := od s 0x7100 (if n < 32 then 0x02 else 0x03)

/-- Bit 8 or 64 of the details that tell a heath port (R517). -/
def heathBit (n bit : Nat) : Nat := if n < 32 then 0 else 2 ^ bit

/-- Number of a port in its kind: detail and unit fields. -/
def laneSet (m lane : Nat) : Nat := if bitOf m lane then m else m + 2 ^ lane
def laneClear (m lane : Nat) : Nat := if bitOf m lane then m - 2 ^ lane else m

/-- State 3, degraded, while a lane is out of service in either direction (R419). -/
def upState (n tx rx : Nat) : Nat := if tx = allLanes n && rx = allLanes n then 2 else 3

/-- Count a retrain and start again from step 1 (R395). -/
def retrain (n : Nat) (s : State) : State :=
  bump32 (portIx n) 0x0C (editPort n (fun p => { p with
    state := 1, step := 1, stepAt := s.now, secret := none, keySent := false, keyIn := none, proofSent := false }) s)

/-- A port that is up goes down and retrains (R396); what its frames carried is lost, and a heath port's shelf waits
(R354). -/
def portDown (n : Nat) (s : State) : State :=
  if !portUp s n then s
  else
    let s1 := editPort n (fun p => { p with
      sentTo := [], rxLost := false, nakAt := none, agree := none, laneSwitch := none, laneBad := [],
      queues := if isHeathPort n then [] else p.queues }) s
    let s2 := retrain n s1
    if isHeathPort n then heathPortDown (n - 32) s2 else s2

/-- Take a port down where too few lanes are left (R396), and show whether it is degraded. -/
def lanesChanged (n : Nat) (s : State) : State :=
  let p := portOf s n
  if laneCount p.txLanes < minLanes s n || laneCount p.rxLanes < minLanes s n then portDown n s
  else editPort n (fun x => { x with state := if x.state == 2 || x.state == 3 then upState n x.txLanes x.rxLanes else x.state }) s

/-- The sender moves to the next key epoch after OD 0x7100:01 frames (R408). -/
def rekeyLink (n : Nat) (s : State) : State :=
  if od s 0x7100 0x01 ≤ (portOf s n).epochFrames then
    editPort n (fun p => { p with txEpoch := p.txEpoch + 1, epochFrames := 0 }) s
  else s

/-- What the frames of queue `q` of a port belong to (R491): flash traffic goes out for no partition (log entry 103). -/
def portOcc (n q : Nat) : Occ := if isHeathPort n then { cls := 4 } else { part := some (q / 4), cls := 3 }

/-- Send one frame: the counters advance, and a lane change agreed for its counter takes effect (R402, R411). A DATA frame of queue
`data` counts against its class (R406) and as events 0x0201 and 0x0202 (R488); DATA frames, and LANE frames of heath ports, are remembered, the latter ports' with their bytes (R403). -/
def frameOut (n ftype : Nat) (data : Option Nat) (start : Nat) (payload : Bytes) (s0 : State) : State :=
  let s := rekeyLink n s0
  let p := portOf s n
  let ctr := p.txCtr
  let wire := frameWire (portKey s n) ctr (frameHdr ftype (data.getD 0 % 4) p.txEpoch ctr start) payload
  let kept := if isHeathPort n then wire else []
  let entry : List SentFrame :=
    match data with
    | some q => [{ ctr := ctr, cls := q % 4, wire := kept }]
    | none => if ftype = 4 && isHeathPort n then [{ ctr := ctr, cls := 4, wire := kept }] else []
  let switched : Option Nat := (p.laneSwitch.filter (fun x => x.2 ≤ ctr)).map (fun x => x.1)
  let s1 := editPort n (fun x => { x with
    txCtr := ctr + 1
    epochFrames := x.epochFrames + 1
    sent := match data with | some q => addAt x.sent (q % 4) 1 | none => x.sent
    sentTo := x.sentTo ++ entry
    txLanes := switched.getD x.txLanes
    laneSwitch := if switched.isSome then none else x.laneSwitch }) s
  let counted (q : Nat) (t : State) : State := count (.port n) 0x0202 220 (portOcc n q) (count (.port n) 0x0201 1 (portOcc n q) t)
  let s2 := bump64 (portIx n) 0x05 (send (.frame n ftype payload wire) (data.elim s1 (fun q => counted q s1)))
  if switched.isSome then lanesChanged n s2 else s2

/-- Send a control or IDLE frame. -/
def controlOut (n ftype : Nat) (payload : Bytes) (s : State) : State := frameOut n ftype none 0xFFFF payload s

/-- Send a packet or message of queue `q` in as many frames as its length takes. -/
def dataOut (n q len : Nat) (wire : Bytes) (s : State) : State :=
  forEach (fun i => frameOut n 1 (some q) (chunkStart i) (chunkOf wire i)) (List.range (ceilDiv len 220)) s

/-- Credits a receiver of this device grants per class (R404). -/
def ownGrant (n : Nat) : Nat := if n < 32 then 1024 else 512

/-- Credits of class `c` in use (R406): frames above the last H told, and those received whose credit is not freed. -/
def usedCredits (p : Port) (c : Nat) : Nat :=
  (p.sentTo.filter (fun f => f.cls == c)).length + nth p.peerRcvd c - nth p.peerFreed c

/-- DATA frames of a packet. -/
def framesOf (len : Nat) : Nat := ceilDiv len 220

end Sys2Proof.Machine
end

