-- ==== Sys2Proof/Machine/PeerOut.lean ====
section
/-! DEFINITION. The requester of peer transport: sending packets (R372, R373, R385, R386), work requests (R366 to R370),
windows and retransmission (R378, R379), and the error state (R381). -/

namespace Sys2Proof.Machine

/-! ## Nodes and routes (R360) -/

def ownNode (s : State) : Nat := od s 0x7000 0x01

/-- The peer port that leads to a node; the byte of the device's own node is ignored. -/
def routePort (s : State) (node : Nat) : Option Nat :=
  let b := od s 0x7000 0x02 / 256 ^ node % 256
  if node < 4096 && node != ownNode s && b < 32 then some b else none

/-- The port of a queue pair: a device pair's own, or the route to its remote node. -/
def qpPort (s : State) (q : Qp) : Option Nat := if q.num < 64 then some (q.num % 32) else routePort s q.remoteNode

/-- Whether a first PSN comes before a second, within 2^23. -/
def psnBefore (a b : Nat) : Bool := a != b && modSub b a (2 ^ 24) ≤ 2 ^ 23

/-! ## Packets -/

def ptWrite : Nat := 0x01
def ptWriteImm : Nat := 0x02
def ptReadReq : Nat := 0x03
def ptReadResp : Nat := 0x04
def ptAck : Nat := 0x05
def ptNak : Nat := 0x06
def ptConnect : Nat := 0x07
def ptConnectAck : Nat := 0x08
def ptDisconnect : Nat := 0x09
def ptBusy : Nat := 0x0A

/-- Bytes of a packet with its header and tag; BUSY has neither body nor tag. -/
def pktLen (k : Pkt) : Nat := if k.ptype.toNat = ptBusy then 32 else 48 + k.body.length

/-- What a packet of a pair is on the link: a handshake packet tagged under the connect key, or a device pair's under the key of its
port's link secret (R448); another one sealed under the connection's key; one without a key in clear with a zero tag (DESIGN CHOICE, log
entry 152). -/
def wireOf (s : State) (q : Qp) (k : Pkt) : Bytes :=
  if k.ptype.toNat = ptConnect || k.ptype.toNat = ptConnectAck then
    let key := if q.num < 64 then ((portOf s (q.num % 32)).secret.map devicePairKey)
      else s.sec.setSecret.map (fun x => connectKey x (od s 0x9000 0x04))
    tagPacket (key.getD []) k
  else if k.ptype.toNat = ptBusy then pktHdrBytes k
  else
    match sendKey (ownNode s) q with
    | some key => sealPacket key q.gen q.epoch k
    | none => pktHdrBytes k ++ k.body ++ List.replicate 16 0

/-- Put a packet of a pair into the egress queue of its `sched` byte at the port that leads to its node; without a route it is
dropped and counted (R388), and a device without a node ID sends none (R360). -/
def putPkt (port : Option Nat) (q : Qp) (k : Pkt) (s : State) : State :=
  if ownNode s = 0xFFFF then s
  else
    match port with
    | none => bump64 0x7000 0x05 s
    | some n => enqueue n (k.sched.toNat % 128) { len := pktLen k, pkt := some k, wire := wireOf s q k } s

/-- A packet of a pair under its present epoch and counter. -/
def mkPkt (s : State) (q : Qp) (ptype flags psn : Nat) (body : Bytes) : Pkt :=
  { ptype := BitVec.ofNat 8 ptype, flags := BitVec.ofNat 8 flags, hops := BitVec.ofNat 8 (od s 0x7000 0x03),
    dstNode := BitVec.ofNat 16 q.remoteNode, srcNode := BitVec.ofNat 16 (ownNode s),
    dstQp := BitVec.ofNat 16 q.remoteQp, srcQp := BitVec.ofNat 16 q.num, psn := BitVec.ofNat 24 psn,
    epoch := BitVec.ofNat 8 q.epoch, counter := BitVec.ofNat 64 q.counter,
    sched := BitVec.ofNat 8 (4 * q.part + q.cls), body := body }

/-! ## The error state (R381) -/

/-- Complete waiting work requests with ST_ABORTED in ring order, while completion slots allow. -/
def abortWaiting (n : Nat) : Nat → State → State
  | 0, s => s
  | k + 1, s =>
    match findQp s n with
    | none => s
    | some q =>
      match q.waiting with
      | [] => s
      | d :: ds =>
        if q.state != .error || !q.started.isEmpty || q.ring ≤ q.written - q.compHead then s
        else
          let w : Wr := { desc := d, done := true, status := .aborted }
          abortWaiting n k (flushWrs n 1 (setQp { q with waiting := ds, started := [w] } s))

/-- Ports whose neighbour is a node. -/
def portsTo (s : State) (node : Nat) : List Nat := (List.range 32).filter (fun n => (portOf s n).node == node)

/-- Packets that a pair holds are gone with its connection. -/
def dropHeld (n : Nat) (s : State) : State :=
  { s with peer := { s.peer with heldPkts := s.peer.heldPkts.filter (fun k => k.dstQp.toNat != n) } }

/-- A pair enters error: its started work requests complete with `started`, one event carries `st`, FLT_PEER_QP names the
port, and the later work requests in the ring are aborted. A device pair makes the neighbour unreachable (R389). -/
def qpError (n : Nat) (st started : Status) (s : State) : State :=
  match findQp s n with
  | none => s
  | some q =>
    let q1 : Qp := { q with
      state := .error
      started := q.started.map (fun w => if w.done then w else { w with done := true, status := started })
      unacked := []
      timer := none
      busy := []
      connectAt := none }
    let unit := unitPeerPort ((qpPort s q).getD 0)
    let detail := n * 2 ^ 48 + q.remoteNode
    let s1 := flushWrs n q.started.length (setQp q1 s)
    let s2 := faultEvent .peerQp unit (detail + st.code * 2 ^ 40) (some q.part) st detail (bump32 0x7030 0x07 s1)
    let s3 := settleAll (abortWaiting n q.waiting.length (dropHeld n s2))
    if n < 64 then loseNeighbour (n % 32) { s3 with peer := { s3.peer with leaseOut := s3.peer.leaseOut.filter (fun x => x.1 != n % 32) } }
    else s3

/-- The timer has run out too often: error, and the remote node is unreachable (R318, R381). -/
def qpUnanswered (n : Nat) (s : State) : State :=
  let s1 := qpError n .peerUnreachable .peerUnreachable s
  match findQp s n with
  | some q => if n < 64 then s1 else forEach loseNeighbour (portsTo s1 q.remoteNode) s1
  | none => s1

/-! ## Sending (R385 to R387) -/

/-- Move a pair to the next key epoch (R386); one that has used 2^32 - 1 epochs enters error, once (R387). -/
def nextEpoch (n : Nat) (s : State) : State :=
  match findQp s n with
  | none => s
  | some q =>
    if 2 ^ 32 - 1 ≤ q.epoch + 1 then (if q.state == .error then s else qpError n .aborted .aborted s)
    else bump64 0x7030 0x08 (setQp { q with epoch := q.epoch + 1, counter := 0 } s)

def rekeyDue (s : State) (q : Qp) : Bool := od s 0x7010 0x05 ≤ q.counter

/-- Send a packet of a pair, keeping it until it is acknowledged if it is a request (R379). A pair without a further epoch sends none
(R387). -/
def emit (n ptype flags psn : Nat) (keep : Bool) (body : Bytes) (s0 : State) : State :=
  let s := if (findQp s0 n).any (rekeyDue s0) then nextEpoch n s0 else s0
  match findQp s n with
  | none => s
  | some q =>
    if rekeyDue s q then s
    else
      let k := mkPkt s q ptype flags psn body
      let q1 := { q with
        counter := q.counter + 1
        unacked := if keep then q.unacked ++ [k] else q.unacked
        timer := if keep then some s.now else q.timer }
      putPkt (qpPort s q) q k (setQp q1 s)

/-- Send every kept packet from a PSN on again, under fresh counters (R379). -/
def resendFrom (n psn : Nat) (s : State) : State :=
  match findQp s n with
  | none => s
  | some q =>
    let old := q.unacked.filter (fun k => !psnBefore k.psn.toNat psn)
    let kept := q.unacked.filter (fun k => psnBefore k.psn.toNat psn)
    let s1 := forEach (fun (k : Pkt) => emit n k.ptype.toNat k.flags.toNat k.psn.toNat true k.body) old
      (setQp { q with unacked := kept } s)
    odAdd 0x7030 0x06 64 old.length s1

/-! ## Work requests (R367, R368) -/

def wrOp (d : Desc) : Nat := dfield d 0 1
def wrLocal (d : Desc) : Nat := dfield d 8 8
def wrRemote (d : Desc) : Nat := dfield d 16 8
def wrLen (d : Desc) : Nat := dfield d 24 4
def wrImm (d : Desc) : Nat := dfield d 28 4

def wrOpcodes : List Nat := [0x70, 0x71, 0x72, 0x60]

/-- The first status of R368 that applies, or ST_OK. -/
def wrCheck (s : State) (q : Qp) (d : Desc) : Status :=
  let op := wrOp d
  if !wrOpcodes.contains op || 4 ≤ dfield d 1 1 || dfield d 2 2 != 0 then .badDescriptor
  else if op = 0x60 then
    let kind := dfield d 8 1
    if 1 < kind || (kind == 0 && dfield d 10 2 != 0) || (kind == 1 && dfield d 9 1 != 0) ||
        !zeroSpans d (reservedSpans 0x60) then .badDescriptor
    else if (countOf s true q.part kind (dfield d 9 1) (dfield d 10 2)).isNone then .badObject
    else .ok
  else if dfield d 32 32 != 0 || (op != 0x71 && wrImm d != 0) || wrLen d % 64 != 0 || wrLen d < 64 || 2 ^ 30 < wrLen d ||
      wrLocal d % 64 != 0 || wrRemote d % 64 != 0 then .badDescriptor
  else
    match objAt s q.part (wrLocal d) (wrLen d) with
    | none => .badObject
    | some o =>
      if op = 0x72 && o.immutable then .badObject
      else if spanPoisoned s q.part (wrLocal d) (wrLen d) then .poisoned
      else .ok

/-- Packets that a work request sends: one for each 4 KiB, one for a READ. -/
def wrPkts (d : Desc) : Nat := if wrOp d = 0x60 then 0 else if wrOp d = 0x72 then 1 else ceilDiv (wrLen d) 4096

/-- Response packets of a READ. -/
def readPkts (d : Desc) : Nat := ceilDiv (wrLen d) 4096

/-- Bytes 0 to 19 of a request body (R373). -/
def reqBody (q : Qp) (off len : Nat) : Bytes := natLe 8 q.rkey ++ natLe 8 off ++ natLe 4 len

/-- Send packet `i` of a started work request. -/
def emitWr (n : Nat) (q : Qp) (w : Wr) (i : Nat) (s : State) : State :=
  let d := w.desc
  let psn := (w.psn + i) % 2 ^ 24
  if wrOp d = 0x72 then emit n ptReadReq 3 psn true (reqBody q (wrRemote d) (wrLen d) ++ natLe 4 0) s
  else
    let size := min 4096 (wrLen d - 4096 * i)
    let final := i + 1 == w.pkts
    let imm := if wrOp d = 0x71 && final then wrImm d else 0
    emit n (if wrOp d = 0x71 then ptWriteImm else ptWrite) ((if i = 0 then 1 else 0) + (if final then 2 else 0)) psn true
      (reqBody q (wrRemote d + 4096 * i) (wrLen d) ++ natLe 4 imm ++ memRead s q.part (wrLocal d + 4096 * i) size) s

/-! ## Windows (R378) -/

/-- Bytes a kept packet counts: its payload, or the length that a READ asks for. -/
def windowBytes (k : Pkt) : Nat :=
  if k.ptype.toNat = ptReadReq then fieldAt k.body 16 4 else k.body.length - 24

/-- Whether a pair's window takes one more packet of `bytes`. A READ longer than the window goes alone (log entry 29). -/
def windowTakes (q : Qp) (bytes : Nat) : Bool :=
  (q.unacked.length < q.winPkts && sumBy windowBytes q.unacked + bytes ≤ q.winBytes) || q.unacked.isEmpty

def nextBytes (w : Wr) : Nat := if wrOp w.desc = 0x72 then wrLen w.desc else min 4096 (wrLen w.desc - 4096 * w.out)

/-- Send packets of started work requests, in order, while the window allows. -/
def pumpQp (n : Nat) : Nat → State → State
  | 0, s => s
  | f + 1, s =>
    match findQp s n with
    | none => s
    | some q =>
      match q.started.find? (fun w => !w.done && w.out < w.pkts) with
      | none => s
      | some w =>
        if (q.state != .ready && q.state != .draining) || !windowTakes q (nextBytes w) then s
        else
          let started' := q.started.map (fun x => if x == w then { x with out := x.out + 1 } else x)
          pumpQp n f (emitWr n q w w.out (setQp { q with started := started' } s))

/-! ## Starting work requests (R370) -/

/-- Whether the next work request may start: the pair is ready, a completion slot is free for it and for every started
one, and neither `fence` nor a WAIT_COUNT holds it. -/
def wrMayStart (q : Qp) (d : Desc) : Bool :=
  q.state == .ready && q.written - q.compHead + q.started.length < q.ring &&
  (!bitOf (dfield d 1 1) 1 || q.started.isEmpty) && !q.started.any (fun w => wrOp w.desc == 0x60 && !w.done)

/-- Start the work request at the front of the ring; one that fails R368 completes with its status and sends nothing. -/
def beginWr (n : Nat) (s : State) : State :=
  match findQp s n with
  | none => s
  | some q =>
    match q.waiting with
    | [] => s
    | d :: ds =>
      if !wrMayStart q d then s
      else
        let st := wrCheck s q d
        let w : Wr := { desc := d, psn := q.nextPsn, pkts := if st == .ok then wrPkts d else 0, done := st != .ok, status := st }
        setQp { q with waiting := ds, started := q.started ++ [w], nextPsn := (q.nextPsn + w.pkts) % 2 ^ 24 } s

/-- Work requests with an opcode outside R367 at the front of the ring fail. -/
def failUnknown (n : Nat) : Nat → State → State
  | 0, s => s
  | k + 1, s =>
    match findQp s n with
    | none => s
    | some q =>
      match q.waiting with
      | [] => s
      | d :: _ => if wrOpcodes.contains (wrOp d) || !wrMayStart q d then s else failUnknown n k (beginWr n s)

/-- A draining pair whose last started work request has completed: its own DISCONNECT goes out, and it is configured
(R363, R365). -/
def endDrain (n : Nat) (s : State) : State :=
  match findQp s n with
  | none => s
  | some q =>
    if q.state != .draining || !q.started.isEmpty then s
    else
      let s1 := if q.ending then emit n ptDisconnect 3 q.nextPsn false (natLe 8 0) s else s
      match findQp s1 n with
      | some x => setQp { x with state := .configured, unacked := [], timer := none, ending := false } s1
      | none => s1

/-- Send lease messages that wait at a control pair, as WRITE_IMM of 64 bytes, while its window allows and the device has a node ID
(R360, R378, R389). The range key, the offset and the immediate, which the spec does not give, are zero (DESIGN CHOICE, log entry 153). -/
def pumpLeases (n : Nat) : Nat → State → State
  | 0, s => s
  | f + 1, s =>
    match findQp s n, s.peer.leaseOut.find? (fun x => x.1 == n) with
    | some q, some x =>
      if q.state != .ready || !windowTakes q 64 || ownNode s = 0xFFFF then s
      else
        let s1 := setQp { q with nextPsn := (q.nextPsn + 1) % 2 ^ 24 } { s with peer := { s.peer with leaseOut := s.peer.leaseOut.erase x } }
        pumpLeases n f (emit n ptWriteImm 3 q.nextPsn true (natLe 8 0 ++ natLe 8 0 ++ natLe 4 64 ++ natLe 4 0 ++ x.2) s1)
    | _, _ => s

/-- What follows a change of a pair: failed and completed work requests are recorded, packets go out, a drain ends, and
waits on counts end. -/
def tendQp (n : Nat) (s : State) : State :=
  match findQp s n with
  | none => s
  | some q =>
    let s1 := failUnknown n q.waiting.length s
    let s2 := flushWrs n (q.started.length + q.waiting.length) s1
    settleAll (endDrain n (pumpLeases n s2.peer.leaseOut.length (pumpQp n (q.winPkts + 1) s2)))

/-- A WAIT_COUNT that ends wherever its count is reached leaves its pair to go on: an unknown opcode behind it fails, a drain ends
(R363, R368), within a nanosecond (DESIGN CHOICE, log entry 154). -/
def tendPairs (s : State) : State :=
  forEach (fun (q : Qp) =>
    onlyIf ((q.state == .draining && q.started.isEmpty) || (q.waiting.head?).any (fun d => !wrOpcodes.contains (wrOp d) && wrMayStart q d))
      (tendQp q.num)) s.peer.qps s

/-- Lease messages that wait at the control pairs go out. -/
def tendLeases (s : State) : State :=
  if s.peer.leaseOut.isEmpty then s
  else forEach (fun n t => pumpLeases n t.peer.leaseOut.length t) (List.range 32) s

/-! ## Contexts on die (R382) -/

/-- Whether a context may be written back: neither a device pair's nor a pinned one, and no packet in processing: none parked for it
and none held. -/
def evictable (s : State) (n : Nat) : Bool :=
  64 ≤ n && !(findQp s n).any (fun q => q.pin) && !s.peer.parked.any (fun x => x.2.dstQp.toNat == n) &&
  !s.peer.heldPkts.any (fun k => k.dstQp.toNat == n)

/-- Bring a pair's context on die, writing back the least recently used one where no room is free; where none may be written back, it
stays off die (R382). -/
def bringOn (n : Nat) (s : State) : State :=
  if s.peer.onDie.contains n then
    { s with peer := { s.peer with onDie := s.peer.onDie.filter (fun m => m != n) ++ [n] } }
  else
    if s.peer.onDie.length < 4096 then bump64 0x7030 0x02 { s with peer := { s.peer with onDie := s.peer.onDie ++ [n] } }
    else
      match s.peer.onDie.find? (evictable s) with
      | some m => bump64 0x7030 0x02 { s with peer := { s.peer with onDie := s.peer.onDie.filter (fun x => x != m) ++ [n] } }
      | none => s

/-- Start the front work request of a pair if it has the opcode. -/
def startWr (op n : Nat) (s : State) : State :=
  match findQp s n with
  | none => s
  | some q =>
    match q.waiting with
    | [] => s
    | d :: _ => if wrOp d == op && wrMayStart q d then tendQp n (beginWr n s) else s

def execWrWrite (qp : Nat) (s : State) : Host.Outcome State Fault Refusal := .next (startWr 0x70 qp s)
def execWrWriteImm (qp : Nat) (s : State) : Host.Outcome State Fault Refusal := .next (startWr 0x71 qp s)
def execWrRead (qp : Nat) (s : State) : Host.Outcome State Fault Refusal := .next (startWr 0x72 qp s)
def execWrWaitCount (qp : Nat) (s : State) : Host.Outcome State Fault Refusal := .next (startWr 0x60 qp s)

/-! ## Doorbells (R366) -/

def wrRing (s : State) (q : Qp) (i n : Nat) : List Desc :=
  (List.range n).map (fun k => descOf (memRead s q.part (q.ringOff + 64 * ((i + k) % q.ring)) 64))

/-- A doorbell that names a pair of another partition, or a free one. -/
def doorbellIgnored (p : Nat) (s : State) : State := event .badObject (some p) 0 0 0 (bump64 0x7030 0x09 s)

def doorbellPair (s : State) (p value : Nat) : Option Qp :=
  (findQp s (bitsOf value 31 16)).filter (fun q => q.state != .free && q.part == p && 64 ≤ q.num)

/-- PEER_SEND_TAIL_DOORBELL: submits work requests, or puts the pair into error. A value whose bits [15:14] are neither 0 nor 1 does
nothing, and bits [13:12] are not looked at (DESIGN CHOICE, log entry 131). Outside OWNED a doorbell of a pair is refused with one event per
partition and step, as a beat is (R14; the form is a DESIGN CHOICE, log entry 128). -/
def sendTail (p value : Nat) (s : State) : State :=
  if !cxlServes s || bitsOf value 15 14 != 0 then s
  else if !owned s then refuseOnce p (Pos.step s.wheel.cur) s
  else
    match doorbellPair s p value with
    | none => doorbellIgnored p s
    | some q =>
      let tail := bitsOf value 11 0
      let n := modSub tail q.tail q.ring
      let s1 := bringOn q.num s
      if q.ring ≤ tail || q.ring - q.waiting.length < n then
        if q.state == .error then s1 else qpError q.num .badDescriptor .aborted s1
      else
        let ds := wrRing s1 q q.tail n
        let s2 := setQp { q with tail := tail, waiting := q.waiting ++ ds } s1
        if q.state == .error then settleAll (abortWaiting q.num (q.waiting.length + n) s2) else tendQp q.num s2

def execPeerSendTailDoorbell (p : Nat) (value : U32) (s : State) : Host.Outcome State Fault Refusal :=
  .next (sendTail p value.toNat (rang (peerBell p) value.toNat s))

/-- PEER_COMPLETION_HEAD_DOORBELL: frees completion slots. -/
def peerHead (p value : Nat) (s : State) : State :=
  if !cxlServes s || bitsOf value 15 14 != 1 then s
  else if !owned s then refuseOnce p (Pos.step s.wheel.cur) s
  else
    match doorbellPair s p value with
    | none => doorbellIgnored p s
    | some q =>
      let s1 := setQp { q with compHead := headAdvance q.compHead q.written q.ring (bitsOf value 11 0) } (bringOn q.num s)
      if q.state == .error then settleAll (abortWaiting q.num q.waiting.length s1) else tendQp q.num s1

def execPeerCompletionHeadDoorbell (p : Nat) (value : U32) (s : State) : Host.Outcome State Fault Refusal :=
  .next (peerHead p value.toNat (rang (peerBell p) value.toNat s))

/-! ## Timers (R379, R386) -/

/-- Time-out after `runs` run-outs: doubling up to eight times its value. -/
def timeoutNs (s : State) (q : Qp) : Nat := od s 0x7010 0x01 * 2 ^ (min q.runs 3)

/-- RETRANSMISSION_TIMEOUT: every unacknowledged packet again, or the error state after OD 0x7010:02 + 1 run-outs. -/
def timerOut (n : Nat) (s : State) : State :=
  match findQp s n with
  | none => s
  | some q =>
    match q.timer with
    | none => s
    | some t =>
      if q.unacked.isEmpty || s.now < t + timeoutNs s q then s
      else
        let s1 := bringOn n s
        if od s 0x7010 0x02 + 1 ≤ q.runs + 1 then qpUnanswered n s1
        else
          let first := ((q.unacked.head?).map (fun k => k.psn.toNat)).getD 0
          resendFrom n first (setQp { q with runs := q.runs + 1 } s1)

def execRetransmissionTimeout (qp : Nat) (s : State) : Host.Outcome State Fault Refusal := .next (timerOut qp s)

/-- BUSY_RESEND: 2 µs after a BUSY, from the PSN it named; each BUSY has a resend of its own. -/
def busyOver (n : Nat) (s : State) : State :=
  match findQp s n with
  | none => s
  | some q =>
    match q.busy with
    | [] => s
    | (t, psn) :: later =>
      if s.now < t + 2000 then s else resendFrom n psn (setQp { q with busy := later } (bringOn n s))

def execBusyResend (qp : Nat) (s : State) : Host.Outcome State Fault Refusal := .next (busyOver qp s)

/-- PEER_REKEY: a pair whose counter has reached the interval moves to the next epoch. -/
def peerRekey (n : Nat) (s : State) : State := if (findQp s n).any (rekeyDue s) then nextEpoch n (bringOn n s) else s

def execPeerRekey (qp : Nat) (s : State) : Host.Outcome State Fault Refusal := .next (peerRekey qp s)

end Sys2Proof.Machine
end

