-- ==== Sys2Proof/Machine/PeerIn.lean ====
section
/-! DEFINITION. Packets that arrive (R374 to R380, R383, R387, R388), the handshake (R365, R448, R449), queue-pair requests
(R364, R365), and what partition resets and the end of ownership do to pairs (R390). -/

namespace Sys2Proof.Machine

/-! ## Answers -/

/-- An ACK that carries the expected PSN E (R376). -/
def sendAck (n : Nat) (s : State) : State :=
  match findQp s n with
  | some q => emit n ptAck 3 q.expPsn false (natLe 3 q.expPsn ++ natLe 5 0) s
  | none => s

def nakBody (expected reason detail : Nat) : Bytes := natLe 3 expected ++ natLe 1 reason ++ natLe 4 detail

/-- NAK STATE for a packet whose pair cannot take it, in the pair's own name, to the packet's source (R363): a pair in error sends it
under its connection's key and next counter (R386), one without a connection in clear. -/
def nakState (k : Pkt) (s : State) : State :=
  let n := k.dstQp.toNat
  let x := findQp s n
  let e := x.elim k.psn.toNat (fun y => y.expPsn)
  let body := nakBody e 4 Status.peerUnreachable.code
  if x.any (fun y => y.state == .error) then emit n ptNak 3 e false body s
  else
    let q : Qp := { num := n, remoteNode := k.srcNode.toNat, remoteQp := k.srcQp.toNat,
                    part := x.elim (k.sched.toNat / 4 % 32) (fun y => y.part), cls := x.elim (k.sched.toNat % 4) (fun y => y.cls) }
    putPkt (routePort s q.remoteNode) q (mkPkt s q ptNak 3 e body) s

/-- Whether a packet is authentic under e - 1, e or e + 1 (R386, R387). -/
def epochFits (q : Qp) (k : Pkt) : Bool := modSub (k.epoch.toNat + 1) q.rxEpoch 256 ≤ 2

/-- The receiving epoch once a packet is accepted. -/
def epochAfter (q : Qp) (k : Pkt) : Nat := if modSub k.epoch.toNat q.rxEpoch 256 = 1 then q.rxEpoch + 1 else q.rxEpoch

/-- Whether a pair's connection takes answers: it is ready or draining (R363). -/
def linked (q : Qp) : Bool := q.state == .ready || q.state == .draining

/-- Act on a pair with an authentic packet; another one is dropped and counted (R387). -/
def authentic (k : Pkt) (act : Qp → State → State) (s : State) : State :=
  match findQp s k.dstQp.toNat with
  | none => s
  | some q =>
    if !k.authentic || !epochFits q k then bump64 0x7000 0x06 s
    else
      let q1 := { q with rxEpoch := epochAfter q k }
      act q1 (setQp q1 s)

/-! ## Responder checks (R374) -/

def bodyKey (k : Pkt) : Nat := fieldAt k.body 0 8
def bodyOff (k : Pkt) : Nat := fieldAt k.body 8 8

/-- Whether every extent of an object that a span touches has its home, or for a read an image, in meadow. -/
def spanHomed (o : Obj) (off len : Nat) (write : Bool) : Bool :=
  (extsOf o (max off o.off - o.off) (spanIn o off len)).all (fun i =>
    match o.exts[i]? with
    | some e => e.home.tier == .meadow || (!write && e.image.any (fun l => l.tier == .meadow))
    | none => false)

/-- Why a span of a partition cannot be placed or read, or ST_OK. -/
def spanCheck (s : State) (p key off len : Nat) (write : Bool) : Status :=
  let os := spanObjs s p off len
  if key = 0 || key != od s 0x7001 (p + 1) || rangeBytes < off + len || off < 0x100000 then .badObject
  else if sumBy (fun o => spanIn o off len) os < len then .badObject
  else if write && os.any (fun o => o.immutable) then .badObject
  else if spanPoisoned s p off len then .poisoned
  else if os.all (fun o => spanHomed o off len write) then .ok
  else .badObject

/-- Whether a request is a lease control message: a whole WRITE_IMM of 64 bytes on a control pair (R389). -/
def isLease (q : Qp) (k : Pkt) : Bool :=
  q.num < 32 && k.ptype.toNat == ptWriteImm && k.flags.toNat % 4 == 3 && k.body.length == 88

/-- Length of the span that a request names. -/
def reqLen (k : Pkt) : Nat := if k.ptype.toNat = ptReadReq then fieldAt k.body 16 4 else k.body.length - 24

/-- The check of a request at its pair (R374). Device pairs place lease messages alone: what a data pair carries is not stated
(DESIGN CHOICE, log entry 153). -/
def reqCheck (s : State) (q : Qp) (k : Pkt) : Status :=
  if q.num < 64 then (if isLease q k then .ok else .badObject)
  else spanCheck s q.part (bodyKey k) (bodyOff k) (reqLen k) (k.ptype.toNat != ptReadReq)

/-- Keep a packet until what it waits for is over. -/
def holdPkt (k : Pkt) (s : State) : State := { s with peer := { s.peer with heldPkts := s.peer.heldPkts ++ [k] } }

/-! ## Requests at the responder (R375, R376, R380) -/

/-- Send the response packets of a READ. -/
def sendResponses (n psn p off len : Nat) (s : State) : State :=
  let count := ceilDiv len 4096
  forEach (fun i t =>
    let flags := (if i = 0 then 1 else 0) + (if i + 1 = count then 2 else 0)
    emit n ptReadResp flags psn false (natLe 4 i ++ natLe 4 0 ++ memRead t p (off + 4096 * i) (min 4096 (len - 4096 * i))) t)
    (List.range count) s

/-- The packet at E passes its checks: it is placed or executed, and E advances. -/
def placeRequest (k : Pkt) (q : Qp) (s : State) : State :=
  let n := q.num
  let e' := (q.expPsn + 1) % 2 ^ 24
  let off := bodyOff k
  if k.ptype.toNat = ptReadReq then
    sendResponses n k.psn.toNat q.part off (fieldAt k.body 16 4) (setQp { q with expPsn := e', nakFor := none } s)
  else
    let bs := k.body.drop 24
    let final := bitOf k.flags.toNat 1
    let since := q.sinceAck + 1
    let imm := k.ptype.toNat = ptWriteImm && final
    let q1 := { q with
      expPsn := e', nakFor := none, sinceAck := since % 64, count := if imm then q.count + 1 else q.count }
    let s2 :=
      if isLease q k then leaseAct (fieldAt bs 0 1) n (leaseOf bs) (setQp q1 s)
      else onlyIf imm (event .ok (some q.part) 0 0 (n * 2 ^ 48 + fieldAt k.body 20 4)) (placeBytes none q.part off bs (setQp q1 s))
    settleAll (onlyIf (final || since == 64) (sendAck n) s2)

/-- A request that the pair takes: at E it is checked and placed, unless its bytes wait for a tier copy, which holds it (R74, R375);
before E it is a duplicate, ahead of E it is dropped. -/
def requestAt (k : Pkt) (q : Qp) (s : State) : State :=
  let n := q.num
  let read := k.ptype.toNat = ptReadReq
  let chk := reqCheck s q k
  let d := modSub q.expPsn k.psn.toNat (2 ^ 24)
  let refuse := emit n ptNak 3 q.expPsn false (nakBody q.expPsn 3 chk.code)
  if d = 0 then
    if chk != .ok then refuse s
    else if !read && 64 ≤ n && spanWaits s q.part (bodyOff k) (reqLen k) then holdPkt k s
    else placeRequest k q s
  else if d ≤ 2 ^ 23 then
    let t := sendAck n (bump64 0x7030 0x05 s)
    if !read then t
    else if chk == .ok then sendResponses n k.psn.toNat q.part (bodyOff k) (reqLen k) t
    else refuse t
  else if q.nakFor == some q.expPsn then s
  else emit n ptNak 3 q.expPsn false (nakBody q.expPsn 1 0) (setQp { q with nakFor := some q.expPsn } s)

/-- A request packet: answered NAK STATE where the pair does not take it, by a pair in error only where it is authentic. -/
def requestIn (k : Pkt) (s : State) : State :=
  match (findQp s k.dstQp.toNat).elim QpState.free (fun q => q.state) with
  | .ready => authentic k (requestAt k) s
  | .draining => authentic k (requestAt k) s
  | .error => authentic k (fun _ => nakState k) s
  | _ => nakState k s

/-! ## Answers at the requester (R370, R379) -/

/-- Whether a work request's packets all come before a PSN. -/
def coveredBy (w : Wr) (psn : Nat) : Bool :=
  w.pkts != 0 && w.out == w.pkts && psnBefore ((w.psn + w.pkts - 1) % 2 ^ 24) psn

/-- Free what an expected PSN acknowledges: writes that it covers complete; a READ_REQ stays until its responses are placed. -/
def ackTo (psn : Nat) (q : Qp) : Qp :=
  let kept := q.unacked.filter (fun k => k.ptype.toNat == ptReadReq || !psnBefore k.psn.toNat psn)
  { q with
    unacked := kept
    started := q.started.map (fun w =>
      if !w.done && wrOp w.desc != 0x72 && coveredBy w psn then { w with done := true, moved := wrLen w.desc } else w) }

/-- An ACK has come: the run-outs start afresh, and an advance restarts the timer. -/
def ackIn (k : Pkt) (s : State) : State :=
  authentic k (fun q t =>
    let psn := fieldAt k.body 0 3
    let q1 : Qp := { ackTo psn q with runs := 0 }
    let timer := if q1.unacked.isEmpty then none else if psnBefore q.acked psn then some t.now else q.timer
    if !linked q then t
    else tendQp q.num (setQp { q1 with timer := timer, acked := if psnBefore q.acked psn then psn else q.acked } t)) s

/-- A NAK has come: SEQ resends, ACCESS and STATE put the pair into error after the work request concerned has completed
with the detail status, or with ST_PEER_UNREACHABLE: the one whose packets take in the PSN named, or else the oldest that has sent. -/
def nakIn (k : Pkt) (s : State) : State :=
  authentic k (fun q t =>
    let psn := fieldAt k.body 0 3
    let reason := fieldAt k.body 3 1
    if !linked q then t
    else if reason = 1 then resendFrom q.num psn t
    else if reason = 3 || reason = 4 then
      let st : Status :=
        if reason = 4 then .peerUnreachable else if fieldAt k.body 4 1 = Status.poisoned.code then .poisoned else .badObject
      let q1 := ackTo psn q
      let at_ (w : Wr) : Bool := !w.done && w.pkts != 0 && modSub psn w.psn (2 ^ 24) < w.pkts
      let concerned := (q1.started.find? at_).or (q1.started.find? (fun w => !w.done && w.pkts != 0))
      let started' := q1.started.map (fun w => if concerned == some w then { w with done := true, status := st } else w)
      qpError q.num st .aborted (setQp { q1 with started := started' } t)
    else t) s

/-- A response packet has come: it is placed once, and the last one completes the READ; one whose bytes wait for a tier copy is held
(R74, R370). -/
def respIn (k : Pkt) (s : State) : State :=
  authentic k (fun q t =>
    match q.started.find? (fun w => !w.done && wrOp w.desc == 0x72 && w.out == 1 && w.psn == k.psn.toNat) with
    | none => t
    | some w =>
      let i := fieldAt k.body 0 4
      let off := wrLocal w.desc + 4096 * i
      let bs := (k.body.drop 8).take (wrLen w.desc - 4096 * i)
      if w.got.contains i || readPkts w.desc ≤ i then t
      else if spanWaits t q.part off bs.length then holdPkt k t
      else
        let got := w.got ++ [i]
        let all := got.length == readPkts w.desc
        let w1 := { w with got := got, done := all, moved := if all then wrLen w.desc else 0 }
        let kept := if all then q.unacked.filter (fun x => !(x.ptype.toNat == ptReadReq && x.psn == k.psn)) else q.unacked
        let q1 := { q with
          started := q.started.map (fun x => if x == w then w1 else x)
          unacked := kept
          timer := if kept.isEmpty then none else q.timer }
        let t1 := setQp q1 t
        tendQp q.num (placeBytes none q.part off bs t1)) s

/-- BUSY carries no tag (R383): the pair resends from the named PSN after 2 µs. -/
def busyIn (k : Pkt) (s : State) : State :=
  match findQp s k.dstQp.toNat with
  | some q => if q.unacked.isEmpty then s else setQp { q with busy := q.busy ++ [(s.now, k.psn.toNat)] } s
  | none => s

/-! ## The handshake (R365, R448, R449) -/

/-- Body of CONNECT or CONNECT_ACK: unit identifier, set ID, connection generation, and key or ciphertext, which are free
values. -/
def connectBody (s : State) (q : Qp) : Bytes :=
  natLe 16 s.sec.unitId.toNat ++ natLe 8 (od s 0x9000 0x04) ++ natLe 3 q.gen ++ natLe 5 0 ++
    natLe 1568 (freeOf 12544 s).toNat

/-- A handshake packet starts the pair's counter and epoch afresh. -/
def sendConnect (n ptype : Nat) (s : State) : State :=
  match findQp s n with
  | some q => drawn (emit n ptype 3 0 false (connectBody s q) (setQp { q with epoch := 0, counter := 0 } s))
  | none => s

/-- The secret that a handshake agrees on (R448): a free value. -/
def agreedSecret (s : State) : BitVec 256 := freeOf 256 s

/-- Whether the tag of a CONNECT or CONNECT_ACK verifies (R448): under the connect key, which needs a set secret, or for a device pair
under the key of its port's link secret. -/
def connectTag (s : State) (k : Pkt) : Bool :=
  k.authentic &&
  (if k.dstQp.toNat < 64 then (portOf s (k.dstQp.toNat % 32)).secret.isSome else s.sec.setSecret.isSome)

/-- Whether a CONNECT or CONNECT_ACK is accepted (R448): its tag and its set ID. -/
def connectFits (s : State) (k : Pkt) : Bool := connectTag s k && fieldAt k.body 16 8 == od s 0x9000 0x04

/-- A pair becomes ready: both directions start at epoch 0 and counter 0, and at PSN 0 (log entry 30). -/
def qpReady (q : Qp) : Qp :=
  { q with state := .ready, epoch := 0, rxEpoch := 0, counter := 0, nextPsn := 0, expPsn := 0, connectAt := none,
           nakFor := none, sinceAck := 0, runs := 0, unacked := [], timer := none, acked := 0 }

/-- The secret, the other end's generation and its number enter a pair's context (R385); a device pair learns its neighbour's number so
(R389). -/
def withSecret (k : Pkt) (s : State) (q : Qp) : Qp :=
  { q with secret := some (agreedSecret s), remoteGen := fieldAt k.body 24 3, remoteQp := k.srcQp.toNat }

/-- OD 0x7020:02 (R365): of requests, so not of device pairs. -/
def qpResult (n op : Nat) (st : Status) (s : State) : State :=
  let state := (findQp s n).elim 0 (fun q => q.state.code)
  if n < 64 then s else odSet 0x7020 0x02 (n * 2 ^ 48 + op * 2 ^ 40 + st.code * 2 ^ 32 + state * 2 ^ 24) s

/-- A handshake fails: configured, ST_PEER_UNREACHABLE. -/
def connectFails (n : Nat) (s : State) : State :=
  match findQp s n with
  | some q => qpResult n 2 .peerUnreachable (setQp { q with state := .configured, connectAt := none } s)
  | none => s

/-- Whether a packet comes from the pair that this one was configured for; a device pair takes its neighbour's pair of the same role,
whatever that port's number. -/
def fromRemote (q : Qp) (k : Pkt) : Bool :=
  q.remoteNode == k.srcNode.toNat &&
  (if q.num < 64 then k.srcQp.toNat < 64 && k.srcQp.toNat / 32 == q.num / 32 else q.remoteQp == k.srcQp.toNat)

/-- A CONNECT has come: one whose tag or set ID fails is dropped, the former counted (R387). A configured pair answers and is ready;
of two handshakes at once, that of the lower node ID completes. -/
def connectIn (k : Pkt) (s : State) : State :=
  match findQp s k.dstQp.toNat with
  | none => if connectTag s k then s else bump64 0x7000 0x06 s
  | some q =>
    let mine := q.state == .connecting && ownNode s < k.srcNode.toNat
    if !connectTag s k then bump64 0x7000 0x06 s
    else if !connectFits s k || !fromRemote q k || mine || (q.state != .configured && q.state != .connecting) then s
    else
      let s1 := sendConnect q.num ptConnectAck (setQp { q with remoteQp := k.srcQp.toNat } s)
      match findQp s1 q.num with
      | some x =>
        tendQp q.num (onlyIf (q.state == .connecting) (qpResult q.num 2 .ok) (drawn (setQp (withSecret k s1 (qpReady x)) (dropHeld q.num s1))))
      | none => s1

/-- A CONNECT_ACK has come. -/
def connectAckIn (k : Pkt) (s : State) : State :=
  match findQp s k.dstQp.toNat with
  | none => if connectTag s k then s else bump64 0x7000 0x06 s
  | some q =>
    if !connectTag s k then bump64 0x7000 0x06 s
    else if !connectFits s k || q.state != .connecting then s
    else if !fromRemote q k then connectFails q.num s
    else tendQp q.num (qpResult q.num 2 .ok (drawn (setQp (withSecret k s (qpReady q)) (dropHeld q.num s))))

/-- A DISCONNECT has come: a ready pair drains. -/
def disconnectIn (k : Pkt) (s : State) : State :=
  authentic k (fun q t =>
    if q.state == .ready then tendQp q.num (setQp { q with state := .draining, ending := false } t) else t) s

/-- CONNECT_TIMEOUT: no answer within 5 ms. A device pair whose port is up sends CONNECT again (DESIGN CHOICE, log entry 32). -/
def connectTimeout (n : Nat) (s : State) : State :=
  match findQp s n with
  | none => s
  | some q =>
    if q.state == .connecting && (q.connectAt.any (fun t => t + 5000000 ≤ s.now)) then
      if n < 64 && portUp s (n % 32) then sendConnect n ptConnect (setQp { q with connectAt := some s.now } (bringOn n s))
      else connectFails n (bringOn n s)
    else s

def execConnectTimeout (qp : Nat) (s : State) : Host.Outcome State Fault Refusal := .next (connectTimeout qp s)

/-! ## Arrival (R360, R383, R388) -/

/-- Whether a packet keeps its place behind those that its pair holds: requests, and the responses of a READ. -/
def inOrder (k : Pkt) : Bool :=
  k.ptype.toNat == ptWrite || k.ptype.toNat == ptWriteImm || k.ptype.toNat == ptReadReq || k.ptype.toNat == ptReadResp

/-- Act on a packet whose context is on die; one that comes behind a held one of its pair waits as well (R375). -/
def packetHere (k : Pkt) (s0 : State) : State :=
  let s := bringOn k.dstQp.toNat s0
  if inOrder k && s.peer.heldPkts.any (fun x => x.dstQp == k.dstQp) then holdPkt k s
  else
  match k.ptype.toNat with
  | 0x01 => requestIn k s
  | 0x02 => requestIn k s
  | 0x03 => requestIn k s
  | 0x04 => respIn k s
  | 0x05 => ackIn k s
  | 0x06 => nakIn k s
  | 0x07 => connectIn k s
  | 0x08 => connectAckIn k s
  | 0x09 => disconnectIn k s
  | 0x0A => busyIn k s
  | _ => s

/-- Pass a packet for another node on with `hops` less 1, or drop it (R388). Under transit hold the buffer of the port that it came
through holds it until it leaves (R384). -/
def relay (port : Nat) (k : Pkt) (s : State) : State :=
  if k.hops = 0 then bump64 0x7000 0x05 s
  else
    match routePort s k.dstNode.toNat with
    | none => bump64 0x7000 0x05 s
    | some n =>
      let x : QPkt :=
        { len := pktLen k, pkt := some { k with hops := k.hops - 1 },
          wire := pktHdrBytes { k with hops := k.hops - 1 } ++ (if k.ptype.toNat = ptBusy then [] else Config.relayedBody (packetAad k) k.body),
          transit := if od s 0x7003 (port + 1) = 1 then some port else none }
      bump64 0x7000 0x04 (enqueue n (k.sched.toNat % 128) x s)

/-- A packet waits for its context in its port's parking buffer; where it cannot, it is dropped with a BUSY (R383). -/
def park (port : Nat) (k : Pkt) (s : State) : State :=
  if od s 0x7002 (port + 1) = 1 && (s.peer.parked.filter (fun x => x.1 == port)).length < 128 then
    count (.port port) 0x0206 1 { part := some (k.sched.toNat / 4 % 32), cls := 3 }
      (bump64 0x7030 0x03 { s with peer := { s.peer with parked := s.peer.parked ++ [(port, k)] } })
  else
    let q : Qp := { num := k.dstQp.toNat, remoteNode := k.srcNode.toNat, remoteQp := k.srcQp.toNat,
                    part := k.sched.toNat / 4 % 32, cls := k.sched.toNat % 4 }
    bump64 0x7030 0x04 (putPkt (routePort s q.remoteNode) q (mkPkt s q ptBusy 3 k.psn.toNat []) s)

/-- CONTEXT_FETCH (R382, R383): a context that parked packets wait for lands, and they are processed in arrival order. -/
def contextFetch (n : Nat) (s : State) : State :=
  let mine := s.peer.parked.filter (fun x => x.2.dstQp.toNat == n)
  if mine.isEmpty || !(bringOn n s).peer.onDie.contains n then s
  else
    let rest := s.peer.parked.filter (fun x => x.2.dstQp.toNat != n)
    forEach (fun (x : Nat × Pkt) => packetHere x.2) mine (bringOn n { s with peer := { s.peer with parked := rest } })

/-- A handshake packet of a device pair is for the pair of its role at the port it comes through: neighbours do not know each other's
port numbers before (R389; DESIGN CHOICE, log entry 32). -/
def atPort (port : Nat) (k : Pkt) : Pkt :=
  if (k.ptype.toNat = ptConnect || k.ptype.toNat = ptConnectAck) && k.dstQp.toNat < 64 then
    { k with dstQp := BitVec.ofNat 16 (port % 32 + k.srcQp.toNat / 32 % 2 * 32) }
  else k

/-- A packet arrives at a peer port that is up (R360): for this node it goes to its pair, behind those parked for it, or waits for
its context. -/
def packetIn (port : Nat) (k0 : Pkt) (s : State) : State :=
  let k := atPort port k0
  if !portUp s port || ownNode s = 0xFFFF then s
  else if k.dstNode.toNat != ownNode s then relay port k s
  else if s.peer.onDie.contains k.dstQp.toNat then packetHere k (contextFetch k.dstQp.toNat s)
  else park port k s

/-- Packets that waited for a tier copy go on, each pair's in order; those that must still wait keep their places. -/
def resumePkts (s : State) : State :=
  if s.peer.heldPkts.isEmpty then s
  else forEach packetHere s.peer.heldPkts { s with peer := { s.peer with heldPkts := [] } }

/-- What peer transport goes on with of itself. -/
def tendPeer (s : State) : State := tendPairs (tendLeases (resumePkts s))

/-- A lease control message arrives on the control pair of a port (R389): it needs a node ID, a port that is up and a connection
(R360, R363), is acted on, and is acknowledged as the WRITE_IMM that it is (R376); what the device answers goes out. -/
def leaseIn (kind port : Nat) (m : LeaseMsg) (s : State) : State :=
  if !portUp s port || ownNode s = 0xFFFF then s
  else
    match (findQp s port).filter linked with
    | none => s
    | some q =>
      tendLeases (settleAll (sendAck port (leaseAct kind port m (setQp { q with
        expPsn := (q.expPsn + 1) % 2 ^ 24, nakFor := none, sinceAck := (q.sinceAck + 1) % 64, count := q.count + 1 } s))))

def execBorrowerLeaseRequest (port : Nat) (bytes : U64) (s : State) : Host.Outcome State Fault Refusal :=
  .next (tendLeases (borrow port bytes.toNat s))

def execLeaseRequest (port : Nat) (m : LeaseMsg) (s : State) : Host.Outcome State Fault Refusal := .next (leaseIn 1 port m s)
def execLeaseGrant (port : Nat) (m : LeaseMsg) (s : State) : Host.Outcome State Fault Refusal := .next (leaseIn 2 port m s)
def execLeaseRefuse (port : Nat) (m : LeaseMsg) (s : State) : Host.Outcome State Fault Refusal := .next (leaseIn 3 port m s)
def execLeaseReturn (port : Nat) (m : LeaseMsg) (s : State) : Host.Outcome State Fault Refusal := .next (leaseIn 4 port m s)
def execLeaseRecall (port : Nat) (m : LeaseMsg) (s : State) : Host.Outcome State Fault Refusal := .next (leaseIn 5 port m s)
def execLeaseDone (port : Nat) (m : LeaseMsg) (s : State) : Host.Outcome State Fault Refusal := .next (leaseIn 6 port m s)

/-- A packet of the kind that a command names. -/
def kindIn (ptype port : Nat) (k : Pkt) (s : State) : State := if k.ptype.toNat = ptype then packetIn port k s else s

def execPeerWrite (port : Nat) (k : Pkt) (s : State) : Host.Outcome State Fault Refusal := .next (kindIn ptWrite port k s)
def execPeerWriteImm (port : Nat) (k : Pkt) (s : State) : Host.Outcome State Fault Refusal := .next (kindIn ptWriteImm port k s)
def execReadReq (port : Nat) (k : Pkt) (s : State) : Host.Outcome State Fault Refusal := .next (kindIn ptReadReq port k s)
def execReadResp (port : Nat) (k : Pkt) (s : State) : Host.Outcome State Fault Refusal := .next (kindIn ptReadResp port k s)
def execAck (port : Nat) (k : Pkt) (s : State) : Host.Outcome State Fault Refusal := .next (kindIn ptAck port k s)
def execNak (port : Nat) (k : Pkt) (s : State) : Host.Outcome State Fault Refusal := .next (kindIn ptNak port k s)
def execConnect (port : Nat) (k : Pkt) (s : State) : Host.Outcome State Fault Refusal := .next (kindIn ptConnect port k s)
def execConnectAck (port : Nat) (k : Pkt) (s : State) : Host.Outcome State Fault Refusal := .next (kindIn ptConnectAck port k s)
def execDisconnect (port : Nat) (k : Pkt) (s : State) : Host.Outcome State Fault Refusal := .next (kindIn ptDisconnect port k s)
def execBusy (port : Nat) (k : Pkt) (s : State) : Host.Outcome State Fault Refusal := .next (kindIn ptBusy port k s)

/-- RELAYED_PACKET (R388). -/
def relayedIn (port : Nat) (k : Pkt) (s : State) : State :=
  if !portUp s port || ownNode s = 0xFFFF || k.dstNode.toNat = ownNode s then s else relay port k s

def execRelayedPacket (port : Nat) (k : Pkt) (s : State) : Host.Outcome State Fault Refusal := .next (relayedIn port k s)

def execContextFetch (qp : Nat) (s : State) : Host.Outcome State Fault Refusal := .next (contextFetch qp s)

/-! ## Queue-pair requests (R364, R365) -/

/-- A number of `n` bytes at `off` of a request block. -/
def reqField (v off n : Nat) : Nat := v / 256 ^ off % 256 ^ n

/-- What CONFIGURE asks of its fields, or why it fails. -/
def configureCheck (s : State) (v : Nat) : Status :=
  let n := reqField v 2 2
  let p := reqField v 1 1
  let ring := reqField v 18 2
  let off := reqField v 24 8
  let wb := reqField v 12 4
  let wp := reqField v 16 2
  let inData := (objAt s p off (64 * ring)).any (fun o => o.kind == 1)
  let q := findQp s n
  let pinned := (s.peer.qps.filter (fun x => x.pin && x.num != n)).length
  if 32 ≤ p || n < 64 || 4096 ≤ reqField v 4 2 || reqField v 6 2 < 64 || 4 ≤ reqField v 8 1 || 2 ≤ reqField v 9 1 ||
      reqField v 10 2 != 0 || (wb != 0 && (wb < 65536 || 16777216 < wb)) || (wp != 0 && (wp < 16 || 4096 < wp)) ||
      !isPow2 ring || ring < 16 || 4096 < ring || reqField v 22 2 != 0 || reqField v 40 24 != 0 || off % 64 != 0 ||
      !inData || !(findWindow (reqField v 20 2) s).any (fun w => w.cls == 2 && 32 * ring ≤ w.bytes) ||
      q.any (fun x => x.state != .free && x.part != p) then .badDescriptor
  else if q.any (fun x => x.state != .free && x.state != .configured) then .conflict
  else if reqField v 9 1 = 1 && od s 0x7010 0x06 ≤ pinned then .noSpace
  else .ok

/-- CONFIGURE binds and zeroes a pair and draws a new connection generation. -/
def configurePair (v : Nat) (s : State) : State :=
  let wb := reqField v 12 4
  let wp := reqField v 16 2
  let q : Qp :=
    { num := reqField v 2 2, state := .configured, part := reqField v 1 1, remoteNode := reqField v 4 2,
      remoteQp := reqField v 6 2, cls := reqField v 8 1, pin := bitOf (reqField v 9 1) 0,
      winBytes := if wb = 0 then od s 0x7010 0x03 else wb, winPkts := if wp = 0 then od s 0x7010 0x04 else wp,
      ring := reqField v 18 2, cqWindow := reqField v 20 2, ringOff := reqField v 24 8, rkey := reqField v 32 8,
      gen := (freeOf 24 s).toNat }
  let s1 := drawn (setQp q s)
  if q.pin then bringOn q.num s1 else s1

/-- End a connection (RESET): a DISCONNECT with reason 1 goes out, every started work request completes with ST_ABORTED,
the keys are gone. -/
def resetPair (n : Nat) (s : State) : State :=
  match findQp s n with
  | none => s
  | some q =>
    let linked := q.state == .ready || q.state == .draining
    let s1 := onlyIf linked (emit n ptDisconnect 3 q.nextPsn false (natLe 8 1)) s
    match findQp s1 n with
    | none => s1
    | some x =>
      let q1 : Qp := { x with
        state := .configured
        started := x.started.map (fun w => if w.done then w else { w with done := true, status := .aborted })
        unacked := []
        timer := none
        busy := []
        connectAt := none
        secret := none }
      settleAll (flushWrs n x.started.length (setQp q1 (dropHeld n s1)))

/-- Free a pair: its context is gone. -/
def freePair (n : Nat) (s0 : State) : State :=
  let s := dropHeld n s0
  { s with peer := { s.peer with qps := s.peer.qps.filter (fun q => q.num != n), onDie := s.peer.onDie.filter (fun m => m != n) } }

/-- A request on a pair other than CONFIGURE: the status and the state after it. -/
def pairRequest (op n : Nat) (q : Qp) (s : State) : Status × State :=
  match op with
  | 2 =>
    if q.state != .configured then (.conflict, s)
    else if s.sec.setSecret.isNone then (.keyAbsent, s)
    else (.ok, sendConnect n ptConnect (setQp { q with state := .connecting, connectAt := some s.now } s))
  | 3 =>
    if q.state != .ready then (.conflict, s) else (.ok, tendQp n (setQp { q with state := .draining, ending := true } s))
  | 4 => (.ok, resetPair n s)
  | 5 => if q.state != .configured && q.state != .error then (.conflict, s) else (.ok, freePair n s)
  | _ => (.badDescriptor, s)

/-- A write of OD 0x7020:01: the request acts, and its result appears in OD 0x7020:02. A request on a pair of another
partition is malformed, one on a free pair in conflict (log entry 31). -/
def qpRequest (v : Nat) (s : State) : Status × State :=
  let op := reqField v 0 1
  let n := reqField v 2 2
  let r : Status × State :=
    if op = 1 then
      match configureCheck s v with
      | .ok => (.ok, configurePair v s)
      | st => (st, s)
    else if op = 0 || 5 < op || n < 64 then (.badDescriptor, s)
    else
      match findQp s n with
      | none => (.conflict, s)
      | some q => if q.part != reqField v 1 1 then (.badDescriptor, s) else pairRequest op n q s
  (.ok, qpResult n op r.1 r.2)

/-! ## Partition resets and the end of ownership (R390) -/

/-- Every tenant pair of a partition enters error (R381). -/
def resetPartPairs (p : Nat) (s : State) : State :=
  forEach (fun (q : Qp) => onlyIf (q.part == p && 64 ≤ q.num && q.state != .error) (qpError q.num .aborted .aborted)) s.peer.qps s

/-- The state leaves OWNED: tenant pairs are reset and released, contexts zeroed, range keys at their default. -/
def releasePairs (s : State) : State :=
  let mine := (s.peer.qps.filter (fun q => 64 ≤ q.num)).map (fun q => q.num)
  let s1 := forEach (fun n t => freePair n (resetPair n t)) mine s
  forEach (fun i => odSet 0x7001 (i + 1) 0) (List.range 32) { s1 with peer := { s1.peer with parked := s1.peer.parked.filter (fun x => x.2.dstQp.toNat < 64) } }

/-! ## Device pairs (R389) -/

/-- A device pair of a port that has come up sends CONNECT to the pair of its role on the neighbour, unless its connection with that
node still stands (R389, R396). -/
def deviceConnect (n : Nat) (s : State) : State :=
  let node := (portOf s (n % 32)).node
  if (findQp s n).any (fun q => linked q && q.remoteNode == node) then s
  else
    let q : Qp :=
      { num := n, state := .connecting, remoteNode := node, remoteQp := n, cls := 3, winBytes := od s 0x7010 0x03,
        winPkts := od s 0x7010 0x04, ring := 4096, cqWindow := 0xFFFF, gen := (freeOf 24 s).toNat, connectAt := some s.now }
    sendConnect n ptConnect (drawn (setQp q s))

/-- The device pairs of a port are connected when it comes up. -/
def devicePairsUp (port : Nat) (s : State) : State := deviceConnect (32 + port) (deviceConnect port s)

end Sys2Proof.Machine
end

