-- ==== Sys2Proof/Machine/Links.lean ====
section
/-! DEFINITION. Isver ports: bring-up (R395), link key agreement (R447), frames (R400 to R403, R409), credits (R405,
R406), rekeying (R408), lanes (R394, R410, R411) and the egress scheduler (R413). -/

namespace Sys2Proof.Machine

/-! ## Bring-up (R395) -/

/-- Wavelengths of a port's laser input that are out (R393, R394). -/
def laserLow (s : State) (n : Nat) : List Nat := (s.links.lasers.getD (if n < 32 then n / 4 else 8 + (n - 32) / 4) {}).low

/-- Lanes with light. -/
def litLanes (s : State) (n : Nat) : Nat := (laserLow s n).foldl laneClear (allLanes n)

def bothLanes (a b : Nat) : Nat := (List.range 8).foldl (fun m i => if bitOf a i && bitOf b i then m + 2 ^ i else m) 0

/-- Whether self-test holds a port (R504): kinds 4 and 5. -/
def underTest (s : State) (n : Nat) : Bool :=
  s.power.test.any (fun t => (t.kind == 4 && t.unit == n) || (t.kind == 5 && 32 + t.unit == n))

/-- What this device tells at step 4: port kind, unit identifier, node ID, lanes in service, credit grants. -/
def ownCaps (n : Nat) (s : State) : LinkCaps :=
  { heath := isHeathPort n, unit := s.sec.unitId, node := BitVec.ofNat 16 (ownNode s), lanes := BitVec.ofNat 8 (litLanes s n),
    grants := List.replicate 4 (ownGrant n) }

/-- A step of bring-up begins. -/
def atStep (k : Nat) (n : Nat) (s : State) : State := editPort n (fun x => { x with state := 1, step := k, stepAt := s.now }) s

/-- Lanes that both ends have in service. -/
def agreedLanes (n : Nat) (caps : LinkCaps) (s : State) : Nat :=
  bothLanes (bothLanes caps.lanes.toNat (litLanes s n)) (allLanes n)

/-- Whether step 4 ends with what the neighbour tells: a port of the same kind, lanes enough, and from a heath bridge the grants that
R404 asks. -/
def capsFit (n : Nat) (caps : LinkCaps) (s : State) : Bool :=
  caps.heath == isHeathPort n && minLanes s n ≤ laneCount (agreedLanes n caps s) &&
  !(isHeathPort n && (caps.grants.length != 4 || caps.grants.any (fun g => g < 64)))

/-- Key agreement messages are accepted during steps 4 and 5. -/
def agreeing (p : Port) : Bool := p.state == 1 && (p.step == 4 || p.step == 5)

/-- LINK_KEY at the end with the higher unit identifier: LINK_CT and LINK_PROOF go out. The shared secret is a free value; a device
without identity signs no proof and never passes step 5 (R425). A message that comes during step 4 waits for step 5, since only the
neighbour's capabilities tell its unit (R447; DESIGN CHOICE, log entry 155). -/
def linkKeyIn (n : Nat) (unit : BitVec 128) (pub : Bytes) (s : State) : State :=
  let p := portOf s n
  if !agreeing p || s.sec.identity.isNone then s
  else if p.step == 4 then editPort n (fun x => { x with keyIn := some (unit, pub) }) s
  else if s.sec.unitId.toNat < p.neighbour.toNat || unit != p.neighbour then s
  else
    drawn (send (.linkMsg n 3) (send (.linkMsg n 2)
      (editPort n (fun x => { x with peerPub := pub, secret := some (freeOf 256 s), proofSent := true }) s)))

/-- PORT_BRING_UP: the step in progress ends, and the next begins; a port that is down begins step 1. Step 1 ends when light enough
is there, step 4, whose message goes out as it begins, with the neighbour's, and leads to key agreement. One command stands for each
step (DESIGN CHOICE, log entry 155). -/
def bringUp (n : Nat) (caps : LinkCaps) (s : State) : State :=
  let p := portOf s n
  if portUp s n || p.failed || s.power.linkTest == some n || underTest s n || !ready s then s
  else
    match p.step with
    | 0 => atStep 1 n s
    | 1 => if minLanes s n ≤ laneCount (litLanes s n) then atStep 2 n s else s
    | 2 => atStep 3 n s
    | 3 => send (.linkCaps n (ownCaps n s)) (atStep 4 n s)
    | 4 =>
      if !capsFit n caps s then s
      else
        let lanes := agreedLanes n caps s
        let first := s.sec.identity.isSome && decide (s.sec.unitId.toNat < caps.unit.toNat)
        let s1 := editPort n (fun x => { x with
          state := 1, step := 5, stepAt := s.now, txLanes := lanes, rxLanes := lanes, neighbour := caps.unit,
          node := caps.node.toNat, grants := caps.grants, keySent := first, secret := none, proofSent := false,
          peerPub := [], keyIn := none }) s
        let s2 := onlyIf first (send (.linkMsg n 1)) s1
        match p.keyIn with
        | some (unit, pub) => linkKeyIn n unit pub s2
        | none => s2
    | _ => s

def execPortBringUp (port : Nat) (caps : LinkCaps) (s : State) : Host.Outcome State Fault Refusal :=
  .next (bringUp port caps s)

/-- Bounds of the steps, in ns. -/
def stepBound (step : Nat) : Nat :=
  match step with
  | 1 => 1000000
  | 2 => 10000000
  | 3 => 100000
  | 4 => 100000
  | _ => 15000000

/-- BRINGUP_STEP_TIMEOUT: the port retrains from step 1, FLT_ISVER_LINK names the step. -/
def stepTimeout (n : Nat) (s : State) : State :=
  let p := portOf s n
  if p.state != 1 || p.step = 0 || s.now < p.stepAt + stepBound p.step then s
  else retrain n (fault .isverLink (unitPort n) (p.step + heathBit n 8) none s)

def execBringupStepTimeout (port : Nat) (s : State) : Host.Outcome State Fault Refusal := .next (stepTimeout port s)

/-! ## Link keys (R447) -/

def execLinkKey (port : Nat) (unit : BitVec 128) (pub _ek : Bytes) (s : State) : Host.Outcome State Fault Refusal :=
  .next (linkKeyIn port unit pub s)

/-- LINK_CT at the end that sent LINK_KEY: LINK_PROOF goes out. -/
def linkCtIn (n : Nat) (unit : BitVec 128) (pub : Bytes) (s : State) : State :=
  let p := portOf s n
  if !agreeing p || s.sec.identity.isNone || !p.keySent || unit != p.neighbour then s
  else
    drawn (send (.linkMsg n 3)
      (editPort n (fun x => { x with peerPub := pub, secret := some (freeOf 256 s), proofSent := true }) s))

def execLinkCt (port : Nat) (unit : BitVec 128) (pub _ct : Bytes) (s : State) : Host.Outcome State Fault Refusal :=
  .next (linkCtIn port unit pub s)

/-- Whether a peer's key hashes to its unit identifier (R47): the first 16 bytes of its SHA-256. -/
def keyIsOf (pub : Bytes) (unit : BitVec 128) : Bool := digestBytes (Config.sha256 pub) 16 == natLe 16 unit.toNat

/-- Allow-list entries (OD 0x9040). -/
def allowList (s : State) : List Nat := (List.range 64).map (fun i => od s 0x9040 (i + 1))

def allowed (s : State) (unit : BitVec 128) : Bool :=
  (allowList s).all (fun v => v == 0) || (allowList s).contains unit.toNat

/-- The lanes of a port that a mask leaves out. -/
def lanesOut (n mask : Nat) : List Nat := (List.range 8).filter (fun i => bitOf (allLanes n) i && !bitOf mask i)

/-- Step 6: both directions start at counter 0 and epoch 0, tags at 0, and the port is up; lanes that did not come up retrain in the
background (R411). -/
def linkUp (n : Nat) (s : State) : State :=
  let s1 := editPort n (fun p => { p with
    state := upState n p.txLanes p.rxLanes, step := 0, txCtr := 0, rxCtr := none, txEpoch := 0, rxEpoch := 0,
    epochFrames := 0, bad := 0, sent := [0, 0, 0, 0], sentTo := [], peerRcvd := [0, 0, 0, 0], peerFreed := [0, 0, 0, 0],
    heard := 0, rcvd := [0, 0, 0, 0], freed := [0, 0, 0, 0], freedTold := [0, 0, 0, 0], creditAt := s.now,
    nakAt := none, rxLost := false, agree := none, laneSwitch := none, laneBad := (lanesOut n p.rxLanes).map (fun l => (l, s.now)),
    v := 0, lastFinish := [] }) s
  let s2 := forEach (fun (e : Nat × List QPkt) => editPort n (stampQ (weightOf s n e.1) e.1)) (portOf s1 n).queues s1
  if isHeathPort n then heathPortUp (n - 32) s2 else devicePairsUp n s2

/-- LINK_PROOF: the peer is accepted, or the port retrains and FLT_ISVER_LINK names step 5. -/
def linkProofIn (n : Nat) (sigOk : Bool) (s : State) : State :=
  let p := portOf s n
  if !agreeing p || p.secret.isNone then s
  else if sigOk && keyIsOf p.peerPub p.neighbour && allowed s p.neighbour then linkUp n s
  else retrain n (fault .isverLink (unitPort n) (5 + heathBit n 8) none s)

def execLinkProof (port : Nat) (sigOk : Bool) (s : State) : Host.Outcome State Fault Refusal :=
  .next (linkProofIn port sigOk s)

/-! ## Frames that arrive (R400 to R403, R408, R409) -/

/-- The 64-bit counter of a frame: the smallest above the last accepted with its low 16 bits (R402). -/
def frameCtr (p : Port) (lo : Nat) : Nat :=
  let from_ := match p.rxCtr with | some c => c + 1 | none => 0
  from_ + modSub lo from_ 65536

/-- The counter a heath port's receiver expects (R403). -/
def expectedCtr (p : Port) : Nat := match p.rxCtr with | some c => c + 1 | none => 0

/-- A heath port's receiver sends NAK with E at once, and waits for it (R403). -/
def askReplay (n : Nat) (s : State) : State :=
  let p := portOf s n
  if !isHeathPort n || p.rxLost then s
  else
    controlOut n 3 (nakPayload (expectedCtr p)) (editPort n (fun x => { x with rxLost := true, nakAt := some s.now, nakFirst := s.now }) s)

/-- A frame fails its error correction or its authentication: dropped, counted; 1,024 in a row take the port down (R396),
and a run that ends in failed authentication records FLT_ISVER_AUTH (R409). -/
def badFrame (n sub ctr : Nat) (auth : Bool) (s : State) : State :=
  let run := (portOf s n).bad + 1
  let s1 := count (.port n) 0x0204 1 {} (bump64 (portIx n) sub (editPort n (fun p => { p with bad := run }) s))
  if 1024 ≤ run then
    portDown n (if auth then fault .isverAuth (unitPort n) (ctr + heathBit n 64) none s1 else s1)
  else askReplay n s1

/-- A lane change takes effect at the receiver with the frame of its switch counter (R411). -/
def laneReached (n ctr : Nat) (s : State) : State :=
  match (portOf s n).agree with
  | none => s
  | some a => if a.switchAt ≤ ctr then lanesChanged n (editPort n (fun p => { p with rxLanes := a.mask, agree := none }) s) else s

/-- Receive a frame: corrected, authenticated, in counter order on heath ports; an accepted one is counted and acted on. -/
def frameIn (n ftype : Nat) (f : Frame) (act : Nat → State → State) (s : State) : State :=
  let p := portOf s n
  if !portUp s n || f.ftype.toNat != ftype then s
  else if !f.fecOk then badFrame n 0x07 0 false s
  else
    let ctr := frameCtr p f.ctrLo.toNat
    let s0 := odAdd (portIx n) 0x09 64 f.corrected s
    if !f.authOk then badFrame n 0x08 ctr true s0
    else if isHeathPort n && ctr != expectedCtr p then askReplay n (editPort n (fun x => { x with bad := 0 }) s0)
    else
      let epoch := if bitOf f.flags.toNat 0 != (p.rxEpoch % 2 == 1) then p.rxEpoch + 1 else p.rxEpoch
      let s1 := count (.port n) 0x0203 1 {} (bump64 (portIx n) 0x06 (editPort n (fun x => { x with
        rxCtr := some ctr, bad := 0, rxEpoch := epoch, rxLost := false, nakAt := none }) s0))
      act ctr (laneReached n ctr s1)

/-- DATA: its class's counts grow; the packets or messages that it carries are commands of their own, and its bytes leave
the ingress buffer at once (log entry 33). -/
def dataFrame (n : Nat) (f : Frame) (s : State) : State :=
  let c := bitsOf f.flags.toNat 3 2
  frameIn n 1 f (fun _ => editPort n (fun p => { p with rcvd := addAt p.rcvd c 1, freed := addAt p.freed c 1 })) s

def execDataFrame (port : Nat) (f : Frame) (s : State) : Host.Outcome State Fault Refusal := .next (dataFrame port f s)

/-- IDLE: the counter alone (R402). -/
def idleIn (n : Nat) (f : Frame) (s : State) : State := frameIn n 0 f (fun _ t => t) s

def execIdleFrame (port : Nat) (f : Frame) (s : State) : Host.Outcome State Fault Refusal := .next (idleIn port f s)

/-- CREDIT (R406): what the receiver has had and freed, and the highest counter it has had. -/
def creditFrameIn (n : Nat) (f : Frame) (s : State) : State :=
  frameIn n 2 f (fun _ => editPort n (fun p =>
    let h := fieldAt f.payload 0 8
    if h < p.heard then p
    else
      { p with
        heard := h
        peerRcvd := (List.range 4).map (fun c => fieldAt f.payload (8 + 8 * c) 8)
        peerFreed := (List.range 4).map (fun c => fieldAt f.payload (40 + 8 * c) 8)
        sentTo := p.sentTo.filter (fun x => h < x.ctr) })) s

def execCreditFrame (port : Nat) (f : Frame) (s : State) : Host.Outcome State Fault Refusal :=
  .next (creditFrameIn port f s)

/-- NAK at a heath port (R403): the stored frames from E on are sent again. -/
def nakIn_ (n : Nat) (f : Frame) (s : State) : State :=
  frameIn n 3 f (fun _ t =>
    if !isHeathPort n then t
    else
      let again := (portOf t n).sentTo.filter (fun x => fieldAt f.payload 0 8 ≤ x.ctr)
      odAdd (portIx n) 0x0A 64 again.length (forEach (fun (x : SentFrame) => send (.replay n x.ctr x.wire)) again t)) s

def execNakFrame (port : Nat) (f : Frame) (s : State) : Host.Outcome State Fault Refusal := .next (nakIn_ port f s)

/-- LANE (R411): from the switch counter on, frames go over the new mask. -/
def laneIn (n : Nat) (f : Frame) (s : State) : State :=
  frameIn n 4 f (fun _ t =>
    let mask := bothLanes (fieldAt f.payload 0 1) (allLanes n)
    let at_ := fieldAt f.payload 8 8
    if (portOf t n).txCtr ≤ at_ then editPort n (fun p => { p with laneSwitch := some (mask, at_) }) t
    else lanesChanged n (editPort n (fun p => { p with txLanes := mask, laneSwitch := none }) t)) s

def execLane (port : Nat) (f : Frame) (s : State) : Host.Outcome State Fault Refusal := .next (laneIn port f s)

/-! ## Timers of a link -/

/-- NAK_REPEAT: every 2 µs while the receiver waits for E. -/
def nakRepeat (n : Nat) (s : State) : State :=
  let p := portOf s n
  if isHeathPort n && portUp s n && p.rxLost && p.nakAt.any (fun t => t + 2000 ≤ s.now) then
    controlOut n 3 (nakPayload (expectedCtr p)) (editPort n (fun x => { x with nakAt := some s.now }) s)
  else s

def execNakRepeat (port : Nat) (s : State) : Host.Outcome State Fault Refusal := .next (nakRepeat port s)

/-- REPLAY_TIMEOUT: 1 ms without recovery takes the port down. -/
def replayTimeout (n : Nat) (s : State) : State :=
  let p := portOf s n
  if isHeathPort n && p.rxLost && p.nakFirst + 1000000 ≤ s.now then portDown n s else s

def execReplayTimeout (port : Nat) (s : State) : Host.Outcome State Fault Refusal := .next (replayTimeout port s)

/-- Relayed packets that the buffer of port `n` holds until they leave by another (R384). -/
def heldTransit (s : State) (n : Nat) : List QPkt :=
  s.links.ports.flatMap (fun p => p.queues.flatMap (fun e => e.2.filter (fun k => k.transit == some n)))

/-- Frame credits of class `c` that port `n` tells as freed (R384, R404): not those of relayed packets that wait, and no more than
before while 128 of them fill its buffer. -/
def tellFreed (s : State) (n c : Nat) : Nat :=
  let p := portOf s n
  let held := (heldTransit s n).filter (fun k => (k.pkt.elim 0 (fun x => x.sched.toNat % 4)) == c)
  if 128 ≤ (heldTransit s n).length then nth p.freedTold c
  else max (nth p.freedTold c) (nth p.freed c - sumBy (fun k => framesOf k.len) held)

/-- Whether a CREDIT frame is due (R405): 256 frame slots of 16 ÷ n ns (R397), or 1/8 of a grant freed. -/
def creditDue (s : State) (n : Nat) : Bool :=
  let p := portOf s n
  p.creditAt + 4096 / max 1 (laneCount p.txLanes) ≤ s.now ||
  (List.range 4).any (fun c => ownGrant n ≤ 8 * (tellFreed s n c - nth p.freedTold c))

/-- CREDIT_FRAME_TIMER: a CREDIT frame with cumulative counts. -/
def creditTimer (n : Nat) (s : State) : State :=
  let p := portOf s n
  if !portUp s n || !creditDue s n then s
  else
    let freed := (List.range 4).map (tellFreed s n)
    controlOut n 2 (creditPayload (p.rxCtr.getD 0) p.rcvd freed) (editPort n (fun x => { x with creditAt := s.now, freedTold := freed }) s)

def execCreditFrameTimer (port : Nat) (s : State) : Host.Outcome State Fault Refusal := .next (creditTimer port s)

/-- LINK_REKEY (R408): after OD 0x7100:01 frames the sender moves to the next epoch. -/
def linkRekey (n : Nat) (s : State) : State :=
  if portUp s n then rekeyLink n s else s

def execLinkRekey (port : Nat) (s : State) : Host.Outcome State Fault Refusal := .next (linkRekey port s)

/-! ## Lanes (R394, R410, R411) -/

/-- Begin a lane change of the receiving direction: a LANE frame names the mask and a switch counter 256 above the last
counter received. -/
def laneAgree (n mask : Nat) (s : State) : State :=
  let c := expectedCtr (portOf s n) + 256
  let a : LaneAgree := { mask := mask, switchAt := c, since := s.now, lastSent := s.now }
  controlOut n 4 (lanePayload mask c) (editPort n (fun p => { p with agree := some a }) s)

/-- The mask towards which the receiving direction is changing, or the present one. -/
def targetMask (p : Port) : Nat := match p.agree with | some a => a.mask | none => p.rxLanes

def laneFaultRec (n lane mask : Nat) (tx : Bool) (s : State) : State :=
  fault .isverLane (unitPort n) (lane + mask * 2 ^ 8 + heathBit n 16 + (if tx then 2 ^ 17 else 0)) none s

/-- LANE_FAULT: the receiver takes a lane out of service; too few lanes take the port down (R396). -/
def laneFault (n lane : Nat) (s : State) : State :=
  let p := portOf s n
  if !portUp s n || !bitOf (targetMask p) lane then s
  else
    let mask := laneClear (targetMask p) lane
    let s1 := laneFaultRec n lane mask false s
    if laneCount mask < minLanes s n then portDown n s1
    else laneAgree n mask (editPort n (fun x => { x with laneBad := x.laneBad ++ [(lane, s.now)] }) s1)

def execLaneFault (port laneNo : Nat) (s : State) : Host.Outcome State Fault Refusal := .next (laneFault port laneNo s)

/-- LANE_FRAME_REPEAT: every 1 µs until the new mask is in use. -/
def laneRepeat (n : Nat) (s : State) : State :=
  match (portOf s n).agree with
  | none => s
  | some a =>
    if portUp s n && a.lastSent + 1000 ≤ s.now then
      controlOut n 4 (lanePayload a.mask a.switchAt) (editPort n (fun p => { p with agree := some { a with lastSent := s.now } }) s)
    else s

def execLaneFrameRepeat (port : Nat) (s : State) : Host.Outcome State Fault Refusal := .next (laneRepeat port s)

/-- LANE_AGREEMENT_TIMEOUT: 20 µs without agreement take the port down. -/
def laneLate (n : Nat) (s : State) : State :=
  match (portOf s n).agree with
  | none => s
  | some a => if a.since + 20000 ≤ s.now then portDown n s else s

def execLaneAgreementTimeout (port : Nat) (s : State) : Host.Outcome State Fault Refusal := .next (laneLate port s)

/-- LANE_RETRAIN: a lane out of service tries again after 100 ms, and rejoins through the same exchange if it passes. -/
def laneRetrain (n lane : Nat) (passed : Bool) (s : State) : State :=
  let p := portOf s n
  if !portUp s n || !p.laneBad.any (fun x => x.1 == lane && x.2 + 100000000 ≤ s.now) then s
  else if passed then
    laneAgree n (laneSet (targetMask p) lane) (editPort n (fun x => { x with laneBad := x.laneBad.filter (fun y => y.1 != lane) }) s)
  else
    editPort n (fun x => { x with laneBad := x.laneBad.map (fun y => if y.1 == lane then (lane, s.now) else y) }) s

def execLaneRetrain (port laneNo : Nat) (passed : Bool) (s : State) : Host.Outcome State Fault Refusal :=
  .next (laneRetrain port laneNo passed s)

/-- Ports that a laser input feeds (R393). -/
def laserPorts (k : Nat) : List Nat := (List.range 4).map (fun i => if k < 8 then 4 * k + i else 32 + 4 * (k - 8) + i)

/-- A lane of a port loses its light (R394): it leaves the transmit direction of a port that is up or in key agreement, which starts
again where too few are left (R396). A lane whose light returns joins again when the receiver's LANE frame names it (R411). -/
def laserLane (lane n : Nat) (s : State) : State :=
  let p := portOf s n
  let training := p.state == 1 && p.step == 5
  if !(portUp s n || training) || !bitOf p.txLanes lane then s
  else
    let mask := laneClear p.txLanes lane
    let s1 := laneFaultRec n lane mask true (editPort n (fun x => { x with txLanes := mask }) s)
    if training && laneCount mask < minLanes s n then retrain n s1 else lanesChanged n s1

def minInt (l : List Int) : Int := l.foldl min (l.headD 0)

/-- One laser input's measurement: wavelengths below 12.0 dBm go out, those at or above 13.0 dBm for 100 ms return. -/
def laserInput (k : Nat) (powers : List Int) (s : State) : State :=
  let old : Laser := s.links.lasers.getD k {}
  let idx := (List.range powers.length).filter (fun i => i < if k < 8 then 8 else 4)
  let power (i : Nat) : Int := powers.getD i 0
  let dark := idx.filter (fun i => power i < 1200)
  let newly := dark.filter (fun i => !old.low.contains i)
  let good := (idx.filter (fun i => old.low.contains i && 1300 ≤ power i)).map (fun i => (i, lookupD old.goodSince i s.now))
  let back := (good.filter (fun e => e.2 + 100000000 ≤ s.now)).map (fun e => e.1)
  let new : Laser :=
    { powers := powers, low := (old.low ++ newly).filter (fun i => !back.contains i),
      goodSince := good.filter (fun e => !back.contains e.1) }
  let s1 := { s with links := { s.links with lasers := s.links.lasers.set k new } }
  let mask := dark.foldl (fun m i => m + 2 ^ i) 0
  let low16 := ((minInt powers) % 65536).toNat
  let s2 := if newly.isEmpty then s1
    else faultEvent .laser (unitLaser k) (mask + low16 * 2 ^ 16) none .media 0 s1
  forEach (fun i t => forEach (laserLane i) (laserPorts k) t) newly s2

/-- LASER_CHECK (R394). -/
def laserCheck (powers : List (List Int)) (s : State) : State :=
  forEach (fun k t => laserInput k (powers.getD k []) t) (List.range 12) s

def execLaserCheck (powers : List (List Int)) (s : State) : Host.Outcome State Fault Refusal := .next (laserCheck powers s)

/-! ## The scheduler (R413) -/

/-- Whether the head of queue `q` may go: its class is open and has credit for the whole packet; a heath port holds at
most 4,096 frames (R403). -/
def mayLeave (n : Nat) (p : Port) (q : Nat) (k : QPkt) : Bool :=
  bitOf p.mask (q % 4) && usedCredits p (q % 4) + framesOf k.len ≤ nth p.grants (q % 4) &&
  (!isHeathPort n || p.sentTo.length + framesOf k.len ≤ 4096)

/-- The eligible queue whose head has the least finish tag, the lowest number winning ties. -/
def pickQueue (n : Nat) (p : Port) : Option (Nat × QPkt) :=
  (p.queues.filterMap (fun e => (e.2.head?).bind (fun k => if mayLeave n p e.1 k then some (e.1, k) else none))).foldl
    (fun best x =>
      match best with
      | none => some x
      | some b => if tagBefore x.2.finish b.2.finish then some x else some b) none

/-- The bytes of a bridge request (R328). -/
def requestOn (s : State) (h tag : Nat) : Bytes :=
  ((shelfOf s h).ops.find? (fun o => o.tag == tag)).elim [] (fun o => bridgeBytes o ++ o.data)

/-- Note when a bridge request has left, for its 50 ms (R331); an array operation counts (R488). -/
def requestLeft (h tag : Nat) (s : State) : State :=
  let x := shelfOf s h
  match x.ops.find? (fun o => o.tag == tag) with
  | none => s
  | some o =>
    count (.port (32 + h)) 0x0207 (if isArrayOp o then 1 else 0) { cls := 4 } (send (.bridge h (bridgeBytes o ++ o.data))
      (setShelf h { x with ops := mapIf (fun (y : BridgeOp) => y.tag == tag) (fun y => { y with at_ := s.now }) x.ops } s))

/-- PACKET_BOUNDARY: the scheduler sends one packet whole, or an IDLE frame where no queue is eligible. -/
def packetBoundary (n : Nat) (s : State) : State :=
  if !portUp s n then s
  else
    match pickQueue n (portOf s n) with
    | none => controlOut n 0 (padFrame []) s
    | some (q, k) =>
      let s1 := editPort n (fun p =>
        stampQ (weightOf s n q) q (setPkts q (pktsOf p q).tail { p with v := k.finish, lastFinish := insertKey q k.finish p.lastFinish })) s
      match k.pkt with
      | some x => send (.packet n x k.wire) (dataOut n q k.len k.wire s1)
      | none => requestLeft (n - 32) k.request (dataOut n q k.len (requestOn s1 (n - 32) k.request) s1)

def execPacketBoundary (port : Nat) (s : State) : Host.Outcome State Fault Refusal := .next (packetBoundary port s)

end Sys2Proof.Machine
end

