-- ==== Sys2Proof/Machine/Plan.lean ====
section
/-! DEFINITION. Plan images (R87 to R98, R105, R108, R208, R209, R414): reading one into its parts and checking it, with
the byte offset of the first field at fault. -/

namespace Sys2Proof.Machine

/-- What a failed plan check answers: its status and the offset of the field at fault (R98, OD 0x2010:07). -/
abbrev PlanRes (α : Type) := Except (Status × Nat) α

/-- A fault at an offset unless the condition holds. -/
def ask (b : Bool) (st : Status) (off : Nat) : PlanRes Unit := if b then .ok () else .error (st, off)

def bad (b : Bool) (off : Nat) : PlanRes Unit := ask b .badDescriptor off

/-- Whether `n` bytes at `off` are zero. -/
def zeroAt (bs : Bytes) (off n : Nat) : Bool := fieldAt bs off n == 0

/-- Whether a table of `n` bytes at an offset lies in the image, aligned to 8 bytes. -/
def tableIn (total off n : Nat) : Bool := n == 0 || (off % 8 == 0 && 128 ≤ off && off + n ≤ total)

/-- The number a two's-complement byte spells. -/
def int8 (v : Nat) : Int := if v < 128 then (v : Int) else (v : Int) - 256

/-! ## Parts -/

/-- A group entry (R88), checked for its own fields. -/
def readGroup (bs : Bytes) (off : Nat) : PlanRes Group := do
  let g : Group :=
    { first := fieldAt bs off 1, final := fieldAt bs (off + 1) 1, headGroups := fieldAt bs (off + 2) 1,
      kind := fieldAt bs (off + 3) 1, window := fieldAt bs (off + 4) 4, format := fieldAt bs (off + 8) 1,
      pageBytes := fieldAt bs (off + 12) 4 }
  bad (1 ≤ g.headGroups && g.headGroups ≤ 64) (off + 2)
  bad (g.kind ≤ 3) (off + 3)
  bad (if g.kind = 1 then 1 ≤ g.window else g.window == 0) (off + 4)
  bad (formatOk g.format) (off + 8)
  bad (zeroAt bs (off + 9) 3) (off + 9)
  return g

/-- Read `n` entries of `size` bytes from an offset on. -/
def readEntries {α : Type} (f : Bytes → Nat → PlanRes α) (size : Nat) (bs : Bytes) : Nat → Nat → PlanRes (List α)
  | 0, _ => .ok []
  | n + 1, off =>
    match f bs off with
    | .error e => .error e
    | .ok x =>
      match readEntries f size bs n (off + size) with
      | .error e => .error e
      | .ok xs => .ok (x :: xs)

/-- Groups cover layers 0 to `last` without gap or overlap; where they end short of it, the last group's end is at fault. -/
def groupsCover (from_ last off : Nat) : List Group → PlanRes Unit
  | [] => bad (from_ == last + 1) (off - 15)
  | g :: gs =>
    match do bad (g.first == from_) off; bad (g.first ≤ g.final && g.final ≤ last) (off + 1) with
    | .error e => .error e
    | .ok _ => groupsCover (g.final + 1) last (off + 16) gs

/-- A firing entry (R89), checked for what every action shares. -/
def readFiring (last : Nat) (bs : Bytes) (off : Nat) : PlanRes Firing := do
  let f : Firing :=
    { period := fieldAt bs off 2, residue := fieldAt bs (off + 2) 2, layer := fieldAt bs (off + 4) 1,
      phase := fieldAt bs (off + 5) 1, action := fieldAt bs (off + 6) 1, partition := fieldAt bs (off + 7) 1,
      flags := fieldAt bs (off + 8) 1, operands := fieldAt bs (off + 12) 20 }
  bad (1 ≤ f.period) off
  bad (f.residue < f.period) (off + 2)
  bad (f.layer ≤ last || f.layer == 0xFF) (off + 4)
  bad (f.phase ≤ 3) (off + 5)
  bad (1 ≤ f.action && f.action ≤ 7) (off + 6)
  bad (f.partition ≤ 31 || f.partition == 0xFF) (off + 7)
  bad (f.flags ≤ 1) (off + 8)
  bad (zeroAt bs (off + 9) 3) (off + 9)
  return f

/-- Operand bytes `a` to `a + n - 1` of a firing, numbered as in its entry (R90). -/
def opField (f : Firing) (a n : Nat) : Nat := f.operands / 256 ^ (a - 12) % 256 ^ n

/-- Whether the operand bytes outside the given spans are zero. -/
def opZero (f : Firing) (named : List (Nat × Nat)) : Bool :=
  (List.range 20).all (fun i => named.any (fun x => x.1 ≤ i + 12 && i + 12 < x.1 + x.2) || opField f (i + 12) 1 == 0)

/-- A gate list (R414). -/
def readGateList (bs : Bytes) (off : Nat) : PlanRes (List GateEntry) := do
  let n := fieldAt bs off 1
  if n = 0 then return []
  else
    bad (n ≤ 64) off
    bad (fieldAt bs (off + 1) 1 == 1) (off + 1)
    bad (zeroAt bs (off + 2) 6) (off + 2)
    let es ← readEntries (fun b o => do
      let e : GateEntry := { layer := fieldAt b o 1, phase := fieldAt b (o + 1) 1, mask := fieldAt b (o + 2) 1 }
      bad (e.phase ≤ 3) (o + 1)
      bad (e.mask < 16) (o + 2)
      bad (zeroAt b (o + 3) 5) (o + 3)
      return e) 8 bs n (off + 8)
    bad ((es.zip es.tail).all (fun x => x.1.layer * 4 + x.1.phase < x.2.layer * 4 + x.2.phase)) (off + 8)
    return es

def readPart (bs : Bytes) (off : Nat) : PlanRes PartRes := do
  let r : PartRes :=
    { maxSeq := fieldAt bs off 2, maxSplit := fieldAt bs (off + 2) 1, maxPages := fieldAt bs (off + 4) 4,
      maxCand := fieldAt bs (off + 8) 4, subBytes := fieldAt bs (off + 12) 4, cores := fieldAt bs (off + 16) 12 }
  bad (r.maxSeq ≤ 8192) off
  bad (r.maxSplit ≤ 64) (off + 2)
  bad (zeroAt bs (off + 3) 1) (off + 3)
  bad (r.subBytes % 64 == 0 && r.subBytes ≤ 4 * 2 ^ 20) (off + 12)
  bad (zeroAt bs (off + 28) 36) (off + 28)
  return r

def readSplit (parts : List PartRes) (bs : Bytes) (off : Nat) : PlanRes SplitLayout := do
  let k := fieldAt bs (off + 1) 1
  let cores := (List.range 16).map (fun i => fieldAt bs (off + 4 + i) 1)
  let l : SplitLayout := { partition := fieldAt bs off 1, k := k, merge := fieldAt bs (off + 2) 1, cores := cores.take k }
  bad (l.partition ≤ 31) off
  bad (2 ≤ k && k ≤ 16) (off + 1)
  bad (l.cores.contains l.merge) (off + 2)
  bad (zeroAt bs (off + 3) 1) (off + 3)
  bad (l.cores.all (fun c => c < 96 && bitOf ((parts.getD l.partition default).cores) c) && l.cores.Nodup &&
    (cores.drop k).all (fun c => c == 0xFF)) (off + 4)
  bad (zeroAt bs (off + 20) 12) (off + 20)
  return l

def claimUnitOk (kind unit : Nat) : Bool :=
  if kind = 1 then unit == 0
  else if kind = 3 then unit < 32
  else if kind = 4 then unit < 1536
  else unit < 32 || (0x100 ≤ unit && unit < 0x110)

def readClaim (bs : Bytes) (off : Nat) : PlanRes Claim := do
  let c : Claim := { kind := fieldAt bs off 1, purpose := fieldAt bs (off + 1) 1, unit := fieldAt bs (off + 2) 2 }
  bad (c.kind == 1 || c.kind == 3 || c.kind == 4 || c.kind == 6) off
  bad (if c.kind = 4 then 1 ≤ c.purpose && c.purpose ≤ 4 else c.purpose == 0) (off + 1)
  bad (claimUnitOk c.kind c.unit) (off + 2)
  bad (zeroAt bs (off + 4) 4) (off + 4)
  return c

/-- A job template (R168, R169): the fields that do not depend on its layer group. -/
def readTemplate (bs : Bytes) (off : Nat) : PlanRes Desc := do
  let d := descOf ((bs.drop off).take 64)
  bad (dfield d 0 1 == 0x40) off
  bad (dfield d 1 1 == 0 && dfield d 3 1 == 0) (off + 1)
  bad (dfield d 8 6 == 0) (off + 8)
  bad (atFmtQ d != 3 && atFmtKv d != 3 && atFmtOut d != 3 && !bitOf (dfield d 14 1) 7) (off + 14)
  bad (dfield d 15 1 < 4) (off + 15)
  bad (dfield d 16 8 == 0) (off + 16)
  bad (f32Positive (dfield d 24 4)) (off + 24)
  bad (if atFmtQ d = 0 then dfield d 28 4 == 0 else f32Positive (dfield d 28 4)) (off + 28)
  bad (dfield d 32 24 == 0) (off + 32)
  bad (if atFmtKv d = 0 then dfield d 60 4 == 0 else f32Positive (dfield d 60 4)) (off + 60)
  return d

/-! ## The image (R87) -/

/-- Where an image's tables lie. -/
structure PlanOffs where
  firing : Nat
  group : Nat
  res : Nat
  slice : Nat
  template : Nat
  split : Nat
  gate : Nat
  gateBytes : Nat

def planOffs (bs : Bytes) : PlanOffs :=
  { firing := fieldAt bs 36 4, group := fieldAt bs 44 4, res := fieldAt bs 48 4, slice := fieldAt bs 56 4,
    template := fieldAt bs 60 4, split := fieldAt bs 68 4, gate := fieldAt bs 72 4, gateBytes := fieldAt bs 76 4 }

/-- Layers that a header names: 0 stands for 256. -/
def planLayers (bs : Bytes) : Nat := if fieldAt bs 24 1 = 0 then 256 else fieldAt bs 24 1

/-- The header's own checks. -/
def headerCheck (bs : Bytes) (size : Nat) : PlanRes Unit := do
  let total := fieldAt bs 8 4
  let last := planLayers bs - 1
  bad (fieldAt bs 0 4 == 0x4E56434F) 0
  bad (fieldAt bs 4 2 == 1) 4
  bad (fieldAt bs 6 2 == 128) 6
  bad (128 ≤ total && total ≤ 4 * 2 ^ 20 && total ≤ size) 8
  bad (1 ≤ fieldAt bs 25 1 && fieldAt bs 25 1 ≤ 16) 25
  bad (1 ≤ fieldAt bs 26 1 && fieldAt bs 26 1 ≤ 64) 26
  bad (1 ≤ fieldAt bs 27 1 && fieldAt bs 27 1 ≤ 8) 27
  bad (100000 ≤ fieldAt bs 28 4) 28
  bad (0xFC ≤ fieldAt bs 32 1) 32
  bad (fieldAt bs 33 1 ≤ last || fieldAt bs 33 1 == 0xFF) 33
  bad (fieldAt bs 34 1 ≤ 3) 34
  bad (1 ≤ fieldAt bs 35 1 && fieldAt bs 35 1 ≤ 4) 35
  let o := planOffs bs
  bad (1 ≤ fieldAt bs 40 4 && fieldAt bs 40 4 ≤ 65536) 40
  bad (tableIn total o.firing (32 * fieldAt bs 40 4)) 36
  bad (tableIn total o.group (16 * fieldAt bs 25 1)) 44
  bad (64 + 2048 ≤ fieldAt bs 52 4) 52
  bad (tableIn total o.res (fieldAt bs 52 4)) 48
  bad (tableIn total o.slice (4 * fieldAt bs 26 1)) 56
  bad (1 ≤ fieldAt bs 64 2 && fieldAt bs 64 2 ≤ 256) 64
  bad (tableIn total o.template (64 * fieldAt bs 64 2)) 60
  bad (fieldAt bs 66 2 ≤ 64) 66
  bad (tableIn total o.split (32 * fieldAt bs 66 2)) 68
  bad (tableIn total o.gate o.gateBytes) 72
  bad (zeroAt bs 80 48) 80

/-- Gate lists that GATE_SWAP firings name, by offset in the gate-list area. -/
def readGates (bs : Bytes) (o : PlanOffs) (fs : List Firing) : PlanRes (List (Nat × List GateEntry)) :=
  ((indexed fs).filter (fun f => f.2.action == 4)).mapM (fun f => do
    let off := opField f.2 16 4
    bad (off + 8 ≤ o.gateBytes && off + 8 + 8 * fieldAt bs (o.gate + off) 1 ≤ o.gateBytes) (o.firing + 32 * f.1 + 16)
    let l ← readGateList bs (o.gate + off)
    return (off, l))

/-- Read an image whole: every check of R98 that needs the image alone. -/
def readPlan (bs : Bytes) (size : Nat) : PlanRes Plan := do
  headerCheck bs size
  let o := planOffs bs
  let layers := planLayers bs
  let last := layers - 1
  let groups ← readEntries readGroup 16 bs (fieldAt bs 25 1) o.group
  groupsCover 0 last o.group groups
  let nClaims := fieldAt bs (o.res + 2) 2
  bad (1 ≤ fieldAt bs o.res 1 && fieldAt bs o.res 1 ≤ 44) o.res
  bad (zeroAt bs (o.res + 1) 1) (o.res + 1)
  bad (fieldAt bs 52 4 == 64 + 2048 + 8 * nClaims) 52
  bad (fieldAt bs (o.res + 4) 4 == 6400 || fieldAt bs (o.res + 4) 4 == 8000) (o.res + 4)
  bad (zeroAt bs (o.res + 8) 56) (o.res + 8)
  let parts ← readEntries readPart 64 bs 32 (o.res + 64)
  let claims ← readEntries readClaim 8 bs nClaims (o.res + 64 + 2048)
  let templates ← readEntries readTemplate 64 bs (fieldAt bs 64 2) o.template
  let splits ← readEntries (readSplit parts) 32 bs (fieldAt bs 66 2) o.split
  let firings ← readEntries (readFiring last) 32 bs (fieldAt bs 40 4) o.firing
  let gates ← readGates bs o firings
  return { planId := fieldAt bs 12 4, modelTag := fieldAt bs 16 8, layers := layers, groups := groups,
           slices := (List.range (fieldAt bs 26 1)).map (fun i => fieldAt bs (o.slice + 4 * i) 4), depth := fieldAt bs 27 1,
           minStep := fieldAt bs 28 4, dueStep := int8 (fieldAt bs 32 1), dueLayer := fieldAt bs 33 1,
           duePhase := fieldAt bs 34 1, lead := fieldAt bs 35 1, firings := firings, templates := templates,
           splits := splits, gates := gates, streamModules := fieldAt bs o.res 1, pinRate := fieldAt bs (o.res + 4) 4,
           parts := parts, claims := claims }

/-! ## Checks against the dictionary and the objects (R98) -/

/-- The layer a firing stands at. -/
def firingLayer (p : Plan) (f : Firing) : Nat := if f.layer = 0xFF then p.layers - 1 else f.layer

/-- Every record group that holds one of a plan group's layers agrees with it (R126), and its head groups divide the KV heads
(R160); the offset is that of the field at fault. -/
def groupAgrees (s : State) (m : Nat) (off : Nat) (g : Group) : PlanRes Unit := do
  let rs := (modelGroups s m).filter (fun r => r.first ≤ g.final && g.first ≤ r.final)
  bad (rs.all (fun r => if r.kind = 3 then g.headGroups == 1 else r.h % g.headGroups == 0)) (off + 2)
  bad (rs.all (fun r => r.kind == g.kind)) (off + 3)
  bad (rs.all (fun r => r.window == g.window)) (off + 4)
  bad (rs.all (fun r => r.format == g.format)) (off + 8)
  bad (rs.all (fun r => pageBytes r == g.pageBytes)) (off + 12)

/-- Check each entry of a table of `size` bytes an entry. -/
def eachEntry {α : Type} (f : Nat → α → PlanRes Unit) (size : Nat) : Nat → List α → PlanRes Unit
  | _, [] => .ok ()
  | off, x :: xs =>
    match f off x with
    | .error e => .error e
    | .ok _ => eachEntry f size (off + size) xs

/-- Tiles of an object: the sherds of its coded image (R249). -/
def tilesOf (s : State) (o : Obj) : Nat := (objDirectory s o).elim 0 (fun d => d.count)

/-- BAD_DESCRIPTOR faults of one firing's operands (R90, R91, R169, R312, R313). -/
def firingOperands (s : State) (m : Nat) (p : Plan) (off : Nat) (f : Firing) : PlanRes Unit :=
  match f.action with
  | 1 => do
    let g := p.groups[opField f 14 1]?
    let d := p.templates.getD (opField f 12 2) 0
    bad (opField f 12 2 < p.templates.length) (off + 12)
    bad (g.any (fun x => x.first ≤ firingLayer p f && firingLayer p f ≤ x.final)) (off + 14)
    bad (opZero f [(12, 3)]) (off + 15)
    bad (g.any (fun x => atWindow d == (x.kind == 1) && (x.kind == 2 || atAux d == 0) && (x.kind != 2 || atAux d != 0))) (off + 12)
    bad ((layerGroup s m (firingLayer p f)).any (fun r => r.kind != 2 || (findObj s (atAux d)).all (fun o => o.kind == 2))) (off + 12)
  | 2 => do
    bad (opField f 12 1 ≤ 2) (off + 12)
    bad (opField f 13 1 ≤ 4) (off + 13)
    bad (if opField f 12 1 = 0 then opField f 14 1 + opField f 15 1 ≤ p.layers else opField f 14 2 == 0) (off + 14)
    bad (opZero f (if opField f 12 1 = 2 then [(12, 2), (16, 12)] else [(12, 4)])) (off + 16)
    bad (opField f 12 1 != 2 || (findObj s (opField f 16 4)).all (fun o =>
      64 * opField f 20 4 + 64 * opField f 24 4 ≤ o.size)) (off + 20)
  | 3 => do
    bad (opZero f [(12, 2), (16, 12)]) (off + 14)
    bad ((findObj s (opField f 16 4)).all (fun o => opField f 20 4 + opField f 24 4 ≤ tilesOf s o)) (off + 20)
  | 4 => do
    bad (opField f 12 1 ≤ 1) (off + 12)
    bad (opZero f [(12, 2), (16, 4)]) (off + 14)
  | 5 => do
    bad (opField f 12 2 == 0x3010 && 1 ≤ opField f 14 1 && opField f 14 1 ≤ 32) (off + 12)
    bad (opField f 16 8 ≤ 1) (off + 16)
    bad (opZero f [(12, 3), (16, 8)]) (off + 15)
  | 6 => bad (opZero f []) (off + 12)
  | _ => bad (opZero f [(16, 8)]) (off + 12)

/-- Whether a port exists and has not failed its test (R508). -/
def portExists (s : State) (heath : Bool) (n : Nat) : Bool :=
  n < (if heath then 16 else 32) && !((s.links.ports[if heath then 32 + n else n]?).any (fun p => p.failed))

/-- BAD_OBJECT faults of one firing: objects, windows and ports that it names. -/
def firingNames (s : State) (p : Plan) (off : Nat) (f : Firing) : PlanRes Unit :=
  match f.action with
  | 1 =>
    let aux := atAux (p.templates.getD (opField f 12 2) 0)
    ask (aux == 0 || (findObj s aux).isSome) .badObject (off + 12)
  | 2 =>
    if opField f 12 1 = 2 then
      ask ((findObj s (opField f 16 4)).any (fun o => f.partition == 0xFF || f.partition == o.part)) .badObject (off + 16)
    else .ok ()
  | 3 => do
    ask ((findWindow (opField f 12 2) s).any (fun w => w.cls == 3)) .badObject (off + 12)
    ask ((findObj s (opField f 16 4)).any (fun o => o.kind == 2)) .badObject (off + 16)
  | 4 => ask (portExists s (opField f 12 1 == 1) (opField f 13 1)) .badObject (off + 13)
  | _ => .ok ()

/-- Layers whose RELEASE has fired and whose DUE has not been reached at a position of a step, as if every RELEASE entry fired in
it (R108). -/
def openLayers (p : Plan) (layer phase : Nat) : List Nat :=
  ((p.firings.filter (fun f => f.action == 1 && firingLayer p f * 4 + f.phase ≤ layer * 4 + phase &&
    layer * 4 + phase < firingLayer p f * 4 + 2)).map (firingLayer p)).dedup

/-- The deadline depth that a plan needs (R108): the most such layers at any position at which a RELEASE fires. -/
def neededDepth (p : Plan) : Nat :=
  (p.firings.filter (fun f => f.action == 1)).foldl (fun a f => max a (openLayers p (firingLayer p f) f.phase).length) 0

/-- Partitions that take part under a slice entry. -/
def sliceParts (p : Plan) (mask : Nat) : List (Nat × PartRes) := (indexed p.parts).filter (fun x => bitOf mask x.1)

/-- Whether masks of the partitions of a slice entry are disjoint. -/
def masksDisjoint (l : List (Nat × PartRes)) : Bool :=
  l.all (fun a => l.all (fun b => a.1 == b.1 || a.2.cores &&& b.2.cores == 0))

/-- Bytes that a slice entry's partitions move in a step (R97). -/
def sliceBytesMoved (p : Plan) (l : List (Nat × PartRes)) : Nat :=
  sumBy (fun x => sumBy (fun g => x.2.maxPages * (g.final + 1 - g.first) * g.pageBytes) p.groups) l

/-- Regions claimed on a core, of one purpose or of any. -/
def regionsOf (p : Plan) (core : Nat) (purpose : Option Nat) : Nat :=
  (p.claims.filter (fun c => c.kind == 4 && c.unit / 16 == core && (purpose.isNone || purpose == some c.purpose))).length

def regionsFor (bytes : Nat) : Nat := ceilDiv bytes 524288

/-- Bytes of one token's record of a layer in storage format (R123, R129). -/
def tokenLayerBytes (g : MGroup) : Nat := pageBytes g / 16

/-- Purpose 1 needs of merge cores (R192, R209). -/
def mergeNeeds (s : State) (m : Nat) (p : Plan) (core : Nat) : Nat :=
  let k := (p.splits.filter (fun l => l.merge == core)).foldl (fun a l => max a l.k) 0
  let dOut := (modelGroups s m).foldl (fun a g => max a (dimOut g)) 0
  regionsFor (k * modelHq s m * (4 * dOut + 8))

/-- The plan's head groups for a record group: the fewest of the plan's groups that cut it, whose slices are the largest. -/
def headGroupsOf (p : Plan) (g : MGroup) : Nat :=
  match (p.groups.filter (fun x => x.first ≤ g.final && g.first ≤ x.final)).map (fun x => x.headGroups) with
  | [] => 1
  | n :: ns => ns.foldl min n

/-- Purpose 2 needs of a partition's cores (R183, R209). -/
def tailNeeds (s : State) (m : Nat) (p : Plan) (r : PartRes) : Nat :=
  let t := (modelGroups s m).foldl (fun a g =>
    max a (if g.kind ≤ 1 then ceilDiv (tokenLayerBytes g) (headGroupsOf p g) else tokenLayerBytes g)) 0
  regionsFor (r.maxCand * t)

/-- Purpose 3 needs of a partition's cores (R174, R209). -/
def weightNeeds (s : State) (m : Nat) (p : Plan) : Nat :=
  regionsFor (2 * ((modelGroups s m).filter (fun g => g.kind == 2)).foldl (fun a g => max a (sliceBytes g (headGroupsOf p g))) 0)

/-- NO_SPACE faults: slices, cores, claims' sizes, the provisional and submission areas. -/
def spaceCheck (s : State) (m : Nat) (p : Plan) (o : PlanOffs) : PlanRes Unit := do
  eachEntry (fun off (r : PartRes) => ask ((coresOf r.cores).all (coreUp s)) .noSpace (off + 16)) 64 (o.res + 64) p.parts
  eachEntry (fun off (c : Claim) => ask (c.kind != 4 || coreUp s (c.unit / 16)) .noSpace (off + 2)) 8 (o.res + 64 + 2048) p.claims
  eachEntry (fun off k => ask (masksDisjoint (sliceParts p k)) .noSpace off) 4 o.slice p.slices
  ask (p.pinRate ≤ s.power.pinRate) .noSpace (o.res + 4)
  eachEntry (fun off k => ask (sliceBytesMoved p (sliceParts p k) * 8000 ≤ 24 * 2048 * p.pinRate * p.minStep) .noSpace off) 4
    o.slice p.slices
  eachEntry (fun off (x : Nat × PartRes) =>
    ask (sumBy (fun r => 2 * p.layers * r.subBytes) (p.parts.take (x.1 + 1)) ≤ od s 0x2010 0x08) .noSpace (off + 12)) 64 (o.res + 64)
    (indexed p.parts)
  eachEntry (fun off (x : Nat × Claim) => ask (x.2.kind != 4 || ((p.claims.take (x.1 + 1)).filter (fun c =>
    c.kind == 4 && c.unit / 16 == x.2.unit / 16)).length ≤ 8) .noSpace (off + 2)) 8 (o.res + 64 + 2048) (indexed p.claims)
  eachEntry (fun off (l : SplitLayout) => ask (1 ≤ regionsOf p l.merge (some 1) && mergeNeeds s m p l.merge ≤ regionsOf p l.merge (some 1))
    .noSpace (off + 2)) 32 o.split p.splits
  eachEntry (fun off (r : PartRes) => ask (r.maxCand == 0 || (coresOf r.cores).all (fun c =>
    1 ≤ regionsOf p c (some 2) && tailNeeds s m p r ≤ regionsOf p c (some 2))) .noSpace (off + 8)) 64 (o.res + 64) p.parts
  eachEntry (fun off (r : PartRes) => ask (!(modelGroups s m).any (fun g => g.kind == 2) || (coresOf r.cores).all (fun c =>
    1 ≤ regionsOf p c (some 3) && weightNeeds s m p ≤ regionsOf p c (some 3))) .noSpace (off + 16)) 64 (o.res + 64) p.parts
  eachEntry (fun off (x : Nat × PartRes) =>
    ask (sumBy (fun r => r.maxCand * sumBy (fun g => (g.final + 1 - g.first) * tokenLayerBytes g) (modelGroups s m)) (p.parts.take (x.1 + 1))
      ≤ od s 0x3030 0x01) .noSpace (off + 8)) 64 (o.res + 64) (indexed p.parts)

/-- Ports whose gate list a plan claims (R416). -/
def gatePorts (p : Plan) : List Nat :=
  (p.firings.filter (fun f => f.action == 4)).map (fun f => if opField f 12 1 = 1 then 0x100 + opField f 13 1 else opField f 13 1)

/-- Kind and unit of every shared resource a plan claims (R93 to R95). -/
def planClaims (p : Plan) : List (Nat × Nat) :=
  (p.claims.map (fun (c : Claim) => (c.kind, c.unit)) ++ (gatePorts p).map (fun n => (6, n))).dedup

/-- The first claim of an image (R94), with its index, that names a resource claimed before it. -/
def doubleClaim (l : List Claim) : Option (Nat × Claim) :=
  (indexed l).find? (fun x => (l.take x.1).any (fun c => c.kind == x.2.kind && c.unit == x.2.unit))

/-- Offset of an image's claim entries. -/
def planClaimOff (s : State) (o : Obj) : Nat := fieldAt (objBytes s o 48 4) 0 4 + 64 + 2048

/-- Every check of R98 on an image but those of claims and comparators. The rule gives no order: this one decides which of several
faults of an image is the first, and so the status and the offset that are reported (DESIGN CHOICE, log entry 149). -/
def checkPlan (s : State) (o : Obj) : PlanRes Plan := do
  let bs := objBytes s o 0 (min o.size (4 * 2 ^ 20))
  let p ← readPlan bs o.size
  let offs := planOffs bs
  match modelByTag s p.modelTag with
  | none => .error (.badObject, 16)
  | some m =>
    bad (p.layers == modelLayers s m) 24
    eachEntry (groupAgrees s m) 16 offs.group p.groups
    bad (neededDepth p ≤ p.depth) 27
    eachEntry (firingOperands s m p) 32 offs.firing p.firings
    eachEntry (firingNames s p) 32 offs.firing p.firings
    spaceCheck s m p offs
    return p

/-- SHA-256 of a plan image (R85). -/
def planDigest (s : State) (o : Obj) : BitVec 256 := Config.sha256 (objBytes s o 0 (fieldAt (objBytes s o 8 4) 0 4))

end Sys2Proof.Machine
end

