-- ==== Sys2Proof/Machine/Commit.lean ====
section
/-! DEFINITION. Staged sets and commits (R22 to R28): the check of a set (R23, R61, R86, R95, R98, R107, R114, R127, R158,
R206, R307), its application at a position, mode changes (R113, R114), and cancelling. -/

namespace Sys2Proof.Machine

/-! ## Values and views -/

def keyIndex (k : Nat) : Nat := k / 256
def keySub (k : Nat) : Nat := k % 256

/-- The state with a set's values in the dictionary. -/
def bindAll (content : List (Nat × Nat)) (s : State) : State := forEach (fun e => odPut e.1 e.2) content s

/-- Pending commits in order of position, the operator's before the tenant's (R23). -/
def pendCommits (s : State) : List PendCommit :=
  sortBy (fun a b => a.pos.toNat < b.pos.toNat) (s.mgmt.op.pend.toList ++ s.mgmt.ten.pend.toList)

/-- The committed state as modified by every pending commit (R23). -/
def commitBase (s : State) : State := forEach (fun p => bindAll p.content) (pendCommits s) s

/-- Whether a set stages an object of a range of keys. -/
def stages (set : List (Nat × Nat)) (lo hi : Nat) : Bool := set.any (fun e => lo ≤ e.1 && e.1 ≤ hi)

def stagesAt (set : List (Nat × Nat)) (index sub : Nat) : Bool := stages set (odKey index sub) (odKey index sub)

/-- Whether a set loads a plan, or the empty plan (R85, R116). -/
def loadsPlan (set : List (Nat × Nat)) : Bool := stagesAt set 0x2010 0x01 || stagesAt set 0x2010 0x02

/-- `last` at a step (R82). -/
def lastAt (s : State) (step : Nat) : Nat := (planAt s step).elim 255 (fun p => p.plan.layers - 1)

/-- The position at which a mode change armed at `w` is checked, and the boundary at which it reverts (R113). -/
def modeCheck (s : State) (w : WPos) : WPos := Pos.succ (lastAt s (Pos.step w)) w

def modeRevert (s : State) (w : WPos) : WPos := Pos.nextStepStart (modeCheck s w)

/-- Whether a firing occurs at a position (R89). -/
def firesAt (p : Plan) (f : Firing) (w : WPos) : Bool :=
  Pos.step w % f.period == f.residue && firingLayer p f == Pos.layer w && f.phase == Pos.phase w

/-- The admitted sheet of a partition for a step. -/
def sheetOf (s : State) (p step : Nat) : Option Sheet := s.sheets.admitted.find? (fun h => h.partition == p && h.step == step)

/-- Partitions a firing acts for: the named one or all; with flags bit 0, those with an admitted sheet (R89). -/
def firingParts (s : State) (f : Firing) (step : Nat) : List Nat :=
  let ps := if f.partition = 0xFF then List.range 32 else [f.partition]
  if bitOf f.flags 0 then ps.filter (fun p => (sheetOf s p step).isSome) else ps

/-! ## Conflict detail (R28) -/

/-- A claimant entry. -/
def claimant (role sub index unit kind : Nat) : Nat :=
  role * 2 ^ 56 + sub * 2 ^ 48 + index * 2 ^ 32 + unit * 2 ^ 16 + kind

structure CommitFail where
  st : Status
  detail : Nat := 0
  off : Option Nat := none

abbrev CommitRes (α : Type) := Except CommitFail α

def askC (b : Bool) (st : Status) (detail : Nat) : CommitRes Unit := if b then .ok () else .error { st := st, detail := detail }

def roleNum : Role → Nat
  | .operator => 1
  | .tenant => 2

/-! ## Checks of records -/

/-- Whether a model has an open sequence or any column, coil or provisional tail (R127, R206). -/
def modelInUse (s : State) (m : Nat) : Bool :=
  s.kv.seqs.any (fun q => q.model == m) || s.kv.cols.any (fun c => c.model == m)

def posFinite : FV → Bool
  | .fin neg m _ => !neg && m != 0
  | _ => false

/-- A layer group entry (R122, R124, R129, R205). -/
def groupOkay (g : MGroup) (e hq : Nat) : Bool :=
  g.first ≤ g.final && g.kind ≤ 3 && formatOk g.format && bitsOf e 47 40 == 0 && bitsOf e 95 88 == 0 &&
  (if g.kind = 3 then g.h == 1 && g.d == 0 else 1 ≤ g.h && g.h ≤ 64 && g.d % 32 == 0 && 32 ≤ g.d && g.d ≤ 256 && hq % g.h == 0) &&
  (if g.kind = 2 || g.kind = 3 then g.dc % 32 == 0 && 32 ≤ g.dc && g.dc ≤ 1024 && g.dr % 32 == 0 && g.dr ≤ 128
   else g.dc == 0 && g.dr == 0) &&
  (if g.kind = 1 then 1 ≤ g.window else g.window == 0)

/-- Whether groups cover layers `from_` to `l` - 1 in order. -/
def coversFrom (l : Nat) : Nat → List MGroup → Bool
  | from_, [] => from_ == l
  | from_, g :: gs => g.first == from_ && coversFrom l (g.final + 1) gs

/-- A defined model record (R204, R205). -/
def recordOk (s : State) (m : Nat) : Bool :=
  let l := modelLayers s m
  let v := od s (modelIx m) 0x04
  let gs := modelGroups s m
  1 ≤ modelHq s m &&
  gs.all (fun g => groupOkay g (groupEntry v g.idx) (modelHq s m)) &&
  v / 2 ^ (128 * gs.length) == 0 &&
  coversFrom l 0 (sortBy (fun a b => a.first < b.first) gs) &&
  (List.range l).all (fun i =>
    (layerGroup s m i).all (fun g => g.format != 2 || (posFinite (f32Of (keyScale s m i).toNat) && posFinite (f32Of (valScale s m i).toNat))))

/-- Checks of the model records that a set touches (R127, R206): `b` before it, `a` after it. -/
def checkModels (set : List (Nat × Nat)) (b a : State) : CommitRes Unit :=
  let ms := (List.range 16).filter (fun m => stages set (odKey (modelIx m) 1) (odKey (modelIx m) 5))
  ms.forM (fun m => do
    let changed := set.any (fun e => keyIndex e.1 == modelIx m && odLook b.od e.1 != e.2)
    askC (!(changed && modelInUse b m)) .conflict 0
    askC (modelLayers a m == 0 || recordOk a m) .badDescriptor 0
    askC (modelLayers a m == 0 || (List.range 16).all (fun k =>
      k == m || modelLayers a k == 0 || modelTag a k != modelTag a m)) .conflict 0)

/-- Checks of partition records (R307). -/
def checkParts (set : List (Nat × Nat)) (a : State) : CommitRes Unit := do
  if stages set (odKey 0xE000 0) (odKey 0xEFFF 255) then
    askC ((List.range 32).all (fun p =>
      let g := od a (partIx p) 0x01
      let m := od a (partIx p) 0x02
      let k := od a (partIx p) 0x03
      g ≤ m && (k == 0 || (g ≤ k && k ≤ m)))) .badDescriptor 0
    askC (sumBy (fun p => od a (partIx p) 0x01) (List.range 32) ≤ poolUnits a * 4096 - lentBytes a) .noSpace 0

/-- Sums of limits (R158, R203, R291). -/
def checkSums (set : List (Nat × Nat)) (a : State) : CommitRes Unit := do
  askC (!stages set (odKey 0x4010 1) (odKey 0x4010 32) ||
    sumBy (fun p => od a 0x4010 (p + 1)) (List.range 32) ≤ 16777216) .noSpace 0
  askC (!stages set (odKey 0x3020 1) (odKey 0x3020 32) ||
    sumBy (fun p => od a 0x3020 (p + 1)) (List.range 32) ≤ 64) .noSpace 0
  askC (!stages set (odKey 0x4030 1) (odKey 0x4030 32) ||
    sumBy (fun p => od a 0x4030 (p + 1)) (List.range 32) ≤ 67108863) .noSpace 0

/-- A record window that is named is registered for class 2 and holds a ring of `n` records (R61). -/
def ringWindowOk (s : State) (w n : Nat) : Bool :=
  w == 0xFFFF || (findWindow w s).any (fun x => x.cls == 2 && 32 * n ≤ x.bytes)

/-- Queues whose members a set stages. -/
def queuesStaged (set : List (Nat × Nat)) : List QRef :=
  (List.range 32).flatMap (fun p => (List.range 4).filterMap (fun q =>
    if stagesAt set (0x1300 + p) (0x01 + q) || stagesAt set (0x1300 + p) (0x05 + q) then some (.part p q) else none)) ++
  (if stagesAt set 0x1320 0x05 then [.admin] else [])

/-- Event rings whose members a set stages. -/
def ringsStaged (set : List (Nat × Nat)) : List Nat :=
  (List.range 32).filter (fun p => stagesAt set (0x1300 + p) 0x09 || stagesAt set (0x1300 + p) 0x0A) ++
  (if stagesAt set 0x1320 0x09 then [32] else [])

/-- Checks of queue records (R61). -/
def checkQueues (set : List (Nat × Nat)) (s a : State) : CommitRes Unit := do
  (queuesStaged set).forM (fun q => do
    askC (ringWindowOk a (compWindow a q) (ringSize a q)) .badDescriptor 0
    askC (startedOn s q == 0) .conflict 0)
  (ringsStaged set).forM (fun r => askC (ringWindowOk a (evWindow a r) (evSize a r)) .badDescriptor 0)

/-! ## Gate lists (R414 to R416) -/

def gateKey (port : Nat) : Nat := odKey (0x7120 + port) 0x0D

/-- The gate list that a port record's value spells. -/
def gateValue (v : Nat) : PlanRes (List GateEntry) := readGateList (natLe 520 v) 0

/-- The mask a list gives at a position (R415). -/
def gateMask (last : Nat) (w : WPos) (l : List GateEntry) : Nat :=
  let lay (e : GateEntry) : Nat := if e.layer = 0xFF then last else e.layer
  let upTo := l.filter (fun e => lay e * 4 + e.phase ≤ Pos.layer w * 4 + Pos.phase w)
  match upTo.getLast? with
  | some e => e.mask
  | none => (l.getLast?.map (fun e => e.mask)).getD 0xF

/-- A list takes over at a port (R416): source 1 the record, 2 a plan; an empty list leaves every class open. While beats are silent
every class stays open (R417). -/
def takeGates (port : Nat) (l : List GateEntry) (src : Nat) (s : State) : State :=
  setMask port (if s.wheel.silent then 0xF else gateMask (lastLayer s) s.wheel.cur l)
    (editPort port (fun p => { p with gates := l, gateSrc := if l.isEmpty then 0 else src }) s)

/-- A committed record list (R416): one with entries takes over; an empty one removes the list the record put there. -/
def recordGates (port v : Nat) (s : State) : State :=
  match gateValue v with
  | .error _ => s
  | .ok l => if l.isEmpty && (s.links.ports.getD port {}).gateSrc != 1 then s else takeGates port l 1 s

/-- Checks of port records: the layout, and that the port is not down for good (R414, R508). -/
def checkGates (set : List (Nat × Nat)) (s : State) : CommitRes Unit :=
  (set.filter (fun e => 0x7120 ≤ keyIndex e.1 && keyIndex e.1 < 0x7150)).forM (fun e => do
    askC (match gateValue e.2 with | .ok _ => true | .error _ => false) .badDescriptor 0
    askC (!((s.links.ports.getD (keyIndex e.1 - 0x7120) {}).failed)) .badObject 0)

/-! ## Single assignment (R93 to R95) -/

/-- A claim of the dictionary: kind, unit, claimant entry. -/
def dictClaims (s : State) : List (Nat × Nat × Nat) :=
  let on (index sub : Nat) : Bool := od s index sub == 1
  (if on 0xB000 0x02 then [(1, 0, claimant 1 0x02 0xB000 0 1)] else []) ++
  (if on 0xB040 0x05 then [(1, 0, claimant 1 0x05 0xB040 0 1)] else []) ++
  (List.range 32).flatMap (fun n =>
    (if on 0x7002 (n + 1) then [(3, n, claimant 1 (n + 1) 0x7002 n 3)] else []) ++
    (if on 0x7003 (n + 1) then [(3, n, claimant 1 (n + 1) 0x7003 n 3)] else [])) ++
  (List.range 48).flatMap (fun n =>
    let u := if n < 32 then n else 0x100 + (n - 32)
    if od s (0x7120 + n) 0x0D % 256 != 0 then [(6, u, claimant 2 0x0D (0x7120 + n) u 6)] else [])

/-- Claims of a plan in a slot (0 active, 1 next) of the kinds that a dictionary object may claim too. -/
def slotClaims (slot : Nat) (p : Plan) : List (Nat × Nat × Nat) :=
  ((planClaims p).filter (fun c => c.1 != 4)).map (fun c => (c.1, c.2, claimant 3 0 slot c.2 c.1))

/-- The first resource with two claimants, and these, later claims first. -/
def firstDouble : List (Nat × Nat × Nat) → List (Nat × Nat × Nat) → Option ((Nat × Nat) × Nat × Nat)
  | [], _ => none
  | c :: cs, ds =>
    match ds.find? (fun d => d.1 == c.1 && d.2.1 == c.2.1 && d.2.2 != c.2.2) with
    | some d => some ((c.1, c.2.1), c.2.2, d.2.2)
    | none => firstDouble cs ds

/-- Byte offset in a plan's image of the field by which it claims a resource (R94, R98): the unit of a claim entry, or the port of a
GATE_SWAP firing. -/
def claimOff (s : State) (p : PlanSlot) (r : Nat × Nat) : Option Nat :=
  (findObj s p.obj).bind (fun o =>
    let i := p.plan.claims.findIdx (fun c => c.kind == r.1 && c.unit == r.2)
    let g := p.plan.firings.findIdx (fun f => f.action == 4 && r.1 == 6 &&
      (if opField f 12 1 = 1 then 0x100 + opField f 13 1 else opField f 13 1) == r.2)
    if i < p.plan.claims.length then some (planClaimOff s o + 8 * i + 2)
    else if g < p.plan.firings.length then some ((planOffs (objBytes s o 0 128)).firing + 32 * g + 13)
    else none)

/-- Single assignment in one view of the dictionary, beside the plans in or bound for a slot; a fault of the plan `new` that the set
loads gives the offset of its field (R98). -/
def checkClaims (v : State) (plans : List (Nat × Plan)) (new : Option PlanSlot) : CommitRes Unit :=
  let ds := dictClaims v
  let ps := plans.flatMap (fun p => slotClaims p.1 p.2)
  match firstDouble ps ds with
  | some (r, a, b) => .error { st := .conflict, detail := a + b * 2 ^ 64, off := new.bind (fun p => claimOff v p r) }
  | none =>
    match firstDouble ds ds with
    | some (_, a, b) => .error { st := .conflict, detail := a + b * 2 ^ 64 }
    | none =>
      match plans.find? (fun p => 48 - cxlSize v < p.2.streamModules) with
      | some p =>
        let u := cxlSize v - 1
        let off := (new.filter (fun n => p.1 == 1 && n.plan == p.2)).bind (fun n =>
          (findObj v n.obj).map (fun o => (planOffs (objBytes v o 0 128)).res))
        .error { st := .conflict, detail := claimant 3 0 p.1 u 5 + claimant 1 0x01 0x1200 u 5 * 2 ^ 64, off := off }
      | none => .ok ()

/-! ## Mode changes: overlap (R114) -/

/-- A plan with the steps in which it is active: slot, plan, first step, step of the next. -/
abbrev PlanSpan := Nat × Plan × Nat × Option Nat

/-- `last` at a step under the plans of some spans (R82). -/
def lastIn (spans : List PlanSpan) (step : Nat) : Nat :=
  ((spans.find? (fun p => p.2.2.1 ≤ step && p.2.2.2.all (fun h => step < h))).map (fun p => p.2.1.layers - 1)).getD 255

/-- The revert boundary of a mode change at a position (R113), under the plans of some spans. -/
def revertIn (spans : List PlanSpan) (w : WPos) : WPos := Pos.nextStepStart (Pos.succ (lastIn spans (Pos.step w)) w)

/-- Whether the span of a mode change at `x` shares a position with an occurrence of a firing in the steps `lo` to `hi`
around it in which its plan is active. -/
def spanMeets (spans : List PlanSpan) (p : Plan) (f : Firing) (x : WPos) (lo : Nat) (hi : Option Nat) : Bool :=
  ((List.range 6).filter (fun i => 3 ≤ Pos.step x + i)).any (fun i =>
    let n := Pos.step x + i - 3
    let y := Pos.mk n (firingLayer p f) f.phase
    n % f.period == f.residue && lo ≤ n && hi.all (fun h => n < h) &&
    x.toNat ≤ (revertIn spans y).toNat && y.toNat ≤ (revertIn spans x).toNat)

/-- Plans with the steps in which each is active: slot, plan, first step, step of the next. -/
def planSpans (s : State) (new : Option (Nat × Option PlanSlot)) : List PlanSpan :=
  let nx : Option (Nat × Option PlanSlot) := if new.isSome then new else s.wheel.next.map (fun n => (n.takeover, n.slot))
  (s.wheel.active.toList.map (fun p => (0, p.plan, s.wheel.tookOver, nx.map (fun n => n.1)))) ++
  (match nx with
   | some (t, some p) => [(1, p.plan, t, none)]
   | _ => [])

/-- No change of an object by a set, which at position 0 stands for the current position, meets a MODE_ARM of the same object
(R114). -/
def checkOverlap (s : State) (pends : List (WPos × List (Nat × Nat))) (spans : List PlanSpan) : CommitRes Unit :=
  askC (!pends.any (fun c => spans.any (fun p => p.2.1.firings.any (fun f =>
    f.action == 5 && stagesAt c.2 (opField f 12 2) (opField f 14 1) &&
    spanMeets spans p.2.1 f (if c.1 = 0 then s.wheel.cur else c.1) p.2.2.1 p.2.2.2)))) .conflict 0

/-! ## The whole check (R23) -/

/-- A resource that an image claims twice names the plan slot as both claimants (R95, R98). -/
def askClaims (d : Option (Nat × Claim)) (off : Nat) : CommitRes Unit :=
  match d with
  | none => .ok ()
  | some (i, c) =>
    let e := claimant 3 0 1 c.unit c.kind
    .error { st := .conflict, detail := e + e * 2 ^ 64, off := some (off + 8 * i + 2) }

/-- Check the plan that a set loads (R85, R86, R98): takeover step and slot. -/
def checkLoad (set : List (Nat × Nat)) (pos : WPos) (s a : State) : CommitRes (Option (Nat × Option PlanSlot)) := do
  if !loadsPlan set then return none
  else
    let t := od a 0x2010 0x02
    let id := od a 0x2010 0x01
    let at_ := if pos = 0 then s.wheel.cur else pos
    askC (at_.toNat < (Pos.mk t 0 0).toNat) .badDescriptor 0
    askC s.wheel.next.isNone .conflict 0
    askC (!s.sheets.admitted.any (fun h => t ≤ h.step)) .conflict 0
    if id = 0 then return some (t, none)
    else
      match findObj s id with
      | none => .error { st := .badObject }
      | some o =>
        askC (o.kind == 4) .badObject 0
        match checkPlan a o with
        | .error (st, off) => .error { st := st, off := some off }
        | .ok p =>
          askClaims (doubleClaim p.claims) (planClaimOff a o)
          let half := !(s.wheel.active.any (fun x => x.half))
          return some (t, some { obj := id, plan := p, digest := planDigest a o, half := half })

/-- Comparators that a commit at a later position draws from the pool (R25): none where the active plan has an
APPLY_COMMIT firing there. -/
def drawsComp (s : State) (pos : WPos) : Bool :=
  pos != 0 && !(s.wheel.active.any (fun p => p.plan.firings.any (fun f => f.action == 6 && firesAt p.plan f pos)))

/-- Whether work runs that a commit at position 0 must not meet (R24): a released job, or a planned move. -/
def busyForCommit (s : State) : Bool :=
  !s.jobs.jobs.isEmpty || s.jobs.slices.any (fun x => x.planned && !x.landed) || s.objs.moves.any (fun m => match m.cause with | .sweep | .firing => true | _ => false)

/-- The whole check of a set at a position; answers the plan it loads. -/
def checkCommit (r : Role) (set : List (Nat × Nat)) (pos : WPos) (s : State) :
    CommitRes (Option (Nat × Option PlanSlot)) := do
  askC (Pos.ok pos && (pos == 0 || s.wheel.cur.toNat < pos.toNat)) .badDescriptor 0
  askC (pos != 0 || !busyForCommit s) .conflict
    (claimant (roleNum r) 0x01 0x1F00 0 7 + claimant 4 0 0 0 7 * 2 ^ 64)
  let b := commitBase s
  let a := bindAll set b
  checkModels set b a
  checkParts set a
  checkSums set a
  checkQueues set s a
  checkGates set s
  askC (!stagesAt set 0x9000 0x04 || !(s.sec.tenancy == .owned || s.sec.tenancy == .releasing)) .conflict 0
  let load ← checkLoad set pos s a
  let bound := (load.bind (fun l => l.2)).toList ++ (pendCommits s).filterMap (fun p => p.load.bind (fun l => l.2))
  let plans := (s.wheel.active.toList.map (fun p => (0, p.plan))) ++
    (((s.wheel.next.bind (fun n => n.slot)).toList ++ bound).map (fun p => (1, p.plan)))
  let new := load.bind (fun l => l.2)
  checkClaims (bindAll set s) plans new
  checkClaims a plans new
  checkOverlap s ((pos, set) :: (pendCommits s).map (fun p => (p.pos, p.content))) (planSpans s load)
  let draws := if drawsComp s pos then 1 else 0
  askC (draws ≤ freeComps s) .noSpace 0
  match load with
  | some (_, slot) =>
    if (slot.elim 0 planComps) + 1 + draws ≤ freeComps s then .ok () else .error { st := .conflict, off := slot.map (fun _ => 27) }
  | none => .ok ()
  return load

/-! ## Applying a set -/

/-- The RWS and RW values that are stored, as the dictionary holds them now (R21); of a regulator record only the part that
is written (R484). -/
def storedNow (s : State) : List (Nat × Nat) :=
  (s.od.filter (fun e => (odFind (keyIndex e.1) (keySub e.1)).any (fun r => r.stored))).map (fun e =>
    if keyIndex e.1 = 0xC020 then (e.1, e.2 % 65536) else e)

/-- A change of a stored object waits to be written to NOR (R21). -/
def markStored (keys : List Nat) (s : State) : State :=
  if keys.any (fun k => (odFind (keyIndex k) (keySub k)).any (fun r => r.stored)) then
    { s with power := { s.power with nor := { s.power.nor with dirty := some (storedNow s) } } }
  else s

/-- A committed queue record member resets its queue (R61): what waits on it ends with ST_ABORTED, so that nothing
accepted is dropped silently (R12), in the window and at the count that its records still have. -/
def resetQueues (set : List (Nat × Nat)) (s : State) : State := forEach abortQueue (queuesStaged set) s

/-- A committed event ring starts afresh and takes the events held back. -/
def resetRings (set : List (Nat × Nat)) (s : State) : State :=
  forEach (fun r s' => flushEvents r 256 (setEvRing r { evRing s' r with written := 0, head := 0 } s')) (ringsStaged set) s

/-- What a set's new values do beyond the dictionary. -/
def actOn (set : List (Nat × Nat)) (s : State) : State :=
  let s1 := forEach (fun n => onlyIf (stagesAt set (0x7120 + n) 0x0D) (fun t => recordGates n (od t (0x7120 + n) 0x0D) t)) (List.range 48) s
  let s2 := onlyIf (stagesAt set 0x1200 0x01) flushVectors (onlyIf (stagesAt set 0x5010 0x01) applyLendLimit s1)
  markStored (set.map (fun e => e.1)) s2

/-- A plan enters the next slot (R85). -/
def enterNext (load : Option (Nat × Option PlanSlot)) (s : State) : State :=
  match load with
  | none => s
  | some (t, p) => { s with wheel := { s.wheel with next := some { takeover := t, slot := p } } }

/-! ## Mode changes in force (R113, R114) -/

/-- The storage formats of a defined record, by layer. -/
def formatsOf (s : State) (m : Nat) : List Nat :=
  (List.range (modelLayers s m)).map (fun l => (layerGroup s m l).elim 0 (fun g => g.format))

/-- Whether binding a key to a value changes an object whose change is a mode change (R27, R127, R361). -/
def isModeChange (s a : State) (e : Nat × Nat) : Bool :=
  let i := keyIndex e.1
  if 0x3100 ≤ i && i < 0x3110 then
    modelLayers s (i - 0x3100) != 0 && modelLayers a (i - 0x3100) != 0 && formatsOf s (i - 0x3100) != formatsOf a (i - 0x3100)
  else
    (i == 0x3010 || (i == 0x1200 && keySub e.1 == 1) || (i == 0x7000 && (keySub e.1 == 1 || keySub e.1 == 2))) &&
      odLook s.od e.1 != e.2

/-- Modules that change group between two sizes of the CXL group (R39), and serve. -/
def modulesMoved (s : State) (n m : Nat) : List Nat := (List.range 48).filter (fun i => min n m ≤ i && i < max n m && moduleServes s i)

/-- Peer ports that a route table names (R361). -/
def ringPorts (routes : Nat) : List Nat := ((natLe 4096 routes).map (fun b => b.toNat)).dedup.filter (fun n => n < 32)

/-- Unit identifiers of what a mode change waits for (R113): a partition's cores; the clusters and the cores in service for a
storage format; the modules that change group; the peer ports that the old or the new route table names (R361). -/
def modeUnits (s : State) (e : Nat × Nat) : List Nat :=
  let i := keyIndex e.1
  if i == 0x3010 then
    (s.wheel.active.bind (fun p => p.plan.parts[keySub e.1 - 1]?)).elim [] (fun r => (coresOf r.cores).map unitCore)
  else if 0x3100 ≤ i && i < 0x3110 then (clustersUp s).map unitCluster ++ (coresUp s).map unitCore
  else if i == 0x1200 then (modulesMoved s (cxlSize s) e.2).map unitModule
  else if i == 0x7000 then
    (ringPorts (od s 0x7000 0x02) ++ (if keySub e.1 == 2 then ringPorts e.2 else [])).dedup.map unitPeerPort
  else []

/-- Units of the mode changes that a set holds. -/
def setUnits (s : State) (set : List (Nat × Nat)) : List Nat :=
  ((set.filter (isModeChange s (bindAll set s))).flatMap (modeUnits s)).dedup

/-- Modules stop and retrain for their new group (R39): messages sent on one that left the streaming group are sent again. -/
def regroup (mods : List Nat) (s : State) : State :=
  if mods.isEmpty then s
  else
    resendLost { s with host := { s.host with
      retraining := mods.foldl (fun b m => b ||| (1#48 <<< m)) s.host.retraining, cxlSince := some s.now } }

/-- Put a set in force at the current position; where it holds a mode change, as one mode change (R27, R113). `armed` are the
units that it was armed with: one that has left service since is a laggard (R114). -/
def putInForce (who : Nat) (armed : List Nat) (set : List (Nat × Nat)) (load : Option (Nat × Option PlanSlot)) (s : State) : State :=
  let a := bindAll set (resetQueues set s)
  let modes := set.filter (isModeChange s a)
  let olds := set.map (fun e => (e.1, odLook s.od e.1))
  let w := s.wheel.cur
  let m : ModeChange :=
    { pos := w, who := who, changes := set, olds := olds,
      units := (setUnits s set ++ armed.filter (fun u => !unitServes s u)).dedup,
      firstJob := s.jobs.nextJob, check := modeCheck s w, revert := modeRevert s w, failed := false }
  let s1 := if modes.isEmpty then a else { a with wheel := { a.wheel with modes := a.wheel.modes ++ [m] } }
  enterNext load (actOn set (regroup (modulesMoved s (cxlSize s) (cxlSize a)) (resetRings set s1)))

/-- NOTIFY and the admin event of a commit applied, cancelled or reverted (R27). -/
def announceCommit (st : Status) (s : State) : State := event st none 0 0 0 (notify 0x1F00 0x02 s)

def setResult (r : Role) (state : Nat) (st : Status) (s : State) : State :=
  setRole r (fun x => { x with resState := state, resStatus := st.code }) s

/-- Apply a commit's content (R25): state 2 applied. Sweep moves that it makes exceptions of R310 are abandoned (R311). -/
def applyCommit (r : Role) (armed : List Nat) (set : List (Nat × Nat)) (load : Option (Nat × Option PlanSlot)) (s : State) : State :=
  settleAll (announceCommit .ok (setResult r 2 .ok (flushHeld (abandonSweeps (putInForce (roleNum r) armed set load s)))))

/-- A write of the commit position (R23 to R26): the status it answers and the state after it. -/
def commitWrite (r : Role) (pos : WPos) (s : State) : Status × State :=
  let x := roleSt r s
  if x.pend.isSome then (.conflict, s)
  else
    let s1 := setRole r (fun y => { y with resSeq := y.resSeq + 1 }) s
    match checkCommit r x.staged pos s with
    | .error f =>
      let s2 := match f.off with
        | some o => odSet 0x2010 0x07 o s1
        | none => s1
      (f.st, setRole r (fun y => { y with resState := 3, resStatus := f.st.code, conflict := f.detail }) s2)
    | .ok load =>
      let s2 := setRole r (fun y => { y with staged := [], conflict := 0 }) s1
      if pos = 0 then (.ok, applyCommit r [] x.staged load s2)
      else
        let p : PendCommit :=
          { pos := pos, content := x.staged, pool := drawsComp s pos, load := load, units := setUnits s x.staged }
        (.ok, setRole r (fun y => { y with pend := some p, resState := 1, resStatus := 0 }) s2)

/-- A write of OD 0x1F00:04 (R26): the commit's content goes back to the staged set and its comparator is free. -/
def cancelCommit (r : Role) (s : State) : Status × State :=
  match (roleSt r s).pend with
  | none => (.conflict, s)
  | some p =>
    (.ok, announceCommit .ok (setRole r (fun x =>
      { x with pend := none, staged := p.content, resState := 5, resStatus := 0 }) s))

/-- A write of OD 0x1F00:05 clears the staged set (R22). -/
def discardStaged (r : Role) (s : State) : Status × State := (.ok, setRole r (fun x => { x with staged := [] }) s)

/-- Apply the pending commit of a role whose position has been reached (R25). -/
def applyDue (w : WPos) (r : Role) (s : State) : State :=
  match (roleSt r s).pend with
  | none => s
  | some p =>
    if p.pos.toNat ≤ w.toNat then applyCommit r p.units p.content p.load (setRole r (fun x => { x with pend := none }) s) else s

/-! ## Acknowledgement checks and reverts (R113, R114) -/

def laggards (s : State) (m : ModeChange) : List Nat := m.units.filter (modeLags s m)

/-- The object that a mode change is named by in its fault record. -/
def modeObject (m : ModeChange) : Nat :=
  ((m.changes.find? (fun e => [0x3010, 0x1200, 0x7000].contains (keyIndex e.1) || (0x3100 ≤ keyIndex e.1 && keyIndex e.1 < 0x3110))).map
    (fun e => e.1)).getD 0

/-- The acknowledgement check of a mode change at its position: over where every unit has acknowledged; otherwise
FLT_MODE_SPLIT names the laggards and the change will revert. -/
def ackCheck (w : WPos) (m : ModeChange) (s : State) : State :=
  if m.failed || w.toNat < m.check.toNat then s
  else
    let keep (f : List ModeChange → List ModeChange) : State := { s with wheel := { s.wheel with modes := f s.wheel.modes } }
    match laggards s m with
    | [] => keep (fun l => l.filter (fun x => x != m))
    | lag :: more =>
      let k := modeObject m
      let d := m.pos.toNat + keyIndex k * 2 ^ 64 + keySub k * 2 ^ 80
      let s1 := keep (mapIf (fun x => x == m) (fun x => { x with failed := true, lags := lag :: more, checkJob := s.jobs.nextJob }))
      let s2 := forEach (fun u => fault .modeSplit u d none) (lag :: more) s1
      event .modeSplit none FaultCode.modeSplit.num lag (keyIndex k * 2 ^ 16 + keySub k) s2

/-- A split group change is undone (R39, R114): modules that had joined their new group retrain for the old one, those that had
not stay in it. -/
def revertModules (b : State) (n m : Nat) (s : State) : State :=
  if n = m then s
  else
    regroup (modulesMoved b n m) { s with host := { s.host with
      retraining := s.host.retraining &&& ~~~(((List.range 48).filter (fun i => min n m ≤ i && i < max n m)).foldl
        (fun x i => x ||| (1#48 <<< i)) (0#48)) } }

/-- Jobs that the reverted change held run under the old ragged mode (R114). -/
def revertJobs (m : ModeChange) (s : State) : State :=
  { s with jobs := { s.jobs with jobs := s.jobs.jobs.map (fun j =>
      if m.firstJob ≤ j.id && !j.started && m.changes.any (fun e => e.1 == odKey 0x3010 (j.part + 1)) then
        { j with bucket := bucketMode s j.part }
      else j) } }

/-- The revert of a mode change that split: the old values return, and its commit shows state reverted (R27, R91). -/
def revertMode (w : WPos) (m : ModeChange) (s : State) : State :=
  if !m.failed || w.toNat < m.revert.toNat then s
  else
    let s0 := bindAll m.olds { s with wheel := { s.wheel with modes := s.wheel.modes.filter (fun x => x != m) } }
    let s1 := revertJobs m (revertModules s (cxlSize s) (cxlSize s0) s0)
    let s2 := if loadsPlan m.changes then { s1 with wheel := { s1.wheel with next := none } } else s1
    let s3 := actOn m.olds (bump32 0x2030 0x07 s2)
    let s4 :=
      if m.who = 1 then setResult .operator 4 .modeSplit s3
      else if m.who = 2 then setResult .tenant 4 .modeSplit s3
      else s3
    runCores (announceCommit .modeSplit s4)

/-- Acknowledgement checks at a position; reverts come first at a boundary. -/
def modesDue (w : WPos) (s : State) : State :=
  let s1 := forEach (revertMode w) s.wheel.modes s
  forEach (ackCheck w) s1.wheel.modes s1

/-- A MODE_ARM firing (R91): nothing where the value is the committed one, otherwise a mode change of that one object. -/
def armMode (f : Firing) (s : State) : State :=
  let k := odKey (opField f 12 2) (opField f 14 1)
  let v := opField f 16 8
  if odLook s.od k = v then s else announceCommit .ok (putInForce 3 [] [(k, v)] none s)

end Sys2Proof.Machine
end

