-- ==== Sys2Proof/Machine/Security.lean ====
section
/-! DEFINITION. Operator sessions (R428 to R431), the SPDM responder and the tenant's messages (R432 to R439), the steps of
a release (R441, R442), weight keys (R445) and the loss of every secret (R421, R423). -/

namespace Sys2Proof.Machine

/-! ## Operator sessions -/

/-- Whether the device answers on the field network and on MCTP: not before it has booted and not once its kiln domain
stands alone (R460, R475). -/
def answers (s : State) : Bool :=
  s.power.dev == .ready || s.power.dev == .recovery || s.power.dev == .safe || s.power.dev == .scanOpen

/-- The first number from `v` on that no open session has. -/
def freshSid (used : List U32) (v : U32) : U32 :=
  ((List.range (used.length + 1)).map (fun i => v + BitVec.ofNat 32 i)).find? (fun x => !used.contains x) |>.getD v

def refuseField (s : State) : State := bump32 0x9010 0x04 s

/-- HELLO (R429): refused with four sessions open, without an anchor, and where no identity key can sign (log entry
35). -/
def hello (s : State) : State :=
  if !answers s then s
  else if !ready s || s.sec.identity.isNone || od s 0x9010 0x01 = 0 || 4 ≤ s.mgmt.sessions.length then refuseField s
  else
    let sid := freshSid (s.mgmt.sessions.map (fun x => x.id)) (freeOf 32 s)
    let secret := Config.free 256 (s.fresh + 1)
    let x : OpSession := { id := sid, up := false, helloAt := s.now, lastAt := s.now, rxCtr := none, secret := secret }
    send (.helloRsp sid) (drawn <| drawn { s with mgmt := { s.mgmt with sessions := s.mgmt.sessions ++ [x] } })

def execHello (_nonce : BitVec 256) (_ek : Bytes) (s : State) : Host.Outcome State Fault Refusal := .next (hello s)

/-- An operator certificate is accepted (R430). -/
def certOk (s : State) (c : OpCert) : Bool :=
  c.magic == 0x5443504F && c.reservedZero && c.sigOk && od s 0x9010 0x02 ≤ c.serial.toNat &&
  (c.scope == 0 || c.scope == s.sec.unitId)

/-- An operator session ends: its keys, tags and block writes go. -/
def endSession (sid : U32) (s : State) : State :=
  { s with mgmt := { s.mgmt with
      sessions := s.mgmt.sessions.filter (fun x => x.id != sid)
      kept := s.mgmt.kept.filter (fun k => k.via != .session sid)
      blocks := s.mgmt.blocks.filter (fun b => b.via != .session sid) } }

def setupBound : Nat := 5000000000

/-- AUTH (R429): within 5 s of HELLO; a failed certificate or signature ends the set-up. The keys come from the shared secret and the
digest of the three messages (R431), whose bytes the model does not hold: both are free values (log entry 134). -/
def auth (sid : U32) (cert : OpCert) (sigOk : Bool) (s : State) : State :=
  if !answers s then s
  else
    match s.mgmt.sessions.find? (fun x => x.id == sid && !x.up) with
    | none => refuseField s
    | some x =>
      if !ready s || x.helloAt + setupBound < s.now then refuseField (endSession sid s)
      else if certOk s cert && sigOk then
        let keys := operatorKeys x.secret (freeOf 256 s)
        send (.authRsp sid .ok) (drawn { s with mgmt := { s.mgmt with
          sessions := mapIf (fun y => y.id == sid) (fun y => { y with up := true, lastAt := s.now, keys := keys }) s.mgmt.sessions } })
      else send (.authRsp sid .badDescriptor) (refuseField (endSession sid s))

def execAuth (sid : U32) (cert : OpCert) (sigOk : Bool) (s : State) : Host.Outcome State Fault Refusal :=
  .next (auth sid cert sigOk s)

/-- A set-up that has not completed within 5 s is over. -/
def setupTimeout (sid : U32) (s : State) : State :=
  if s.mgmt.sessions.any (fun x => x.id == sid && !x.up && x.helloAt + setupBound ≤ s.now) then endSession sid s else s

def execSessionSetupTimeout (sid : U32) (s : State) : Host.Outcome State Fault Refusal := .next (setupTimeout sid s)

/-- The idle timeout of OD 0x1100:03 ends a session (R431). -/
def idleTimeout (sid : U32) (s : State) : State :=
  if s.mgmt.sessions.any (fun x => x.id == sid && x.up && x.lastAt + od s 0x1100 0x03 * 1000000 ≤ s.now) then
    endSession sid s
  else s

def execSessionIdleTimeout (sid : U32) (s : State) : Host.Outcome State Fault Refusal := .next (idleTimeout sid s)

/-! ## SPDM (R432, R437) -/

/-- Requests that need no identity: GET_VERSION and GET_CAPABILITIES (R425). -/
def needsIdentity : SpdmReq → Bool
  | .getVersion => false
  | .getCapabilities => false
  | _ => true

def findSpdm (s : State) (id : Nat) : Option SpdmSession := s.sec.sessions.find? (fun x => x.id == id)

/-- A request that the responder refuses: every one in SCAN_OPEN (R423) and in recovery (R466), and every one but two
without identity (R425). -/
def spdmRefused (s : State) (idNeeded : Bool) : Bool :=
  s.power.dev == .scanOpen || s.power.dev == .recovery || (idNeeded && s.sec.identity.isNone)

/-- What GET_CAPABILITIES tells of R432: CTExponent, DataTransferSize, MaxSPDMmsgSize. -/
def spdmCaps : Sent := .spdmCaps 15 1024 65536

/-- GET_CERTIFICATE (R426): a portion of the chain of slot 0 and how much is left; other slots hold none. -/
def certAnswer (slot off len : Nat) (s : State) : State :=
  let chain := s.power.nor.chain
  if slot != 0 || chain.length < off then send (.spdm none true [] false) s
  else send (.spdmChain ((chain.drop off).take len) (chain.length - off - len)) s

/-- An SPDM request without a row of its own. GET_DIGESTS gives the digest of the chain, GET_CERTIFICATE the chain itself (R426). A
third session is refused (R432), as is a number in use; the secret that a key exchange agrees on is a free value. -/
def spdmRequest (r : SpdmReq) (s : State) : State :=
  let none_ (refused : Bool) (t : State) : State := send (.spdm none refused [] false) t
  if !answers s then s
  else if spdmRefused s (needsIdentity r) then none_ true s
  else
    match r with
    | .keyExchange id =>
      if 2 ≤ s.sec.sessions.length || (findSpdm s id).isSome then none_ true s
      else
        send (.spdm (some id) false [] false) (drawn { s with
          sec := { s.sec with sessions := s.sec.sessions ++ [{ id := id, secret := freeOf 256 s }] } })
    | .getCapabilities => send spdmCaps s
    | .getDigests => send (.spdmDigest (Config.sha256 s.power.nor.chain)) s
    | .getCertificate slot off len => certAnswer slot off len s
    | .vendorDefined id _ => send (.vendor id (if (findSpdm s id).isSome then .badDescriptor else .notOwned) []) s
    | .other => none_ true s
    | _ => none_ false s

def execSpdmRequest (r : SpdmReq) (s : State) : Host.Outcome State Fault Refusal := .next (spdmRequest r s)

/-- FINISH: the session is established (OD 0x9050:03); with mutual authentication, in UNOWNED, it becomes the candidate
session. -/
def spdmFinish (id : Nat) (mutual_ : Bool) (leaf : Bytes) (s : State) : State :=
  if !answers s then s
  else if spdmRefused s true || !s.sec.sessions.any (fun x => x.id == id && !x.finished) then
    send (.spdm (some id) true [] false) s
  else
    let key : Bytes := if mutual_ then leaf else []
    let s1 := bump64 0x9050 0x03 { s with sec := { s.sec with
      sessions := mapIf (fun x => x.id == id) (fun x => { x with finished := true, leafKey := key }) s.sec.sessions } }
    let s2 : State :=
      if mutual_ && ready s && s.sec.tenancy == .unowned then
        { s1 with sec := { s1.sec with tenancy := .attesting, candidate := some id, attestSince := s.now } }
      else s1
    send (.spdm (some id) false [] false) s2

def execFinish (session : Nat) (mutualAuth : Bool) (leafKey : Bytes) (s : State) : Host.Outcome State Fault Refusal :=
  .next (spdmFinish session mutualAuth leafKey s)

/-- ATTESTING ends without an owner. -/
def unattest (s : State) : State :=
  if s.sec.tenancy == .attesting then { s with sec := { s.sec with tenancy := .unowned, candidate := none } } else s

/-- A session ends: with the candidate session ends ATTESTING; an owned device stays owned. -/
def spdmEnd (id : Nat) (s : State) : State :=
  let s1 : State := { s with sec := { s.sec with sessions := s.sec.sessions.filter (fun x => x.id != id) } }
  if s.sec.candidate == some id then unattest s1 else s1

def execSpdmSessionEnd (session : Nat) (s : State) : Host.Outcome State Fault Refusal :=
  .next (if answers s then spdmEnd session s else s)

/-! ## The tenant's messages (R437 to R439) -/

/-- An answer to a vendor-defined message. -/
def vendor (id : Nat) (st : Status) (block : Bytes) (s : State) : State := send (.vendor id st block) s

def isOwner (s : State) (id : Nat) : Bool :=
  (findSpdm s id).any (fun x => x.finished && Config.sha256 x.leafKey == s.sec.ownerDigest)

/-- OWN, in the candidate session in ATTESTING. -/
def own (id : Nat) (s : State) : State :=
  if s.sec.tenancy == .attesting && s.sec.candidate == some id && (findSpdm s id).isSome then
    let leaf := ((findSpdm s id).map (fun x => x.leafKey)).getD []
    let s1 : State := { s with
      sec := { s.sec with tenancy := .owned, candidate := none, ownerDigest := Config.sha256 leaf }
      log := { s.log with firstSlot := s.log.head } }
    vendor id .ok [] (bump32 0x9000 0x09 s1)
  else vendor id .notOwned [] s

def execOwn (session : Nat) (s : State) : Host.Outcome State Fault Refusal :=
  .next (if answers s then own session s else s)

/-- Accept a secret once per tenancy (R439): the status, and whether it is new. -/
def acceptOnce (held : Option (BitVec 256)) (v : BitVec 256) : Status × Bool :=
  match held with
  | none => (.ok, true)
  | some x => (if x = v then .ok else .conflict, false)

/-- SET_SECRET. -/
def setSecret (id setId : Nat) (secret : BitVec 256) (s : State) : State :=
  if !(owned s && isOwner s id) then vendor id .notOwned [] s
  else if setId = 0 || setId != od s 0x9000 0x04 then vendor id .badDescriptor [] s
  else
    let r := acceptOnce s.sec.setSecret secret
    vendor id r.1 [] (if r.2 then { s with sec := { s.sec with setSecret := some secret } } else s)

def execSetSecret (session : Nat) (setId : U64) (secret : BitVec 256) (s : State) : Host.Outcome State Fault Refusal :=
  .next (if answers s then setSecret session setId.toNat secret s else s)

/-- The heath key identifier of a tenancy secret (R453). -/
def keyIdOf (secret : BitVec 256) : Nat :=
  let v := leNat (digestBytes (Config.sha256 (secretBytes secret ++ textBytes "TH2 heath id")) 4)
  if v = 0 then 1 else v

/-- TENANCY_SECRET: the heath key identifier is set, and shelves under another key forget it (R357, R439). -/
def tenancySecret (id : Nat) (secret : BitVec 256) (s : State) : State :=
  if !(owned s && isOwner s id) then vendor id .notOwned [] s
  else
    let r := acceptOnce s.sec.tenSecret secret
    if !r.2 then vendor id r.1 [] s
    else
      let key := keyIdOf secret
      let s1 : State := { s with sec := { s.sec with tenSecret := some secret, heathKeyId := key } }
      let known (x : Shelf) : Bool := shelfJournals x || x.state == 5
      vendor id .ok [] (forEach (fun h t => if known (shelfOf t h) then trimStale h t else t) (List.range 16) s1)

def execTenancySecret (session : Nat) (secret : BitVec 256) (s : State) : Host.Outcome State Fault Refusal :=
  .next (if answers s then tenancySecret session secret s else s)

/-- The secrets held, as OD 0x9000:05 shows them. -/
def secretBits (s : State) : Nat := (if s.sec.setSecret.isSome then 1 else 0) + (if s.sec.tenSecret.isSome then 2 else 0)

/-- The tenancy block of R433, 96 bytes. -/
def tenancyBlock (s : State) : Bytes :=
  ((s.sec.identity.getD []) ++ List.replicate 32 0).take 32 ++
  natLe 1 s.sec.tenancy.code ++ natLe 1 s.sec.rtp.code ++ natLe 1 (secretBits s) ++ [0] ++ natLe 4 s.sec.heathKeyId ++
  natLe 8 (od s 0x9000 0x04) ++ digestBytes s.sec.ownerDigest 32 ++ natLe 4 s.sec.sealedWeights.length ++
  List.replicate 12 0

/-- STATUS, in any session. -/
def tenancyStatus (id : Nat) (s : State) : State :=
  if (findSpdm s id).isSome then vendor id .ok (tenancyBlock s) s else vendor id .notOwned [] s

def execStatus (session : Nat) (s : State) : Host.Outcome State Fault Refusal :=
  .next (if answers s then tenancyStatus session s else s)

/-- OD 0x9000:07 elapses in ATTESTING without OWN. -/
def ownershipWait (s : State) : State :=
  if s.sec.attestSince + od s 0x9000 0x07 * 1000000 ≤ s.now then unattest s else s

def execOwnershipWaitExpiry (s : State) : Host.Outcome State Fault Refusal := .next (ownershipWait s)

/-! ## Weight keys (R445) -/

/-- A write of 80 bytes to OD 0x9020:k. -/
def writeWeightKey (k : Nat) (v : Bytes) (s : State) : Status × State :=
  let emptied : State := { s with sec := { s.sec with weightKeys := s.sec.weightKeys.filter (fun w => w.slot != k) } }
  if v.all (fun b => b == 0) then (.ok, emptied)
  else
    match s.sec.setSecret with
    | none => (.keyAbsent, emptied)
    | some secret =>
      if fieldAt v 0 8 != od s 0x9000 0x04 then (.keyAbsent, emptied)
      else if fieldAt v 72 8 != 0 then (.badDescriptor, s)
      else
        match Config.gcmOpen (wrapKey secret (od s 0x9000 0x04)) ((v.drop 12).take 12) (v.take 12) ((v.drop 24).take 32) ((v.drop 56).take 16) with
        | none => (.integrity, emptied)
        | some key =>
          let w : WeightKey := { slot := k, label := fieldAt v 8 4, key := key }
          (.ok, { emptied with sec := { emptied.sec with weightKeys := emptied.sec.weightKeys ++ [w] } })

/-! ## Release (R441, R442) -/

/-- The tenant's plans, sheets and submissions go, and the wheel stands. -/
def standWheel (s : State) : State :=
  { s with
    wheel := { s.wheel with active := none, next := none, held := [], blocked := [], modes := [], stepStart := none }
    sheets := {} }

/-- Every running command, job and work request ends with ST_ABORTED; copies in flight are abandoned. -/
def abortWork (s : State) : State :=
  let rest := s.queues.cmds.filter (fun c => match c.work with | .job _ => false | _ => true)
  let s1 := forEach (fun c => finishCmd c .aborted 0) rest s
  let s2 := abandonMoves (fun _ => true) .aborted s1
  forEach (fun (j : Job) t => match findJob t j.id with | some x => endJobError x .aborted t | none => t) s2.jobs.jobs s2

/-- Step 1. -/
def releaseOne (s : State) : State :=
  let s1 := releasePairs (abortWork (standWheel s))
  { s1 with sec := { s1.sec with sessions := [], candidate := none } }

/-- A borrowed lease is given up: its images and homes are dropped, and RETURN is sent. -/
def giveBack (l : Lease) (s : State) : State :=
  let s1 := forEach dropImageOf (leaseImages s l.id) s
  let s2 : State := { s1 with
    kv := { s1.kv with cols := s1.kv.cols.filter (fun c => !inLease l.id c.home) }
    objs := { s1.objs with objs := s1.objs.objs.filter (fun o => !o.exts.any (fun e => inLease l.id e.home)) } }
  let m : LeaseMsg :=
    { lease := BitVec.ofNat 16 l.id, bytes := BitVec.ofNat 64 l.bytes, lender := l.lender, borrower := l.borrower }
  sendLease l.port 4 m (setLeases (fun ls => ls.filter (fun x => x.lent || x.id != l.id)) s2)

/-- Step 2: leases lent are recalled, leases borrowed returned. -/
def releaseTwo (s : State) : State :=
  tendLeases (forEach giveBack (s.pasture.leases.filter (fun l => !l.lent)) (recallAll s))

/-- Every secret of the tenancy is destroyed. -/
def dropSecrets (s : State) : State :=
  { s with sec := { s.sec with setSecret := none, tenSecret := none, heathKeyId := 0, weightKeys := [] } }

/-- TRIM_KEY for a release (R357, R441): a shelf whose maps hold the key's mappings discards them and programs the record; one that is
not up yet does so before it is ready. -/
def trimShelf (key h : Nat) (s : State) : State :=
  let x := shelfOf s h
  if shelfJournals x || x.state == 5 then
    if x.keyId == key || (x.bales ++ x.fines).any (underKey key) then flushTail h (trimKey h key s) else s
  else setShelf h { x with trims := x.trims ++ [key] } s

/-- Step 3: publications withdrawn without records, the ring emptied, TRIM_KEY on shelves that hold the tenancy key, after which the
maps hold no mapping of the tenancy's data; secrets destroyed. -/
def releaseThree (s : State) : State :=
  let key := s.sec.heathKeyId
  let s1 : State := { s with pfx := { s.pfx with
    entries := [], durQueue := [], ring := [], rcTail := [], rebuildState := 0, rebuildRead := 0, rebuildLeft := [], rebuilt := [] } }
  dropSecrets (if key = 0 then s1 else forEach (trimShelf key) (List.range 16) s1)

/-- Step 4: meadow is zero-written. -/
def releaseFour (s : State) : State := memClear { s with kv := {} }

/-- Step 5: the valid bits of every on-die store are reset. -/
def releaseFive (s : State) : State :=
  { s with
    mgmt := { s.mgmt with mbx := List.replicate 16 {}, mbxOrder := [] }
    jobs := { s.jobs with jobs := [], leaving := [], slices := [], halves := [], lines := [], settling := [] }
    peer := { s.peer with parked := [], heldPkts := [], onDie := List.range 64 }
    host := { s.host with held0 := [], held1 := [], heldSubmits := [], windows := [], winPend := [], cxlWaiting := [] }
    shelves := s.shelves.map (fun x => { x with tail := [], changes := [], sealed := [] }) }

/-- What returns to its default at the end of a tenancy: a TENANT-owned object, one with both owners included (log entry
34), and every counter (R493). -/
def tenantKey (k : Nat) : Bool :=
  (odFind (keyIndex k) (keySub k)).any (fun r => r.ten) || (0xA100 ≤ keyIndex k && keyIndex k < 0xA330)

/-- The tenant's queues and rings are as after a commit of their records; what still waits there is refused (R14). -/
def resetTenantQueues (s : State) : State :=
  let qs := QRef.admin :: (List.range 128).map (fun i => QRef.part (i / 4) (i % 4))
  let s1 := forEach (fun q t =>
    setQueue q {} (forEach (fun d => writeCompletion q d .notOwned 0) (queueOf t q).waiting t)) qs s
  { s1 with queues := { s1.queues with evs := List.replicate 33 {} } }

/-- Step 6: TENANT-owned objects at their defaults, table slots emptied, objects and policies discarded. -/
def releaseSix (s : State) : State :=
  let s1 := resetTenantQueues s
  let s2 : State := { s1 with
    mgmt := { s1.mgmt with
      ten := {}
      kept := s1.mgmt.kept.filter (fun k => match k.via with | .mailbox _ => false | _ => true)
      blocks := s1.mgmt.blocks.filter (fun b => match b.via with | .mailbox _ => false | _ => true) }
    tables := s1.tables.map (fun _ => {})
    objs := { s1.objs with objs := [], policies := [], moves := [], bring := [], heldWrites := [] }
    samplers := []
    sec := { s1.sec with sealedWeights := [] }
    shelves := s1.shelves.map (forget (fun e => e.state == 1)) }
  let s3 := forEach (fun n => editPort n (fun p => { p with gates := [], gateSrc := 0 })) (List.range 48) s2
  odKeep (fun k => !tenantKey k) (forEach (fun n => setMask n 0xF) (List.range 48) s3)

/-- New meadow keys (R441): random, a free value. -/
def newMeadowKeys (s : State) : State :=
  drawn { s with sec := { s.sec with meadowKeyGen := s.sec.meadowKeyGen + 1, meadowKey := freeOf 768 s } }

/-- Step 7: new meadow keys; the structures of R120 are initialised. -/
def releaseSeven (s0 : State) : State :=
  let s := newMeadowKeys s0
  { s with
    kv := {}
    jobs := { s.jobs with jobs := [] }
    pfx := { log := s.pfx.log, nextRec := s.pfx.nextRec, logUnits := s.pfx.logUnits } }

/-- What a step of a release does. -/
def releaseStep (n : Nat) (s : State) : State :=
  let s1 : State := { s with sec := { s.sec with releaseStep := n } }
  match n with
  | 1 => releaseOne s1
  | 2 => releaseTwo s1
  | 3 => releaseThree s1
  | 4 => releaseFour s1
  | 5 => releaseFive s1
  | 6 => releaseSix s1
  | _ => releaseSeven s1

/-- Start a release. -/
def startRelease (s : State) : State := releaseStep 1 { s with sec := { s.sec with tenancy := .releasing } }

/-- A write of OD 0x9000:02. -/
def releaseWrite (s : State) : Status × State := if owned s then (.ok, startRelease s) else (.conflict, s)

/-- The state is UNOWNED again; every operator session is told. -/
def released (s : State) : State :=
  notify 0x9000 0x01 { s with sec := { s.sec with tenancy := .unowned, releaseStep := 0, ownerDigest := 0 } }

/-- Whether the step in progress can end: step 2 waits for every lease lent (R318), step 3 for the journal page of each shelf in
service. -/
def stepOver (s : State) : Bool :=
  (s.sec.releaseStep != 2 || s.pasture.leases.all (fun l => !l.lent)) &&
  (s.sec.releaseStep != 3 || (List.range 16).all (fun h =>
    !shelfJournals (shelfOf s h) || !heathUp s h || !trimWaits (shelfOf s h)))

/-! ## Loss of every secret (R421, R423) -/

/-- Every secret and key is erased; no link can carry on. -/
def eraseSecrets (s : State) : State :=
  let s1 := dropSecrets s
  { s1 with
    sec := { s1.sec with identity := none, pufRoot := none, meadowKey := 0, sessions := [], candidate := none }
    mgmt := { s1.mgmt with sessions := [] }
    pasture := { s1.pasture with leases := s1.pasture.leases.map (fun l => { l with key := 0 }) }
    peer := { s1.peer with qps := s1.peer.qps.map (fun q => { q with secret := none }) }
    links := { s1.links with ports := s1.links.ports.map (fun p => { p with state := 0, step := 0, secret := none }) } }

/-- The RTP accepts a scan request in UNOWNED only (R423, R511). -/
def scanWrite (s : State) : Status × State :=
  if s.sec.tenancy != .unowned then (.conflict, s)
  else
    let s1 := eraseSecrets s
    (.ok, { s1 with
      sec := { s1.sec with rtp := .scanOpen }
      power := { s1.power with dev := .scanOpen, test := none }
      pfx := { s1.pfx with ring := [] } })

/-- The RTP enters SAFE (R421, R508). -/
def enterSafe (s : State) : State :=
  let s1 := eraseSecrets s
  { s1 with sec := { s1.sec with rtp := .safe }, power := { s1.power with dev := .safe } }

/-- A failure of the RTP or kiln domain in service. -/
def rtpFailure (s : State) : State := if s.sec.rtp == .run then enterSafe s else s

def execRtpDomainFailure (_kiln : Bool) (s : State) : Host.Outcome State Fault Refusal := .next (rtpFailure s)

end Sys2Proof.Machine
end

