-- ==== Sys2Proof/Machine/Firings.lean ====
section
/-! DEFINITION. What the firings of a plan do (R90): RELEASE (R112, R161 to R169), MOVE (R224, R312, R313), WPUSH (R314),
GATE_SWAP (R416) and POOL_SWEEP (R309 to R311). A firing acts for its own position, which may lie behind the wheel when it
had to wait (R70). -/

namespace Sys2Proof.Machine

/-! ## Sheets and the jobs they plan -/

/-- A job template for an entry (R169): sequence, layer, rows, position and query source filled in. -/
def fillTemplate (d : Desc) (seq layer rows pos sub : Nat) : Desc :=
  d ||| BitVec.ofNat 512 (seq * 256 ^ 8 + layer * 256 ^ 11 + rows * 256 ^ 12 + pos * 256 ^ 16 + sub * 256 ^ 32)

/-- Head groups and templates of a layer's RELEASE firing in a plan: group entry and descriptor. -/
def releaseOf (p : Plan) (f : Firing) : Nat × Desc :=
  ((p.groups.getD (opField f 14 1) default).headGroups, p.templates.getD (opField f 12 2) 0)

/-- Items of an entry: on the cores that dispatch by length chooses, or one for each core of its split layout (R117,
R191), with their places in the order of assignment. -/
def itemsOf (p : Plan) (part G : Nat) (bucket : Bool) (es : List Entry) (e : Entry) : List Item × List Nat × Nat :=
  if e.split then
    match layoutFor p part es e with
    | none => ([], [], 0)
    | some y =>
      (y.cores.map (fun c => { headGroup := 0, core := c, state := .waiting, cycles := 0, wasted := 0, rank := 0 }), y.cores, y.merge)
  else
    let l := indexed (assignItems p part G (p.parts.getD part default).cores bucket es)
    ((l.filter (fun x => x.2.1 == e.seq)).map (fun x =>
      { headGroup := x.2.2.1, core := x.2.2.2, state := .waiting, cycles := 0, wasted := 0, rank := x.1 + 1 }), [], 0)

/-- Index of the plan group that holds a layer. -/
def groupAt (p : Plan) (layer : Nat) : Nat := p.groups.findIdx (fun g => g.first ≤ layer && layer ≤ g.final)

/-- Whether a sheet's entries are assigned in bucket mode for a layer group: as for the first of its layers that was released
(R117), else as the partition runs now. -/
def assignMode (h : Sheet) (group : Nat) (s : State) : Bool :=
  ((h.modes.find? (fun x => x.1 == group)).map (fun x => x.2)).getD (runMode s h.partition)

/-- The job of an entry for a layer (R110, R161, R169), as the sequence stands. -/
def entryJob (ps : PlanSlot) (h : Sheet) (idx : Nat) (e : Entry) (layer G : Nat) (d : Desc) (q : Seq) (batch : Nat) (s : State) : Job :=
  let m := max 1 e.cand
  let it := itemsOf ps.plan h.partition G (assignMode h (groupAt ps.plan layer) s) h.entries e
  { id := s.jobs.nextJob, kind := .planned, part := h.partition, seq := e.seq, layer := layer, step := h.step, entry := idx,
    desc := fillTemplate d e.seq layer m q.length e.subOff, len := q.length, rows := m,
    tree := if e.cand = 0 then [] else h.trees.getD e.tree [], cols := q.cols, items := it.1, missing := [], status := .ok,
    window := h.outWindow, outOff := e.outOff + layer * h.outStride, dueAt := none,
    held := q.prov.any (fun t => t.step != h.step), cmd := 0, skipped := 0, pages := 0, groups := G, split := it.2.1,
    merge := it.2.2, half := ps.half, batch := batch, bucket := runMode s h.partition }

/-! ## RELEASE -/

/-- Whether the window rows that a job's query rows see are still in the coil (R131). -/
def rowsServable (s : State) (q : Seq) (g : MGroup) (len : Nat) : Bool := !isWindow g || servable s q (some g.idx) len

/-- A job is late from time `at_` on: its DUE beat took effect then (R110). One released at or after its own DUE position is late
from its release (DESIGN CHOICE, log entry 21), with the time of that beat. -/
def markLate (at_ id : Nat) (s : State) : State :=
  match findJob s id with
  | none => s
  | some j => if j.dueAt.isSome then s else lateEvent j (setJob { j with dueAt := some at_ } s)

/-- When the DUE position of a step and layer took effect. -/
def dueTime (s : State) (step layer : Nat) : Nat :=
  ((s.wheel.dues.find? (fun d => d.1 == step && d.2.1 == layer)).map (fun d => d.2.2)).getD s.now

/-- Whether a position has taken effect: before the first beat, those before the floor have (R80). -/
def reached (s : State) (w : WPos) : Bool :=
  if s.wheel.fresh then w.toNat < s.wheel.floor.toNat else w.toNat ≤ s.wheel.cur.toNat

/-- Release the job of one entry for a layer. -/
def releaseEntry (ps : PlanSlot) (h : Sheet) (layer G : Nat) (d : Desc) (batch : Nat) (x : Nat × Entry) (s : State) : State :=
  let seq := x.2.seq
  let waits := (findSeq s seq).any (fun q => q.prov.any (fun t => t.step != h.step))
  let s1 :=
    if layer = 0 && x.2.cand = 0 && !waits && (findSeq s seq).any (fun q => !q.failed) && (sheetEntry s h.partition h.step seq).any (fun e => e.bad.isNone) then
      claimStep h.partition h.step seq s
    else s
  let e := (sheetEntry s1 h.partition h.step seq).getD x.2
  match e.bad with
  | some st => refuseOutput h e layer st s1
  | none =>
    match findSeq s1 seq with
    | none => refuseOutput h e layer .badObject s1
    | some q =>
      match layerGroup s1 q.model layer with
      | none => refuseOutput h e layer .badDescriptor s1
      | some g =>
        let j0 := entryJob ps h x.1 e layer G d q batch s1
        let st : Status :=
          if q.failed || jobPoisoned s1 j0 then .poisoned
          else if !rowsServable s1 q g q.length then .badDescriptor
          else .ok
        let s2 := reportMissing j0.id (fetchCols j0 (addJob { j0 with status := st } (g.kind == 2) s1))
        if reached s1 (Pos.mk h.step layer 2) then markLate (dueTime s1 h.step layer) j0.id s2 else s2

/-- A sheet keeps the mode in which a layer group's entries are assigned (R117). -/
def keepMode (h : Sheet) (group : Nat) (s : State) : Sheet :=
  { h with modes := if h.modes.any (fun x => x.1 == group) then h.modes else h.modes ++ [(group, assignMode h group s)] }

/-- RELEASE: the firing layer's jobs of every entry of the partition's sheet (R90, R112). -/
def fireRelease (ps : PlanSlot) (f : Firing) (step part : Nat) (s : State) : State :=
  match sheetOf s part step with
  | none => s
  | some h0 =>
    let r := releaseOf ps.plan f
    let h := keepMode h0 (groupAt ps.plan (firingLayer ps.plan f)) s
    forEach (releaseEntry ps h (firingLayer ps.plan f) r.1 r.2 s.jobs.nextJob) (indexed h.entries)
      { s with sheets := { s.sheets with admitted := s.sheets.admitted.map (fun x => if x == h0 then h else x) } }

/-! ## MOVE -/

def plannedBytes (s : State) (cluster : Nat) : Nat :=
  sumBy (fun x => if x.planned && x.cluster == cluster then x.bytes else 0) s.jobs.slices

/-- Take a slice into the planned area of its cluster, its fetch under way, or count one that finds it full (R223, R224). -/
def landSlice (part : Nat) (x : Slice) (s : State) : State :=
  if s.jobs.slices.any (fun y => y.planned && y.cluster == x.cluster && y.step == x.step && y.seq == x.seq && y.layer == x.layer &&
      y.headGroup == x.headGroup && y.page == x.page) then s
  else if plannedBytes s x.cluster + x.bytes ≤ 48 * 2 ^ 20 then { s with jobs := { s.jobs with slices := s.jobs.slices ++ [x] } }
  else count (.cluster x.cluster) 0x0108 1 { part := some part } s

/-- Slices of an entry's job for one layer, as its rows see the sequence now: head group, then page (R224); a split core reads every
head group (R191). -/
def entrySlices (s : State) (j : Job) : List Slice :=
  let all := (indexed j.items).flatMap (fun x => (itemGroups j x.2).flatMap (fun hg =>
    (itemPages s j x.1).map (fun p => (hg, p, x.2.core / 4))))
  (sortBy (fun a b => a.1 < b.1 || (a.1 == b.1 && a.2.1 < b.2.1)) all).map (fun x => sliceFor s j x.2.2 x.1 x.2.1 true false)

/-- MOVE with operand 0: tiles of the sheet's sequences into cluster cache (R224). -/
def fireTiles (ps : PlanSlot) (f : Firing) (step part : Nat) (s : State) : State :=
  match sheetOf s part (step + opField f 13 1) with
  | none => s
  | some h =>
    let layers := (List.range (opField f 15 1)).map (fun i => opField f 14 1 + i)
    forEach (fun (x : Nat × Entry) t =>
      match findSeq t x.2.seq with
      | none => t
      | some q =>
        forEach (fun l u =>
          match layerGroup u q.model l with
          | none => u
          | some _ =>
            let G := ((ps.plan.groups.find? (fun y => y.first ≤ l && l ≤ y.final)).map (fun y => y.headGroups)).getD 1
            let j := entryJob ps h x.1 x.2 l G 0 q 0 u
            forEach (landSlice part) (entrySlices u j) (fetchCols j u)) layers t) (indexed h.entries) s

/-- MOVE with operand 1: columns of the sheet's sequences into meadow (R312). -/
def fireCols (f : Firing) (step part : Nat) (s : State) : State :=
  match sheetOf s part (step + opField f 13 1) with
  | none => s
  | some h =>
    forEach (fun (e : Entry) t => forEach bringCol ((findSeq t e.seq).elim [] (fun q => q.cols)) t) h.entries s

/-- MOVE with operand 2: the extents of an object's span into meadow (R313), as an OBJ_MOVE would: an object whose policy has `plain`
expands (R256, R303) where nothing of it has to be skipped. -/
def fireObject (f : Firing) (parts : List Nat) (s : State) : State :=
  match findObj s (opField f 16 4) with
  | none => s
  | some o =>
    let idx := extsOf o (64 * opField f 20 4) (64 * opField f 24 4)
    if !parts.contains o.part then s
    else
      match if o.immutable || o.poisoned || o.exts.any (fun e => e.moving || placeOut s e.home) then none
          else expandsMove s o false (64 * opField f 20 4) (64 * opField f 24 4) with
      | some x =>
        match startPlain .firing o x s with
        | .ok r => r.2
        | .error _ => bump64 0x5000 0x09 s
      | none => forEach (bringExt o.id) idx s

/-! ## WPUSH -/

/-- The extents that hold a tile's stored bytes. -/
def tileExts (s : State) (o : Obj) (i : Nat) : List Nat := extsOf o (sherdSpan s o i).1 (sherdSpan s o i).2

/-- Push one tile of a weight object (R314): expanded at load (R256). A tile's offset in the window is its block's offset among the tiles
pushed (DESIGN CHOICE, log entry 22). -/
def pushTile (window part : Nat) (o : Obj) (d : Directory) (first i : Nat) (s : State) : State :=
  let off := (i - first) * d.block
  let e := o.exts.getD ((tileExts s o i).headD 0) default
  let far := (tileExts s o i).filter (fun k =>
    let x := o.exts.getD k default
    !(x.home.tier == .meadow || x.image.any (fun l => l.tier == .meadow)))
  let s1 := forEach (fun k t => heathRead (o.exts.getD k default).home (extUnits o k) t) far (onlyIf (!far.isEmpty) (bump64 0x5000 0x0A) s)
  match expandBlock s1 o d i with
  | .ok bs => sendTile window off o.id i part .ok bs (sherdsExpanded 1 bs.length s1)
  | .error st => sendTile window off o.id i part st [] (onlyIf (isSherdStatus st) (sherdFailed (loadUnit e.home) o i st) s1)

/-- WPUSH (R314). Each tile named of a poisoned object is sent as one empty last fragment, whatever bytes its directory has by then: at its
place in the window, or at 0 where no directory can be read (DESIGN CHOICE, log entry 22). A weight object without a coded image has no
tiles (DEDUCED, log entry 23). -/
def fireWpush (f : Firing) (step : Nat) (parts : List Nat) (s : State) : State :=
  match if parts.isEmpty then none else findObj s (opField f 16 4) with
  | none => s
  | some o =>
    let window := opField f 12 2
    let first := opField f 20 4
    let named := (List.range (opField f 24 4)).map (fun i => first + i)
    let dir := objDirectory s o
    if o.poisoned then
      forEach (fun i => sendTile window ((i - first) * dir.elim 0 (fun d => d.block)) o.id i f.partition .poisoned []) named s
    else
      match dir with
      | none => s
      | some d =>
        let tiles := named.filter (fun i => i < d.count)
        let s1 := forEach (fun (x : Nat × Nat) t => touchReadAt step o.part x.1 x.2 t) (tiles.flatMap (blockReads s o d)) s
        forEach (pushTile window f.partition o d first) tiles s1

/-! ## POOL_SWEEP -/

/-- A candidate of a sweep: last use, whether a home, order among items, units, what it is (R310). -/
structure Cand where
  used : Nat
  home : Bool
  obj : Bool
  ident : Nat
  idx : Nat
  units : Nat
  item : MoveItem

def isMeadow (l : Loc) : Bool := l.tier == .meadow

def sweepCands (s : State) (p : Nat) : List Cand :=
  let cs := (s.kv.cols.filter (fun c => c.part == p && !colExempt s c)).flatMap (fun c =>
    let mk (home : Bool) : Cand :=
      { used := c.lastUsed, home := home, obj := false, ident := colId c, idx := 0, units := columnUnits s c.model, item := .col c.slot }
    (if isMeadow c.home then [mk true] else []) ++ (if c.image.any isMeadow then [mk false] else []))
  let os := (s.objs.objs.filter (fun o => o.part == p)).flatMap (fun o =>
    ((indexed o.exts).filter (fun x => !objExempt s o x.1 x.2)).flatMap (fun x =>
      let mk (home : Bool) : Cand :=
        { used := x.2.lastUsed, home := home, obj := true, ident := o.id, idx := x.1, units := extUnits o x.1, item := .ext o.id x.1 }
      (if isMeadow x.2.home then [mk true] else []) ++ (if x.2.image.any isMeadow then [mk false] else [])))
  let key (c : Cand) : List Nat := [c.used, if c.home then 1 else 0, if c.obj then 1 else 0, c.ident, c.idx]
  sortBy (fun a b => key a < key b) (cs ++ os)

def takeCands : Nat → List Cand → List Cand
  | _, [] => []
  | n, c :: cs => if n = 0 then [] else c :: takeCands (n - c.units) cs

/-- Move a selected home out of meadow, or drop a selected image (R311). -/
def sweepOne (c : Cand) (s : State) : State :=
  if !c.home then
    bump64 0x5000 0x06 (dropImageOf c.item s)
  else
    let spill (part policy : Nat) : Bool := (policyOf s part policy).spill == 1
    let go (t : Tier) : Except Status (Option Nat × State) :=
      match c.item with
      | .col k =>
        match findCol s k with
        | some x => moveCol t 0 .sweep x s
        | none => .error .badObject
      | .ext id i => moveExt t 0 .sweep id i s
      | .plain _ => .error .badObject
    let wantsPasture : Bool :=
      match c.item with
      | .col k => (findCol s k).any (fun x => spill x.part x.policy)
      | .ext id _ => (findObj s id).any (fun o => spill o.part o.policy)
      | .plain _ => false
    let first : Except Status (Option Nat × State) := if wantsPasture then go .pasture else .error .noSpace
    match first with
    | .ok r => r.2
    | .error _ =>
      match go .heath with
      | .ok r => r.2
      | .error _ => bump64 0x5000 0x08 s

/-- The target of a sweep in 4 KiB units (R309). -/
def sweepTarget (s : State) (x p : Nat) : Nat :=
  let u := useOf s .meadow p
  let g := guarantee s p
  let k := od s (partIx p) 0x03 / 4096
  if x ≠ 0 then min (ceilDiv x 4096) (u - g) else u - (if k = 0 then g else k)

/-- POOL_SWEEP for one partition (R309 to R311). -/
def sweepPart (x p : Nat) (s : State) : State :=
  let n := sweepTarget s x p
  if n = 0 then s
  else
    let sel := takeCands n (sweepCands s p)
    event .ok (some p) 0 0 (sumBy (fun c => c.units) sel * 2 ^ 32 + sel.length) (forEach sweepOne sel s)

/-- POOL_SWEEP: an occurrence at which it acts for some partition counts (OD 0x5000:05). -/
def fireSweep (f : Firing) (parts : List Nat) (s : State) : State :=
  forEach (sweepPart (opField f 16 8)) parts (onlyIf (!parts.isEmpty) (bump64 0x5000 0x05) s)

/-! ## A firing -/

/-- Whether a firing consumes a sheet or submissions, and so waits for class 1 messages (R70, R101). -/
def consumes (f : Firing) : Bool :=
  f.action == 1 || (f.action == 2 && opField f 12 1 != 2) || bitOf f.flags 0

/-- GATE_SWAP: the list takes over at its port (R90, R416). -/
def fireGates (ps : PlanSlot) (f : Firing) (s : State) : State :=
  takeGates (if opField f 12 1 = 1 then 32 + opField f 13 1 else opField f 13 1)
    (((ps.plan.gates.find? (fun g => g.1 == opField f 16 4)).map (fun g => g.2)).getD []) 2 s

/-- A firing acts for step `step`. GATE_SWAP and MODE_ARM act for the device, and with flags bit 0 only where a partition of
theirs has an admitted sheet (R89); one that had to wait arms or takes over when it fires (DESIGN CHOICE, log entry 120). -/
def fire (ps : PlanSlot) (f : Firing) (step : Nat) (s : State) : State :=
  let parts := firingParts s f step
  match f.action with
  | 1 => runCores (abandonSweeps (forEach (fireRelease ps f step) parts s))
  | 2 =>
    match opField f 12 1 with
    | 0 => forEach (fireTiles ps f step) parts s
    | 1 => forEach (fireCols f step) parts s
    | _ => fireObject f parts s
  | 3 => fireWpush f step parts s
  | 4 => if parts.isEmpty then s else fireGates ps f s
  | 5 => if parts.isEmpty then s else armMode f s
  | 7 => fireSweep f parts s
  | _ => s

end Sys2Proof.Machine
end

