-- ==== Sys2Proof/Machine/Beat.lean ====
section
/-! DEFINITION. What a beat does (R80 to R84, R109): the positions it passes in order, deadline checks (R110), plan
switch-over (R115, R116), firings and the waits of R70, and beats held as early (R83). -/

namespace Sys2Proof.Machine

/-! ## One position (R109) -/

/-- When the DUE position of a layer took effect, kept for its step, and for later ones while firings of it wait (R111). -/
def noteDue (w : WPos) (s : State) : State :=
  { s with wheel := { s.wheel with dues :=
      (s.wheel.dues.filter (fun d => d.1 == Pos.step w || s.wheel.blocked.any (fun b => Pos.step b.pos == d.1))) ++
        [(Pos.step w, Pos.layer w, s.now)] } }

/-- Whether a job's DUE is a position. -/
def dueThere (w : WPos) (j : Job) : Bool := j.kind == .planned && j.step == Pos.step w && j.layer == Pos.layer w

/-- Deadline checks at a DUE position (R110): each of the layer's jobs of the step that is incomplete, or whose last OUTPUT has
not left, is late. -/
def deadlines (w : WPos) (s : State) : State :=
  if Pos.phase w != 2 then s
  else
    forEach (fun (x : Leaving) => onlyIf (dueThere w x.job) (leavingLate x.job.id)) s.jobs.leaving
      (forEach (fun (j : Job) => onlyIf (dueThere w j) (markLate s.now j.id)) s.jobs.jobs (noteDue w s))

/-- Commits armed on the leaving plan's APPLY_COMMIT comparators keep them (R115). -/
def keepComparators (s : State) : State :=
  let f (x : RoleState) : RoleState := { x with pend := x.pend.map (fun p => { p with kept := p.kept || !p.pool }) }
  { s with mgmt := { s.mgmt with op := f s.mgmt.op, ten := f s.mgmt.ten } }

/-- Core store regions that a plan claims on a core for a purpose (R94, R208). -/
def regionsOn (p : Option PlanSlot) (core purpose : Nat) : List Nat :=
  p.elim [] (fun x => (x.plan.claims.filter (fun c => c.kind == 4 && c.unit / 16 == core && c.purpose == purpose)).map (fun c => c.unit % 16))

/-- Core store regions in which a core encodes blocks: those of purpose 4, with no plan region 15 (R255). -/
def codingOnCore (p : Option PlanSlot) (core : Nat) : List Nat := if p.isNone then [15] else regionsOn p core 4

/-- The contents of regions whose claim the new plan changes are invalid (R213): weight slices in purpose 3 regions, core copies
of provisional tails in purpose 2 regions, which are then served from their meadow copies, and blocks being encoded in purpose 4
regions, which start again (R255). -/
def regionsChange (old new : Option PlanSlot) (s0 : State) : State :=
  let same (purpose core : Nat) : Bool := regionsOn old core purpose == regionsOn new core purpose
  let s := forEach abandonBlock ((List.range 96).filter (fun n => codingOnCore old n != codingOnCore new n)) s0
  { s with
    jobs := { s.jobs with halves := s.jobs.halves.filter (fun x => same 3 x.core) }
    kv := { s.kv with seqs := s.kv.seqs.map (fun q =>
      { q with prov := q.prov.map (fun t => { t with copies := t.copies.filter (fun c => same 2 c.1) }) }) } }

/-- Switch-over at T:0:OPEN (R115, R116). -/
def switchOver (w : WPos) (s : State) : State :=
  match s.wheel.next with
  | none => s
  | some n =>
    if (Pos.mk n.takeover 0 0).toNat ≤ w.toNat then
      keepComparators (regionsChange s.wheel.active n.slot
        { s with wheel := { s.wheel with active := n.slot, next := none, tookOver := n.takeover } })
    else s

/-- Firings of an action at a position, in table order. -/
def firingsOf (s : State) (w : WPos) (p : Firing → Bool) : List (PlanSlot × Firing) :=
  match s.wheel.active with
  | none => []
  | some ps => (ps.plan.firings.filter (fun f => p f && firesAt ps.plan f w)).map (fun f => (ps, f))

/-- Every port's mask follows its list (R415, R417). -/
def masksAt (w : WPos) (s : State) : State :=
  forEach (fun n t => setMask n (gateMask (lastLayer s) w (portOf t n).gates) t) (List.range 48) s

/-- Columns set aside for entries of ended steps whose tail was never made return to the pool (R151, R190). -/
def asideExpires (step : Nat) (s : State) : State :=
  forEach (fun (h : Sheet) t =>
    if step ≤ h.step then t
    else forEach (fun (e : Entry) u =>
      if (findSeq u e.seq).any (fun q => q.prov.any (fun x => x.step == h.step)) then u
      else editEntry h.partition h.step e.seq (fun x => { x with setAside := 0, asideAt := [] }) u) h.entries t) s.sheets.admitted s

/-- Tails that no confirm has claimed expire at s+1:0:OPEN (R189). -/
def expireTails (w : WPos) (s : State) : State :=
  asideExpires (Pos.step w) <| forEach (fun (q : Seq) t =>
    match q.prov with
    | none => t
    | some p =>
      let confirmed := t.queues.cmds.any (fun c => confirming c && (namedSeqs t c.desc).contains q.id)
      if confirmed || Pos.step w ≤ p.step then t
      else
        bump64 0x3000 0x06 (event .specExpired (some q.part) 0 0 q.id
          (settleVerify q.id p.step 0 p.count (dropTail q p.step t)))) s.kv.seqs s

/-- The entries of a step's sheets that cannot be served (R103, R149). -/
def checkStep (step : Nat) (s : State) : State :=
  forEach (fun (h : Sheet) t =>
    if h.step == step then forEach (fun (x : Nat × Entry) => checkEntry h x.1 x.2) (indexed h.entries) t else t)
    s.sheets.admitted s

/-- What a step's start does: tails expire, ended sheets go, entries are checked. -/
def stepStarts (w : WPos) (s : State) : State :=
  if w.toNat % 2 ^ 24 = 0 then pruneSheets (checkStep (Pos.step w) (expireTails w s)) else s

/-- Whether every class 1 message before `c1` has been handed on (R70). -/
def handedOn (s : State) (c1 : U16) : Bool := (s.host.rx1 - c1).toNat < 32768

def block (b : Blocked) (s : State) : State := { s with wheel := { s.wheel with blocked := s.wheel.blocked ++ [b] } }

/-- Firings in table order; one that consumes a sheet or submissions waits for class 1 messages (R70). -/
def firingsAt (p : Firing → Bool) (w : WPos) (c1 : U16) (s : State) : State :=
  forEach (fun (x : PlanSlot × Firing) t =>
    if consumes x.2 && !handedOn t c1 then block { pos := w, c1 := c1, firing := some x.2, slot := some x.1 } t
    else fire x.1 x.2 (Pos.step w) t) (firingsOf s w p) s

/-- Sheets still wanted at their due position keep it open until the class 1 messages before the beat are in (R99). -/
def dueAt (w : WPos) (c1 : U16) (s : State) : State :=
  if handedOn s c1 then s else block { pos := w, c1 := c1, firing := none, slot := none } s

/-- Everything the device does at a position, in the order of R109. -/
def atPosition (w : WPos) (c1 : U16) (s : State) : State :=
  let s0 := { s with wheel := { s.wheel with cur := w } }
  let s1 := modesDue w (recallsDue w (deadlines w s0))
  let s2 := switchOver w s1
  let s3 := applyDue w .tenant (applyDue w .operator s2)
  let s4 := firingsAt (fun f => f.action == 5) w c1 s3
  let s5 := masksAt w (firingsAt (fun f => f.action == 4) w c1 s4)
  let s6 := firingsAt (fun f => f.action == 1 || f.action == 2 || f.action == 3 || f.action == 7) w c1
    (commandsAt w (stepStarts w s5))
  dueAt w c1 s6

/-- Act at every position from `w` up to `goal` (R81); `n` bounds their number. -/
def sweepTo (goal : WPos) (c1 : U16) : Nat → WPos → State → State
  | 0, _, s => s
  | n + 1, w, s =>
    if goal.toNat < w.toNat then s
    else
      let t := atPosition w c1 s
      sweepTo goal c1 n (Pos.succ (lastAt t (Pos.step w)) w) t

/-! ## A beat -/

/-- The shortest step at a position (R83), in ns. -/
def minStepNs (s : State) (step : Nat) : Nat := max 100000 ((planAt s step).elim 0 (fun p => p.plan.minStep))

/-- Whether a beat would start a step too early (R83). -/
def tooEarly (s : State) (w : WPos) : Bool :=
  Pos.step s.wheel.cur < Pos.step w && s.wheel.stepStart.any (fun t => s.now < t + minStepNs s (Pos.step w))

/-- A beat takes effect (R80, R81). -/
def takeEffect (w : WPos) (c1 : U16) (s : State) : State :=
  let from_ := if s.wheel.fresh then s.wheel.floor else Pos.succ (lastAt s (Pos.step s.wheel.cur)) s.wheel.cur
  let starts := Pos.step s.wheel.cur < Pos.step w
  let s1 := bump64 0x2000 0x03 { s with wheel := { s.wheel with
    fresh := false, lastBeat := s.now, silent := false, stepStart := if starts then some s.now else s.wheel.stepStart } }
  runCores (settleAll (sweepTo w c1 ((w.toNat - from_.toNat) / 4096 + 1) from_ s1))

/-- A beat behind the wheel (R82). -/
def beatBackward (w : WPos) (s : State) : State :=
  faultEvent .wheelBackward unitDevice w.toNat none .badDescriptor w.toNat (bump64 0x2000 0x04 s)

/-- Hold a beat as early (R83). -/
def holdBeat (w : WPos) (c1 : U16) (s : State) : State :=
  fault .beatEarly unitDevice w.toNat none (bump64 0x2000 0x05
    { s with wheel := { s.wheel with held := s.wheel.held ++ [{ wpos := w, c1 := c1 }] } })

/-- Judge a beat that nothing holds back (R80, R82, R83). A malformed one is rejected under R6 and counted. -/
def judgeBeat (w : WPos) (c1 : U16) (s : State) : State :=
  if !Pos.ok w || lastAt s (Pos.step w) < Pos.layer w then event .badDescriptor none 0 0 w.toNat (bump64 0x2000 0x04 s)
  else if s.wheel.fresh then
    if w.toNat < s.wheel.floor.toNat then beatBackward w s
    else if tooEarly s w then holdBeat w c1 s
    else takeEffect w c1 s
  else if w = s.wheel.cur then bump64 0x2000 0x04 s
  else if w.toNat < s.wheel.cur.toNat then beatBackward w s
  else if tooEarly s w then holdBeat w c1 s
  else takeEffect w c1 s

/-- A BEAT message in its turn: behind a held beat it is held too (R83). -/
def beatIn (w : WPos) (c1 : U16) (s : State) : State :=
  if s.wheel.held.isEmpty then judgeBeat w c1 s else holdBeat w c1 s

/-- Take the held beats in order until one must still be held; `n` bounds their number. -/
def releaseBeats : Nat → State → State
  | 0, s => s
  | n + 1, s =>
    match s.wheel.held with
    | [] => s
    | b :: bs =>
      let s1 := { s with wheel := { s.wheel with held := bs } }
      if tooEarly s1 b.wpos then s else releaseBeats n (judgeBeat b.wpos b.c1 s1)

/-- The hold of R83 ends once T_min has passed; with no streaming module in service the wheel stands still (R78). -/
def execBeatHoldRelease (s : State) : Host.Outcome State Fault Refusal :=
  .next (if (streamModules s).isEmpty then s else releaseBeats s.wheel.held.length s)

/-- No beat has taken effect for OD 0x7100:04: every class of every port opens (R417). -/
def beatSilence (s : State) : State :=
  if s.now < s.wheel.lastBeat + od s 0x7100 0x04 * 1000 then s
  else
    forEach (fun n => setMask n 0xF) (List.range 48) { s with wheel := { s.wheel with silent := true } }

def execBeatSilence (s : State) : Host.Outcome State Fault Refusal := .next (beatSilence s)

/-- Act on what waited for class 1 messages that have now been handed on (R70); `n` bounds their number. -/
def unblock : Nat → State → State
  | 0, s => s
  | n + 1, s =>
    match s.wheel.blocked with
    | [] => s
    | b :: bs =>
      if !handedOn s b.c1 then s
      else
        let s1 := { s with wheel := { s.wheel with blocked := bs } }
        match b.firing, b.slot with
        | some f, some ps => unblock n (fire ps f (Pos.step b.pos) s1)
        | _, _ => unblock n s1

end Sys2Proof.Machine
end

