-- ==== Sys2Proof/Machine/Tpp.lean ====
section
/-! DEFINITION. TPP from the host (R64 to R72) and the modules that carry it (R76 to R79): receiving in order (R69), step
sheets and their checks (R99 to R102), submissions (R105), windows (R66), credits (R67, R68) and SYNC (R72). -/

namespace Sys2Proof.Machine

/-- Whether the bytes of `args` outside the named spans are zero. -/
def argsZeroBut (m : TppMsg) (named : List (Nat × Nat)) : Bool :=
  (List.range 16).all (fun i => named.any (fun x => x.1 ≤ 16 + i && 16 + i < x.1 + x.2) || argField m (16 + i) 1 == 0)

/-- The checks of R66 that every message meets. -/
def headerFine (m : TppMsg) (typ : Nat) : Bool :=
  m.typ.toNat == typ && m.flags.toNat < 4 && (m.partition.toNat < 32 || m.partition.toNat == 0xFF) && m.status == 0 &&
  m.length.toNat ≤ 16384 && m.length.toNat == m.payload.length

/-- A message that R66 discards. -/
def discard (m : TppMsg) (s : State) : State :=
  let part := if m.partition.toNat < 32 then some m.partition.toNat else none
  event .badDescriptor part 0 0 0 { s with host := { s.host with discarded := s.host.discarded + 1 } }

/-! ## Refusal outside OWNED (R14) -/

/-! ## Step sheets -/

/-- A sheet's outcome (R102). -/
def sheetEvent (st : Status) (part step reason idx : Nat) (s : State) : State :=
  event st (some part) 0 0 (step * 2 ^ 24 + reason * 2 ^ 16 + idx) s

/-- A tree bitmap of `c` candidates (R182). -/
def treeOk (t : List Nat) (c : Nat) : Bool :=
  nth t 0 == 1 &&
  (List.range c).all (fun i => i == 0 || nth t i == nth t (parentOf t i) + 2 ^ i) &&
  (List.range 16).all (fun i => i < c || nth t i == 0)

def readTree (bs : Bytes) (off : Nat) : List Nat := (List.range 16).map (fun i => fieldAt bs (off + 2 * i) 2)

def readSheetEntry (bs : Bytes) (i : Nat) : Entry :=
  let o := 64 + 32 * i
  { seq := fieldAt bs o 3, split := bitOf (fieldAt bs (o + 3) 1) 0, lenMax := fieldAt bs (o + 4) 4, cand := fieldAt bs (o + 8) 1,
    tree := fieldAt bs (o + 10) 2, subOff := fieldAt bs (o + 12) 4, outOff := fieldAt bs (o + 16) 4 }

/-- An entry's own layout (R100, R182). -/
def entryOk (bs : Bytes) (trees : List (List Nat)) (i : Nat) : Bool :=
  let o := 64 + 32 * i
  let e := readSheetEntry bs i
  fieldAt bs (o + 3) 1 < 2 && 1 ≤ e.lenMax && fieldAt bs (o + 9) 1 == 0 && zeroAt bs (o + 20) 12 &&
  (if e.cand = 0 then e.tree == 0
   else e.tree < trees.length && (16 < e.cand || treeOk (trees.getD e.tree []) e.cand))

/-- The sheet that bytes spell. -/
def readSheet (part : Nat) (bs : Bytes) : Sheet :=
  let n := fieldAt bs 16 4
  let off := fieldAt bs 32 4
  { partition := part, step := fieldAt bs 8 5, planId := fieldAt bs 20 4, outWindow := fieldAt bs 24 2,
    outStride := fieldAt bs 28 4, entries := (List.range n).map (readSheetEntry bs),
    trees := (List.range ((bs.length - off) / 32)).map (fun i => readTree bs (off + 32 * i)) }

/-- Check 0x01 of the header: `none` when it holds, else the entry at fault or 0xFFFF. -/
def sheetForm (part : Nat) (bs : Bytes) : Option Nat :=
  let n := fieldAt bs 16 4
  let off := fieldAt bs 32 4
  let head :=
    64 ≤ bs.length && fieldAt bs 0 4 == 0x54454853 && fieldAt bs 4 1 == 1 && fieldAt bs 5 1 == part && fieldAt bs 6 2 == 64 &&
    zeroAt bs 13 3 && n ≤ 8192 && zeroAt bs 26 2 && fieldAt bs 36 4 == bs.length && zeroAt bs 40 24 &&
    64 + 32 * n ≤ off && off % 32 == 0 && off ≤ bs.length && (bs.length - off) % 32 == 0 &&
    zeroAt bs (64 + 32 * n) (off - (64 + 32 * n))
  if !head then some 0xFFFF
  else
    let h := readSheet part bs
    (List.range n).find? (fun i => !entryOk bs h.trees i)

/-- The sheet due position of a step (R99); `none` before step 0. Its `last` is that of the plan active at its own step. -/
def duePos (s : State) (p : Plan) (step : Nat) : Option WPos :=
  let at_ : Int := step + p.dueStep
  if at_ < 0 then none
  else
    let n := at_.toNat
    some (Pos.mk n (if p.dueLayer = 0xFF then lastAt s n else p.dueLayer) p.duePhase)

/-- Whether a sheet for a step comes after its due check (R99, R101). A due position before step 0 lies before every beat: such
a sheet is late (DESIGN CHOICE, log entry 114). -/
def sheetLate (s : State) (p : Plan) (step : Nat) : Bool :=
  match duePos s p step with
  | none => true
  | some w => reached s w && !(s.wheel.blocked.any (fun b => b.firing.isNone && b.pos.toNat ≤ w.toNat))

/-- Columns to set aside for an entry (R151, R190). -/
def asideCols (q : Seq) (s : State) (e : Entry) : Nat :=
  if e.cand = 0 then 0
  else
    let shared := q.length % 16 != 0 && (q.cols.getLast?.bind (findCol s)).any (fun c => 1 < c.refs)
    if shared then 2 else 1

/-- Whether the region and submission of an entry fit for every layer that the plan releases (check 0x0E). -/
def entryFits (s : State) (ps : PlanSlot) (h : Sheet) (q : Seq) (e : Entry) : Bool :=
  let p := ps.plan
  let m := max 1 e.cand
  let hq := modelHq s q.model
  let sub := (p.parts.getD h.partition default).subBytes
  (p.firings.filter (fun f => f.action == 1 && h.step % f.period == f.residue && (f.partition == h.partition || f.partition == 0xFF))).all (fun f =>
    let l := firingLayer p f
    let d := (releaseOf p f).2
    match layerGroup s q.model l with
    | none => true
    | some g =>
      let region := regionBytes m hq (dimOut g) (atFmtOut d) (atStats d)
      e.subOff + submissionBytes g hq m (atFmtQ d) (atFmtKv d) ≤ sub &&
      windowHolds h.outWindow 2 (e.outOff + l * h.outStride) region s &&
      region ≤ h.outStride)

/-- The first failing check of a well formed sheet in the order of R101: reason and entry index, which is 0xFFFF where the check
concerns the sheet as a whole (DESIGN CHOICE, log entry 149: the rule names 0xFFFF for the header only). -/
def sheetFault (h : Sheet) (s : State) : Option (Nat × Nat) :=
  match planAt s h.step with
  | none => some (0x10, 0xFFFF)
  | some ps =>
    let p := ps.plan
    let r := p.parts.getD h.partition default
    let es := indexed h.entries
    let seqOf (e : Entry) : Option Seq := findSeq s e.seq
    let at_ (f : Entry → Bool) : Nat := ((es.find? (fun x => f x.2)).map (fun x => x.1)).getD 0xFFFF
    let dup (x : Nat × Entry) : Bool := (h.entries.take x.1).any (fun y => y.seq == x.2.seq)
    let aside := sumBy (fun e => (seqOf e).elim 0 (fun q => asideCols q s e * columnUnits s q.model)) h.entries
    let splits := (h.entries.filter (fun e => e.split)).length
    if h.planId != p.planId then some (0x02, 0xFFFF)
    else if sheetLate s p h.step then some (0x03, 0xFFFF)
    else if Pos.step s.wheel.cur + p.lead < h.step then some (0x04, 0xFFFF)
    else if (sheetOf s h.partition h.step).isSome then some (0x05, 0xFFFF)
    else if !bitOf (p.slices.getD (h.step % p.slices.length) 0) h.partition || r.maxSeq == 0 then some (0x06, 0xFFFF)
    else if !(coresOf r.cores).all (coreUp s) then some (0x13, 0xFFFF)
    else if h.entries.any (fun e => !(seqOf e).any (fun q => q.part == h.partition && !q.failed)) then
      some (0x07, at_ (fun e => !(seqOf e).any (fun q => q.part == h.partition && !q.failed)))
    else if h.entries.any (fun e => (seqOf e).any (fun q => q.length == 0 || e.lenMax < q.length)) then
      some (0x08, at_ (fun e => (seqOf e).any (fun q => q.length == 0 || e.lenMax < q.length)))
    else if es.any dup then some (0x09, ((es.find? dup).map (fun x => x.1)).getD 0xFFFF)
    else if r.maxSeq < h.entries.length then some (0x0A, 0xFFFF)
    else if r.maxPages < sumBy (fun e => ceilDiv (e.lenMax + e.cand) 16) h.entries then some (0x0B, 0xFFFF)
    else if h.entries.any (fun e => 16 < e.cand) then some (0x0C, at_ (fun e => 16 < e.cand))
    else if r.maxCand < sumBy (fun e => e.cand) h.entries then some (0x0C, 0xFFFF)
    else if r.maxSplit < splits || (layoutsOf p h.partition).length < splits || od s 0x3020 (h.partition + 1) < splits then
      some (0x0D, 0xFFFF)
    else if h.entries.any (fun e => !(seqOf e).any (fun q => entryFits s ps h q e)) then
      some (0x0E, at_ (fun e => !(seqOf e).any (fun q => entryFits s ps h q e)))
    else if meadowCheck s h.partition aside != .ok then some (0x12, 0xFFFF)
    else if (s.mgmt.ten.pend.any (fun c => loadsPlan c.content)) then some (0x11, 0xFFFF)
    else none

/-- The columns that an admitted sheet's entry sets aside get their places (R299), behind those of its sequence's list. -/
def placeAside (h : Sheet) (e : Entry) (s : State) : State :=
  match findSeq s e.seq with
  | none => s
  | some q =>
    let n := asideCols q s e
    let ls := meadowLocs s (policyOf s q.part q.policy).stackMask ((List.range n).map (fun k => (q.cols.length + k, columnUnits s q.model)))
    editEntry h.partition h.step e.seq (fun x => { x with setAside := n, asideAt := ls }) (draws n s)

/-- Admit a sheet (R99, R151): columns are set aside, and where its step has started its entries are checked at once. The
entry index of the event is 0 (DESIGN CHOICE, log entry 115). -/
def admitSheet (h : Sheet) (s : State) : State :=
  let s1 := bump64 0x2030 0x05 (sheetEvent .ok h.partition h.step 0 0
    { s with sheets := { s.sheets with admitted := s.sheets.admitted ++ [h] } })
  let s2 := flushHeld (abandonSweeps (forEach (placeAside h) h.entries s1))
  if reached s2 (Pos.mk h.step 0 0) then forEach (fun (x : Nat × Entry) => checkEntry h x.1 x.2) (indexed h.entries) s2 else s2

/-- Check a complete sheet and admit it whole or reject it whole (R101, R102). -/
def judgeSheet (part : Nat) (bs : Bytes) (s : State) : State :=
  let reject (reason idx : Nat) : State :=
    bump64 0x2030 0x06 (sheetEvent .rejectedSheet part (fieldAt bs 8 5) reason idx s)
  if !owned s then refuseOnce part (fieldAt bs 8 5) s
  else
    match sheetForm part bs with
    | some i => reject 0x01 i
    | none =>
      let h := readSheet part bs
      match sheetFault h s with
      | some (r, i) => reject r i
      | none => admitSheet h s

/-- A fragment in its turn: the first one starts a sheet, the last byte completes it (R65, R99). A non-zero `wpos` is no
position that a sheet belongs to, fragments come in order from offset 0, and `last` is not looked at (DESIGN CHOICE, log
entry 116). -/
def sheetIn (m : TppMsg) (s : State) : State :=
  let part := m.partition.toNat
  let total := argField m 16 4
  let off := argField m 20 4
  let had := s.sheets.arriving.find? (fun a => a.partition == part)
  let got : Bytes := if bitOf m.flags.toNat 0 then [] else (had.map (fun a => a.bytes)).getD []
  let fine :=
    headerFine m 0x02 && part < 32 && m.wpos == 0 && argsZeroBut m [(16, 8)] && total ≤ 2 ^ 20 && off + m.payload.length ≤ total &&
    off == got.length && (bitOf m.flags.toNat 0 || had.any (fun a => a.total == total))
  if !fine then discard m s
  else
    let rest := s.sheets.arriving.filter (fun a => a.partition != part)
    let bs := got ++ m.payload
    if bs.length < total then
      { s with sheets := { s.sheets with arriving := rest ++ [{ partition := part, total := total, bytes := bs }] } }
    else judgeSheet part bs { s with sheets := { s.sheets with arriving := rest } }

/-! ## Submissions (R105) -/

/-- A submission in its turn: held while jobs of the buffer's previous step have not completed (R105). Outside OWNED it is
refused as a sheet is, with one event (R14; DESIGN CHOICE, log entry 117); its position is not judged by R6, whose list
names no submission (DESIGN CHOICE, log entry 118). -/
def submitIn (m : TppMsg) (s : State) : State :=
  if !owned s then refuseOnce (min m.partition.toNat 32) (Pos.step (if m.wpos = 0 then s.wheel.cur else m.wpos)) s
  else match subPlan m s with
  | none => discard m s
  | some ps =>
    let part := m.partition.toNat
    let fine :=
      headerFine m 0x03 && part < 32 && argsZeroBut m [(16, 8)] && argField m 16 4 < 2 * ps.plan.layers &&
      argField m 20 4 + m.payload.length ≤ (ps.plan.parts.getD part default).subBytes
    if !fine then discard m s
    else if bufferBusy ps.half m s then { s with host := { s.host with heldSubmits := s.host.heldSubmits ++ [m] } }
    else putSub ps.half m s

/-! ## Windows (R65, R66) -/

/-- The window a message writes to. -/
def bodyWindow : HostMsg → Nat
  | .output w _ _ _ _ _ _ _ _ => w
  | .completion w _ _ _ => w
  | .event w _ _ _ => w
  | .wpush w _ _ _ _ _ _ _ => w

/-- Whether messages made for a window are not acknowledged. Those that wait for credits count: sent later they would lie in the
old registration (R66; DEDUCED, log entry 112). -/
def windowBusy (id : Nat) (s : State) : Bool := s.host.unacked.any (fun m => bodyWindow m.body == id)

def setWindow (w : Window) (s : State) : State :=
  { s with host := { s.host with windows := s.host.windows.filter (fun x => x.id != w.id) ++ [w] } }

/-- Re-registrations whose old messages have all been acknowledged take effect. -/
def applyWindows (s : State) : State :=
  forEach (fun (w : Window) t =>
    if windowBusy w.id t then t
    else setWindow w { t with host := { t.host with winPend := t.host.winPend.filter (fun x => x != w) } }) s.host.winPend s

/-- A WINDOW message in its turn; outside OWNED it is refused as a sheet is (DESIGN CHOICE, log entry 117), and a non-zero
`wpos` is no position that it belongs to (DESIGN CHOICE, log entry 116). -/
def windowIn (m : TppMsg) (s : State) : State :=
  let w : Window := { id := argField m 16 2, cls := argField m 18 1, bytes := argField m 20 4 }
  let fine :=
    headerFine m 0x04 && m.length == 0 && m.wpos == 0 && argsZeroBut m [(16, 3), (20, 4)] && w.id < 256 &&
    (w.cls == 2 || w.cls == 3) && w.bytes % 64 == 0
  if !owned s then refuseOnce (min m.partition.toNat 32) (Pos.step s.wheel.cur) s
  else if !fine then discard m s
  else if windowBusy w.id s then
    { s with host := { s.host with winPend := s.host.winPend.filter (fun x => x.id != w.id) ++ [w] } }
  else setWindow w s

/-! ## Receiving in order (R67 to R69) -/

/-- The units of a message that has come are used (R67); the model takes one that exceeds them too (DESIGN CHOICE, log entry
119). -/
def useCredit (cls units : Nat) (s : State) : State :=
  if cls = 0 then { s with host := { s.host with grant0 := s.host.grant0 - units } }
  else { s with host := { s.host with grant1 := s.host.grant1 - units } }

/-- Units return to the host, up to what the device grants (R67). -/
def freeCredit (cls units : Nat) (s : State) : State :=
  if cls = 0 then { s with host := { s.host with grant0 := min 64 (s.host.grant0 + units) } }
  else { s with host := { s.host with grant1 := min 8192 (s.host.grant1 + units) } }

/-- The CREDIT message by which the device acknowledges a message and returns its units. -/
def giveCredit (cls units : Nat) (s0 : State) : State :=
  let s := freeCredit cls units s0
  send (.credit [s.host.rx0, s.host.rx1, 0, 0] ((List.range 4).map (fun i => if i = cls then units else 0))) s

/-- Hand a message to its consumer. -/
def handOn (m : TppMsg) (s : State) : State :=
  match m.typ.toNat with
  | 0x01 =>
    let fine := headerFine m 0x01 && m.partition.toNat == 0xFF && m.length == 0 && argsZeroBut m [(16, 2)]
    if !fine then discard m s
    else if !owned s then refuseOnce 32 (Pos.step m.wpos) s
    else beatIn m.wpos (BitVec.ofNat 16 (argField m 16 2)) s
  | 0x02 => sheetIn m s
  | 0x03 => submitIn m s
  | 0x04 => windowIn m s
  | _ => discard m s

/-- Take the messages of class 0 that are next in order; `n` bounds their number. -/
def pump0 : Nat → State → State
  | 0, s => s
  | n + 1, s =>
    match s.host.held0.find? (fun m => m.msgSeq == s.host.rx0) with
    | none => s
    | some m =>
      let s1 := { s with host := { s.host with rx0 := s.host.rx0 + 1, held0 := s.host.held0.filter (fun x => x.msgSeq != m.msgSeq) } }
      pump0 n (handOn m (giveCredit 0 (creditUnits m.payload.length) s1))

/-- Take the messages of class 1 that are next in order, and what waited for them (R70). A SUBMIT counts as processed, and is
acknowledged, when it is handed on, though its bytes may wait for their buffer (R68, R105; DESIGN CHOICE, log entry 157). -/
def pump1 : Nat → State → State
  | 0, s => s
  | n + 1, s =>
    match s.host.held1.find? (fun m => m.msgSeq == s.host.rx1) with
    | none => s
    | some m =>
      let s1 := { s with host := { s.host with rx1 := s.host.rx1 + 1, held1 := s.host.held1.filter (fun x => x.msgSeq != m.msgSeq) } }
      let s2 := handOn m (giveCredit 1 (creditUnits m.payload.length) s1)
      pump1 n (unblock s2.wheel.blocked.length s2)

/-- Whether messages of the host arrive: READY, and a streaming module in service (R78). -/
def tppServes (s : State) : Bool := ready s && !(streamModules s).isEmpty

/-- A message of class 0 arrives: in order, ahead of its turn, or a duplicate (R69). With no streaming module none arrives
(R78). -/
def arrive0 (m : TppMsg) (s0 : State) : State :=
  let s := useCredit 0 (creditUnits m.payload.length) s0
  if !tppServes s0 then s0
  else if 32768 ≤ (m.msgSeq - s.host.rx0).toNat then giveCredit 0 (creditUnits m.payload.length) s
  else
    let hs := s.host.held0.filter (fun x => x.msgSeq != m.msgSeq) ++ [m]
    runCores (pump0 hs.length { s with host := { s.host with held0 := hs } })

/-- A message of class 1 arrives (R69). A second copy of one that is held ahead of its turn takes the place of the first, and the units
of the first are not returned (DESIGN CHOICE, log entry 156). -/
def arrive1 (m : TppMsg) (s0 : State) : State :=
  let s := useCredit 1 (creditUnits m.payload.length) s0
  if !tppServes s0 then s0
  else if 32768 ≤ (m.msgSeq - s.host.rx1).toNat then giveCredit 1 (creditUnits m.payload.length) s
  else
    let hs := s.host.held1.filter (fun x => x.msgSeq != m.msgSeq) ++ [m]
    runCores (pump1 hs.length { s with host := { s.host with held1 := hs } })

def execBeat (m : TppMsg) (s : State) : Host.Outcome State Fault Refusal := .next (arrive0 m s)
def execSheet (m : TppMsg) (s : State) : Host.Outcome State Fault Refusal := .next (arrive1 m s)
def execSubmit (m : TppMsg) (s : State) : Host.Outcome State Fault Refusal := .next (arrive1 m s)
def execWindow (m : TppMsg) (s : State) : Host.Outcome State Fault Refusal := .next (arrive1 m s)

/-! ## CREDIT and SYNC -/

/-- Whether a sent message lies before an acknowledged number (R68). -/
def ackedBy (ack : U16) (m : TxMsg) : Bool := m.sent && (ack - m.seq - 1).toNat < 32768

/-- A CREDIT message from the host: acknowledged messages go, their vectors are sent (R63), credits return (R67), and
what waited for either goes on. -/
def creditIn (m : TppMsg) (s : State) : State :=
  let fine := headerFine m 0x09 && m.length == 0
  if !tppServes s then s
  else if !fine then discard m s
  else
    let f (c : Nat) : Nat := argField m (16 + 4 * c) 4
    let acked (x : TxMsg) : Bool :=
      (x.cls == 2 && ackedBy (BitVec.ofNat 16 (f 2)) x) || (x.cls == 3 && ackedBy (BitVec.ofNat 16 (f 3)) x)
    let gone := s.host.unacked.filter acked
    let s1 := { s with host := { s.host with
      unacked := s.host.unacked.filter (fun x => !acked x)
      cred2 := s.host.cred2 + f 2 / 65536
      cred3 := s.host.cred3 + f 3 / 65536 } }
    settleAll (outputsLeft (pumpTx (applyWindows
      (forEach (fun (x : TxMsg) => match x.vector with | some v => sendVector v | none => id) gone s1))))

def execCredit (m : TppMsg) (s : State) : Host.Outcome State Fault Refusal := .next (creditIn m s)

/-- SYNC (R72): numbers and credits start again; unacknowledged messages and incomplete sheets are discarded, and
what waited for class 1 messages waits no more. -/
def syncIn (m : TppMsg) (s : State) : State :=
  if !tppServes s then s
  else if !(headerFine m 0x0A && m.length == 0 && m.args == 0) then discard m s
  else
    let n := s.host.unacked.length
    let s1 := { s with
      host := { s.host with
        rx0 := 0
        rx1 := 0
        held0 := []
        held1 := []
        tx2 := 0
        tx3 := 0
        cred2 := 1024
        cred3 := 2048
        unacked := []
        grant0 := 64
        grant1 := 8192 }
      sheets := { s.sheets with arriving := [] }
      wheel := { s.wheel with blocked := s.wheel.blocked.map (fun b => { b with c1 := 0 }) } }
    settleAll (event .aborted none 0 0 n (unblock s1.wheel.blocked.length (applyWindows (outputsLeft s1))))

def execSync (m : TppMsg) (s : State) : Host.Outcome State Fault Refusal := .next (syncIn m s)

/-! ## Modules (R76 to R79) -/

/-- A module leaves service (R77): its link is down, or it does not join its new group (R39). -/
def moduleDown (n : Nat) (retrainFailed : Bool) (s : State) : State :=
  if !s.host.modules.getLsbD n then s
  else
    let s1 := { s with host := { s.host with
      modules := s.host.modules &&& ~~~(1#48 <<< n), retraining := s.host.retraining &&& ~~~(1#48 <<< n) } }
    let left := if n < cxlSize s then (cxlModules s1).length else (streamModules s1).length
    let s2 := fault .ucieModule (unitModule n) ((if retrainFailed then 1 else 0) + left * 256) none (bump32 0x1200 0x04 s1)
    resendLost (sendVector 259 s2)

/-- A retrained module rejoins its group (R77 to R79), or joins the one it has changed to (R39), on 64 lanes or on the 32 that
could be repaired (R41). Where OD 0x1200:02 changes, vector 259 says so. -/
def moduleUp (n : Nat) (lanes32 : Bool) (s : State) : State :=
  let held := s.power.failedModules.contains n || s.power.test.any (fun t => t.kind == 6 && t.unit == n)
  if 48 ≤ n || moduleServes s n || held then s
  else
    let s1 := { s with host := { s.host with
      modules := s.host.modules ||| (1#48 <<< n)
      retraining := s.host.retraining &&& ~~~(1#48 <<< n)
      degraded := if lanes32 then s.host.degraded ||| (1#48 <<< n) else s.host.degraded &&& ~~~(1#48 <<< n) } }
    let s2 := if s.host.modules.getLsbD n then flushVectors s1 else sendVector 259 s1
    runCores (settleAll (outputsLeft (pumpTx (resendLost s2))))

/-- MCTP runs on the lowest-numbered module whose sideband is in service (R76). -/
def sidebandFails (n : Nat) (s : State) : State :=
  let sb := s.host.sidebands &&& ~~~(1#48 <<< n)
  let best := ((List.range 48).find? (fun i => sb.getLsbD i)).getD 0
  { s with host := { s.host with sidebands := sb, mctpModule := if sb = 0 then s.host.mctpModule else best } }

def execModuleLinkDown (mod : Nat) (retrainFailed : Bool) (s : State) : Host.Outcome State Fault Refusal :=
  .next (moduleDown mod retrainFailed s)
def execModuleRetrain (mod : Nat) (lanes32 : Bool) (s : State) : Host.Outcome State Fault Refusal :=
  .next (moduleUp mod lanes32 s)
def execSidebandFailure (mod : Nat) (s : State) : Host.Outcome State Fault Refusal := .next (sidebandFails mod s)

end Sys2Proof.Machine
end

