-- ==== Sys2Proof/Machine/Reset.lean ====
section
/-! DEFINITION. Resets (R467), boot (R460 to R463), the kiln's save and start-up after it (R473 to R483, R534), the end of a
release step (R441), and update and recovery (R464 to R466). -/

namespace Sys2Proof.Machine

/-! ## What a reset keeps -/

/-- What a warm reset keeps of the dictionary: counts whose name says since cold reset (R21), the straps, which only a cold reset samples
again (R536), and the digest of the repair record, which it does not apply anew (R463, R467). -/
def keptCounts : List (Nat × Nat) :=
  [(0x1100, 0x02), (0x1200, 0x04), (0x9000, 0x09), (0x9030, 0x03), (0xB010, 0x05), (0xB010, 0x06), (0xD000, 0x06), (0xD010, 0x03)] ++
  (List.range 48).map (fun n => (0x7120 + n, 0x0C))

def keptOd (s : State) : List (Nat × Nat) :=
  s.od.filter (fun e => keptCounts.any (fun c => e.1 == odKey c.1 c.2))

/-- A shelf across a reset: its maps lie in meadow and its tail in the kiln domain; what its flash holds is discovered again, and a key
that it is still to trim stays so. -/
def resetShelf (x : Shelf) : Shelf := { no := x.no, trims := x.trims }

/-- The prefix log across a reset: the records that are on flash, and the units that hold them. -/
def resetLog (p : PfxStore) : PfxStore :=
  let kept (g : LogUnit) : LogUnit := { g with recs := g.recs.filter (fun r => p.log.any (fun x => x.recNo == r.recNo)) }
  { log := p.log, nextRec := p.nextRec, logUnits := (p.logUnits.map kept).filter (fun g => !g.recs.isEmpty) }

/-- The kiln store across a reset: MRAM's content and the save number that it carries. -/
def resetKiln (k : Kiln) : Kiln := { save := k.save, reserve := k.reserve, saveNo := k.saveNo }

/-- What outlives every reset, with the objects `kept`: NOR, MRAM, heath, and the model's own queue, clock and outputs. -/
def resetState (kept : List (Nat × Nat)) (s : State) : State :=
  { State.reset with
    od := kept
    pending := s.pending, now := s.now, fresh := s.fresh, tx := s.tx
    shelves := s.shelves.map resetShelf
    pfx := resetLog s.pfx
    log := { ring := s.log.ring, head := s.log.head, oldest := s.log.oldest }
    power := { nor := s.power.nor, resetAt := s.now, kiln := resetKiln s.power.kiln } }

/-- Warm reset (R467, R21, R508): keeps the identity, the repair record applied, units out of service, the counts since cold
reset, the log tail, and a change of stored values on its way to NOR. -/
def warmReset (s : State) : State :=
  let t := resetState (keptOd s) s
  { t with
    sec := { t.sec with
      identity := s.sec.identity, pufRoot := s.sec.pufRoot, unitId := s.sec.unitId }
    log := { t.log with tail := s.log.tail, windows := s.log.windows, droppedSince := s.log.droppedSince }
    objs := { t.objs with stacksUp := s.objs.stacksUp }
    host := { t.host with
      modules := s.power.failedModules.foldl (fun m n => m &&& ~~~(1#48 <<< n)) t.host.modules, degraded := s.host.degraded }
    links := { t.links with ports := s.links.ports.map (fun p => { failed := p.failed }) }
    power := { t.power with
      warm := true, bootCause := 2, coreMap := s.power.coreMap, ucieRepair := s.power.ucieRepair, hbmRepair := s.power.hbmRepair, coresOut := s.power.coresOut
      vddSet := s.power.vddApplied, vddApplied := s.power.vddApplied
      failedCores := s.power.failedCores, failedCaches := s.power.failedCaches, failedCtrls := s.power.failedCtrls
      failedModules := s.power.failedModules } }

/-- Boot cause of OD 0xC000:02. -/
def causeCode : ColdCause → Nat
  | .powerOn => 0
  | .rstN => 1
  | .recoveryImage => 4

/-- Whether a state holds what a loss of power loses (R481). -/
def inService (s : State) : Bool := s.power.dev == .ready || s.power.dev == .saving || s.power.dev == .saved

/-- Cold reset (R467): everything; the log tail in the kiln domain goes unless a save holds it, and a change of stored
values not yet in NOR is lost. Without a valid trailer there is no save (R478). -/
def doCold (cause : ColdCause) (s : State) : State :=
  let t := resetState [] s
  let save := s.power.kiln.save.filter (fun v => v.trailer)
  { t with
    log := { t.log with head := (s.log.tail.head?.map (fun r => r.slot)).getD s.log.head }
    power := { t.power with
      bootCause := causeCode cause
      nor := { s.power.nor with dirty := none }
      unplanned := s.power.unplanned || (cause == .powerOn && save.isNone && inService s)
      kiln := { t.power.kiln with save := save } } }

/-- COLD_RESET. RST_N during a save takes effect when the save ends (R534). -/
def coldReset (cause : ColdCause) (s : State) : State :=
  match cause with
  | .rstN =>
    if s.power.dev == .saving then { s with power := { s.power with resetHeld := true } } else doCold .rstN s
  | .powerOn => doCold .powerOn s
  | .recoveryImage =>
    if s.power.dev == .recovery && s.power.nor.slotValid then doCold .recoveryImage s else s

def execColdReset (cause : ColdCause) (s : State) : Host.Outcome State Fault Refusal := .next (coldReset cause s)

/-- Ask for a warm reset (R443, R467): an owned device releases first, steps 1 to 6. -/
def requestWarm (s : State) : State :=
  let held : State := { s with sec := { s.sec with releaseThenReset := true } }
  match s.sec.tenancy with
  | .owned => startRelease held
  | .releasing => held
  | _ => warmReset s

/-- RELEASE_STEP_END (R441): the next step starts, or the release is complete. -/
def releaseStepEnd (s : State) : State :=
  if s.sec.tenancy != .releasing || s.sec.releaseStep = 0 || !stepOver s then s
  else if s.sec.releaseStep = 7 then released s
  else if s.sec.releaseStep = 6 && s.sec.releaseThenReset then warmReset s
  else releaseStep (s.sec.releaseStep + 1) s

def execReleaseStepEnd (s : State) : Host.Outcome State Fault Refusal := .next (releaseStepEnd s)

/-- MGP_FAULT (R456): FLT_MGP enters the tail, and a warm reset follows. -/
def mgpFault (address : Nat) (s : State) : State :=
  if s.sec.rtp != .run || s.power.dev == .saving || s.power.dev == .saved then s
  else requestWarm (fault .mgp unitMgp address none s)

def execMgpFault (address : U32) (s : State) : Host.Outcome State Fault Refusal := .next (mgpFault address.toNat s)

/-! ## Partition reset (R467) -/

/-- Started commands that act on partition `p`, on whatever queue, end with ST_ABORTED (R59, R467); those of jobs end with them. -/
def abortActing (p : Nat) (s : State) : State :=
  let mine := s.queues.cmds.filter (fun c => c.part == p && (match c.work with | .job _ => false | _ => true))
  forEach (fun c => finishCmd c .aborted 0) mine s

/-- Partition `p`'s jobs, commands and sheets end, its queues and event ring start afresh, its pairs go into error. -/
def partitionReset (p : Nat) (s : State) : State :=
  let s0 : State := { s with sheets := { s.sheets with
    arriving := s.sheets.arriving.filter (fun h => h.partition != p)
    admitted := s.sheets.admitted.filter (fun h => h.partition != p) } }
  let s1 := forEach (fun (j : Job) t =>
    if j.part != p then t else match findJob t j.id with | some x => endJobError x .aborted t | none => t) s0.jobs.jobs s0
  let s2 := forEach abortQueue ((List.range 4).map (fun q => QRef.part p q)) (abortActing p s1)
  let s3 := flushEvents p 256 (setEvRing p { evRing s2 p with written := 0, head := 0 } s2)
  runCores (settleAll (resetPartPairs p s3))

/-! ## The kiln (R474 to R482) -/

/-- Bits of FLT_KILN_NOT_ARMED. -/
def unarmedBits (k : Kiln) : Nat :=
  (if k.vinMv < 11400 then 1 else 0) + (if k.mramOk then 0 else 2) + (if k.held then 4 else 0)

/-- A device whose kiln is not armed records it (R474). -/
def checkArmed (s : State) : State :=
  if kilnArmed s then s else faultEvent .kilnNotArmed unitKiln (unarmedBits s.power.kiln) none .ok 0 s

/-- SUPPLY_SAG (R475, R476): admission stops; jobs, commands and work requests are abandoned with no completion, what is
held for the host is lost; heath gates open; the admin event leaves while a streaming module is in service. -/
def sagStart (cause : SagCause) (vin : Nat) (s : State) : State :=
  let k := s.power.kiln
  let detail := SagCause.code cause + vin * 2 ^ 16
  let s1 := fault .supplySag unitKiln detail none s
  let s3 := forEach (fun n => setMask n 0xF) ((List.range 16).map (fun h => 32 + h)) s1
  let s4 := if s.power.test.isSome then odSet 0xB010 0x01 (od s 0xB010 0x01 / 256 * 256 + 4) s3 else s3
  let gone : State := { s4 with
    power := { s3.power with
      dev := .saving, test := none
      kiln := { k with vinMv := vin, sag := some { t0 := s.now, cause := cause, vinMv := vin } } }
    jobs := { s3.jobs with jobs := [], leaving := [], slices := [], halves := [] }
    queues := { s3.queues with qs := List.replicate 129 {}, cmds := [] }
    peer := { s3.peer with qps := s3.peer.qps.map (fun q => { q with waiting := [], started := [] }), heldPkts := [] }
    objs := { s3.objs with moves := [], heldWrites := [], bring := [] }
    wheel := { s3.wheel with held := [], blocked := [] }
    sheets := {}
    host := { s3.host with retraining := 0, unacked := [], held0 := [], held1 := [], heldSubmits := [], vectorsHeld := [], cxlWaiting := [] } }
  if (streamModules gone).isEmpty then gone else event .aborted none FaultCode.supplySag.num unitKiln 0 gone

/-- A sag before step 7 of the boot (R483): only the fault log tail is saved, and the device waits as in SAVED. -/
def sagEarly (cause : SagCause) (vin : Nat) (s : State) : State :=
  let s1 := fault .supplySag unitKiln (SagCause.code cause + vin * 2 ^ 16) none s
  { s1 with power := { s1.power with
      dev := .saved, needsBoot := false, kiln := { s1.power.kiln with vinMv := vin, reserve := s1.log.tail } } }

/-- A droop is a sag below OD 0xC030:03 only. -/
def supplySag (cause : SagCause) (vin : Nat) (s : State) : State :=
  if cause == .vinDroop && od s 0xC030 0x03 ≤ vin then s
  else
    match s.power.dev with
    | .ready => sagStart cause vin s
    | .rom => sagEarly cause vin s
    | .booting => sagEarly cause vin s
    | .recovery => sagEarly cause vin s
    | _ => s

def execSupplySag (cause : SagCause) (vinMv : Nat) (s : State) : Host.Outcome State Fault Refusal :=
  .next (supplySag cause vinMv s)

/-- Bytes that a save writes (R477): whole sections, but only the occupied bytes of shelf tails and ring. -/
def saveBytes (tails : List (List JRec)) (ring : List RingEntry) : Nat :=
  4096 + 32 * sumBy (fun t => t.length) tails + 65536 + sumBy (fun e => e.bytes) ring + 65536 + 4096

/-- Whether the save ring holds an item whole: the bytes of a column that is still being copied are removed from it, since the column
stays in state 1 and is lost with meadow (R283, R476). -/
def ringWhole (ring : List RingEntry) (e : RingEntry) : Bool :=
  match e.item with
  | .data k _ _ => ring.any (fun x => match x.item with | .publish j _ => j == k | _ => false)
  | .cls k _ _ => ring.any (fun x => match x.item with | .publish j _ => j == k | _ => false)
  | _ => true

/-- The state block before encryption (R479). -/
def stateBlock (k : KilnSave) : Bytes :=
  recordOf [(8, k.saveNo), (8, k.wpos.toNat), (8, k.timeNs), (1, k.tenancy.code),
    (1, match k.cause with | .pwrWarn => 0 | .vinDroop => 1 | .thermalTrip => 2), (2, k.vinMv), (4, k.heathKeyId)] ++
    List.replicate 4064 0

/-- A kiln section as written: 4 KiB data units under the device heath key's XTS pair, tweaked by their MRAM offset (R478). -/
def sealSection (key : Bytes) (off : Nat) (bs : Bytes) : Bytes :=
  (List.range (ceilDiv bs.length 4096)).flatMap (fun i =>
    Config.xtsEnc (BitVec.ofNat 512 (leNat (key.take 64))) (BitVec.ofNat 128 (off / 4096 + i))
      ((bs.drop (4096 * i)).take 4096))

/-- The trailer over sections 1 to 5 as written (R478); the widths of its fields are the model's (DESIGN CHOICE, log entry 138). -/
def trailerBytes (key : Bytes) (saveNo : Nat) (sections : List Bytes) : Bytes :=
  let b := recordOf [(4, 0x4E4C494B), (8, saveNo)] ++ sections.flatMap (fun x => natLe 4 x.length) ++
    digestBytes (Config.sha256 sections.flatten) 32
  b ++ digestBytes (Config.hmac (key.drop 64) b) 16

/-- The 32 bytes of a withdrawal in the reference-count tail, whose layout the spec does not give: a free value (log entry 138). -/
def rcTailBytes (r : LogRec) : Bytes := natLe 32 (Config.free 256 (2 ^ 65 + r.target)).toNat

/-- Sections 1 to 5 of a save as written (R477, R478): each at its MRAM offset, of tails and ring only the occupied bytes, the ring's
pages as they stand. -/
def saveImage (key : Bytes) (v : KilnSave) : List (Nat × Bytes) :=
  let sealed (off : Nat) (bs : Bytes) : Nat × Bytes := (off, sealSection key off bs)
  [sealed 0 (stateBlock v)] ++
  v.tails.mapIdx (fun h t => sealed (0x1000 + 32768 * h) (t.flatMap jrecBytes)) ++
  [sealed 0x81000 (fit 65536 (v.rcTail.flatMap rcTailBytes)),
   (0x91000, v.pages.flatMap (fun l => l.flatMap (fun x => x.2.data))),
   sealed 0x491000 (fit 65536 (v.logTail.flatMap (recBytes false)))]

/-- A save with its trailer, over the sections as written (R478): the shelves' tails are one section. -/
def withTrailer (key : Bytes) (micros : Nat) (v : KilnSave) : KilnSave :=
  let part (lo hi : Nat) : Bytes := (v.image.filter (fun x => decide (lo ≤ x.1) && decide (x.1 < hi))).flatMap (fun x => x.2)
  let parts := [part 0 0x1000, part 0x1000 0x81000, part 0x81000 0x91000, part 0x91000 0x491000, part 0x491000 0x4A1000]
  { v with trailer := true, micros := micros, image := v.image ++ [(0x4A1000, fit 4096 (trailerBytes key v.saveNo parts))] }

/-- The key of the kiln store: the device heath key (R424, R478). -/
def kilnKey (s : State) : Bytes := deviceHeathKey (s.sec.pufRoot.getD 0)

/-- KILN_ISOLATION: the kiln domain stands alone; everything else is lost, and the save starts: the whole store, or the
reserve area while a save is held (R482). -/
def isolate (s : State) : State :=
  match s.power.kiln.sag with
  | none => s
  | some g =>
    if s.power.dev != .saving || g.isolated then s
    else
      let k := s.power.kiln
      let tails := s.shelves.map (fun x => x.tail)
      let ring := s.pfx.ring.filter (ringWhole s.pfx.ring)
      let save : KilnSave :=
        { saveNo := k.saveNo + 1, wpos := s.wheel.cur, timeNs := g.t0, tenancy := s.sec.tenancy, cause := g.cause,
          vinMv := g.vinMv, heathKeyId := s.sec.heathKeyId, tails := tails, pages := s.shelves.map (fun x => x.sealed), rcTail := s.pfx.rcTail, ring := ring,
          logTail := s.log.tail, bytes := saveBytes tails ring, trailer := false }
      let k1 : Kiln :=
        if k.held then { k with sag := some { g with isolated := true, partialSave := true }, reserve := s.log.tail }
        else if k.mramOk then
          { k with
            sag := some { g with isolated := true }
            save := some { save with image := saveImage (kilnKey s) save }, saveNo := k.saveNo + 1 }
        else { k with sag := some { g with isolated := true } }
      { s with
        power := { s.power with kiln := k1 }
        shelves := s.shelves.map (fun x => { x with ops := [], waiting := [] })
        peer := {}
        links := { s.links with ports := s.links.ports.map (fun p => { failed := p.failed }) } }

def execKilnIsolation (s : State) : Host.Outcome State Fault Refusal := .next (isolate s)

/-- SAVE_END (R477, R478): the trailer is written; RST_N asserted meanwhile takes effect (R534). -/
def saveEnd (micros : Nat) (s : State) : State :=
  match s.power.kiln.sag with
  | none => s
  | some g =>
    if s.power.dev != .saving || !g.isolated then s
    else
      let k := s.power.kiln
      let k1 : Kiln :=
        if g.partialSave then k
        else
          { k with
            save := k.save.map (withTrailer (kilnKey s) micros)
            lastNo := k.saveNo, lastMicros := micros, lastBytes := (k.save.map (fun v => v.bytes)).getD 0 }
      let s1 : State := { s with power := { s.power with dev := .saved, kiln := k1 } }
      if s.power.resetHeld then doCold .rstN s1 else s1

def execSaveEnd (micros : Nat) (s : State) : Host.Outcome State Fault Refusal := .next (saveEnd micros s)

/-- OD 0xC030:08 (R482): a held save is discarded with one event. -/
def discardSave (s : State) : State :=
  if !s.power.kiln.held then s
  else
    event .media none 0 0 0 { s with
      pfx := { s.pfx with ring := [] }
      shelves := s.shelves.map (fun x => { x with sealed := [] })
      power := { s.power with kiln := { s.power.kiln with held := false, save := none } } }

/-! ## Boot (R460) -/

/-- Logical cores that repair analysis maps: passing physical cores of each cluster in ascending order (R463). -/
def analysisMap (passing : List Bool) : List Nat :=
  (List.range 96).map (fun n =>
    let c := n / 4
    let good := ((List.range 5).map (fun i => 5 * c + i)).filter (fun k => passing.getD k false)
    good.getD (n % 4) 255)

/-- Logical cores that a repair record maps: physical core 0 to 4 of the cluster, or none. -/
def recordMap (core : List Nat) : List Nat :=
  (List.range 96).map (fun n => if core.getD n 255 < 5 then 5 * (n / 4) + core.getD n 255 else 255)

/-- Detail of FLT_REPAIR_RECORD. -/
def repairCause (s : State) : RepairState → Option Nat
  | .missing => some 0
  | .badSignature => some 1
  | .unitMismatch => if s.sec.identity.isNone then some 3 else some 2
  | .valid => if s.sec.identity.isNone then some 3 else none

/-- Step 1: the PUF root and the identity (R424, R425). -/
def bootIdentity (w : BootWorld) (s : State) : State :=
  if w.pufOk then
    { s with sec := { s.sec with
        identity := some w.identityKey
        pufRoot := some w.pufRoot
        unitId := BitVec.ofNat 128 (leNat (digestBytes (Config.sha256 w.identityKey) 16)) } }
  else fault .puf unitRtp 0 none s

/-- Modules that repair could not bring to 64 lanes (R41). -/
def bootModules (w : BootWorld) (s : State) : State := { s with host := { s.host with degraded := w.lanes32 } }

/-- Bytes 0 to 2,527 of a repair record (R463). -/
def repairRecord (vdd : Nat) (unit : BitVec 128) (map : List Nat) (ucie hbm : Bytes) : Bytes :=
  let pad (b : Bytes) (n : Nat) : Bytes := (b ++ List.replicate n 0).take n
  natLe 4 0x52504552 ++ natLe 2 1 ++ natLe 2 vdd ++ natLe 16 unit.toNat ++ List.replicate 40 0 ++
    pad (map.map (fun k => BitVec.ofNat 8 (if k = 255 then 255 else k % 5))) 96 ++ pad ucie 768 ++ pad hbm 1536 ++ List.replicate 64 0

/-- Step 3: the repair record, or analysis in its place, whose record has `unit` zero and 800 mV (R463). -/
def bootRepair (w : BootWorld) (s : State) : State :=
  let s0 := bootModules w s
  let s1 : State := { s0 with power := { s0.power with ucieRepair := w.ucieRepair, hbmRepair := w.hbmRepair } }
  match repairCause s w.repair with
  | none =>
    let s2 := odSet 0x9030 0x03 (leNat (digestBytes w.repairDigest 32)) s1
    { s2 with power := { s2.power with coreMap := recordMap w.coreMap, vddSet := w.vddMv, vddApplied := w.vddMv } }
  | some d =>
    let map := analysisMap w.passing
    let digest := Config.sha256 (repairRecord 800 0 map w.ucieRepair w.hbmRepair)
    let s2 := fault .repairRecord unitDevice d none (odSet 0x9030 0x03 (leNat (digestBytes digest 32)) s1)
    { s2 with power := { s2.power with coreMap := map, vddSet := 800, vddApplied := 800 } }

/-- The valid copy of the stored values with the higher count (R458). -/
def storedCopy (n : Nor) : Option (List (Nat × Nat)) :=
  match n.copyA, n.copyB with
  | some a, some b => some (if a.1 < b.1 then b.2 else a.2)
  | some a, none => some a.2
  | none, some b => some b.2
  | none, none => none

/-- Step 6: stored values over the defaults. A warm boot finds what was on its way to NOR written. -/
def bootValues (s : State) : State :=
  match s.power.nor.dirty with
  | some l => bindAll l s
  | none =>
    match storedCopy s.power.nor with
    | some l => bindAll l s
    | none => fault .storedValues unitDevice 0 none s

/-- A restored ring item names its column under a slot that none has. -/
def restoredItem (e : RingEntry) : RingEntry :=
  match e.item with
  | .data k l n => { e with item := .data (k + 2 ^ 28) l n }
  | .publish k r => { e with item := .publish (k + 2 ^ 28) r }
  | .cls k l n => { e with item := .cls (k + 2 ^ 28) l n }
  | .withdraw r => { e with item := .withdraw r }

/-- Put records of a saved tail into the NOR ring (R481, R483): at the head, in order. -/
def appendLog (l : List FaultRec) (s : State) : State :=
  forEach (fun (r : FaultRec) t =>
    let g := advanceHead t.log
    { t with log := { g with ring := g.ring ++ [{ r with slot := t.log.head }] } }) l s

/-- What a save holds for a shelf: its tail, its sealed pages, and where the release had not ended its key to trim (R443, R481). -/
def savedShelf (v : KilnSave) (h : Nat) (x : Shelf) : Shelf :=
  { x with
    tail := v.tails.getD h [], sealed := v.pages.getD h []
    trims := if v.tenancy == .releasing && v.heathKeyId != 0 then [v.heathKeyId] else x.trims }

/-- Step 7: the kiln store (R481 to R483). OD 0xC030:04 to :06 show the save that start-up reads (DEDUCED, log entry 132). -/
def bootKiln (w : BootWorld) (s : State) : State :=
  let k := s.power.kiln
  let s0 := appendLog k.reserve s
  let s1 : State := { s0 with power := { s0.power with kiln := { k with vinMv := w.kilnVinMv, mramOk := w.mramOk, reserve := [] } } }
  match k.save with
  | none =>
    if s.power.unplanned then faultEvent .kilnIncomplete unitKiln 0 none .media 0 s1 else s1
  | some v =>
    let s2 := appendLog v.logTail s1
    let back := v.rcTail.map (fun r => ({ item := .withdraw r, bytes := 128 } : RingEntry))
    let k2 : Kiln := { s2.power.kiln with
      held := true, save := some { v with logTail := [] }, lastNo := v.saveNo, lastMicros := v.micros, lastBytes := v.bytes }
    consumeSave { s2 with
      wheel := { s2.wheel with cur := v.wpos, floor := v.wpos, fresh := true }
      pfx := { s2.pfx with ring := v.ring.map restoredItem ++ back }
      shelves := (List.range 16).map (fun h => savedShelf v h (shelfOf s2 h))
      power := { s2.power with kiln := k2, bootCause := 3 } }

/-- Steps 4 to 8 once an image runs. -/
def bootRun (w : BootWorld) (s : State) : State :=
  let s1 := bootValues (odSet 0x1000 0x05 w.fwVersion.toNat (odSet 0x9030 0x02 (leNat (digestBytes w.imageDigest 32)) s))
  let s2 : State := { s1 with
    sec := { s1.sec with rtp := .run }
    power := { s1.power with pinRate := od s1 0xC000 0x0A, needsBoot := false } }
  let s3 := bootKiln w (newMeadowKeys s2)
  let s4 := odSet 0xC000 0x03 ((s.now - s.power.resetAt) / 1000 % 2 ^ 32) s3
  let s5 := forEach (fun n => editPort n (fun p => if p.failed then p else { p with state := 1, step := 1, stepAt := s.now }))
    (List.range 48) { s4 with power := { s4.power with dev := .ready, unplanned := false, tailsLost := s4.power.unplanned } }
  let s6 := event .ok none 0 0 0 (laserCheck w.wavelengths s5)
  let blank := s.power.nor.dirty.isNone && (storedCopy s.power.nor).isNone
  let s7 := if blank then event .media none FaultCode.storedValues.num unitDevice 0 s6 else s6
  checkArmed s7

/-- BOOT (R460): an image that is not valid leads to recovery (R462). -/
def boot (w : BootWorld) (s : State) : State :=
  if !s.power.needsBoot then s
  else
    let s1 := if s.power.warm then s else bootIdentity w s
    let s1 : State := { s1 with host := { s1.host with eid := w.eid } }
    let s2 := if s.power.warm then s1 else odSet 0x1100 0x02 w.nodeSel s1
    let imageOk := w.imageOk && s.power.nor.slotValid
    let s3 : State := { s2 with power := { s2.power with
      nor := { s2.power.nor with slotValid := imageOk, slotVersion := w.fwVersion, chain := w.chain } } }
    if !imageOk then
      let s4 := bootValues s3
      { s4 with
        sec := { s4.sec with rtp := .recovery }
        power := { s4.power with dev := .recovery, needsBoot := false } }
    else bootRun w (if s.power.warm then s3 else bootRepair w s3)

def execBoot (w : BootWorld) (s : State) : Host.Outcome State Fault Refusal := .next (boot w s)

/-! ## Update and recovery (R461, R464 to R466) -/

/-- The fields of an image that can be read off its bytes (R461). -/
def imageFields (b : Bytes) : Bool :=
  fieldAt b 0 4 == 0x46324854 && fieldAt b 4 2 == 1 && fieldAt b 6 2 == 64 && fieldAt b 8 4 == b.length &&
  b.length ≤ 16777216 && fieldAt b 8 4 == 64 + fieldAt b 16 4 + 7856 && fieldAt b 20 4 == 0 && fieldAt b 56 8 == 0

/-- Whether an update is being verified or programmed. -/
def updating (s : State) : Bool := od s 0xC040 0x02 == 3

/-- The last block of an image has come: a valid one is programmed into the slot, which is erased first; any other leaves
the state failed. -/
def updateWhole (image : Bytes) (sigOk : Bool) (s : State) : State :=
  if imageFields image && sigOk then
    let s1 := odSet 0xC040 0x03 0 (odSet 0xC040 0x02 3 s)
    { s1 with power := { s1.power with update := image, nor := { s1.power.nor with slotValid := false } } }
  else odSet 0xC040 0x03 Status.badDescriptor.code (odSet 0xC040 0x02 5 s)

/-- SLOT_PROGRAMMED (R464, R465). -/
def slotProgrammed (ok : Bool) (s : State) : State :=
  if !updating s || s.power.dev == .saved then s
  else if ok then
    let v := fieldAt s.power.update 12 4
    let s1 := odSet 0xC040 0x04 v (odSet 0xC040 0x02 4 s)
    { s1 with power := { s1.power with
        update := [], nor := { s1.power.nor with slotValid := true, slotVersion := BitVec.ofNat 32 v } } }
  else
    let s1 := odSet 0xC040 0x03 Status.media.code (odSet 0xC040 0x02 5 s)
    { s1 with power := { s1.power with update := [] } }

def execSlotProgrammed (ok : Bool) (s : State) : Host.Outcome State Fault Refusal := .next (slotProgrammed ok s)

/-- The last block of an image in recovery (R466): a valid image starts a cold boot. -/
def recoveryWhole (image : Bytes) (sigOk : Bool) (s : State) : State :=
  if imageFields image && sigOk then
    doCold .recoveryImage { s with power := { s.power with
      nor := { s.power.nor with slotValid := true, slotVersion := BitVec.ofNat 32 (fieldAt image 12 4) } } }
  else s

end Sys2Proof.Machine
end

