-- ==== Sys2Proof/Machine/SelfTest.lean ====
section
/-! DEFINITION. Self-test (R503 to R508), a core that fails (R235), the TRIG input (R507) and the link test (R509, R510). -/

namespace Sys2Proof.Machine

/-! ## Starting a test -/

/-- Fields of a test request (R506). -/
def testKind (v : Nat) : Nat := bitsOf v 55 48
def testUnit (v : Nat) : Nat := bitsOf v 47 32

/-- Units of a kind (R503). -/
def unitsOfKind (k : Nat) : Nat :=
  match k with
  | 1 => 120
  | 2 => 24
  | 3 => 24
  | 4 => 32
  | 5 => 16
  | 6 => 48
  | 7 => 1
  | 8 => 1
  | 9 => 1
  | _ => 0

/-- A request in range, reserved fields zero. -/
def testFormed (v : Nat) : Bool := v / 2 ^ 56 == 0 && v % 2 ^ 32 == 0 && testUnit v < unitsOfKind (testKind v)

/-- Plans in a slot. -/
def slotPlans (s : State) : List Plan := (s.wheel.active.toList ++ (s.wheel.next.bind (fun n => n.slot)).toList).map (fun p => p.plan)

/-- Whether a plan in a slot names a logical core in a partition's mask. -/
def planNamesCore (s : State) (n : Nat) : Bool := (slotPlans s).any (fun p => p.parts.any (fun r => bitOf r.cores n))

/-- Whether a kind of test may run on a unit now (R503). -/
def testAllowed (s : State) (kind unit : Nat) : Bool :=
  let unowned := s.sec.tenancy == .unowned
  match kind with
  | 1 => ((List.range 96).filter (fun n => physOf s n == unit)).all (fun n =>
      !planNamesCore s n && !coreHasItem s n)
  | 4 => s.pasture.leases.all (fun l => l.port != unit)
  | 6 =>
    if unit < cxlSize s then unowned
    else
      let left := (streamModules s).filter (fun m => m != unit)
      (slotPlans s).all (fun p => p.streamModules ≤ left.length)
  | 7 => true
  | _ => unowned

/-- The unit ID of a block under test (R514). -/
def testUnitId (kind unit : Nat) : Nat :=
  match kind with
  | 1 => unitPhysCore unit
  | 2 => unitCluster unit
  | 3 => unitCluster unit
  | 4 => unitPeerPort unit
  | 5 => unitHeathPort unit
  | 6 => unitModule unit
  | 7 => unitMgmtSram
  | 8 => unitRtp
  | _ => unitKiln

/-- A port leaves service and stays down, without bring-up. -/
def holdPort (n : Nat) (s : State) : State :=
  editPort n (fun p => { p with state := 0, step := 0, secret := none }) (portDown n s)

/-- Bring-up of a port starts (R395). -/
def startPort (n : Nat) (s : State) : State :=
  editPort n (fun p => if p.failed then p else { p with state := 1, step := 1, stepAt := s.now }) s

/-- Jobs and blocks on a core that leaves service end with ST_ABORTED (R235, R255; log entry 36). -/
def loseCore (n : Nat) (s : State) : State :=
  let coding := s.queues.cmds.filter (fun c => match c.work with | .coding k => k.busy.any (fun b => b.1 == n) | _ => false)
  let s1 := forEach (fun c => complete c .aborted 0) coding s
  let lost := s1.jobs.jobs.filter (fun j => j.items.any (fun i => i.core == n && i.state != .done))
  forEach (fun (j : Job) t => match findJob t j.id with | some x => endJobError x .aborted t | none => t) lost s1

/-- The block leaves service (R504, step 1). -/
def takeOut (kind unit : Nat) (s : State) : State :=
  match kind with
  | 1 => runCores (forEach loseCore ((List.range 96).filter (fun n => physOf s n == unit)) s)
  | 4 => holdPort unit s
  | 5 => holdPort (32 + unit) s
  | 6 => moduleDown unit false s
  | _ => s

/-- What OD 0xB010:01 shows of the last test. -/
def testRecord (kind unit state : Nat) : Nat := kind * 2 ^ 48 + unit * 2 ^ 32 + state

/-- Start the test of a request (R504 to R506): the status, and the state after it. -/
def startTest (v : Nat) (s : State) : Status × State :=
  let k := testKind v
  let u := testUnit v
  if !testFormed v then (.badDescriptor, s)
  else if s.power.test.isSome || s.power.linkTest.any (fun n => (k == 4 && n == u) || (k == 5 && n == 32 + u)) ||
      !testAllowed s k u then (.conflict, s)
  else
    let s1 := takeOut k u { s with power := { s.power with test := some { kind := k, unit := u, since := s.now } } }
    (.ok, bump32 0xB010 0x05 (odSet 0xB010 0x01 (testRecord k u 1) s1))

/-- A falling edge on TRIG (R507): ignored unless claimed as BIST start input. -/
def trigEdge (s : State) : State :=
  if od s 0xB000 0x02 != 1 || !ready s then s
  else
    match startTest (od s 0xB000 0x03) s with
    | (.ok, t) => t
    | _ => bump32 0xB000 0x04 s

def execTrigEdge (s : State) : Host.Outcome State Fault Refusal := .next (trigEdge s)

/-! ## The end of a test -/

/-- CORE_FAILURE (R235). -/
def coreFails (n : Nat) (s : State) : State :=
  if !coreUp s n || !ready s then s
  else
    let s1 : State := { s with power := { s.power with failedCores := s.power.failedCores ++ [physOf s n] } }
    runCores (loseCore n s1)

def execCoreFailure (core : Nat) (s : State) : Host.Outcome State Fault Refusal := .next (coreFails core s)

/-- A shelf whose maps meadow has lost rebuilds them before it serves again (R508): at once, or when its port returns. -/
def reMap (h : Nat) (s : State) : State :=
  match (shelfOf s h).state with
  | 0 => s
  | 6 => s
  | 5 => setShelf h (bareShelf (shelfOf s h)) s
  | _ => discoverShelf h s

/-- A cluster cache or memory controller failed (R508): its cores and its stack leave service, meadow is laid out again
and zero-written under new keys, and the shelves rebuild their maps. -/
def loseCluster (c : Nat) (s : State) : State :=
  let s1 := newMeadowKeys (memClear { s with
    power := { s.power with coresOut := (s.power.coresOut ++ [4 * c, 4 * c + 1, 4 * c + 2, 4 * c + 3]).dedup }
    objs := { s.objs with stacksUp := s.objs.stacksUp &&& ~~~(1#24 <<< c) } })
  forEach reMap (List.range 16) s1

/-- The stores of a port are written with zeros: its egress queues and its parking buffer. -/
def emptyPort (n : Nat) (s : State) : State :=
  editPort n (fun p => { p with queues := [], lastFinish := [] })
    { s with peer := { s.peer with parked := s.peer.parked.filter (fun x => x.1 != n) } }

/-- The stores of a core are written with zeros: its weight slices, and copies of provisional tails in it. -/
def emptyCore (unit : Nat) (s : State) : State :=
  { s with
    jobs := { s.jobs with halves := s.jobs.halves.filter (fun w => physOf s w.core != unit) }
    kv := { s.kv with seqs := s.kv.seqs.map (fun q => { q with prov := q.prov.map (fun t =>
      { t with copies := t.copies.filter (fun e => physOf s e.1 != unit) }) }) } }

/-- What a passed test does with its block: its stores are written with zeros, and it returns to service (R504, step 4). -/
def testPassed (kind unit : Nat) (s : State) : State :=
  match kind with
  | 1 => emptyCore unit s
  | 2 => { s with jobs := { s.jobs with
      slices := s.jobs.slices.filter (fun x => x.cluster != unit), lines := s.jobs.lines.filter (fun l => l.1 != unit) } }
  | 4 => startPort unit (emptyPort unit s)
  | 5 => startPort (32 + unit) (emptyPort (32 + unit) s)
  | 6 => moduleUp unit (s.host.degraded.getLsbD unit) s
  | 9 => { s with
      pfx := { s.pfx with ring := [], rcTail := [] }
      shelves := s.shelves.map (fun x => flushChanges x.changes.length { x with tail := [], sealed := [] }) }
  | _ => s

/-- What a failed test leaves (R508). The address that FLT_MGP gives for the management SRAM is a free value. -/
def testFailed (kind unit : Nat) (s : State) : State :=
  match kind with
  | 1 => { s with power := { s.power with failedCores := s.power.failedCores ++ [unit] } }
  | 2 => loseCluster unit { s with power := { s.power with failedCaches := s.power.failedCaches ++ [unit] } }
  | 3 => loseCluster unit { s with power := { s.power with failedCtrls := s.power.failedCtrls ++ [unit] } }
  | 4 => editPort unit (fun p => { p with failed := true }) s
  | 5 => editPort (32 + unit) (fun p => { p with failed := true }) s
  | 6 => { s with power := { s.power with failedModules := s.power.failedModules ++ [unit] } }
  | 7 => requestWarm (drawn (fault .mgp unitMgmtSram (freeOf 32 s).toNat none s))
  | _ => enterSafe s

/-- TEST_COMPLETE (R504, R506). -/
def testComplete (signature micros : Nat) (s : State) : State :=
  match s.power.test with
  | none => s
  | some t =>
    let want := (Config.misrExpected t.kind).toNat
    let good := signature == want
    let s1 := odSet 0xB010 0x04 (micros % 2 ^ 32) (odSet 0xB010 0x03 want (odSet 0xB010 0x02 signature
      (odSet 0xB010 0x01 (testRecord t.kind t.unit (if good then 2 else 3)) s)))
    let s2 : State := { s1 with power := { s1.power with test := none } }
    if good then runCores (testPassed t.kind t.unit s2)
    else
      let id := testUnitId t.kind t.unit
      let s3 := faultEvent .bistFail id (signature + t.kind * 2 ^ 64) none .media signature (bump32 0xB010 0x06 s2)
      testFailed t.kind t.unit s3

def execTestComplete (signature : U64) (micros : Nat) (s : State) : Host.Outcome State Fault Refusal :=
  .next (testComplete signature.toNat micros s)

/-! ## Link test -/

/-- The port that OD 0xB040:01 names, by number 0 to 47. -/
def linkTestPort (s : State) : Option Nat :=
  let v := od s 0xB040 0x01
  if v < 32 then some v else if 0x100 ≤ v && v < 0x110 then some (v - 0x100 + 32) else none

/-- A write of OD 0xB040:06. -/
def linkTestWrite (v : Nat) (s : State) : Status × State :=
  if v = 0 then
    match s.power.linkTest with
    | none => (.ok, odSet 0xB040 0x06 0 s)
    | some n => (.ok, startPort n (odSet 0xB040 0x06 0 { s with power := { s.power with linkTest := none } }))
  else
    match linkTestPort s with
    | none => (.conflict, s)
    | some n =>
      let kind := if n < 32 then 4 else 5
      let unit := if n < 32 then n else n - 32
      if s.power.linkTest.isSome || underTest s n || (portOf s n).failed || !testAllowed s kind unit then (.conflict, s)
      else
        let s1 := holdPort n s
        (.ok, odSet 0xB040 0x06 1 { s1 with power := { s1.power with
          linkTest := some n, checkers := List.replicate 8 {} } })

/-- Lanes with a checker of the port under test. -/
def checkerThere (s : State) (lane : Nat) : Bool := s.power.linkTest.any (fun n => lane < if n < 32 then 8 else 4)

def editChecker (lane : Nat) (f : Checker → Checker) (s : State) : State :=
  { s with power := { s.power with checkers := s.power.checkers.set lane (f (s.power.checkers.getD lane {})) } }

/-- CHECKER_LOCK (R510). -/
def checkerLock (lane : Nat) (s : State) : State :=
  if checkerThere s lane then editChecker lane (fun c => { c with locked := true }) s else s

def execCheckerLock (laneNo : Nat) (s : State) : Host.Outcome State Fault Refusal := .next (checkerLock laneNo s)

/-- CHECKER_LOCK_LOSS: the flag clears, and no bits are counted until the lane locks again. -/
def checkerLost (lane : Nat) (s : State) : State :=
  if checkerThere s lane then editChecker lane (fun c => { c with locked := false }) s else s

def execCheckerLockLoss (laneNo : Nat) (s : State) : Host.Outcome State Fault Refusal := .next (checkerLost laneNo s)

/-- CHECKER_ERROR: a bit in error after `bits` further bits compared; TRIG is driven low where it is the error output, at
most once per microsecond. -/
def checkerError (lane bits : Nat) (s : State) : State :=
  if !checkerThere s lane || !(s.power.checkers.getD lane {}).locked then s
  else
    let s1 := editChecker lane (fun c => { c with bits := c.bits + bits, errors := c.errors + 1 }) s
    if od s 0xB040 0x05 = 1 && s.power.trigAt ≤ s.now then
      send .trigLow { s1 with power := { s1.power with trigAt := s.now + 1000 } }
    else s1

def execCheckerError (laneNo : Nat) (bits : Nat) (s : State) : Host.Outcome State Fault Refusal :=
  .next (checkerError laneNo bits s)

end Sys2Proof.Machine
end

