-- ==== Sys2Proof/Machine/Manage.lean ====
section
/-! DEFINITION. Sensors and supplies (R468 to R471), the fault log (R472, R519 to R522), stored values (R458) and counter
samples (R498). -/

namespace Sys2Proof.Machine

/-! ## Temperature (R468, R469) -/

/-- A temperature of the dictionary: I32. -/
def i32Of (v : Nat) : Int := if v % 2 ^ 32 < 2 ^ 31 then (v % 2 ^ 32 : Nat) else ((v % 2 ^ 32 : Nat) : Int) - 2 ^ 32

/-- The 32 bits of an I32. -/
def i32Bits (v : Int) : Nat := (v % 2 ^ 32).toNat

/-- The first sensor with the highest reading, and that reading. -/
def hottest (l : List Int) : Nat × Int :=
  (indexed l).foldl (fun m x => if m.2 < x.2 then x else m) (0, l.headD 0)

/-- THERMAL_SAMPLE: readings, the warning with its 5 °C of fall before the next, and the trip. -/
def thermalSample (r : List Int) (s : State) : State :=
  if !ready s then s
  else
    let top := hottest r
    let warn := i32Of (od s 0xC012 0x01)
    let s1 : State := { s with power := { s.power with
      temps := r, warnArmed := s.power.warnArmed || decide (top.2 ≤ warn - 500) } }
    let s2 :=
      if s1.power.warnArmed && decide (warn ≤ top.2) then
        faultEvent .thermalWarn (unitSensor top.1) (i32Bits top.2) none .ok 0
          { s1 with power := { s1.power with warnArmed := false } }
      else s1
    if i32Of (od s 0xC012 0x02) ≤ top.2 then
      let s3 := send .thermTrip (fault .thermalTrip (unitSensor top.1) (i32Bits top.2) none s2)
      sagStart .thermalTrip s.power.kiln.vinMv { s3 with power := { s3.power with thermTrip := true } }
    else s2

def execThermalSample (readings : List Int) (s : State) : Host.Outcome State Fault Refusal := .next (thermalSample readings s)

/-! ## Regulators (R470, R471, R530) -/

/-- Fields of a regulator record (R484). -/
def regEnabled (v : Nat) : Bool := bitOf v 7
def regCode (v : Nat) : Nat := bitsOf v 15 8
def regAddress (v : Nat) : Nat := v % 128
def regWatts (v : Nat) : Nat := bitsOf v 31 16

def regAt (s : State) (i : Nat) : Nat := od s 0xC020 (i + 1)

/-- One regulator's answer enters its record. -/
def regPoll (i : Nat) (r : RegReading) (s : State) : State :=
  let v := regAt s i
  if !regEnabled v then { s with power := { s.power with regSeen := s.power.regSeen.set i s.now } }
  else if !r.answered then s
  else
    let w := v % 65536 + r.watts.toNat * 2 ^ 16 + r.deciAmp.toNat * 2 ^ 32 + r.mv.toNat * 2 ^ 48
    let s1 := odSet 0xC020 (i + 1) w s
    { s1 with power := { s1.power with
      regSeen := s1.power.regSeen.set i s.now, regLost := s1.power.regLost.filter (fun x => x != i)
      vddMeasured := if regCode v = 1 then r.mv.toNat else s1.power.vddMeasured } }

/-- PMBUS_POLL: readings, and with adaptive control one step of 5 mV, within 650 to 850 mV, where the regulator of VDD_CORE
answers. -/
def pmbusPoll (regs : List RegReading) (stepUp : Option Bool) (s : State) : State :=
  if !ready s then s
  else
    let s1 := forEach (fun (x : Nat × RegReading) => regPoll x.1 x.2) (indexed regs) s
    let core := (indexed regs).any (fun x => regEnabled (regAt s x.1) && regCode (regAt s x.1) == 1 && x.2.answered)
    let v := s1.power.vddSet
    let v1 :=
      match stepUp with
      | some true => if v + 5 ≤ 850 then v + 5 else v
      | some false => if 655 ≤ v then v - 5 else v
      | none => v
    if core && od s 0xC000 0x08 == 1 && s.power.vddStepAt.all (fun a => a + 10000000 ≤ s.now) then
      { s1 with power := { s1.power with vddSet := v1, vddStepAt := if v1 == v then s1.power.vddStepAt else some s.now } }
    else s1

def execPmbusPoll (regs : List RegReading) (stepUp : Option Bool) (s : State) : Host.Outcome State Fault Refusal :=
  .next (pmbusPoll regs stepUp s)

/-- PMBUS_TIMEOUT: a regulator silent for 100 ms, recorded once until it answers. -/
def pmbusTimeout (i : Nat) (s : State) : State :=
  if !ready s || !regEnabled (regAt s i) || s.power.regLost.contains i || s.now < s.power.regSeen.getD i 0 + 100000000 then s
  else
    fault .pmbus (unitRegulator i) (regAddress (regAt s i)) none
      { s with power := { s.power with regLost := s.power.regLost ++ [i] } }

def execPmbusTimeout (reg : Nat) (s : State) : Host.Outcome State Fault Refusal := .next (pmbusTimeout reg s)

/-- Power of each regulator, and the sum over the enabled ones of codes 0x01 to 0x08 (R530). -/
def regPowers (s : State) : List Nat := (List.range 8).map (fun i => regWatts (regAt s i))

def diePower (s : State) : Nat :=
  sumBy (fun i => if regEnabled (regAt s i) && 1 ≤ regCode (regAt s i) && regCode (regAt s i) ≤ 8 then regWatts (regAt s i) else 0)
    (List.range 8)

/-- Width of the windows of R454, in ns. -/
def windowNs : Nat := 100000000

/-- Add a sample to the 100 ms window of the clock; the first sample of a new window completes the one before. -/
def windowAdd (x : List Nat) (s : State) : State :=
  let w := s.now / windowNs
  let p := s.power
  let add (a : List Nat) : List Nat := (List.range 10).map (fun i => nth a i + nth x i)
  if w = p.winAt then { s with power := { p with winN := p.winN + 1, winSums := add p.winSums } }
  else
    { s with power := { p with
      winAt := w, winN := 1, winSums := add [], lastN := p.winN, lastSums := p.winSums } }

/-- A mean as binary32 bits, rounded to nearest even. -/
def meanF32 (sum n : Nat) : Nat := f32Bits (fdiv (.fin false sum 0) (.fin false n 0))

/-- POWER_CHECK (R471): the sum every 10 ms; a mean over ten of them that rises above OD 0xC000:05 is recorded. -/
def powerCheck (s : State) : State :=
  if !ready s then s
  else
    let l := (s.power.samples ++ [diePower s]).drop ((s.power.samples.length + 1) - 10)
    let s1 := windowAdd ([diePower s, s.power.vddMeasured] ++ regPowers s) { s with power := { s.power with samples := l } }
    let over_ := l.length == 10 && od s 0xC000 0x05 * 10 < sumBy id l
    let s2 : State := { s1 with power := { s1.power with overPower := over_ } }
    if over_ && !s.power.overPower then faultEvent .power unitDevice (meanF32 (sumBy id l) 10) none .ok 0 s2 else s2

def execPowerCheck (s : State) : Host.Outcome State Fault Refusal := .next (powerCheck s)

/-! ## The fault log -/

/-- Whether the MGP still serves NOR and the log. -/
def mgpRuns (s : State) : Bool := s.power.dev == .ready || (s.power.dev == .saving && !s.power.kiln.sag.any (fun g => g.isolated))

/-- LOG_FLUSH (R472): the tail is moved to the NOR ring; with room again, FLT_LOG_OVERFLOW tells what was dropped
(R521). -/
def logFlush (s : State) : State :=
  if !mgpRuns s then s
  else
    let l := s.log
    let s1 : State := { s with log := { l with ring := l.ring ++ l.tail, tail := [], droppedSince := 0 } }
    if l.droppedSince = 0 then s1 else fault .logOverflow unitDevice l.droppedSince none s1

def execLogFlush (s : State) : Host.Outcome State Fault Refusal := .next (logFlush s)

/-- ESCALATION (R519): FLT_ESCALATED one severity above the repeated code's, and the pair's count restarts. -/
def escalate (code unit : Nat) (s : State) : State :=
  match s.log.windows.find? (fun e => e.1 == code && e.2.1 == unit) with
  | none => s
  | some e =>
    let n := e.2.2.length
    if n < od s 0xD010 0x01 then s
    else
      let s1 : State := { s with log := { s.log with
        windows := s.log.windows.filter (fun x => !(x.1 == code && x.2.1 == unit)) } }
      let s2 := recordFault (min 3 (sevOfCode code + 1)) FaultCode.escalated.num unit (code + n * 2 ^ 16) none (bump32 0xD010 0x03 s1)
      event .ok none FaultCode.escalated.num unit 0 s2

def execEscalation (code unit : U16) (s : State) : Host.Outcome State Fault Refusal := .next (escalate code.toNat unit.toNat s)

/-- A write of OD 0xD000:05 (R522). -/
def clearLog (s : State) : State :=
  let n := s.log.ring.length + s.log.tail.length
  fault .logCleared unitDevice n none { s with log := { s.log with ring := [], tail := [], oldest := s.log.head } }

/-! ## Stored values (R458) -/

/-- STORED_VALUES_WRITTEN: the values go to the copy that is not the newer one, with the next write count. -/
def storedWritten (s : State) : State :=
  let n := s.power.nor
  match n.dirty with
  | none => s
  | some l =>
    if !mgpRuns s then s
    else
      let a := (n.copyA.map (fun c => c.1)).getD 0
      let b := (n.copyB.map (fun c => c.1)).getD 0
      let n1 : Nor :=
        if a ≤ b then { n with copyA := some (max a b + 1, l), dirty := none }
        else { n with copyB := some (max a b + 1, l), dirty := none }
      { s with power := { s.power with nor := n1 } }

def execStoredValuesWritten (s : State) : Host.Outcome State Fault Refusal := .next (storedWritten s)

/-! ## Counter samples (R498) -/

/-- The item in progress on a core, as the command names it: partition and `detail`. -/
def sampledItem (s : State) (core job item micro : Nat) : Option (Nat × Nat) :=
  match findJob s job with
  | none => none
  | some j =>
    match j.items[item]? with
    | none => none
    | some i =>
      if i.core == core && i.state == .running then
        some (j.part, j.seq * 2 ^ 40 + j.layer * 2 ^ 32 + i.headGroup % 64 * 2 ^ 26 + micro % 16 * 2 ^ 22)
      else none

/-- Whether a counter that samples counts an open event: its samples come when they come. -/
def openSampled (id : Nat) (s : State) : Bool :=
  ctrOpen (ctrOfId id).1 (ctrOfId id).2 s && bitOf (od s (ctrOfId id).1.index ((ctrOfId id).1.cfgSub (ctrOfId id).2)) 53

/-- COUNTER_SAMPLE: a sample that is due is raised as an event; a second one in the same microsecond is merged. A core
counter names the item in progress. -/
def counterSample (id job item micro : Nat) (s : State) : State :=
  match (s.samplers.find? (fun x => x.id == id)).or
      (if openSampled id s then some { id := id, down := 0, lastAt := 0, due := true } else none) with
  | none => s
  | some x =>
    let stamp := s.now / 1000 + 1
    if !x.due && !openSampled id s then s
    else if x.lastAt = stamp then
      bump64 0xA000 0x02 { s with samplers := setSampler { x with due := false } s.samplers }
    else
      let s1 : State := { s with samplers := setSampler { x with due := false, lastAt := stamp } s.samplers }
      let found := if 0x8000 ≤ id && id < 0xA000 then sampledItem s (id % 0x2000 / 16) job item micro else none
      match found with
      | some (p, d) => event .ok (some p) 0 id d s1
      | none => event .ok none 0 id 0 s1

def execCounterSample (id : U16) (job item : Nat) (microOp : Nat) (s : State) : Host.Outcome State Fault Refusal :=
  .next (counterSample id.toNat job item microOp s)

end Sys2Proof.Machine
end

