-- ==== Sys2Proof/Machine/OdRead.lean ====
section
/-! DEFINITION. What a dictionary read returns (R18, R19): values that the device derives from its state, the coarsened
readings of R454, the log window (R522, R523), the state digest (R435), and whether a role may read (R13 to R15, R20). -/

namespace Sys2Proof.Machine

/-! ## Values derived from the state -/

/-- A digest as the number that its 32 bytes spell. -/
def digestNum (d : BitVec 256) : Nat := leNat (digestBytes d 32)

/-- Whether readings are coarsened (R454). -/
def coarse (s : State) : Bool := s.sec.tenancy == .owned || s.sec.tenancy == .releasing

/-- Sums and number of samples of the last completed window. -/
def lastWindow (s : State) : List Nat × Nat :=
  if s.power.winAt < s.now / windowNs then (s.power.winSums, s.power.winN) else (s.power.lastSums, s.power.lastN)

/-- A mean rounded to a multiple of `q`, halves up. -/
def meanTo (q sum n : Nat) : Nat := if n = 0 then 0 else q * ((2 * sum + q * n) / (2 * q * n))

/-- Entry `i` of the last window as R454 shows it: power to 8 W, VDD_CORE to 10 mV. -/
def windowPower (s : State) (i : Nat) : Nat := meanTo 8 (nth (lastWindow s).1 i) (lastWindow s).2
def windowVdd (s : State) : Nat := meanTo 10 (nth (lastWindow s).1 1) (lastWindow s).2

/-- A temperature hidden from every reader. -/
def hiddenTemp : Nat := 0x7FFF

/-- Plot whose maximum takes in a sensor (R468). -/
def plotOf (sensor : Nat) : Nat :=
  if sensor < 120 then sensor / 20
  else if sensor < 144 then (sensor - 120) / 4
  else if sensor < 150 then sensor - 144
  else if sensor < 156 then sensor - 150
  else if sensor = 156 then 0
  else if sensor = 157 then 3
  else 1

def maxInt (l : List Int) : Int := l.foldl max (l.headD 0)

def plotMax (s : State) (p : Nat) : Int :=
  maxInt ((List.range 160).filter (fun i => plotOf i == p) |>.map (fun i => s.power.temps.getD i 0))

/-- A regulator record as it reads: power, and for VDD_CORE the voltage, coarsened. -/
def regRead (s : State) (i : Nat) : Nat :=
  let v := regAt s i
  if !coarse s then v
  else
    let w := v - regWatts v * 2 ^ 16 + windowPower s (2 + i) * 2 ^ 16
    if regCode v = 1 then w % 2 ^ 48 + windowVdd s * 2 ^ 48 else w

/-- Bits of a list of numbers. -/
def maskOf (l : List Nat) : Nat := l.dedup.foldl (fun m i => m + 2 ^ i) 0

/-- Kiln state of OD 0xC030:01. -/
def kilnState (s : State) : Nat :=
  if s.power.dev == .saving then 2
  else if s.power.dev == .saved then 3
  else if s.power.kiln.held then 4
  else if kilnArmed s then 0 else 1

/-- Pages of a held save that await their program (R482). -/
def heldPages (s : State) : Nat :=
  if !s.power.kiln.held then 0
  else sumBy (fun e => ceilDiv e.bytes 16384) (s.pfx.ring.filter (fun e => match e.item with | .data _ _ _ => true | _ => false))

/-- Bytes of provisional tails: candidates by the token-layer bytes of every layer (R183). -/
def provBytes (s : State) : Nat :=
  sumBy (fun q => match q.prov with
    | none => 0
    | some t => t.count * sumBy (fun l => (layerGroup s q.model l).elim 0 tokenLayerBytes) (List.range (modelLayers s q.model)))
    s.kv.seqs

/-- The state of a table slot as OD 0x8010 shows it. -/
def slotRead (s : State) (n : Nat) : Nat :=
  let t := s.tables.getD n {}
  let loaded := match t.image with | some im => 16 + fieldAt im 248 2 * 2 ^ 16 | none => 0
  slotInFlight s n * 2 ^ 32 + loaded + t.gen % 16

/-- Good blocks of a shelf: those in state 0 of its LUNs in service (R343, R354). -/
def shelfGood (x : Shelf) (g : ShelfRec) : Nat :=
  let out (c l : Nat) : Bool := x.luns.any (fun y => y.out && y.channel == c && y.lun == l)
  let dead := (x.luns.filter (fun y => y.out)).length * g.blocks
  let bad := (x.blocks.filter (fun b => b.state != 0 && !out b.channel b.lun)).length
  g.channels * g.luns * g.blocks - dead - bad

/-- A shelf's record (R359). -/
def shelfRead (s : State) (h sub : Nat) : Nat :=
  let x := shelfOf s h
  let geo (f : ShelfRec → Nat) : Nat := x.geom.elim 0 f
  match sub with
  | 0x01 => x.state
  | 0x02 => geo (fun g => g.channels)
  | 0x03 => geo (fun g => g.luns)
  | 0x04 => geo (fun g => g.blocks)
  | 0x05 => geo (fun g => g.pages)
  | 0x06 => logicalBytes x
  | 0x07 => freeLogicalBytes x
  | 0x08 => freeSuperblocks x
  | 0x09 => geo (fun g => shelfGood x g)
  | 0x0A => (x.blocks.filter (fun b => 2 ≤ b.state && b.state ≤ 4)).length
  | 0x0B => maxErases x
  | 0x0C => minErases x
  | 0x0D => (x.luns.filter (fun l => l.out)).length
  | 0x0F => geo (fun g => g.bridgeId.toNat)
  | _ => 0

/-- The pair shown in OD 0x7020:04. -/
def shownPair (s : State) : Nat :=
  match findQp s (od s 0x7020 0x03) with
  | none => 0
  | some q =>
    leNat (natLe 1 q.state.code ++ natLe 1 q.part ++ natLe 2 q.remoteNode ++ natLe 2 q.remoteQp ++ natLe 2 0 ++ natLe 8 q.count ++
      natLe 3 q.nextPsn ++ natLe 1 0 ++ natLe 3 q.expPsn ++ natLe 1 0 ++ natLe 4 q.epoch ++ natLe 2 q.unacked.length ++
      natLe 2 q.runs)

/-- What a port record shows of the port's state (R419). -/
def portRead (s : State) (n sub : Nat) : Option Nat :=
  let p := portOf s n
  match sub with
  | 0x01 => some p.state
  | 0x02 => some (if portUp s n then p.txLanes + p.rxLanes * 256 else 0)
  | 0x03 => some p.neighbour.toNat
  | 0x04 => some p.node
  | 0x0B => some p.txEpoch
  | 0x0E => some p.mask
  | 0x0F => some p.gateSrc
  | _ => none

/-- A laser input's last measurement (OD 0x7160). -/
def laserRead (s : State) (k : Nat) : Nat :=
  let l := (s.links.lasers.getD k {}).powers
  if l.isEmpty then 0
  else
    ((maxInt l) % 65536).toNat * 2 ^ 32 + ((minInt l) % 65536).toNat * 2 ^ 16 +
      maskOf ((List.range l.length).filter (fun i => 1300 ≤ l.getD i 0))

/-- A checker's lane record (OD 0xB041). -/
def checkerRead (s : State) (lane : Nat) : Nat :=
  let c := s.power.checkers.getD lane {}
  leNat (natLe 8 c.bits ++ natLe 8 c.errors ++ natLe 4 (if c.errors = 0 then 0 else meanF32 c.errors c.bits) ++
    natLe 1 (if c.locked then 1 else 0))

/-- The weight list (R436): entries in ascending object ID. -/
def weightList (s : State) : Bytes :=
  (sortBy (fun (a b : Nat × BitVec 256) => a.1 < b.1) s.sec.sealedWeights).flatMap (fun e => natLe 4 e.1 ++ digestBytes e.2 32)

/-! ## Counters -/

/-- Whether a subindex of a counter record is a counter's value: programmable, fixed or the pending level (R502). -/
def isCounterValue (index sub : Nat) : Bool :=
  (0xA100 ≤ index && index < 0xA160 && 0x11 ≤ sub && sub ≤ 0x1E) || (0xA200 ≤ index && index < 0xA218 && 0x11 ≤ sub) ||
  (0xA300 ≤ index && index < 0xA330 && 0x09 ≤ sub)

/-- Whether a value is the high half of a chained pair (R489). -/
def highHalf (s : State) (index sub : Nat) : Bool :=
  let base := if 0xA300 ≤ index then 0x09 else 0x11
  let n := if 0xA300 ≤ index then 4 else 8
  base ≤ sub && sub < base + n && (sub - base) % 2 == 1 && bitOf (od s index (sub - base)) 54

/-- A counter value as it reads (R454, R494). -/
def counterRead (s : State) (index sub : Nat) : Nat :=
  let v := match ctrLocOf index with
    | some l => if l.valSub 0 ≤ sub && sub < l.valSub 0 + l.count then ctrNow l (sub - l.valSub 0) s else od s index sub
    | none => od s index sub
  if coarse s && !highHalf s index sub then v / 4096 * 4096 else v

/-! ## The log window (R515, R522, R523) -/

/-- Whether an operator sees a record without its detail. -/
def hides (role : Role) (s : State) (r : FaultRec) : Bool := role == .operator && coarse s && r.part != 255

/-- Whether a role sees a slot: a tenant only those of its tenancy. -/
def seesSlot (role : Role) (s : State) (slot : Nat) : Bool :=
  match role with
  | .operator => true
  | .tenant =>
    s.log.firstSlot < slotCount &&
      modSub slot s.log.firstSlot slotCount < modSub s.log.head s.log.firstSlot slotCount

/-- The record of a slot: in the tail or in the ring. -/
def recordAt (s : State) (slot : Nat) : Option FaultRec := (s.log.tail ++ s.log.ring).find? (fun r => r.slot == slot)

/-- OD 0xD001:02: 32 records from the role's cursor. -/
def logWindow (role : Role) (s : State) : Bytes :=
  (List.range 32).flatMap (fun i =>
    let slot := ((roleSt role s).cursor + i) % slotCount
    match recordAt s slot with
    | some r => if seesSlot role s slot then recBytes (hides role s r) r else List.replicate 32 0
    | none => List.replicate 32 0)

/-! ## The dictionary state digest (R435) -/

/-- Objects of a listing. -/
def rowObjects (r : OdRow) : List (Nat × Nat × OdRow) :=
  (List.range r.count).flatMap (fun i =>
    (List.range (r.sub1 + 1 - r.sub0)).map (fun j => (r.base + i * r.stride, r.sub0 + j, r)))

/-- Whether the digest covers an object. -/
def digested (x : Nat × Nat × OdRow) : Bool :=
  (x.2.2.acc == .rw || x.2.2.acc == .rws) && x.1 < 0xF000 && !(0xD000 ≤ x.1 && x.1 < 0xE000) &&
  !(x.1 == 0x2000 && x.2.1 == 2) && !(x.1 == 0x7020 && x.2.1 == 3) && !isCounterValue x.1 x.2.1

/-- What an object contributes. -/
def digestPart (s : State) (x : Nat × Nat × OdRow) : Bytes :=
  let v := od s x.1 x.2.1
  natLe 2 x.1 ++ natLe 1 x.2.1 ++ natLe 1 x.2.2.ty.code ++ natLe 2 x.2.2.size ++
    natLe x.2.2.size (if x.1 = 0xC020 then v % 65536 else v)

def stateDigest (s : State) : BitVec 256 :=
  let objs := sortBy (fun (a b : Nat × Nat × OdRow) => odKey a.1 a.2.1 < odKey b.1 b.2.1) ((odTable.flatMap rowObjects).filter digested)
  Config.sha256 (objs.flatMap (digestPart s))

/-! ## The value of an object -/

/-- Areas 0x1000 and 0x2000: identity, communication, commit, wheel and plans. -/
def readLow (role : Role) (s : State) (index sub : Nat) : Option Nat :=
  let x := roleSt role s
  match index, sub with
  | 0x1000, 0x04 => some s.sec.unitId.toNat
  | 0x1200, 0x02 => some s.host.modules.toNat
  | 0x1200, 0x03 => some s.host.degraded.toNat
  | 0x1F00, 0x02 => some (x.resState * 2 ^ 24 + x.resStatus * 2 ^ 16 + x.resSeq.toNat)
  | 0x1F00, 0x03 => some (x.pend.elim 0 (fun p => p.pos.toNat))
  | 0x1F00, 0x06 => some x.staged.length
  | 0x1F00, 0x07 => some x.conflict
  | 0x2000, 0x01 => some s.wheel.cur.toNat
  | 0x2000, 0x02 => some s.wheel.floor.toNat
  | 0x2010, 0x03 => some (s.wheel.active.elim 0 (fun p => p.obj))
  | 0x2010, 0x04 => some (s.wheel.active.elim 0 (fun p => digestNum p.digest))
  | 0x2010, 0x05 => some ((s.wheel.next.bind (fun n => n.slot)).elim 0 (fun p => digestNum p.digest))
  | 0x2010, 0x06 => some s.wheel.tookOver
  | 0x2020, 0x01 => some (freeComps s)
  | 0x2020, 0x02 => some (activeComps s)
  | 0x2020, 0x03 => some (nextComps s)
  | 0x2020, 0x04 => some (commitComps s)
  | 0x2020, 0x05 => some (cmdComps s)
  | i, j =>
    if 0x1300 ≤ i && i < 0x1320 && 0x0B ≤ j && j ≤ 0x0E then some (queueOf s (.part (i - 0x1300) (j - 0x0B))).completed
    else none

/-- Areas 0x3000 to 0x5000: attention, sequences, prefix store, tiers. -/
def readData (s : State) (index sub : Nat) : Option Nat :=
  match index, sub with
  | 0x3030, 0x02 => some (provBytes s)
  | 0x4000, 0x02 => some s.kv.cols.length
  | 0x4000, 0x03 => some s.kv.seqs.length
  | 0x4020, 0x02 => some s.pfx.entries.length
  | 0x4020, 0x07 => some (inState1 s)
  | 0x4020, 0x0B => some (s.pfx.rebuildState * 2 ^ 56 + s.pfx.rebuildRead)
  | 0x5000, 0x01 => some (poolUnits s * 4096)
  | 0x5000, 0x02 => some (poolFree s * 4096)
  | 0x5000, 0x03 => some (lentBytes s)
  | 0x5000, 0x04 => some (borrowedBytes s)
  | 0x5010, 0x05 => some (s.pasture.leases.filter (fun l => l.lent || l.lostAt.isNone)).length
  | i, j =>
    if 0x3100 ≤ i && i < 0x3110 && j = 6 then some (s.kv.seqs.filter (fun q => q.model == i - 0x3100)).length
    else if i = 0x8010 && 1 ≤ j then some (slotRead s (j - 1))
    else none

/-- Areas 0x6000 and 0x7000: heath, peer transport, links. -/
def readLinks (s : State) (index sub : Nat) : Option Nat :=
  if 0x6100 ≤ index && index < 0x6110 && 1 ≤ sub then some (shelfRead s (index - 0x6100) sub)
  else if index = 0x6000 && sub = 0x10 then some (sumBy (fun x => x.discards) s.shelves)
  else if index = 0x7020 && sub = 4 then some (shownPair s)
  else if index = 0x7030 && sub = 1 then some s.peer.onDie.length
  else if 0x7120 ≤ index && index < 0x7150 then portRead s (index - 0x7120) sub
  else if index = 0x7160 && 1 ≤ sub then some (laserRead s (sub - 1))
  else none

/-- Area 0x9000: security and tenancy. -/
def readSec (s : State) (index sub : Nat) : Option Nat :=
  match index, sub with
  | 0x9000, 0x01 => some s.sec.tenancy.code
  | 0x9000, 0x03 => some (digestNum s.sec.ownerDigest)
  | 0x9000, 0x05 => some (secretBits s)
  | 0x9000, 0x06 => some s.sec.heathKeyId
  | 0x9000, 0x08 => some s.sec.rtp.code
  | 0x9000, 0x0A => some s.sec.releaseStep
  | 0x9010, 0x03 => some (s.mgmt.sessions.filter (fun x => x.up)).length
  | 0x9030, 0x01 => some (digestNum Config.romDigest)
  | 0x9030, 0x04 => some (digestNum (stateDigest s))
  | 0x9030, 0x05 => some s.sec.sealedWeights.length
  | 0x9030, 0x06 => some (digestNum (Config.sha256 (weightList s)))
  | 0x9030, 0x07 => some (leNat (weightList s))
  | 0x9021, k =>
    if k = 0 then none
    else some ((s.sec.weightKeys.find? (fun w => w.slot == k)).elim 0 (fun w => w.label * 2 ^ 32 + 1))
  | _, _ => none

/-- Areas 0xB000 and 0xC000: self-test, power, thermal, kiln. -/
def readPower (s : State) (index sub : Nat) : Option Nat :=
  let p := s.power
  match index, sub with
  | 0xB020, 0x01 => some (maskOf (coresUp s))
  | 0xB020, 0x02 => some (maskOf p.failedCores)
  | 0xB020, 0x03 => some (maskOf p.failedCaches)
  | 0xB020, 0x04 => some (maskOf p.failedCtrls)
  | 0xB020, 0x05 => some (maskOf ((List.range 32).filter (fun n => (portOf s n).failed)))
  | 0xB020, 0x06 => some (maskOf ((List.range 16).filter (fun h => (portOf s (32 + h)).failed)))
  | 0xB020, 0x07 => some (maskOf p.failedModules)
  | 0xC000, 0x01 => some p.dev.code
  | 0xC000, 0x02 => some p.bootCause
  | 0xC000, 0x04 => some (meanF32 (if coarse s then windowPower s 0 else diePower s) 1)
  | 0xC000, 0x06 => some p.vddSet
  | 0xC000, 0x07 => some (if coarse s then windowVdd s else p.vddMeasured)
  | 0xC000, 0x09 => some (i32Bits (maxInt p.temps))
  | 0xC030, 0x01 => some (kilnState s)
  | 0xC030, 0x02 => some p.kiln.vinMv
  | 0xC030, 0x04 => some p.kiln.lastNo
  | 0xC030, 0x05 => some p.kiln.lastMicros
  | 0xC030, 0x06 => some p.kiln.lastBytes
  | 0xC030, 0x07 => some (heldPages s)
  | i, j =>
    if i = 0xB022 && 1 ≤ j then some (physOf s (j - 1))
    else if i = 0xB041 && 1 ≤ j then some (checkerRead s (j - 1))
    else if i = 0xC010 && 1 ≤ j then some (if coarse s then hiddenTemp else i32Bits (p.temps.getD (j - 1) 0))
    else if i = 0xC011 && 1 ≤ j then some (i32Bits (plotMax s (j - 1)))
    else if i = 0xC020 && 1 ≤ j then some (regRead s (j - 1))
    else none

/-- Areas 0xD000 and 0xE000: log and partitions. -/
def readHigh (role : Role) (s : State) (index sub : Nat) : Option Nat :=
  match index, sub with
  | 0xD000, 0x01 => some s.log.head
  | 0xD000, 0x02 => some s.log.oldest
  | 0xD000, 0x03 => some s.log.tail.length
  | 0xD000, 0x07 => some s.log.firstSlot
  | 0xD000, 0x08 => some (s.log.latest.elim 0 (fun r => leNat (recBytes (hides role s r) r)))
  | 0xD001, 0x01 => some (roleSt role s).cursor
  | 0xD001, 0x02 => some (leNat (logWindow role s))
  | i, j =>
    if 0xE000 ≤ i && i < 0xF000 then
      let p := (i - 0xE000) / 0x80
      match j with
      | 0x0A => some (useOf s .meadow p * 4096)
      | 0x0B => some (useOf s .heath p * 4096)
      | 0x0C => some (useOf s .pasture p * 4096)
      | 0x0D => some (s.objs.objs.filter (fun o => o.part == p)).length
      | _ => none
    else none

/-- What the device derives from its state for a reader of a role; `none` where the dictionary holds the value. -/
def derived (role : Role) (s : State) (index sub : Nat) : Option Nat :=
  if index < 0x3000 then readLow role s index sub
  else if index < 0x6000 || (0x8000 ≤ index && index < 0x9000) then readData s index sub
  else if index < 0x8000 then readLinks s index sub
  else if index < 0xA000 then readSec s index sub
  else if index < 0xB000 then (if isCounterValue index sub then some (counterRead s index sub) else none)
  else if index < 0xD000 then readPower s index sub
  else readHigh role s index sub

/-- The value that a read returns: with STAGED the reader's staged value of an RWS object, where one is staged. -/
def odValue (role : Role) (staged : Bool) (s : State) (r : OdRow) (index sub : Nat) : Nat :=
  let now := (derived role s index sub).getD (od s index sub)
  if staged && r.acc == .rws then lookupD (roleSt role s).staged (odKey index sub) now else now

/-! ## Whether a role may read -/

/-- TENANT-owned objects: those that the tenant alone owns. -/
def tenantOwned (r : OdRow) : Bool := r.ten && !r.op

/-- The check of a read (R13 to R15, R20): the listing, or why not. -/
def readCheck (role : Role) (s : State) (index sub : Nat) : Except Status OdRow :=
  if role == .tenant && !owned s && !(0x1000 ≤ index && index < 0x2000) then .error .notOwned
  else
    match odFind index sub with
    | none => .error .badObject
    | some r =>
      if role == .operator && owned s && tenantOwned r then .error .notOwned
      else if r.acc == .wo then .error .badObject
      else .ok r

end Sys2Proof.Machine
end

