-- ==== Sys2Proof/Machine/Dict.lean ====
section
/-! DEFINITION. Dictionary requests (R13 to R34): checks, reads, writes of every access kind, block transfers, commits,
kept tags and the three transports; and the writes that start device work (R10). -/

namespace Sys2Proof.Machine

/-- What a request comes to: status, type code and value of the response, the state, and what the device does once the
response is sent (R19). -/
structure Answer where
  st : Status
  typ : Nat := 0
  value : Bytes := []
  state : State
  after : State → State := id

def refuseA (st : Status) (s : State) : Answer := { st := st, state := s }
def ofPair (r : Status × State) : Answer := { st := r.1, state := r.2 }

/-- The role in which a transport acts (R13). -/
def Via.role : Via → Role
  | .mailbox _ => .tenant
  | _ => .operator

/-- The requester that kept tags and block writes belong to: a session, the MCTP endpoint, the mailbox (R32). -/
def requester : Via → Via
  | .mailbox _ => .mailbox 0
  | .mctp _ _ => .mctp 0 0
  | v => v

/-! ## Counter configurations (R488, R490) -/

/-- Filters that an event takes, as a number: 1 partition, 2 master, 4 address range, 8 class; `none` where the code is
no event of the location kind (0 core, 1 cluster, 2 port). -/
def eventFilters (kind code : Nat) : Option Nat :=
  match kind, code with
  | 0, 0x0001 => some 9
  | 0, 0x0002 => some 9
  | 0, 0x0003 => some 9
  | 0, 0x0004 => some 1
  | 0, 0x0005 => some 1
  | 0, 0x0006 => some 1
  | 0, 0x0007 => some 9
  | 0, 0x0008 => some 1
  | 0, 0x0009 => some 1
  | 0, 0x000A => some 1
  | 0, 0x000B => some 11
  | 0, 0x000C => some 9
  | 0, 0x000D => some 7
  | 0, 0x000E => some 1
  | 0, 0x000F => some 3
  | 1, 0x0101 => some 3
  | 1, 0x0102 => some 3
  | 1, 0x0103 => some 7
  | 1, 0x0104 => some 15
  | 1, 0x0105 => some 15
  | 1, 0x0106 => some 9
  | 1, 0x0107 => some 4
  | 1, 0x0108 => some 1
  | 2, 0x0201 => some 1
  | 2, 0x0202 => some 9
  | 2, 0x0203 => some 0
  | 2, 0x0204 => some 0
  | 2, 0x0205 => some 1
  | 2, 0x0206 => some 1
  | 2, 0x0207 => some 1
  | _, _ => none

/-- Bits of a configuration that are reserved (R489). -/
def ctrReserved (v : Nat) : Bool :=
  bitsOf v 63 56 == 0 && bitsOf v 52 48 == 0 && bitsOf v 46 45 == 0 && bitsOf v 39 37 == 0 && bitsOf v 31 29 == 0 &&
  bitsOf v 22 18 == 0

/-- Whether a configuration of counter `i` of a location kind may be written (R490). -/
def ctrConfigOk (kind i v : Nat) : Bool :=
  match eventFilters kind (bitsOf v 15 0) with
  | none => false
  | some f =>
    ctrReserved v && (!bitOf v 54 || i % 2 == 0) && (!bitOf v 47 || bitOf f 0) && (bitsOf v 36 32 == 0 || bitOf f 1) &&
    (!bitOf v 23 || bitOf f 2) && (bitsOf v 28 24 == 0 || bitOf f 3)

def ctrKind : CtrLoc → Nat
  | .core _ => 0
  | .cluster _ => 1
  | .port _ => 2

/-- Whether an object is a counter's configuration. -/
def isCounterConfig (index sub : Nat) : Bool :=
  match ctrLocOf index with
  | some l => 1 ≤ sub && sub ≤ l.count
  | none => false

/-- A counter keeps what it shows of an open event. -/
def keepOpen (l : CtrLoc) (i : Nat) (s : State) : State :=
  onlyIf (i < l.count && ctrOpen l i s) (fun t => odSet l.index (l.valSub i) (ctrNow l i t) t) s

/-- A write of a configuration: valid or refused; the down-count is loaded with the period (R498), no value changes. -/
def writeCtrConfig (l : CtrLoc) (i v : Nat) (s : State) : Status × State :=
  if !ctrConfigOk (ctrKind l) i v then (.badDescriptor, s)
  else (.ok, odSet l.index (l.cfgSub i) v (keepOpen l i (keepOpen l (i + 1)
    { s with samplers := s.samplers.filter (fun x => x.id != l.ctrId i) })))

/-- A write of 0 to a counter's value (R494): value and sticky bit clear, of a chained pair's low half the high half
too. -/
def clearCounter (l : CtrLoc) (i : Nat) (s : State) : State :=
  let s1 := odSet l.index (l.valSub i) 0 s
  if i % 2 == 0 && bitOf (od s l.index (l.cfgSub i)) 54 then odSet l.index (l.valSub (i + 1)) 0 s1 else s1

/-! ## Writes -/

/-- Rail codes that a written regulator record may carry (R529 to R531). -/
def railCodes : List Nat := [1, 2, 3, 4, 5, 6, 7, 8, 0x10, 0x11, 0x12, 0x13, 0x20, 0x21, 0x22]

/-- OD 0x7000:02: an output port of 0 to 31 for each node, or 0xFF for none. -/
def routesOk (bs : Bytes) : Bool := bs.all (fun b => b.toNat < 32 || b == 255)

/-- Whether a value of an object with a range of its own is within it. -/
def specialOk (s : State) (index sub v : Nat) (bs : Bytes) : Bool :=
  match index, sub with
  | 0x2010, 0x01 => v == 0 || (findObj s v).any (fun o => o.kind == 4)
  | 0x6000, 0x02 => od s 0x6000 0x01 < v && v ≤ 128
  | 0x7000, 0x02 => routesOk bs
  | 0xB000, 0x03 => testFormed v
  | 0xB040, 0x01 => v < 32 || (0x100 ≤ v && v < 0x110) || v == 0xFFFF
  | 0xB040, 0x04 => v != 0 && (v < 16 || !(0x100 ≤ od s 0xB040 0x01 && od s 0xB040 0x01 < 0x110))
  | 0xC020, _ => railCodes.contains (bitsOf v 15 8)
  | 0xA010, k => if k % 2 = 1 then v ≤ od s 0xA010 (k + 1) else od s 0xA010 (k - 1) ≤ v
  | _, _ => true

/-- OD 0x2000:02 (R84): the wheel restarts. No step has started since, so the next one is held against none (R83; DESIGN CHOICE,
log entry 121). -/
def restartWheel (v : Nat) (s : State) : Status × State :=
  if s.wheel.active.isSome || s.wheel.next.isSome || s.mgmt.op.pend.isSome || s.mgmt.ten.pend.isSome ||
      boundComps s != 0 || commitComps s != 0 || cmdComps s != 0 then (.conflict, s)
  else
    let w := BitVec.ofNat 64 v
    (.ok, { s with wheel := { s.wheel with cur := w, floor := w, fresh := true, stepStart := none } })

/-- OD 0x4020:0A (R289). -/
def rebuildWrite (s : State) : Status × State := if s.sec.tenSecret.isNone then (.keyAbsent, s) else rebuildStart s

/-- A plain RW write: in force at once, and stored where the object is (R19, R21). -/
def putRw (index sub v : Nat) (s : State) : State := markStored [odKey index sub] (odSet index sub v s)

/-- Write an object whose access is RW. New minimum lanes take down the ports that have fewer (R396). -/
def writeRw (role : Role) (index sub v : Nat) (s : State) : Status × State :=
  match index, sub with
  | 0x2000, 0x02 => restartWheel v s
  | 0xB040, 0x06 => linkTestWrite v s
  | 0xD001, 0x01 => (.ok, setRole role (fun x => { x with cursor := v }) s)
  | 0x7100, 0x02 => (.ok, forEach lanesChanged (List.range 32) (putRw 0x7100 0x02 v s))
  | 0x7100, 0x03 => (.ok, forEach (fun i => lanesChanged (32 + i)) (List.range 16) (putRw 0x7100 0x03 v s))
  | 0xC020, k => (.ok, putRw 0xC020 k (od s 0xC020 k / 65536 * 65536 + v % 65536) s)
  | _, _ =>
    match ctrLocOf index with
    | some l =>
      if 1 ≤ sub && sub ≤ l.count then writeCtrConfig l (sub - 1) v s
      else if l.valSub 0 ≤ sub then (.ok, clearCounter l (sub - l.valSub 0) s)
      else (.ok, putRw index sub v s)
    | none => (.ok, putRw index sub v s)

/-- A write to the staged set (R22, R26). -/
def stage (role : Role) (index sub v : Nat) (s : State) : Status × State :=
  let x := roleSt role s
  if x.pend.isSome then (.conflict, s)
  else
    let l := insertKey (odKey index sub) v x.staged
    if 512 < l.length then (.noSpace, s) else (.ok, setRole role (fun y => { y with staged := l }) s)

/-- Write an object whose access is WO; `bs` is the value. -/
def writeWo (role : Role) (index sub v : Nat) (bs : Bytes) (s : State) : Answer :=
  match index, sub with
  | 0x1F00, 0x01 => ofPair (commitWrite role (BitVec.ofNat 64 v) s)
  | 0x1F00, 0x04 => ofPair (cancelCommit role s)
  | 0x1F00, 0x05 => ofPair (discardStaged role s)
  | 0x4020, 0x0A => ofPair (rebuildWrite s)
  | 0x6000, 0x11 => ofPair (startFullScan v s)
  | 0x7020, 0x01 => ofPair (qpRequest v s)
  | 0x9000, 0x02 => ofPair (releaseWrite s)
  | 0x9020, k => ofPair (writeWeightKey k bs s)
  | 0xB000, 0x01 => ofPair (startTest v s)
  | 0xB030, 0x01 => { st := (scanWrite s).1, state := s, after := fun t => (scanWrite t).2 }
  | 0xC030, 0x08 => { st := .ok, state := discardSave s }
  | 0xC050, 0x01 => if s.sec.rtp == .run then { st := .ok, state := s, after := requestWarm } else refuseA .conflict s
  | 0xC050, 0x02 => { st := .ok, state := partitionReset v s }
  | 0xD000, 0x05 => { st := .ok, state := clearLog s }
  | i, 0x0E => if 0x6100 ≤ i && i < 0x6110 then ofPair (startFormat (i - 0x6100) s) else refuseA .badObject s
  | _, _ => refuseA .badObject s

/-- Counter configurations, periods and values (R497). -/
def isCounterRecord (index : Nat) : Bool := (ctrLocOf index).isSome

/-- The checks of a write that the value does not enter into (R13, R14, R17, R19, R20, R497): the listing, or why not. -/
def writeCheck (role : Role) (s : State) (index sub : Nat) : Except Status OdRow :=
  if role == .tenant && !owned s then .error .notOwned
  else
    match odFind index sub with
    | none => .error .badObject
    | some r =>
      let mine := match role with | .operator => r.op | .tenant => r.ten
      if r.acc == .const || r.acc == .ro || !mine then .error .badObject
      else if role == .operator && coarse s && (isCounterConfig index sub || isCounterValue index sub) then .error .notOwned
      else .ok r

/-- WRITE (R19, R20): type, length and range, then what the access kind says. -/
def writeObject (role : Role) (typ : Nat) (index sub : Nat) (bs : Bytes) (s : State) : Answer :=
  match writeCheck role s index sub with
  | .error st => refuseA st s
  | .ok r =>
    let v := leNat bs
    if 1024 < r.size || typ != r.ty.code || bs.length != r.size || !r.range.ok v || !specialOk s index sub v bs then
      refuseA .badDescriptor s
    else
      match r.acc with
      | .rws => ofPair (stage role index sub v s)
      | .wo => writeWo role index sub v bs s
      | _ => ofPair (writeRw role index sub v s)

/-! ## Reads -/

/-- READ (R19, R20). -/
def readObject (role : Role) (staged : Bool) (index sub : Nat) (s : State) : Answer :=
  match readCheck role s index sub with
  | .error st => refuseA st s
  | .ok r =>
    if 1024 < r.size then refuseA .badDescriptor s
    else { st := .ok, typ := r.ty.code, value := natLe r.size (odValue role staged s r index sub), state := s }

/-- Block `k` of a value of `size` bytes. -/
def blockOf (v size k : Nat) : Bytes := natLe (min 1024 (size - 1024 * k)) (v / 2 ^ (8192 * k))

/-- A counter record as READ_BLOCK of its subindex 0 returns it: every member in order (R495; log entry 37). -/
def counterRecord (role : Role) (s : State) (index : Nat) : Bytes :=
  (List.range 31).flatMap (fun sub =>
    match odFind index sub with
    | some r => natLe r.size (odValue role false s r index sub)
    | none => [])

/-- READ_BLOCK (R31). -/
def readBlockObject (role : Role) (staged : Bool) (index sub block : Nat) (s : State) : Answer :=
  match readCheck role s index sub with
  | .error st => refuseA st s
  | .ok r =>
    if isCounterRecord index && sub = 0 then
      if block = 0 then { st := .ok, typ := OdTy.octets.code, value := counterRecord role s index, state := s }
      else refuseA .badDescriptor s
    else if r.size ≤ 1024 || r.size ≤ 1024 * block then refuseA .badDescriptor s
    else { st := .ok, typ := r.ty.code, value := blockOf (odValue role staged s r index sub) r.size block, state := s }

/-! ## Block writes (R31, R464, R466) -/

def sameWrite (via : Via) (index sub : Nat) (b : BlockWrite) : Bool :=
  b.via == requester via && b.index.toNat == index && b.sub.toNat == sub

def dropWrite (via : Via) (index sub : Nat) (s : State) : State :=
  { s with mgmt := { s.mgmt with blocks := s.mgmt.blocks.filter (fun b => !sameWrite via index sub b) } }

/-- Bytes that a block write ends with: the object's size; an image's from its header (log entry 38). -/
def wholeLength (index size : Nat) (bytes : Bytes) : Nat :=
  if index = 0xC040 then min size (fieldAt bytes 8 4) else size

/-- The bytes written so far with one more block, and whether it is the last; `none` where the block does not follow.
Block 0 starts the write again. -/
def takeBlock (via : Via) (index sub size block : Nat) (bs : Bytes) (s : State) : Option (Bytes × Bool) :=
  let before := s.mgmt.blocks.find? (sameWrite via index sub)
  let have_ := if block = 0 then some ([] : Bytes) else (before.filter (fun b => b.next == block)).map (fun b => b.bytes)
  match have_ with
  | none => none
  | some l =>
    let all_ := l ++ bs
    let whole := wholeLength index size all_
    if whole ≤ all_.length && (index == 0xC040 || all_.length == whole) then some (all_, true)
    else if bs.length = 1024 then some (all_, false)
    else none

/-- Keep what has come of a block write. -/
def keepBlocks (via : Via) (index sub block : Nat) (all_ : Bytes) (s : State) : State :=
  let s1 := dropWrite via index sub s
  let b : BlockWrite :=
    { via := requester via, index := BitVec.ofNat 16 index, sub := BitVec.ofNat 8 sub, next := block + 1, bytes := all_, lastAt := s.now }
  { s1 with mgmt := { s1.mgmt with blocks := s1.mgmt.blocks ++ [b] } }

/-- A block of the firmware image (R464, R466): in UNOWNED, and not while one is verified or programmed. -/
def imageBlock (via : Via) (sig : Option Bool) (block : Nat) (bs : Bytes) (s : State) : Answer :=
  let recovery := s.power.dev == .recovery
  if !recovery && (updating s || (block == 0 && s.sec.tenancy != .unowned)) then refuseA .conflict s
  else
    match takeBlock via 0xC040 1 16777216 block bs s with
    | none => refuseA .badDescriptor s
    | some (all_, false) => { st := .ok, state := odSet 0xC040 0x02 1 (keepBlocks via 0xC040 1 block all_ s) }
    | some (all_, true) =>
      let sigOk := sig.getD (Config.imageSigned all_)
      let s1 := dropWrite via 0xC040 1 s
      if recovery then { st := .ok, state := s1, after := recoveryWhole all_ sigOk }
      else { st := .ok, state := updateWhole all_ sigOk s1 }

/-- WRITE_BLOCK (R31): the last block writes the object. -/
def writeBlockObject (via : Via) (sig : Option Bool) (typ index sub block : Nat) (bs : Bytes) (s : State) : Answer :=
  match writeCheck (Via.role via) s index sub with
  | .error st => refuseA st s
  | .ok r =>
    if r.size ≤ 1024 || typ != r.ty.code || bs.isEmpty || 1024 < bs.length then refuseA .badDescriptor s
    else if index = 0xC040 then imageBlock via sig block bs s
    else if (roleSt (Via.role via) s).pend.isSome then refuseA .conflict s
    else
      match takeBlock via index sub r.size block bs s with
      | none => refuseA .badDescriptor s
      | some (all_, false) => { st := .ok, state := keepBlocks via index sub block all_ s }
      | some (all_, true) =>
        let s1 := dropWrite via index sub s
        if !specialOk s index sub 0 all_ then refuseA .badDescriptor s1
        else ofPair (stage (Via.role via) index sub (leNat all_) s1)

/-- BLOCK_WRITE_TIMEOUT (R31): block writes of a requester without a next block for 1 s are discarded; of an image, the
update has failed (R464). -/
def blockTimeout (via : Via) (s : State) : State :=
  let stale := fun (b : BlockWrite) => b.via == requester via && b.lastAt + 1000000000 ≤ s.now
  let image := s.mgmt.blocks.any (fun b => stale b && b.index == 0xC040)
  let s1 : State := { s with mgmt := { s.mgmt with blocks := s.mgmt.blocks.filter (fun b => !stale b) } }
  if image then odSet 0xC040 0x03 Status.aborted.code (odSet 0xC040 0x02 5 s1) else s1

def execBlockWriteTimeout (via : Via) (s : State) : Host.Outcome State Fault Refusal := .next (blockTimeout via s)

/-! ## Serving a request -/

/-- What recovery answers (R466). -/
def recoveryServes (m : DictMsg) : Bool :=
  let i := m.index.toNat
  let read := m.op == 1 || m.op == 3
  (read && ((0x1000 ≤ i && i < 0x2000) || (i == 0xC000 && m.sub == 1))) || (m.op == 4 && i == 0xC040 && m.sub == 1)

/-- What a request that a transport has delivered comes to (R31). -/
def perform (sig : Option Bool) (via : Via) (m : DictMsg) (s : State) : Answer :=
  let role := Via.role via
  let i := m.index.toNat
  let k := m.sub.toNat
  let staged := bitOf m.flags.toNat 0
  if s.power.dev == .recovery && !recoveryServes m then refuseA .notOwned s
  else if m.length.toNat != m.value.length then refuseA .badDescriptor s
  else
    match m.op.toNat with
    | 1 => readObject role staged i k s
    | 2 => writeObject role m.typ.toNat i k m.value s
    | 3 => readBlockObject role staged i k m.block.toNat s
    | 4 => writeBlockObject via sig m.typ.toNat i k m.block.toNat m.value s
    | 5 => writeObject role m.typ.toNat 0x1F00 1 m.value s
    | _ => refuseA .badDescriptor s

/-- The response (R30): bit 7 of the opcode set, the tag echoed. -/
def response (m : DictMsg) (st : Status) (typ : Nat) (value : Bytes) : DictMsg :=
  { op := m.op ||| 0x80, index := m.index, sub := m.sub, typ := BitVec.ofNat 8 typ, length := BitVec.ofNat 16 value.length,
    tag := m.tag, status := BitVec.ofNat 8 st.code, block := m.block, value := value }

/-- Send a response on the transport of its request (R49, R431): in a session as its next RECORD; in recovery, which needs none, the
message alone (DESIGN CHOICE, log entry 134). -/
def deliver (via : Via) (r : DictMsg) (s : State) : State :=
  match via with
  | .mailbox k =>
    sendVector 258 { s with mgmt := { s.mgmt with
      mbx := s.mgmt.mbx.set k { req := none, rsp := some r, done := true }
      mbxOrder := s.mgmt.mbxOrder.filter (fun x => x != k) } }
  | .session sid =>
    let wire := (s.mgmt.sessions.find? (fun x => x.id == sid)).elim (dictBytes r) (fun x => sealRecord x.keys sid (recordCtr sid s) r)
    send (.dict via r wire) { s with mgmt := { s.mgmt with
      sessions := mapIf (fun x => x.id == sid) (fun x => { x with lastAt := s.now }) s.mgmt.sessions } }
  | .mctp _ _ => send (.dict via r (dictBytes r)) s

/-- The earlier response to a kept tag (R32). -/
def keptResponse (via : Via) (tag : U32) (s : State) : Option DictMsg :=
  (s.mgmt.kept.find? (fun k => k.via == requester via)).bind (fun k =>
    (k.tags.find? (fun t => t.1 == tag)).map (fun t => t.2))

/-- Keep a tag with its response: the last 16 of each requester. -/
def keepTag (via : Via) (tag : U32) (r : DictMsg) (s : State) : State :=
  let old := ((s.mgmt.kept.find? (fun k => k.via == requester via)).map (fun k => k.tags)).getD []
  let k : KeptTags := { via := requester via, tags := ((tag, r) :: old).take 16 }
  { s with mgmt := { s.mgmt with kept := k :: s.mgmt.kept.filter (fun x => x.via != requester via) } }

/-- Whether requests are answered at all: reads still while a save runs, in which writes are discarded (R475). -/
def serves (m : DictMsg) (s : State) : Bool := answers s || (s.power.dev == .saving && (m.op == 1 || m.op == 3))

/-- Mailbox slots with requests to answer, oldest first (R32). -/
def mbxWaiting (s : State) : List Nat := s.mgmt.mbxOrder.filter (fun k => (s.mgmt.mbx.getD k {}).req.any (fun m => serves m s))

/-- Whether a transport delivers a request to the device: an operator session that is up, or in recovery the field network
without one (R466); MCTP while a sideband is in service, at the endpoint ID that the bus owner assigned, with the device's
vendor identifier (R76); a mailbox slot that holds it (R49) and is the oldest not answered (R32), in READY. -/
def delivers (via : Via) (m : DictMsg) (s : State) : Bool :=
  match via with
  | .session sid => s.power.dev == .recovery || s.mgmt.sessions.any (fun x => x.id == sid && x.up)
  | .mctp eid vendor => s.host.sidebands != 0 && eid == s.host.eid && vendor == 0x1ED8
  | .mailbox k => (s.mgmt.mbx.getD k {}).req == some m && (mbxWaiting s).head? == some k

/-- Perform a request and answer it; the tag is kept. -/
def serveNew (sig : Option Bool) (via : Via) (m : DictMsg) (s : State) : State :=
  let a := perform sig via m s
  let r := response m a.st a.typ a.value
  a.after (deliver via r (keepTag via m.tag r a.state))

/-- Serve a request that a transport has delivered: a kept tag is answered again with the earlier response and not
performed again (R32). -/
def serveDelivered (sig : Option Bool) (via : Via) (m : DictMsg) (s : State) : State :=
  match keptResponse via m.tag s with
  | some r => deliver via r s
  | none => serveNew sig via m s

/-- Serve a request: one outside a session is dropped and counted (R428). -/
def serve (sig : Option Bool) (via : Via) (m : DictMsg) (s : State) : State :=
  if !serves m s then s
  else if !delivers via m s then
    match via with
    | .session _ => refuseField s
    | _ => s
  else serveDelivered sig via m s

/-- A request of a row that stands for one opcode, or for a write of one object; any other message is none of its own. -/
def serveIf (own : Bool) (via : Via) (m : DictMsg) (s : State) : State := if own then serve none via m s else s

/-- Whether a message is a WRITE of an object. -/
def writes (m : DictMsg) (index sub : Nat) : Bool := m.op == 2 && m.index.toNat == index && m.sub.toNat == sub

/-! ## The rows of the opcode table -/

def execRead (via : Via) (m : DictMsg) (s : State) : Host.Outcome State Fault Refusal := .next (serveIf (m.op == 1) via m s)
def execWrite (via : Via) (m : DictMsg) (s : State) : Host.Outcome State Fault Refusal := .next (serveIf (m.op == 2) via m s)
def execReadBlock (via : Via) (m : DictMsg) (s : State) : Host.Outcome State Fault Refusal := .next (serveIf (m.op == 3) via m s)
def execWriteBlock (via : Via) (m : DictMsg) (s : State) : Host.Outcome State Fault Refusal := .next (serveIf (m.op == 4) via m s)

/-- COMMIT, or a write of OD 0x1F00:01 (R23). -/
def execCommit (via : Via) (m : DictMsg) (s : State) : Host.Outcome State Fault Refusal :=
  .next (serveIf (m.op == 5 || writes m 0x1F00 1) via m s)

def execCancelPendingCommit (via : Via) (m : DictMsg) (s : State) : Host.Outcome State Fault Refusal :=
  .next (serveIf (writes m 0x1F00 4) via m s)
def execDiscardStagedSet (via : Via) (m : DictMsg) (s : State) : Host.Outcome State Fault Refusal :=
  .next (serveIf (writes m 0x1F00 5) via m s)
def execWheelRestart (via : Via) (m : DictMsg) (s : State) : Host.Outcome State Fault Refusal :=
  .next (serveIf (writes m 0x2000 2) via m s)

/-- A queue-pair request with an opcode (R365). -/
def qpWrites (m : DictMsg) (op : Nat) : Bool := writes m 0x7020 1 && fieldAt m.value 0 1 == op

def execConfigure (via : Via) (m : DictMsg) (s : State) : Host.Outcome State Fault Refusal := .next (serveIf (qpWrites m 1) via m s)
def execQpConnect (via : Via) (m : DictMsg) (s : State) : Host.Outcome State Fault Refusal := .next (serveIf (qpWrites m 2) via m s)
def execDrain (via : Via) (m : DictMsg) (s : State) : Host.Outcome State Fault Refusal := .next (serveIf (qpWrites m 3) via m s)
def execQpReset (via : Via) (m : DictMsg) (s : State) : Host.Outcome State Fault Refusal := .next (serveIf (qpWrites m 4) via m s)
def execQpRelease (via : Via) (m : DictMsg) (s : State) : Host.Outcome State Fault Refusal := .next (serveIf (qpWrites m 5) via m s)

def execStartFullScan (via : Via) (m : DictMsg) (s : State) : Host.Outcome State Fault Refusal :=
  .next (serveIf (writes m 0x6000 0x11) via m s)
def execFormatShelf (via : Via) (m : DictMsg) (s : State) : Host.Outcome State Fault Refusal :=
  .next (serveIf (0x6100 ≤ m.index.toNat && m.index.toNat < 0x6110 && writes m m.index.toNat 0x0E) via m s)
def execStartRebuild (via : Via) (m : DictMsg) (s : State) : Host.Outcome State Fault Refusal :=
  .next (serveIf (writes m 0x4020 0x0A) via m s)
def execReleaseRequest (via : Via) (m : DictMsg) (s : State) : Host.Outcome State Fault Refusal :=
  .next (serveIf (writes m 0x9000 2) via m s)
def execWeightKeyWrite (via : Via) (m : DictMsg) (s : State) : Host.Outcome State Fault Refusal :=
  .next (serveIf (writes m 0x9020 m.sub.toNat && m.sub != 0) via m s)
def execScanRequest (via : Via) (m : DictMsg) (s : State) : Host.Outcome State Fault Refusal :=
  .next (serveIf (writes m 0xB030 1) via m s)
def execTestRequest (via : Via) (m : DictMsg) (s : State) : Host.Outcome State Fault Refusal :=
  .next (serveIf (writes m 0xB000 1) via m s)
def execLinkTestStart (via : Via) (m : DictMsg) (s : State) : Host.Outcome State Fault Refusal :=
  .next (serveIf (writes m 0xB040 6 && m.value == [1]) via m s)
def execLinkTestStop (via : Via) (m : DictMsg) (s : State) : Host.Outcome State Fault Refusal :=
  .next (serveIf (writes m 0xB040 6 && m.value == [0]) via m s)
def execWarmReset (via : Via) (m : DictMsg) (s : State) : Host.Outcome State Fault Refusal :=
  .next (serveIf (writes m 0xC050 1) via m s)
def execPartitionReset (via : Via) (m : DictMsg) (s : State) : Host.Outcome State Fault Refusal :=
  .next (serveIf (writes m 0xC050 2) via m s)
def execDiscardHeldSave (via : Via) (m : DictMsg) (s : State) : Host.Outcome State Fault Refusal :=
  .next (serveIf (writes m 0xC030 8) via m s)
def execClearTheLog (via : Via) (m : DictMsg) (s : State) : Host.Outcome State Fault Refusal :=
  .next (serveIf (writes m 0xD000 5) via m s)
def execCounterValueWrite (via : Via) (m : DictMsg) (s : State) : Host.Outcome State Fault Refusal :=
  .next (serveIf (writes m m.index.toNat m.sub.toNat && isCounterValue m.index.toNat m.sub.toNat) via m s)

/-- Whether a message is a block write of the image. -/
def writesImage (m : DictMsg) : Bool := m.op == 4 && m.index.toNat == 0xC040 && m.sub == 1

/-- FIRMWARE_UPDATE (R464): a block of the image, with whether the whole image's signature verifies. -/
def execFirmwareUpdate (via : Via) (m : DictMsg) (imageOk : Bool) (s : State) : Host.Outcome State Fault Refusal :=
  .next (if writesImage m && s.power.dev != .recovery then serve (some imageOk) via m s else s)

/-- RECOVERY_BLOCK_WRITE (R466). -/
def execRecoveryBlockWrite (via : Via) (m : DictMsg) (imageOk : Bool) (s : State) : Host.Outcome State Fault Refusal :=
  .next (if writesImage m && s.power.dev == .recovery then serve (some imageOk) via m s else s)

/-! ## Transports -/

/-- RECORD (R431): dropped with an unknown session, a failed tag or a counter that does not rise; empty, it ends the
session. -/
def record (sid : U32) (ctr : U64) (authOk : Bool) (body : Option DictMsg) (s : State) : State :=
  if !answers s then s
  else
    match s.mgmt.sessions.find? (fun x => x.id == sid && x.up) with
    | none => refuseField s
    | some x =>
      if !authOk || x.rxCtr.any (fun c => ctr.toNat ≤ c) then s
      else
        let y := { x with rxCtr := some ctr.toNat, lastAt := s.now }
        let s1 : State := { s with mgmt := { s.mgmt with
          sessions := s.mgmt.sessions.map (fun z => if z.id == sid then y else z) } }
        match body with
        | none => endSession sid s1
        | some m => serve none (.session sid) m s1

def execRecord (sid : U32) (ctr : U64) (authOk : Bool) (body : Option DictMsg) (s : State) : Host.Outcome State Fault Refusal :=
  .next (record sid ctr authOk body s)

/-- MBX_SUBMIT (R49): a slot whose request has not been answered is ignored and counted. -/
def mbxSubmit (slot : Nat) (m : DictMsg) (s : State) : State :=
  if !cxlServes s || 16 ≤ slot then s
  else if (s.mgmt.mbx.getD slot {}).req.isSome then
    { s with mgmt := { s.mgmt with mbxIgnored := s.mgmt.mbxIgnored + 1 } }
  else
    { s with mgmt := { s.mgmt with
      mbx := s.mgmt.mbx.set slot { s.mgmt.mbx.getD slot {} with req := some m, rsp := none }
      mbxOrder := s.mgmt.mbxOrder ++ [slot] } }

def execMbxSubmit (slot : U32) (m : DictMsg) (s : State) : Host.Outcome State Fault Refusal := .next (mbxSubmit slot.toNat m s)

/-- MBX_DONE (R48): writing 1 clears a bit. -/
def mbxDone (bits : Nat) (s : State) : State :=
  if !cxlServes s then s else
  { s with mgmt := { s.mgmt with mbx := s.mgmt.mbx.mapIdx (fun i x => if bitOf bits i then { x with done := false } else x) } }

def execMbxDone (bits : U32) (s : State) : Host.Outcome State Fault Refusal := .next (mbxDone bits.toNat s)

/-! ## Measurements (R433, R434) -/

/-- A measurement block. -/
def measurement (s : State) (i : Nat) : Bytes :=
  match i with
  | 1 => digestBytes Config.romDigest 32
  | 2 => natLe 32 (od s 0x9030 0x02)
  | 3 => natLe 32 (od s 0x9030 0x03)
  | 4 => digestBytes (stateDigest s) 32
  | 5 => natLe 32 (s.wheel.active.elim 0 (fun p => digestNum p.digest))
  | 6 => natLe 32 ((s.wheel.next.bind (fun n => n.slot)).elim 0 (fun p => digestNum p.digest))
  | 7 => digestBytes (Config.sha256 (weightList s)) 32
  | _ => tenancyBlock s

/-- Blocks that an index asks for: 0 the number of blocks, 1 to 8 one, 0xFF all. -/
def measurementBlocks (s : State) (i : Nat) : Option (List (Nat × Bytes)) :=
  if i = 0 then some []
  else if i ≤ 8 then some [(i, measurement s i)]
  else if i = 255 then some ((List.range 8).map (fun k => (k + 1, measurement s (k + 1))))
  else none

/-- GET_MEASUREMENTS, in a session or outside one. -/
def getMeasurements (session : Option Nat) (index : Nat) (sign : Bool) (s : State) : State :=
  if !answers s then s
  else if spdmRefused s true || session.any (fun id => (findSpdm s id).isNone) then send (.spdm session true [] false) s
  else
    match measurementBlocks s index with
    | none => send (.spdm session true [] false) s
    | some l => send (.spdm session false l sign) s

def execGetMeasurements (session : Option Nat) (index : Byte) (sign : Bool) (s : State) : Host.Outcome State Fault Refusal :=
  .next (getMeasurements session index.toNat sign s)

end Sys2Proof.Machine
end

