-- ==== Sys2Proof/Machine/Tick.lean ====
section
/-! DEFINITION. What the block goes on with of itself: at the end of a copy, and in a nanosecond in which no command waits. -/

namespace Sys2Proof.Machine

/-- MOVE_COMMIT (R301): the copy is over, the writes that waited for it are made (R74), recalls and held packets go on (R317, R375). -/
def execMoveCommit (mv : Nat) (res : CopyResult) (s : State) : Host.Outcome State Fault Refusal :=
  .next (tendPeer (tendRecalls (flushHeld (moveCommit mv res s))))

/-- A nanosecond passes with no command waiting: a rebuild that runs reads one record, prefix commands, writes and packets that waited
go on where they can, interrupts held for the CXL link go out once it is back (R79), and recalls are tried again (R317) (DESIGN CHOICE,
log entries 17 and 154). -/
def tick (s : State) : State :=
  tendPeer (tendRecalls (flushVectors (flushHeld (tendPrefix (rebuildStep { s with now := s.now + 1 })))))

end Sys2Proof.Machine
end

