-- ==== Sys2Proof/Machine/Dispatch.lean ====
section
/-! DEFINITION. The dispatch of commands: one arm per constructor of Instr, in the order of spec/opcode_table.json. -/

namespace Sys2Proof.Machine

/-- The effect of a command on everything but the queue of waiting commands. -/
def exec (i : Instr) (s : State) : Host.Outcome State Fault Refusal :=
  match i with
  | .read via m => Sys2Proof.Machine.execRead via m s
  | .write via m => Sys2Proof.Machine.execWrite via m s
  | .readBlock via m => Sys2Proof.Machine.execReadBlock via m s
  | .writeBlock via m => Sys2Proof.Machine.execWriteBlock via m s
  | .blockWriteTimeout via => Sys2Proof.Machine.execBlockWriteTimeout via s
  | .commit via m => Sys2Proof.Machine.execCommit via m s
  | .cancelPendingCommit via m => Sys2Proof.Machine.execCancelPendingCommit via m s
  | .discardStagedSet via m => Sys2Proof.Machine.execDiscardStagedSet via m s
  | .hello nonce ek => Sys2Proof.Machine.execHello nonce ek s
  | .auth sid cert sigOk => Sys2Proof.Machine.execAuth sid cert sigOk s
  | .record sid ctr authOk body => Sys2Proof.Machine.execRecord sid ctr authOk body s
  | .sessionSetupTimeout sid => Sys2Proof.Machine.execSessionSetupTimeout sid s
  | .sessionIdleTimeout sid => Sys2Proof.Machine.execSessionIdleTimeout sid s
  | .commandTailDoorbell q tail adminRing => Sys2Proof.Machine.execCommandTailDoorbell q tail adminRing s
  | .completionHeadDoorbell q head => Sys2Proof.Machine.execCompletionHeadDoorbell q head s
  | .eventHeadDoorbell ring head => Sys2Proof.Machine.execEventHeadDoorbell ring head s
  | .mbxSubmit slot m => Sys2Proof.Machine.execMbxSubmit slot m s
  | .mbxDone bits => Sys2Proof.Machine.execMbxDone bits s
  | .deferredCommandStart id => Sys2Proof.Machine.execDeferredCommandStart id s
  | .seqOpen q => Sys2Proof.Machine.execSeqOpen q s
  | .seqClose q => Sys2Proof.Machine.execSeqClose q s
  | .seqFork q => Sys2Proof.Machine.execSeqFork q s
  | .seqTruncate q => Sys2Proof.Machine.execSeqTruncate q s
  | .kvAppend q => Sys2Proof.Machine.execKvAppend q s
  | .colSeal q => Sys2Proof.Machine.execColSeal q s
  | .colMove q => Sys2Proof.Machine.execColMove q s
  | .colPin q => Sys2Proof.Machine.execColPin q s
  | .colUnpin q => Sys2Proof.Machine.execColUnpin q s
  | .colDiscard q => Sys2Proof.Machine.execColDiscard q s
  | .pfxLookup q => Sys2Proof.Machine.execPfxLookup q s
  | .pfxCommit q => Sys2Proof.Machine.execPfxCommit q s
  | .pfxEvict q => Sys2Proof.Machine.execPfxEvict q s
  | .objCreate q => Sys2Proof.Machine.execObjCreate q s
  | .objWrite q => Sys2Proof.Machine.execObjWrite q s
  | .objRead q => Sys2Proof.Machine.execObjRead q s
  | .objMove q => Sys2Proof.Machine.execObjMove q s
  | .objPolicy q => Sys2Proof.Machine.execObjPolicy q s
  | .attn q => Sys2Proof.Machine.execAttn q s
  | .attnBwd q => Sys2Proof.Machine.execAttnBwd q s
  | .specConfirm q => Sys2Proof.Machine.execSpecConfirm q s
  | .compaction id => Sys2Proof.Machine.execCompaction id s
  | .tableBuild q => Sys2Proof.Machine.execTableBuild q s
  | .tableLoad q => Sys2Proof.Machine.execTableLoad q s
  | .compress q => Sys2Proof.Machine.execCompress q s
  | .waitCount q => Sys2Proof.Machine.execWaitCount q s
  | .fence q => Sys2Proof.Machine.execFence q s
  | .cxlMemRead p line check => Sys2Proof.Machine.execCxlMemRead p line check s
  | .cxlMemWrite p line data => Sys2Proof.Machine.execCxlMemWrite p line data s
  | .beat m => Sys2Proof.Machine.execBeat m s
  | .beatHoldRelease => Sys2Proof.Machine.execBeatHoldRelease s
  | .sheet m => Sys2Proof.Machine.execSheet m s
  | .submit m => Sys2Proof.Machine.execSubmit m s
  | .window m => Sys2Proof.Machine.execWindow m s
  | .credit m => Sys2Proof.Machine.execCredit m s
  | .sync m => Sys2Proof.Machine.execSync m s
  | .beatSilence => Sys2Proof.Machine.execBeatSilence s
  | .wheelRestart via m => Sys2Proof.Machine.execWheelRestart via m s
  | .tileLanded t owner index check => Sys2Proof.Machine.execTileLanded t owner index check s
  | .itemComplete job item => Sys2Proof.Machine.execItemComplete job item s
  | .jobComplete job => Sys2Proof.Machine.execJobComplete job s
  | .moveCommit mv res => Sys2Proof.Machine.execMoveCommit mv res s
  | .moduleLinkDown mod retrainFailed => Sys2Proof.Machine.execModuleLinkDown mod retrainFailed s
  | .moduleRetrain mod lanes32 => Sys2Proof.Machine.execModuleRetrain mod lanes32 s
  | .sidebandFailure mod => Sys2Proof.Machine.execSidebandFailure mod s
  | .configure via m => Sys2Proof.Machine.execConfigure via m s
  | .qpConnect via m => Sys2Proof.Machine.execQpConnect via m s
  | .drain via m => Sys2Proof.Machine.execDrain via m s
  | .qpReset via m => Sys2Proof.Machine.execQpReset via m s
  | .qpRelease via m => Sys2Proof.Machine.execQpRelease via m s
  | .connectTimeout qp => Sys2Proof.Machine.execConnectTimeout qp s
  | .peerSendTailDoorbell p value => Sys2Proof.Machine.execPeerSendTailDoorbell p value s
  | .peerCompletionHeadDoorbell p value => Sys2Proof.Machine.execPeerCompletionHeadDoorbell p value s
  | .wrWrite qp => Sys2Proof.Machine.execWrWrite qp s
  | .wrWriteImm qp => Sys2Proof.Machine.execWrWriteImm qp s
  | .wrRead qp => Sys2Proof.Machine.execWrRead qp s
  | .wrWaitCount qp => Sys2Proof.Machine.execWrWaitCount qp s
  | .peerWrite port k => Sys2Proof.Machine.execPeerWrite port k s
  | .peerWriteImm port k => Sys2Proof.Machine.execPeerWriteImm port k s
  | .readReq port k => Sys2Proof.Machine.execReadReq port k s
  | .readResp port k => Sys2Proof.Machine.execReadResp port k s
  | .ack port k => Sys2Proof.Machine.execAck port k s
  | .nak port k => Sys2Proof.Machine.execNak port k s
  | .connect port k => Sys2Proof.Machine.execConnect port k s
  | .connectAck port k => Sys2Proof.Machine.execConnectAck port k s
  | .disconnect port k => Sys2Proof.Machine.execDisconnect port k s
  | .busy port k => Sys2Proof.Machine.execBusy port k s
  | .busyResend qp => Sys2Proof.Machine.execBusyResend qp s
  | .retransmissionTimeout qp => Sys2Proof.Machine.execRetransmissionTimeout qp s
  | .peerRekey qp => Sys2Proof.Machine.execPeerRekey qp s
  | .contextFetch qp => Sys2Proof.Machine.execContextFetch qp s
  | .relayedPacket port k => Sys2Proof.Machine.execRelayedPacket port k s
  | .leaseRequest port m => Sys2Proof.Machine.execLeaseRequest port m s
  | .leaseGrant port m => Sys2Proof.Machine.execLeaseGrant port m s
  | .leaseRefuse port m => Sys2Proof.Machine.execLeaseRefuse port m s
  | .leaseReturn port m => Sys2Proof.Machine.execLeaseReturn port m s
  | .leaseRecall port m => Sys2Proof.Machine.execLeaseRecall port m s
  | .leaseDone port m => Sys2Proof.Machine.execLeaseDone port m s
  | .borrowerHoldExpiry lease => Sys2Proof.Machine.execBorrowerHoldExpiry lease s
  | .portBringUp port caps => Sys2Proof.Machine.execPortBringUp port caps s
  | .bringupStepTimeout port => Sys2Proof.Machine.execBringupStepTimeout port s
  | .linkKey port unit pub ek => Sys2Proof.Machine.execLinkKey port unit pub ek s
  | .linkCt port unit pub ct => Sys2Proof.Machine.execLinkCt port unit pub ct s
  | .linkProof port sigOk => Sys2Proof.Machine.execLinkProof port sigOk s
  | .dataFrame port f => Sys2Proof.Machine.execDataFrame port f s
  | .creditFrame port f => Sys2Proof.Machine.execCreditFrame port f s
  | .nakFrame port f => Sys2Proof.Machine.execNakFrame port f s
  | .lane port f => Sys2Proof.Machine.execLane port f s
  | .laneFault port laneNo => Sys2Proof.Machine.execLaneFault port laneNo s
  | .laneFrameRepeat port => Sys2Proof.Machine.execLaneFrameRepeat port s
  | .laneAgreementTimeout port => Sys2Proof.Machine.execLaneAgreementTimeout port s
  | .laneRetrain port laneNo passed => Sys2Proof.Machine.execLaneRetrain port laneNo passed s
  | .laserCheck powers => Sys2Proof.Machine.execLaserCheck powers s
  | .nakRepeat port => Sys2Proof.Machine.execNakRepeat port s
  | .replayTimeout port => Sys2Proof.Machine.execReplayTimeout port s
  | .creditFrameTimer port => Sys2Proof.Machine.execCreditFrameTimer port s
  | .linkRekey port => Sys2Proof.Machine.execLinkRekey port s
  | .packetBoundary port => Sys2Proof.Machine.execPacketBoundary port s
  | .identify shelf h r => Sys2Proof.Machine.execIdentify shelf h r s
  | .param shelf h => Sys2Proof.Machine.execParam shelf h s
  | .badmap shelf h bad => Sys2Proof.Machine.execBadmap shelf h bad s
  | .bridgeRead shelf h hdr => Sys2Proof.Machine.execBridgeRead shelf h hdr s
  | .readMeta shelf h hdr => Sys2Proof.Machine.execReadMeta shelf h hdr s
  | .program shelf h => Sys2Proof.Machine.execProgram shelf h s
  | .erase shelf h => Sys2Proof.Machine.execErase shelf h s
  | .bridgeReset shelf h => Sys2Proof.Machine.execBridgeReset shelf h s
  | .bridgeResponseTimeout shelf tag => Sys2Proof.Machine.execBridgeResponseTimeout shelf tag s
  | .portDownWaitExpiry shelf => Sys2Proof.Machine.execPortDownWaitExpiry shelf s
  | .journalHalfFull shelf => Sys2Proof.Machine.execJournalHalfFull shelf s
  | .checkpoint shelf => Sys2Proof.Machine.execCheckpoint shelf s
  | .garbageCollection shelf => Sys2Proof.Machine.execGarbageCollection shelf s
  | .shelfStartup shelf w => Sys2Proof.Machine.execShelfStartup shelf w s
  | .startFullScan via m => Sys2Proof.Machine.execStartFullScan via m s
  | .formatShelf via m => Sys2Proof.Machine.execFormatShelf via m s
  | .startRebuild via m => Sys2Proof.Machine.execStartRebuild via m s
  | .spdmRequest r => Sys2Proof.Machine.execSpdmRequest r s
  | .finish session mutualAuth leafKey => Sys2Proof.Machine.execFinish session mutualAuth leafKey s
  | .getMeasurements session index sign => Sys2Proof.Machine.execGetMeasurements session index sign s
  | .spdmSessionEnd session => Sys2Proof.Machine.execSpdmSessionEnd session s
  | .own session => Sys2Proof.Machine.execOwn session s
  | .setSecret session setId secret => Sys2Proof.Machine.execSetSecret session setId secret s
  | .tenancySecret session secret => Sys2Proof.Machine.execTenancySecret session secret s
  | .status session => Sys2Proof.Machine.execStatus session s
  | .ownershipWaitExpiry => Sys2Proof.Machine.execOwnershipWaitExpiry s
  | .releaseRequest via m => Sys2Proof.Machine.execReleaseRequest via m s
  | .releaseStepEnd => Sys2Proof.Machine.execReleaseStepEnd s
  | .weightKeyWrite via m => Sys2Proof.Machine.execWeightKeyWrite via m s
  | .scanRequest via m => Sys2Proof.Machine.execScanRequest via m s
  | .testRequest via m => Sys2Proof.Machine.execTestRequest via m s
  | .trigEdge => Sys2Proof.Machine.execTrigEdge s
  | .testComplete signature micros => Sys2Proof.Machine.execTestComplete signature micros s
  | .linkTestStart via m => Sys2Proof.Machine.execLinkTestStart via m s
  | .linkTestStop via m => Sys2Proof.Machine.execLinkTestStop via m s
  | .coldReset cause => Sys2Proof.Machine.execColdReset cause s
  | .boot w => Sys2Proof.Machine.execBoot w s
  | .warmReset via m => Sys2Proof.Machine.execWarmReset via m s
  | .partitionReset via m => Sys2Proof.Machine.execPartitionReset via m s
  | .mgpFault address => Sys2Proof.Machine.execMgpFault address s
  | .firmwareUpdate via m imageOk => Sys2Proof.Machine.execFirmwareUpdate via m imageOk s
  | .recoveryBlockWrite via m imageOk => Sys2Proof.Machine.execRecoveryBlockWrite via m imageOk s
  | .supplySag cause vinMv => Sys2Proof.Machine.execSupplySag cause vinMv s
  | .kilnIsolation => Sys2Proof.Machine.execKilnIsolation s
  | .saveEnd micros => Sys2Proof.Machine.execSaveEnd micros s
  | .discardHeldSave via m => Sys2Proof.Machine.execDiscardHeldSave via m s
  | .thermalSample readings => Sys2Proof.Machine.execThermalSample readings s
  | .pmbusPoll regs stepUp => Sys2Proof.Machine.execPmbusPoll regs stepUp s
  | .pmbusTimeout reg => Sys2Proof.Machine.execPmbusTimeout reg s
  | .powerCheck => Sys2Proof.Machine.execPowerCheck s
  | .logFlush => Sys2Proof.Machine.execLogFlush s
  | .escalation code unit => Sys2Proof.Machine.execEscalation code unit s
  | .clearTheLog via m => Sys2Proof.Machine.execClearTheLog via m s
  | .counterValueWrite via m => Sys2Proof.Machine.execCounterValueWrite via m s
  | .counterSample id job item microOp => Sys2Proof.Machine.execCounterSample id job item microOp s
  | .saveRingCopyEnd => Sys2Proof.Machine.execSaveRingCopyEnd s
  | .coreFailure core => Sys2Proof.Machine.execCoreFailure core s
  | .rtpDomainFailure kiln => Sys2Proof.Machine.execRtpDomainFailure kiln s
  | .slotProgrammed ok => Sys2Proof.Machine.execSlotProgrammed ok s
  | .storedValuesWritten => Sys2Proof.Machine.execStoredValuesWritten s
  | .blockEncoded id core lost => Sys2Proof.Machine.execBlockEncoded id core lost s
  | .borrowerLeaseRequest port bytes => Sys2Proof.Machine.execBorrowerLeaseRequest port bytes s
  | .idleFrame port f => Sys2Proof.Machine.execIdleFrame port f s
  | .checkerLock laneNo => Sys2Proof.Machine.execCheckerLock laneNo s
  | .checkerLockLoss laneNo => Sys2Proof.Machine.execCheckerLockLoss laneNo s
  | .checkerError laneNo bits => Sys2Proof.Machine.execCheckerError laneNo bits s

end Sys2Proof.Machine
end

