-- ==== Sys2Proof/Machine/Step.lean ====
section
/-! DEFINITION. One step of the block: the waiting command at the front of the queue is carried out; with none waiting,
time passes (R488; log entry 1). -/

namespace Sys2Proof.Machine

/-- Take the command at the front of the queue and carry it out on the rest; with an empty queue one nanosecond
passes, in which a rebuild goes on (DESIGN CHOICE, log entries 1 and 17). -/
def step (s : State) : Host.Outcome State Fault Refusal :=
  match s.pending with
  | [] => .next (tick s)
  | c :: rest => exec c { s with pending := rest }

/-- The state with the command that a word spells put at the front of its queue; unchanged where it spells none. -/
def State.withFetchWord (s : State) (nbits w : Nat) : State :=
  match decodeTableWord nbits w with
  | some c => { s with pending := c :: s.pending }
  | none => s

end Sys2Proof.Machine
end

