-- ==== Sys2Proof/Safety.lean ====
section
/-! DEFINITION. What counts as a safe run, in the terms that claims use: the invariant of every state, what a step leaves
alone, and when a queue's front command runs. -/

namespace Sys2Proof.Machine

/-! ## The invariant -/

/-- Every state of a safe run: the dictionary store and the partition ranges are in their canonical forms. -/
structure Invariant (s : State) : Prop where
  odForm : OdStore.wf s.od
  memForm : Memory.wf s.mem

/-- A run is safe at a state if it meets the invariant and its next step neither faults nor is refused. -/
def Safe (s : State) : Prop := Invariant s ∧ ∃ t, step s = .next t

/-- Nothing waits that the block goes on with of itself: no rebuild runs, no command is open, and no write, packet, vector, recall or
lease message waits, nor a pair for what may start. -/
structure Quiet (s : State) : Prop where
  rebuild : s.pfx.rebuildState ≠ 1
  commands : s.queues.cmds = []
  writes : s.objs.heldWrites = []
  bring : s.objs.bring = []
  vectors : s.host.vectorsHeld = []
  recalls : ∀ l ∈ s.pasture.leases, l.lent = true ∨ l.recalls = []
  packets : s.peer.heldPkts = []
  leases : s.peer.leaseOut = []
  pairs : ∀ q ∈ s.peer.qps, q.waiting = [] ∧ (q.state = .draining → q.started ≠ [])

/-! ## What a step leaves alone -/

/-- The parts of the state beside the waiting commands and the clock. -/
inductive Part where
  | mem | mgmt | host | queues | wheel | sheets | jobs | kv | objs | pfx | tables
  | pasture | shelves | peer | links | sec | power | log | samplers | od | tx | fresh
  deriving DecidableEq, Repr

/-- Whether `t` has a part as `s` has it. -/
def Part.Same (p : Part) (s t : State) : Prop :=
  match p with
  | .mem => t.mem = s.mem
  | .mgmt => t.mgmt = s.mgmt
  | .host => t.host = s.host
  | .queues => t.queues = s.queues
  | .wheel => t.wheel = s.wheel
  | .sheets => t.sheets = s.sheets
  | .jobs => t.jobs = s.jobs
  | .kv => t.kv = s.kv
  | .objs => t.objs = s.objs
  | .pfx => t.pfx = s.pfx
  | .tables => t.tables = s.tables
  | .pasture => t.pasture = s.pasture
  | .shelves => t.shelves = s.shelves
  | .peer => t.peer = s.peer
  | .links => t.links = s.links
  | .sec => t.sec = s.sec
  | .power => t.power = s.power
  | .log => t.log = s.log
  | .samplers => t.samplers = s.samplers
  | .od => t.od = s.od
  | .tx => t.tx = s.tx
  | .fresh => t.fresh = s.fresh

/-- From `s` to `t` at most the parts `l` change: the commands that wait and the clock stay. -/
def OnlyIn (l : List Part) (s t : State) : Prop :=
  t.pending = s.pending ∧ t.now = s.now ∧ ∀ p, p ∉ l → p.Same s t

/-! ## A queue's front command -/

/-- The descriptor `d` at the front of queue `q` is command `op`, and it is started and carried out now: the queue may
start it (R36, R53, R58, R78), its completion record lies inside the queue's window (R66), the device is OWNED (R14), its header is well formed (R52),
it names no later position (R153), and nothing makes it wait (R37, R104, R152). -/
structure Front (op : Nat) (q : QRef) (d : Desc) (ds : List Desc) (s : State) : Prop where
  front : (queueOf s q).waiting = d :: ds
  code : dOpcode d = op
  may : canStart s q = true
  lands : windowHolds (compWindow s q) 2 (32 * ((queueOf s q).completed % ringSize s q)) 32 s = true
  own : owned s = true
  form : headerOk q d = true
  soon : hasAt op = true → dAt d = 0
  clear : mustWait (popCmd q d ds s) d = false
  turn : waitsBehind (popCmd q d ds s) (takenCmd q d s) = false

/-- The bodies of the messages to the host, in the order they were made. -/
def bodies (s : State) : List HostMsg := s.host.unacked.map (fun m => m.body)

/-- The completion record of a command whose queue stands as in `s` (R53 to R55). -/
def completionOf (q : QRef) (d : Desc) (st : Status) (result : Nat) (s : State) : HostMsg :=
  .completion (compWindow s q) (32 * ((queueOf s q).completed % ringSize s q)) (queuePart q)
    { tag := BitVec.ofNat 32 (dfield d 4 4), opcode := dfield d 0 1, status := st, queue := queueField q,
      phase := (queueOf s q).completed / ringSize s q % 2 == 0, wpos := s.wheel.cur, result := result }

/-- From `s` to `t` the queue's command `d` has completed: its record is among the messages to the host made since. -/
def Reports (q : QRef) (d : Desc) (st : Status) (result : Nat) (s t : State) : Prop :=
  ∃ before, (bodies s ++ before ++ [completionOf q d st result s]) <+: bodies t

/-- From `s` to `t` the queue's command `d` has completed, with at most the parts `l` changed beside the queues, the pairs that wait on
counts and what is sent to the host. -/
def Completes (q : QRef) (d : Desc) (st : Status) (result : Nat) (l : List Part) (s t : State) : Prop :=
  Reports q d st result s t ∧ OnlyIn (.host :: .queues :: .peer :: l) s t

/-! ## Frames on a link -/

/-- Port `n` may be brought up: it is neither up, failed nor under test, and the device is ready (R395, R504, R509). -/
structure Trains (n : Nat) (s : State) : Prop where
  down : portUp s n = false
  sound : (portOf s n).failed = false
  free : s.power.linkTest = none
  untested : s.power.test = none
  runs : ready s = true

/-- A frame of kind `t` arrives whole at port `n`, which is up: it is corrected, authentic, and on a heath port the expected one
(R400 to R403). -/
structure Arrives (n t : Nat) (f : Frame) (s : State) : Prop where
  up : portUp s n = true
  kind : f.ftype.toNat = t
  whole : f.fecOk = true
  auth : f.authOk = true
  order : isHeathPort n = true → frameCtr (portOf s n) f.ctrLo.toNat = expectedCtr (portOf s n)

/-- The state after a frame has been received and before it is acted on: it is counted with the bytes corrected in it, the
port's counter and epoch follow it, and no run of bad frames and no replay goes on (R402, R403, R408, R488). -/
def received (n : Nat) (f : Frame) (s : State) : State :=
  laneReached n (frameCtr (portOf s n) f.ctrLo.toNat) (count (.port n) 0x0203 1 {} (bump64 (portIx n) 0x06 (editPort n (fun x => { x with
    rxCtr := some (frameCtr (portOf s n) f.ctrLo.toNat), bad := 0
    rxEpoch := if bitOf f.flags.toNat 0 != ((portOf s n).rxEpoch % 2 == 1) then (portOf s n).rxEpoch + 1
      else (portOf s n).rxEpoch
    rxLost := false, nakAt := none }) (odAdd (portIx n) 0x09 64 f.corrected s))))

/-! ## Packets for a pair of this node -/

/-- Packet `k` reaches pair `q` of this node over a peer port that is up: the pair's context is on die, and no earlier packet waits for
it (R360, R383) or, of those that keep their order, for a tier copy (R375). A handshake of a device pair names the pair of its port
(log entry 32). -/
structure Reaches (port : Nat) (k : Pkt) (q : Qp) (s : State) : Prop where
  up : portUp s port = true
  node : ownNode s ≠ 0xFFFF
  here : k.dstNode.toNat = ownNode s
  onDie : s.peer.onDie.contains k.dstQp.toNat = true
  direct : atPort port k = k
  first : s.peer.parked.filter (fun x => x.2.dstQp.toNat == k.dstQp.toNat) = []
  behind : inOrder k = true → s.peer.heldPkts.any (fun x => x.dstQp == k.dstQp) = false
  pair : findQp s k.dstQp.toNat = some q

/-- The same, and the packet is authentic under an epoch that the pair takes (R386, R387). -/
structure Accepts (port : Nat) (k : Pkt) (q : Qp) (s : State) : Prop extends Reaches port k q s where
  tag : k.authentic = true
  epoch : epochFits q k = true

/-- The pair once it has followed the epoch of an accepted packet (R386). -/
def epochKept (k : Pkt) (q : Qp) : Qp := { q with rxEpoch := epochAfter q k }

/-! ## Answers of a heath bridge -/

/-- The bridge of shelf `h` answers operation `o`, which was asked with code `code`, over a port that serves, with a header that is a
response's and a status that is neither a LUN's silence nor a fault of the device (R328 to R331). -/
structure Answers (h code : Nat) (b : BridgeHdr) (o : BridgeOp) (s : State) : Prop where
  asked : (shelfOf s h).ops.find? (fun x => x.tag == b.tag.toNat && x.op == code) = some o
  up : heathUp s h = true
  marked : b.flags.getLsbD 0 = true
  status : b.status.toNat ≠ 5 ∧ b.status.toNat ≠ 6

/-- The state after an operation's answer has been taken: it is asked no more, and its LUN responds (R331, R354). -/
def taken (h : Nat) (o : BridgeOp) (s : State) : State :=
  setShelf h (lunWell o { shelfOf s h with ops := (shelfOf s h).ops.filter (fun y => y.tag != o.tag) }) s

/-! ## Dictionary requests -/

/-- A dictionary request is delivered and served for the first time (R32, R49, R431, R475), with the value length that its
header gives (R30). -/
structure Asks (via : Via) (m : DictMsg) (s : State) : Prop where
  served : serves m s = true
  arrives : delivers via m s = true
  fresh : keptResponse via m.tag s = none
  whole : m.length.toNat = m.value.length

/-- The same outside recovery, in which most requests are refused (R466). -/
structure Request (via : Via) (m : DictMsg) (s : State) : Prop extends Asks via m s where
  running : s.power.dev ≠ .recovery

/-- A request is a write of one object that the object's listing admits (R17, R19, R20): a WRITE, or a COMMIT of OD
0x1F00:01. -/
structure Writes (via : Via) (m : DictMsg) (index sub : Nat) (r : OdRow) (s : State) : Prop where
  request : Request via m s
  target : (m.op = 2 ∧ m.index.toNat = index ∧ m.sub.toNat = sub) ∨ (m.op = 5 ∧ index = 0x1F00 ∧ sub = 1)
  admitted : writeCheck (Via.role via) s index sub = .ok r
  short : r.size ≤ 1024
  typed : m.typ.toNat = r.ty.code
  long : m.value.length = r.size
  inRange : r.range.ok (leNat m.value) = true
  special : specialOk s index sub (leNat m.value) m.value = true

/-- The state after a request has been carried out up to `s` and answered: the tag kept with its response (R32), and the
response sent. -/
def answered (via : Via) (m : DictMsg) (st : Status) (typ : Nat) (value : Bytes) (s : State) : State :=
  deliver via (response m st typ value) (keepTag via m.tag (response m st typ value) s)

/-! ## Kinds of command -/

/-- The dictionary requests (R30), those in records of an operator session included. -/
def isDictionary : Instr → Bool
  | .read .. | .write .. | .readBlock .. | .writeBlock .. | .commit .. | .cancelPendingCommit .. | .discardStagedSet ..
  | .wheelRestart .. | .configure .. | .qpConnect .. | .drain .. | .qpReset .. | .qpRelease .. | .startFullScan ..
  | .formatShelf .. | .startRebuild .. | .releaseRequest .. | .weightKeyWrite .. | .scanRequest .. | .testRequest ..
  | .linkTestStart .. | .linkTestStop .. | .warmReset .. | .partitionReset .. | .firmwareUpdate .. | .recoveryBlockWrite ..
  | .discardHeldSave .. | .clearTheLog .. | .counterValueWrite .. | .record .. => true
  | _ => false

/-- The host's messages that the wheel follows (R64, R68), and what follows from them in time. -/
def isMessage : Instr → Bool
  | .beat .. | .beatHoldRelease | .beatSilence | .sheet .. | .submit .. | .window .. | .sync .. => true
  | _ => false

/-- Resets, boots, sags, tests and releases: what can change every part of the state. -/
def isLifecycle : Instr → Bool
  | .coldReset .. | .boot .. | .mgpFault .. | .releaseStepEnd | .supplySag .. | .thermalSample .. | .kilnIsolation
  | .saveEnd .. | .testComplete .. | .rtpDomainFailure .. => true
  | _ => false

/-- Other commands that act on tenancy, sessions, secrets and keys. -/
def touchesSecrets : Instr → Bool
  | .deferredCommandStart .. | .objWrite .. | .objMove .. | .linkProof .. | .program .. | .spdmRequest .. | .finish ..
  | .spdmSessionEnd .. | .own .. | .setSecret .. | .tenancySecret .. | .ownershipWaitExpiry => true
  | _ => false

/-- Other commands that can store to the partition ranges: their own stores, packets placed, submissions handed on when a job ends, and
writes and packets that waited for a tier copy of their extent (R74, R105, R301, R375). -/
def touchesMemory : Instr → Bool
  | .deferredCommandStart .. | .pfxCommit .. | .pfxEvict .. | .objCreate .. | .objWrite .. | .objMove .. | .objPolicy ..
  | .attn .. | .attnBwd .. | .specConfirm .. | .compaction .. | .cxlMemRead .. | .cxlMemWrite .. | .tileLanded ..
  | .itemComplete .. | .jobComplete .. | .moveCommit .. | .moduleRetrain .. | .connectTimeout .. | .peerSendTailDoorbell ..
  | .peerCompletionHeadDoorbell .. | .wrWrite .. | .wrWriteImm .. | .wrRead .. | .wrWaitCount .. | .peerWrite ..
  | .peerWriteImm .. | .readReq .. | .readResp .. | .ack .. | .nak .. | .connect .. | .connectAck .. | .disconnect .. | .busy ..
  | .busyResend .. | .retransmissionTimeout .. | .peerRekey .. | .contextFetch .. | .leaseRequest .. | .leaseGrant ..
  | .leaseRefuse .. | .leaseReturn .. | .leaseRecall .. | .leaseDone .. | .linkProof .. | .identify .. | .param .. | .badmap ..
  | .bridgeRead .. | .readMeta .. | .program .. | .erase .. | .bridgeReset .. | .bridgeResponseTimeout .. | .portDownWaitExpiry ..
  | .garbageCollection .. | .trigEdge | .saveRingCopyEnd | .coreFailure .. | .blockEncoded .. | .borrowerLeaseRequest .. => true
  | _ => false

/-- Other commands that load a code table. -/
def touchesTables : Instr → Bool
  | .deferredCommandStart .. | .tableLoad .. | .linkProof .. | .program .. => true
  | _ => false

end Sys2Proof.Machine
end

