-- ==== Sys2Proof/Certificates/Slice0/Obligations.lean ====
section
/-! DEFINITION. The statements for the provers: what a step is, what reset leaves, what every step keeps, and what each command
does, family by family. Each docstring names the rules it follows and, where a clause rests on a choice of the model, the
entry of the assumption log. -/

open Sys2Proof Sys2Proof.Machine

/-- A step takes the command at the front of the queue and answers what the command answers with the queue's rest; with no
command waiting the clock moves by one nanosecond, and where nothing waits that the block goes on with of itself (a rebuild, commands,
writes, packets, interrupts, recalls, pairs) nothing else changes (the model's choice, log entries 1, 17 and 154). -/
def Obligations.StepRunsTheFrontCommand : Prop :=
  (∀ (c : Instr) (cs : List Instr) (s : State), step { s with pending := c :: cs } = exec c { s with pending := cs }) ∧
  (∀ s : State, s.pending = [] → step s = .next (tick s) ∧ (tick s).now = s.now + 1) ∧
  (∀ s : State, Quiet s → tick s = { s with now := s.now + 1 })

/-- After reset (R21, R43, R80, R434, R460): no command waits, the device boots from step 1 with nobody owning it, no identity, secret
or session, the wheel at position 0 with no plan, every object of the dictionary at its default and every byte of the
partition ranges zero, no structure of a tenant, and nothing sent. That an unwritten byte reads as zero, and every value without a
default in the spec, are the model's choice (log entry 5). -/
def Obligations.ResetHoldsTheDefaults : Prop :=
  State.reset.pending = [] ∧ State.reset.tx = [] ∧ State.reset.power.dev = .booting ∧ State.reset.power.needsBoot = true ∧
  State.reset.power.warm = false ∧ State.reset.sec.tenancy = .unowned ∧ State.reset.sec.identity = none ∧
  State.reset.sec.setSecret = none ∧ State.reset.sec.tenSecret = none ∧ State.reset.sec.sessions = [] ∧
  State.reset.mgmt.sessions = [] ∧ State.reset.mgmt.op.pend = none ∧ State.reset.mgmt.op.staged = [] ∧
  State.reset.mgmt.ten.pend = none ∧ State.reset.mgmt.ten.staged = [] ∧
  State.reset.wheel.cur = 0 ∧ State.reset.wheel.active = none ∧ State.reset.wheel.next = none ∧
  State.reset.jobs.jobs = [] ∧ State.reset.queues.cmds = [] ∧ State.reset.objs.objs = [] ∧ State.reset.log.tail = [] ∧
  (∀ i k r, k < 256 → odFind i k = some r → od State.reset i k = r.dflt) ∧
  (∀ p off, memByte State.reset p off = 0)

/-- The invariant holds after reset. -/
def Obligations.ResetMeetsTheInvariant : Prop :=
 Invariant State.reset

/-- Every step keeps the invariant: the dictionary store and the memory of the partition ranges stay in their canonical forms,
so that equal contents are equal data, whatever command runs. -/
def Obligations.EveryStepKeepsTheInvariant : Prop :=
 ∀ s t, Invariant s → step s = .next t → Invariant t

/-- Every command completes in every state, with a next state that keeps the commands behind it and the clock: nothing the block can
be sent ends its run. -/
def Obligations.EveryCommandCompletes : Prop :=
  (∀ c s, ∃ t, exec c s = .next t ∧ t.pending = s.pending ∧ t.now = s.now) ∧
  (∀ s, Invariant s → Safe s)

/-- What no other command does (R79, R418, R434, R445, R248): beside dictionary requests, the host's messages, resets, boots, sags,
tests and releases, no command moves the wheel; none but SPDM, tenancy and sealed weights acts on secrets and tenancy; and
partition memory and code tables change only by the commands that store there. -/
def Obligations.OnlyTheNamedCommandsTouch : Prop :=
  ∀ c s t, exec c s = .next t → isDictionary c = false → isMessage c = false → isLifecycle c = false →
    t.wheel = s.wheel ∧ (touchesSecrets c = false → t.sec = s.sec) ∧
    (touchesMemory c = false → ∀ p off, memByte t p off = memByte s p off) ∧ (touchesTables c = false → t.tables = s.tables)

/-- Wheel positions order by step, then layer, then phase, and this is the unsigned order of the 64-bit values (R5). -/
def Obligations.PositionsOrderAsNumbers : Prop :=
  ∀ v w : WPos, Pos.ok v = true → Pos.ok w = true →
    (v.toNat < w.toNat ↔ Pos.step v < Pos.step w ∨ (Pos.step v = Pos.step w ∧
      (Pos.layer v < Pos.layer w ∨ (Pos.layer v = Pos.layer w ∧ Pos.phase v < Pos.phase w)))) ∧
    (v = w ↔ Pos.step v = Pos.step w ∧ Pos.layer v = Pos.layer w ∧ Pos.phase v = Pos.phase w)

/-- A write of a position to OD 0x2000:02 restarts the wheel where both plan slots are empty, no commit is pending and no
comparator is held, and else answers ST_CONFLICT and changes nothing; the next beat takes effect only at or after that position
(R84, R80). -/
def Obligations.WheelRestarts : Prop :=
  (∀ via m r s, Writes via m 0x2000 2 r s → m.op = 2 → s.wheel.active = none → s.wheel.next = none →
    s.mgmt.op.pend = none → s.mgmt.ten.pend = none → cmdComps s = 0 →
    exec (.wheelRestart via m) s = .next (answered via m .ok 0 [] { s with wheel := { s.wheel with
      cur := BitVec.ofNat 64 (leNat m.value), floor := BitVec.ofNat 64 (leNat m.value), fresh := true, stepStart := none } })) ∧
  (∀ via m r s, Writes via m 0x2000 2 r s → m.op = 2 → s.wheel.active ≠ none ∨ s.wheel.next ≠ none ∨
      s.mgmt.op.pend ≠ none ∨ s.mgmt.ten.pend ≠ none ∨ cmdComps s ≠ 0 →
    exec (.wheelRestart via m) s = .next (answered via m .conflict 0 [] s)) ∧
  (∀ w c s, Pos.ok w = true → Pos.layer w ≤ lastAt s (Pos.step w) → s.wheel.fresh = true → w.toNat < s.wheel.floor.toNat →
    judgeBeat w c s = beatBackward w s) ∧
  (∀ w c s, Pos.ok w = true → Pos.layer w ≤ lastAt s (Pos.step w) → s.wheel.fresh = true → s.wheel.floor.toNat ≤ w.toNat →
    tooEarly s w = false → judgeBeat w c s = takeEffect w c s)

/-- A role with a pending commit (R26): its writes of RWS objects and of OD 0x1F00:01, and its COMMIT messages, answer ST_CONFLICT
and change nothing; OD 0x1F00:04 cancels the commit and returns its content to the staged set, and answers ST_CONFLICT where none
is pending; OD 0x1F00:05 clears the staged set alone. -/
def Obligations.OneCommitIsPendingAtATime : Prop :=
  (∀ via m i k r p s, Writes via m i k r s → m.op = 2 → r.acc = .rws → (roleSt (Via.role via) s).pend = some p →
    exec (.write via m) s = .next (answered via m .conflict 0 [] s)) ∧
  (∀ via m r p s, Request via m s → m.op = 4 → m.index ≠ 0xC040 → writeCheck (Via.role via) s m.index.toNat m.sub.toNat = .ok r →
    1024 < r.size → m.typ.toNat = r.ty.code → r.acc = .rws → 1 ≤ m.value.length → m.value.length ≤ 1024 →
    (roleSt (Via.role via) s).pend = some p →
    exec (.writeBlock via m) s = .next (answered via m .conflict 0 [] s)) ∧
  (∀ via m r p s, Writes via m 0x1F00 1 r s → (roleSt (Via.role via) s).pend = some p →
    exec (.commit via m) s = .next (answered via m .conflict 0 [] s)) ∧
  (∀ via m r p s, Writes via m 0x1F00 4 r s → (roleSt (Via.role via) s).pend = some p →
    exec (.cancelPendingCommit via m) s = .next (answered via m .ok 0 [] (announceCommit .ok
      (setRole (Via.role via) (fun x => { x with pend := none, staged := p.content, resState := 5, resStatus := 0 }) s)))) ∧
  (∀ via m r s, Writes via m 0x1F00 4 r s → (roleSt (Via.role via) s).pend = none →
    exec (.cancelPendingCommit via m) s = .next (answered via m .conflict 0 [] s)) ∧
  (∀ via m r s, Writes via m 0x1F00 5 r s →
    exec (.discardStagedSet via m) s = .next (answered via m .ok 0 []
      (setRole (Via.role via) (fun x => { x with staged := [] }) s)))

/-- READ and READ_BLOCK of an object that the reader may see answer ST_OK with its type and its value, in blocks of 1,024
bytes for a longer one, and change nothing but what sending the response changes (R19, R31, R32). -/
def Obligations.ReadsAnswerTheValue : Prop :=
  (∀ via m r s, Request via m s → m.op = 1 → readCheck (Via.role via) s m.index.toNat m.sub.toNat = .ok r → r.size ≤ 1024 →
    exec (.read via m) s = .next (answered via m .ok r.ty.code
      (natLe r.size (odValue (Via.role via) (bitOf m.flags.toNat 0) s r m.index.toNat m.sub.toNat)) s)) ∧
  (∀ via m r s, Request via m s → m.op = 3 → readCheck (Via.role via) s m.index.toNat m.sub.toNat = .ok r →
    ctrLocOf m.index.toNat = none → 1024 < r.size → 1024 * m.block.toNat < r.size →
    exec (.readBlock via m) s = .next (answered via m .ok r.ty.code
      (natLe (min 1024 (r.size - 1024 * m.block.toNat))
        (odValue (Via.role via) (bitOf m.flags.toNat 0) s r m.index.toNat m.sub.toNat / 2 ^ (8192 * m.block.toNat))) s))

/-- A request that the requester may not make is answered with its status and changes nothing else: a read of a tenant's
object by the operator while the device is OWNED, and a tenant's request outside OWNED, ST_NOT_OWNED; an object that no
listing has, ST_BAD_OBJECT (R13, R14, R20). -/
def Obligations.RefusedRequestsChangeNothing : Prop :=
  (∀ via m st s, Request via m s → m.op = 1 → readCheck (Via.role via) s m.index.toNat m.sub.toNat = .error st →
    exec (.read via m) s = .next (answered via m st 0 [] s)) ∧
  (∀ via m st s, Request via m s → m.op = 2 → writeCheck (Via.role via) s m.index.toNat m.sub.toNat = .error st →
    exec (.write via m) s = .next (answered via m st 0 [] s)) ∧
  (∀ s index sub r, odFind index sub = some r → r.acc ≠ .wo → owned s = true → tenantOwned r = true →
    readCheck .operator s index sub = .error .notOwned) ∧
  (∀ s index sub, owned s = false → (index < 0x1000 ∨ 0x2000 ≤ index) → readCheck .tenant s index sub = .error .notOwned) ∧
  (∀ s index sub, owned s = false → writeCheck .tenant s index sub = .error .notOwned) ∧
  (∀ s index sub, odFind index sub = none → readCheck .operator s index sub = .error .badObject ∧
    writeCheck .operator s index sub = .error .badObject)

/-- A write of an RWS object goes to the writer's staged set, and of an RW object without a meaning of its own into the
dictionary at once, marked to be stored where the object is; a new least number of lanes takes down the ports that have fewer (R19,
R21, R22, R396). -/
def Obligations.WritesTakeEffect : Prop :=
  (∀ via m i k r s, Writes via m i k r s → m.op = 2 → r.acc = .rws → (roleSt (Via.role via) s).pend = none →
    (insertKey (odKey i k) (leNat m.value) (roleSt (Via.role via) s).staged).length ≤ 512 →
    exec (.write via m) s = .next (answered via m .ok 0 []
      (setRole (Via.role via) (fun x => { x with
        staged := insertKey (odKey i k) (leNat m.value) (roleSt (Via.role via) s).staged }) s))) ∧
  (∀ via m i k r s, Writes via m i k r s → m.op = 2 → r.acc = .rw → ctrLocOf i = none → i ≠ 0x2000 → i ≠ 0xB040 →
    i ≠ 0xC020 → i ≠ 0xD001 → i ≠ 0x7100 ∨ (k ≠ 2 ∧ k ≠ 3) →
    exec (.write via m) s = .next (answered via m .ok 0 []
      (markStored [odKey i k] (odSet i k (leNat m.value) s)))) ∧
  (∀ via m k r s, Writes via m 0x7100 k r s → m.op = 2 → k = 2 ∨ k = 3 →
    exec (.write via m) s = .next (answered via m .ok 0 [] (forEach (fun i => lanesChanged (if k = 2 then i else 32 + i))
      (List.range (if k = 2 then 32 else 16)) (markStored [odKey 0x7100 k] (odSet 0x7100 k (leNat m.value) s)))))

/-- WRITE_BLOCK keeps the blocks of a value of more than 1,024 bytes until its last, which stages the whole value; blocks
without a next one for 1 s are discarded, and with those of an image its update has failed with ST_ABORTED (R31, R464). -/
def Obligations.BlockWritesGather : Prop :=
  (∀ via m r s, Request via m s → m.op = 4 → m.block = 0 → m.index ≠ 0xC040 →
    writeCheck (Via.role via) s m.index.toNat m.sub.toNat = .ok r → 1024 < r.size → m.typ.toNat = r.ty.code →
    m.value.length = 1024 → (roleSt (Via.role via) s).pend = none →
    exec (.writeBlock via m) s = .next (answered via m .ok 0 []
      (keepBlocks via m.index.toNat m.sub.toNat 0 m.value s))) ∧
  (∀ via m r b s, Request via m s → m.op = 4 → m.block ≠ 0 → m.index ≠ 0xC040 →
    writeCheck (Via.role via) s m.index.toNat m.sub.toNat = .ok r → 1024 < r.size → m.typ.toNat = r.ty.code →
    1 ≤ m.value.length → m.value.length ≤ 1024 → (roleSt (Via.role via) s).pend = none →
    s.mgmt.blocks.find? (sameWrite via m.index.toNat m.sub.toNat) = some b → b.next = m.block.toNat →
    b.bytes.length + m.value.length = r.size →
    specialOk s m.index.toNat m.sub.toNat 0 (b.bytes ++ m.value) = true →
    (insertKey (odKey m.index.toNat m.sub.toNat) (leNat (b.bytes ++ m.value)) (roleSt (Via.role via) s).staged).length ≤ 512 →
    exec (.writeBlock via m) s = .next (answered via m .ok 0 []
      (setRole (Via.role via) (fun x => { x with
        staged := insertKey (odKey m.index.toNat m.sub.toNat) (leNat (b.bytes ++ m.value)) (roleSt (Via.role via) s).staged })
        (dropWrite via m.index.toNat m.sub.toNat s)))) ∧
  (∀ via s, s.mgmt.blocks.any (fun b => b.via == requester via && b.index == 0xC040) = false →
    exec (.blockWriteTimeout via) s = .next { s with mgmt := { s.mgmt with
      blocks := s.mgmt.blocks.filter (fun b => !(b.via == requester via && decide (b.lastAt + 1000000000 ≤ s.now))) } }) ∧
  (∀ via s b, b ∈ s.mgmt.blocks → b.via = requester via → b.index = 0xC040 → b.lastAt + 1000000000 ≤ s.now →
    exec (.blockWriteTimeout via) s = .next (odSet 0xC040 0x03 Status.aborted.code (odSet 0xC040 0x02 5 { s with mgmt := {
      s.mgmt with
        blocks := s.mgmt.blocks.filter (fun b => !(b.via == requester via && decide (b.lastAt + 1000000000 ≤ s.now))) } })))

/-- A commit whose check succeeds is applied at position 0, where the device is idle, and else waits for its position, its set
no longer staged (R22 to R25). -/
def Obligations.CommitsApplyOrWait : Prop :=
  (∀ via m r load s, Writes via m 0x1F00 1 r s → leNat m.value = 0 → (roleSt (Via.role via) s).pend = none →
    checkCommit (Via.role via) (roleSt (Via.role via) s).staged 0 s = .ok load →
    exec (.commit via m) s = .next (answered via m .ok 0 [] (applyCommit (Via.role via) [] (roleSt (Via.role via) s).staged load
      (setRole (Via.role via) (fun x => { x with resSeq := x.resSeq + 1, staged := [], conflict := 0 }) s)))) ∧
  (∀ via m r pos load s, Writes via m 0x1F00 1 r s → pos = BitVec.ofNat 64 (leNat m.value) → pos ≠ 0 →
    (roleSt (Via.role via) s).pend = none → checkCommit (Via.role via) (roleSt (Via.role via) s).staged pos s = .ok load →
    exec (.commit via m) s = .next (answered via m .ok 0 [] (setRole (Via.role via) (fun x => { x with
      resSeq := x.resSeq + 1, staged := [], conflict := 0, resState := 1, resStatus := 0
      pend := some { pos := pos, content := (roleSt (Via.role via) s).staged, pool := drawsComp s pos, load := load,
                     units := setUnits s (roleSt (Via.role via) s).staged } }) s)))

/-- Writes that clear the fault log, clear a counter or discard a held save, and requests of heath and of the prefix store: full
scans of ready shelves, the format of a refused shelf, a rebuild, which starts with the records of the log and is in conflict
while one runs (R289, R335, R348, R482, R494, R522). That a rebuild reads a record a step
is the model's choice (log entry 17). -/
def Obligations.ControlAndStoreRequestsAct : Prop :=
  (∀ via m r s, Writes via m 0xD000 5 r s → m.op = 2 →
    exec (.clearTheLog via m) s = .next (answered via m .ok 0 [] (fault .logCleared unitDevice
      (s.log.ring.length + s.log.tail.length) none
      { s with log := { s.log with ring := [], tail := [], oldest := s.log.head } }))) ∧
  (∀ via m l j r s, Writes via m (CtrLoc.index l) (l.valSub j) r s → m.op = 2 → ctrLocOf l.index = some l → j < l.count →
    bitOf (od s l.index (l.cfgSub j)) 54 = false →
    exec (.counterValueWrite via m) s = .next (answered via m .ok 0 [] (odSet l.index (l.valSub j) 0 s))) ∧
  (∀ via m r s, Writes via m 0xC030 8 r s → m.op = 2 → s.power.kiln.held = true →
    exec (.discardHeldSave via m) s = .next (answered via m .ok 0 [] (event .media none 0 0 0 { s with
      pfx := { s.pfx with ring := [] }
      shelves := s.shelves.map (fun x => { x with sealed := [] })
      power := { s.power with kiln := { s.power.kiln with held := false, save := none } } }))) ∧
  (∀ via m r s, Writes via m 0x6000 0x11 r s → m.op = 2 → owned s = false →
    exec (.startFullScan via m) s = .next (answered via m .ok 0 [] (forEach (fun h t =>
      if bitOf (leNat m.value) h && (shelfOf t h).state == 4 then startScan h 2 t else t) (List.range 16) s))) ∧
  (∀ via m r h s, Writes via m (0x6100 + h) 0x0E r s → m.op = 2 → h < 16 → owned s = false → (shelfOf s h).state = 6 →
    (shelfOf s h).geom ≠ none → heathUp s h = true →
    exec (.formatShelf via m) s = .next (answered via m .ok 0 [] (beginFormat h s))) ∧
  (∀ via m r s, Writes via m 0x4020 0x0A r s → m.op = 2 → s.sec.tenSecret ≠ none →
    s.pfx.rebuildState ≠ 1 →
    exec (.startRebuild via m) s = .next (answered via m .ok 0 [] { s with pfx := { s.pfx with
      nextRec := (logRecs s).foldl (fun n x => max n (x.recNo + 1)) s.pfx.nextRec
      rebuildState := 1, rebuildRead := 0, rebuildLeft := logRecs s, rebuilt := [] } })) ∧
  (∀ via m r s, Writes via m 0x4020 0x0A r s → m.op = 2 → s.sec.tenSecret ≠ none → s.pfx.rebuildState = 1 →
    exec (.startRebuild via m) s = .next (answered via m .conflict 0 [] s))

/-- Queue pair requests (R363 to R365): CONFIGURE binds a pair, CONNECT sends its first packet under the set secret, DRAIN
lets the started requests end, RESET ends the connection, RELEASE frees the pair and its context; the result shows the request's
status. -/
def Obligations.PairRequestsAct : Prop :=
  (∀ via m r s, Writes via m 0x7020 1 r s → m.op = 2 → fieldAt m.value 0 1 = 1 → configureCheck s (leNat m.value) = .ok →
    exec (.configure via m) s = .next (answered via m .ok 0 []
      (qpResult (reqField (leNat m.value) 2 2) 1 .ok (configurePair (leNat m.value) s)))) ∧
  (∀ via m r q s, Writes via m 0x7020 1 r s → m.op = 2 → fieldAt m.value 0 1 = 2 →
    64 ≤ reqField (leNat m.value) 2 2 → findQp s (reqField (leNat m.value) 2 2) = some q →
    q.part = reqField (leNat m.value) 1 1 → q.state = .configured → s.sec.setSecret ≠ none →
    exec (.qpConnect via m) s = .next (answered via m .ok 0 [] (qpResult (reqField (leNat m.value) 2 2) 2 .ok
      (sendConnect (reqField (leNat m.value) 2 2) ptConnect
        (setQp { q with state := .connecting, connectAt := some s.now } s))))) ∧
  (∀ via m r q s, Writes via m 0x7020 1 r s → m.op = 2 → fieldAt m.value 0 1 = 3 →
    64 ≤ reqField (leNat m.value) 2 2 → findQp s (reqField (leNat m.value) 2 2) = some q →
    q.part = reqField (leNat m.value) 1 1 → q.state = .ready →
    exec (.drain via m) s = .next (answered via m .ok 0 [] (qpResult (reqField (leNat m.value) 2 2) 3 .ok
      (tendQp (reqField (leNat m.value) 2 2) (setQp { q with state := .draining, ending := true } s))))) ∧
  (∀ via m r q s, Writes via m 0x7020 1 r s → m.op = 2 → fieldAt m.value 0 1 = 4 →
    64 ≤ reqField (leNat m.value) 2 2 → findQp s (reqField (leNat m.value) 2 2) = some q →
    q.part = reqField (leNat m.value) 1 1 →
    exec (.qpReset via m) s = .next (answered via m .ok 0 [] (qpResult (reqField (leNat m.value) 2 2) 4 .ok
      (resetPair (reqField (leNat m.value) 2 2) s)))) ∧
  (∀ via m r q s, Writes via m 0x7020 1 r s → m.op = 2 → fieldAt m.value 0 1 = 5 →
    64 ≤ reqField (leNat m.value) 2 2 → findQp s (reqField (leNat m.value) 2 2) = some q →
    q.part = reqField (leNat m.value) 1 1 → q.state = .configured ∨ q.state = .error →
    exec (.qpRelease via m) s = .next (answered via m .ok 0 [] (qpResult (reqField (leNat m.value) 2 2) 5 .ok
      (freePair (reqField (leNat m.value) 2 2) s)))) ∧
  (∀ n s, (∀ k ∈ s.peer.heldPkts, k.dstQp.toNat ≠ n) → freePair n s = { s with peer := { s.peer with
    qps := s.peer.qps.filter (fun x => x.num != n), onDie := s.peer.onDie.filter (fun x => x != n) } })

/-- Requests of the owner: release of an OWNED device starts its first step, and a weight key write empties its slot,
and puts the unwrapped key there where its tag verifies (R440, R445). -/
def Obligations.OwnerRequestsAct : Prop :=
  (∀ via m r s, Writes via m 0x9000 2 r s → m.op = 2 → owned s = true →
    exec (.releaseRequest via m) s = .next (answered via m .ok 0 []
      (releaseStep 1 { s with sec := { s.sec with tenancy := .releasing } }))) ∧
  (∀ via m k r s, Writes via m 0x9020 k r s → m.op = 2 → k ≠ 0 → (∀ b ∈ m.value, b = 0) →
    exec (.weightKeyWrite via m) s = .next (answered via m .ok 0 [] { s with sec := { s.sec with
      weightKeys := s.sec.weightKeys.filter (fun w => w.slot != k) } })) ∧
  (∀ via m k r secret s, Writes via m 0x9020 k r s → m.op = 2 → k ≠ 0 → (∃ b ∈ m.value, b ≠ 0) →
    s.sec.setSecret = some secret → fieldAt m.value 0 8 = od s 0x9000 0x04 → fieldAt m.value 72 8 = 0 →
    exec (.weightKeyWrite via m) s = .next (match Config.gcmOpen
        (Config.hkdf (secretBytes secret) (natLe 8 (od s 0x9000 0x04)) (textBytes "TH2 weight wrap") 32)
        ((m.value.drop 12).take 12) (m.value.take 12) ((m.value.drop 24).take 32) ((m.value.drop 56).take 16) with
      | some key => answered via m .ok 0 [] { s with sec := { s.sec with
          weightKeys := s.sec.weightKeys.filter (fun w => w.slot != k) ++
            [{ slot := k, label := fieldAt m.value 8 4, key := key }] } }
      | none => answered via m .integrity 0 [] { s with sec := { s.sec with
          weightKeys := s.sec.weightKeys.filter (fun w => w.slot != k) } }))

/-- Requests of tests and resets: a scan opens only on a device without an owner, a block's test takes it out of service, a
link test holds its port, a warm reset acts after its response, a partition reset acts on one partition (R467, R504,
R509, R511). -/
def Obligations.TestAndResetRequestsAct : Prop :=
  (∀ via m r s, Writes via m 0xB030 1 r s → m.op = 2 → s.sec.tenancy = .unowned →
    ∃ t, exec (.scanRequest via m) s = .next t ∧ t.sec.rtp = .scanOpen ∧ t.power.dev = .scanOpen ∧ t.sec.setSecret = none ∧
      t.sec.tenSecret = none ∧ t.sec.identity = none) ∧
  (∀ via m r s, Writes via m 0xB000 1 r s → m.op = 2 → testFormed (leNat m.value) = true → s.power.test = none →
    s.power.linkTest = none → testAllowed s (testKind (leNat m.value)) (testUnit (leNat m.value)) = true →
    exec (.testRequest via m) s = .next (answered via m .ok 0 [] (bump32 0xB010 0x05 (odSet 0xB010 0x01
      (testRecord (testKind (leNat m.value)) (testUnit (leNat m.value)) 1)
      (takeOut (testKind (leNat m.value)) (testUnit (leNat m.value)) { s with power := { s.power with
        test := some { kind := testKind (leNat m.value), unit := testUnit (leNat m.value), since := s.now } } }))))) ∧
  (∀ via m r n s, Writes via m 0xB040 6 r s → m.op = 2 → m.value = [1] → od s 0xB040 1 = n → n < 32 →
    s.power.linkTest = none → s.power.test = none → (portOf s n).failed = false → testAllowed s 4 n = true →
    exec (.linkTestStart via m) s = .next (answered via m .ok 0 [] (odSet 0xB040 0x06 1 { holdPort n s with
      power := { (holdPort n s).power with linkTest := some n, checkers := List.replicate 8 {} } }))) ∧
  (∀ via m r n s, Writes via m 0xB040 6 r s → m.op = 2 → m.value = [0] → s.power.linkTest = some n →
    exec (.linkTestStop via m) s = .next (answered via m .ok 0 []
      (startPort n (odSet 0xB040 0x06 0 { s with power := { s.power with linkTest := none } })))) ∧
  (∀ via m r s, Writes via m 0xC050 1 r s → m.op = 2 → s.sec.rtp = .run → s.sec.tenancy = .unowned →
    exec (.warmReset via m) s = .next (warmReset (answered via m .ok 0 [] s))) ∧
  (∀ via m r s, Writes via m 0xC050 2 r s → m.op = 2 →
    exec (.partitionReset via m) s = .next (answered via m .ok 0 [] (partitionReset (leNat m.value) s)))

/-- A firmware image arrives in blocks: the first ones are kept, and with the last a signed image is written to the slot;
in recovery such an image starts a cold boot from it (R464, R466). -/
def Obligations.ImagesArriveInBlocks : Prop :=
  (∀ via m r ok s, Request via m s → writesImage m = true → writeCheck (Via.role via) s 0xC040 1 = .ok r → 1024 < r.size →
    m.typ.toNat = r.ty.code → m.block = 0 → m.value.length = 1024 → 1024 < fieldAt m.value 8 4 → updating s = false →
    s.sec.tenancy = .unowned →
    exec (.firmwareUpdate via m ok) s = .next (answered via m .ok 0 []
      (odSet 0xC040 0x02 1 (keepBlocks via 0xC040 1 0 m.value s)))) ∧
  (∀ via m r all s, Request via m s → writesImage m = true → writeCheck (Via.role via) s 0xC040 1 = .ok r → 1024 < r.size →
    m.typ.toNat = r.ty.code → m.block ≠ 0 → 1 ≤ m.value.length → m.value.length ≤ 1024 → updating s = false →
    takeBlock via 0xC040 1 16777216 m.block.toNat m.value s = some (all, true) → imageFields all = true →
    exec (.firmwareUpdate via m true) s = .next (answered via m .ok 0 []
      (odSet 0xC040 0x03 0 (odSet 0xC040 0x02 3 { dropWrite via 0xC040 1 s with power := { s.power with
        update := all, nor := { s.power.nor with slotValid := false } } })))) ∧
  (∀ via m r all s, Asks via m s → s.power.dev = .recovery → writesImage m = true →
    writeCheck (Via.role via) s 0xC040 1 = .ok r → 1024 < r.size → m.typ.toNat = r.ty.code → 1 ≤ m.value.length →
    m.value.length ≤ 1024 → takeBlock via 0xC040 1 16777216 m.block.toNat m.value s = some (all, true) →
    imageFields all = true →
    exec (.recoveryBlockWrite via m true) s = .next (doCold .recoveryImage
      { answered via m .ok 0 [] (dropWrite via 0xC040 1 s) with power := { s.power with nor := { s.power.nor with
        slotValid := true, slotVersion := BitVec.ofNat 32 (fieldAt all 12 4) } } }))

/-- Operator sessions (R429 to R431): HELLO opens a set-up, AUTH with an accepted certificate and signature brings the session
up under the keys derived from its shared secret (a free value, log entry 134), an authentic record with a rising counter is served
or, empty, ends the session, and set-up and idle timeouts end one. -/
def Obligations.OperatorSessionsOpenAndEnd : Prop :=
  (∀ nonce ek s, ready s = true → s.sec.identity ≠ none → od s 0x9010 0x01 ≠ 0 → s.mgmt.sessions.length < 4 →
    ∃ sid, sid ∉ s.mgmt.sessions.map (fun x => x.id) ∧ exec (.hello nonce ek) s = .next { s with
      fresh := s.fresh + 2
      tx := s.tx ++ [.helloRsp sid]
      mgmt := { s.mgmt with sessions := s.mgmt.sessions ++
        [{ id := sid, up := false, helloAt := s.now, lastAt := s.now, rxCtr := none,
           secret := Config.free 256 (s.fresh + 1) }] } }) ∧
  (∀ sid cert s x, ready s = true → s.mgmt.sessions.find? (fun y => y.id == sid && !y.up) = some x →
    s.now ≤ x.helloAt + 5000000000 → certOk s cert = true →
    exec (.auth sid cert true) s = .next { s with
      fresh := s.fresh + 1
      tx := s.tx ++ [.authRsp sid .ok]
      mgmt := { s.mgmt with sessions := s.mgmt.sessions.map (fun y =>
        if y.id == sid then { y with up := true, lastAt := s.now, keys := operatorKeys x.secret (freeOf 256 s) } else y) } }) ∧
  (∀ sid ctr s x, ready s = true → s.mgmt.sessions.find? (fun y => y.id == sid && y.up) = some x →
    (∀ c, x.rxCtr = some c → c < ctr.toNat) →
    ∃ t, exec (.record sid ctr true none) s = .next t ∧ OnlyIn [.mgmt] s t ∧
      (∀ y ∈ t.mgmt.sessions, y.id ≠ sid) ∧ (∀ y ∈ s.mgmt.sessions, y.id ≠ sid → y ∈ t.mgmt.sessions)) ∧
  (∀ sid ctr m s x, ready s = true → s.mgmt.sessions.find? (fun y => y.id == sid && y.up) = some x →
    (∀ c, x.rxCtr = some c → c < ctr.toNat) →
    exec (.record sid ctr true (some m)) s = .next (serve none (.session sid) m { s with mgmt := { s.mgmt with
      sessions := s.mgmt.sessions.map (fun y => if y.id == sid then { x with rxCtr := some ctr.toNat, lastAt := s.now } else y) } })) ∧
  (∀ sid s, (∃ x ∈ s.mgmt.sessions, x.id = sid ∧ x.up = false ∧ x.helloAt + 5000000000 ≤ s.now) →
    exec (.sessionSetupTimeout sid) s = .next (endSession sid s)) ∧
  (∀ sid s, (∃ x ∈ s.mgmt.sessions, x.id = sid ∧ x.up = true ∧ x.lastAt + od s 0x1100 0x03 * 1000000 ≤ s.now) →
    exec (.sessionIdleTimeout sid) s = .next (endSession sid s))

/-- The tenant's mailbox, while the CXL group serves (R32, R48, R49, R79): a request enters a free slot, behind those that came
before it, one for a slot whose request is not answered is ignored and counted, and MBX_DONE bits are cleared by writing 1. -/
def Obligations.MailboxSlotsTakeRequests : Prop :=
  (∀ (slot : U32) m s, cxlServes s = true → slot.toNat < 16 → (s.mgmt.mbx.getD slot.toNat {}).req = none →
    exec (.mbxSubmit slot m) s = .next { s with mgmt := { s.mgmt with
      mbx := s.mgmt.mbx.set slot.toNat { s.mgmt.mbx.getD slot.toNat {} with req := some m, rsp := none }
      mbxOrder := s.mgmt.mbxOrder ++ [slot.toNat] } }) ∧
  (∀ (slot : U32) m s, cxlServes s = false → exec (.mbxSubmit slot m) s = .next s) ∧
  (∀ (slot : U32) m s, cxlServes s = true → slot.toNat < 16 → (s.mgmt.mbx.getD slot.toNat {}).req ≠ none →
    exec (.mbxSubmit slot m) s = .next { s with mgmt := { s.mgmt with mbxIgnored := s.mgmt.mbxIgnored + 1 } }) ∧
  (∀ bits s, cxlServes s = true → ∃ t, exec (.mbxDone bits) s = .next t ∧ OnlyIn [.mgmt] s t ∧ t.mgmt.mbx.length = s.mgmt.mbx.length ∧
    (∀ i, bits.getLsbD i = true → i < 32 → (t.mgmt.mbx.getD i {}).done = false) ∧
    (∀ i, bits.getLsbD i = false → t.mgmt.mbx[i]? = s.mgmt.mbx[i]?) ∧
    (∀ i, (t.mgmt.mbx.getD i {}).req = (s.mgmt.mbx.getD i {}).req ∧ (t.mgmt.mbx.getD i {}).rsp = (s.mgmt.mbx.getD i {}).rsp))

/-- The SPDM responder (R426, R432, R433, R437): a key exchange opens one of two sessions under a shared secret, which is a free
value (log entry 134), the digest and the bytes of the certificate chain of slot 0 are given, FINISH establishes a session and,
with mutual authentication in UNOWNED, makes it the candidate of ATTESTING, measurements are given by number, and a session
ends. -/
def Obligations.SpdmSessionsAttest : Prop :=
  (∀ id s, ready s = true → s.sec.identity ≠ none → s.sec.sessions.length < 2 → findSpdm s id = none →
    exec (.spdmRequest (.keyExchange id)) s = .next { s with
      fresh := s.fresh + 1
      tx := s.tx ++ [.spdm (some id) false [] false]
      sec := { s.sec with sessions := s.sec.sessions ++ [{ id := id, secret := freeOf 256 s }] } }) ∧
  (∀ s, ready s = true → s.sec.identity ≠ none →
    exec (.spdmRequest .getDigests) s = .next { s with tx := s.tx ++ [.spdmDigest (Config.sha256 s.power.nor.chain)] }) ∧
  (∀ off len s, ready s = true → s.sec.identity ≠ none → off ≤ s.power.nor.chain.length →
    exec (.spdmRequest (.getCertificate 0 off len)) s = .next { s with tx := s.tx ++
      [.spdmChain ((s.power.nor.chain.drop off).take len) (s.power.nor.chain.length - min s.power.nor.chain.length (off + len))] }) ∧
  (∀ id leaf s, ready s = true → s.sec.identity ≠ none → (∃ x ∈ s.sec.sessions, x.id = id ∧ x.finished = false) →
    s.sec.tenancy = .unowned →
    exec (.finish id true leaf) s = .next { bump64 0x9050 0x03 s with
      tx := s.tx ++ [.spdm (some id) false [] false]
      sec := { s.sec with
        sessions := s.sec.sessions.map (fun x => if x.id == id then { x with finished := true, leafKey := leaf } else x)
        tenancy := .attesting, candidate := some id, attestSince := s.now } }) ∧
  (∀ i sign s, ready s = true → s.sec.identity ≠ none → 1 ≤ i.toNat → i.toNat ≤ 8 →
    exec (.getMeasurements none i sign) s =
      .next { s with tx := s.tx ++ [.spdm none false [(i.toNat, measurement s i.toNat)] sign] }) ∧
  (∀ id s, ready s = true → s.sec.candidate ≠ some id →
    exec (.spdmSessionEnd id) s = .next { s with sec := { s.sec with sessions := s.sec.sessions.filter (fun x => x.id != id) } }) ∧
  (∀ id s, ready s = true → s.sec.candidate = some id → s.sec.tenancy = .attesting →
    exec (.spdmSessionEnd id) s = .next { s with sec := { s.sec with
      sessions := s.sec.sessions.filter (fun x => x.id != id), tenancy := .unowned, candidate := none } }) ∧
  (∀ s, s.sec.tenancy = .attesting → s.sec.attestSince + od s 0x9000 0x07 * 1000000 ≤ s.now →
    exec .ownershipWaitExpiry s = .next { s with sec := { s.sec with tenancy := .unowned, candidate := none } })

/-- Tenancy (R437 to R439): OWN in the candidate session makes the device OWNED, its owner the session's leaf key; the owner
gives a set secret of the set that is configured, and a tenancy secret, each once per tenancy; STATUS shows the tenancy in
any session. -/
def Obligations.TheOwnerTakesAndKeepsTheDevice : Prop :=
  (∀ id x s, ready s = true → s.sec.tenancy = .attesting → s.sec.candidate = some id → findSpdm s id = some x →
    exec (.own id) s = .next { bump32 0x9000 0x09 s with
      tx := s.tx ++ [.vendor id .ok []]
      sec := { s.sec with tenancy := .owned, candidate := none, ownerDigest := Config.sha256 x.leafKey }
      log := { s.log with firstSlot := s.log.head } }) ∧
  (∀ id s, ready s = true → (s.sec.tenancy ≠ .attesting ∨ s.sec.candidate ≠ some id) →
    exec (.own id) s = .next { s with tx := s.tx ++ [.vendor id .notOwned []] }) ∧
  (∀ id (setId : U64) secret s, ready s = true → owned s = true → isOwner s id = true → setId.toNat ≠ 0 →
    setId.toNat = od s 0x9000 0x04 → s.sec.setSecret = none →
    exec (.setSecret id setId secret) s = .next { s with
      tx := s.tx ++ [.vendor id .ok []]
      sec := { s.sec with setSecret := some secret } }) ∧
  (∀ id (setId : U64) secret x s, ready s = true → owned s = true → isOwner s id = true → setId.toNat ≠ 0 →
    setId.toNat = od s 0x9000 0x04 → s.sec.setSecret = some x → x ≠ secret →
    exec (.setSecret id setId secret) s = .next { s with tx := s.tx ++ [.vendor id .conflict []] }) ∧
  (∀ id (setId : U64) secret s, ready s = true → isOwner s id = false →
    exec (.setSecret id setId secret) s = .next { s with tx := s.tx ++ [.vendor id .notOwned []] } ∧
    exec (.tenancySecret id secret) s = .next { s with tx := s.tx ++ [.vendor id .notOwned []] }) ∧
  (∀ id secret s, ready s = true → owned s = true → isOwner s id = true → s.sec.tenSecret = none →
    (∀ h, h < 16 → (shelfOf s h).keyId = 0 ∨ (shelfOf s h).keyId = keyIdOf secret) →
    exec (.tenancySecret id secret) s = .next { s with
      tx := s.tx ++ [.vendor id .ok []]
      sec := { s.sec with tenSecret := some secret, heathKeyId := keyIdOf secret } }) ∧
  (∀ id s, ready s = true → findSpdm s id ≠ none →
    exec (.status id) s = .next { s with tx := s.tx ++ [.vendor id .ok (tenancyBlock s)] })

/-- Doorbells, while the CXL group serves (R48, R50, R51, R53, R57, R79): each reads back the last value written to it; a command
tail takes the descriptors from the old tail to the new one off the ring and puts them behind those that wait; one that asks for more
than the ring has free stops the queue; a completion head and an event head free the slots before them. That a queue without a
window takes none, that a slot is free once its command has started, and that a head doorbell gives a ring index, are the model's
readings (log entries 15, 60 and 113). -/
def Obligations.DoorbellsSubmitAndFree : Prop :=
  (∀ p j tail ring s, cxlServes s = true → (queueOf s (.part p j)).stopped = false → compWindow s (.part p j) ≠ 0xFFFF →
    tail.toNat < ringSize s (.part p j) →
    (queueOf s (.part p j)).waiting.length + modSub tail.toNat (queueOf s (.part p j)).tail (ringSize s (.part p j)) ≤
      ringSize s (.part p j) →
    exec (.commandTailDoorbell (.part p j) tail ring) s = .next (settleAll (setQueue (.part p j)
      { queueOf s (.part p j) with
        tail := tail.toNat
        waiting := (queueOf s (.part p j)).waiting ++ ringDescs s p j (ringSize s (.part p j)) (queueOf s (.part p j)).tail
          (modSub tail.toNat (queueOf s (.part p j)).tail (ringSize s (.part p j))) }
      (rang (tailBell (.part p j)) tail.toNat s)))) ∧
  (∀ q tail ring s, cxlServes s = true → (queueOf s q).stopped = false → compWindow s q ≠ 0xFFFF →
    ringSize s q ≤ tail.toNat ∨ ringSize s q < (queueOf s q).waiting.length + modSub tail.toNat (queueOf s q).tail (ringSize s q) →
    exec (.commandTailDoorbell q tail ring) s = .next (stopQueue q (rang (tailBell q) tail.toNat s))) ∧
  (∀ q head s, cxlServes s = true → exec (.completionHeadDoorbell q head) s = .next (settleAll (setQueue q
    { queueOf s q with compHead := min (queueOf s q).completed ((queueOf s q).compHead +
        modSub (head.toNat % ringSize s q) (queueOf s q).compHead (ringSize s q)) } (rang (headBell q) head.toNat s)))) ∧
  (∀ r head s, cxlServes s = true → exec (.eventHeadDoorbell r head) s = .next (flushEvents r 256 (setEvRing r
    { evRing s r with head := min (evRing s r).written ((evRing s r).head +
        modSub (head.toNat % evSize s r) (evRing s r).head (evSize s r)) } (rang (eventBell r) head.toNat s)))) ∧
  (∀ off v s, cxlServes s = true → bellValue (rang off v s) off = v ∧ ∀ o, o ≠ off → bellValue (rang off v s) o = bellValue s o) ∧
  (∀ q v l s, ∃ t, exec (.commandTailDoorbell q v l) s = .next t ∧ OnlyIn [.host, .queues, .peer] s t) ∧
  (∀ q v s, ∃ t, exec (.completionHeadDoorbell q v) s = .next t ∧ OnlyIn [.host, .queues, .peer] s t) ∧
  (∀ r v s, ∃ t, exec (.eventHeadDoorbell r v) s = .next t ∧ OnlyIn [.host, .queues] s t)

/-- FENCE and WAIT_COUNT hold the later commands of their queue until what they wait for has come, and a deferred command
starts once nothing names what it changes (R36, R37, R58, R104). -/
def Obligations.FencesAndCountsHold : Prop :=
  (∀ q d ds s, Front 0x61 q d ds s →
    exec (.fence q) s = .next (settleAll (setWork (takenCmd q d s).id .fence (popCmd q d ds s)))) ∧
  (∀ q d ds n s, Front 0x60 q d ds s → dfield d 8 1 = 0 → dfield d 10 2 = 0 →
    countOf s (ownQueue q) (takenCmd q d s).part 0 (dfield d 9 1) 0 = some n →
    exec (.waitCount q) s = .next (settleAll (setWork (takenCmd q d s).id (.count 0 (dfield d 9 1) 0 (dfield d 16 8))
      (popCmd q d ds s)))) ∧
  (∀ q d ds s, Front 0x60 q d ds s → 1 < dfield d 8 1 →
    ∃ t, exec (.waitCount q) s = .next t ∧ Completes q d .badDescriptor 0 [] s t) ∧
  (∀ q s c, c ∈ s.queues.cmds → c.q = q → c.work = .fence → canStart s q = false) ∧
  (∀ id c s, findCmd s id = some c → c.work = .deferred → mustWait s c.desc = false → deferredBehind s c = false →
    exec (.deferredCommandStart id) s = .next (runCmd c s)) ∧
  (∀ id c s, findCmd s id = some c → mustWait s c.desc = true ∨ deferredBehind s c = true →
    exec (.deferredCommandStart id) s = .next s)

/-- SEQ_OPEN, SEQ_CLOSE, SEQ_FORK and SEQ_TRUNCATE (R133, R134, R141, R142, R143, R150). -/
def Obligations.SequencesOpenForkAndClose : Prop :=
  (∀ q d ds s, Front 0x01 q d ds s → dfield d 8 1 < 16 → modelLayers s (dfield d 8 1) ≠ 0 → dfield d 12 4 < 256 →
    policyDefined s (takenCmd q d s).part (dfield d 12 4) = true →
    openCount s (takenCmd q d s).part < od s 0x4010 ((takenCmd q d s).part + 1) → s.kv.seqs.length < 16777215 →
    meadowCheck s (takenCmd q d s).part (coilUnits s (dfield d 8 1)) = .ok →
    ∃ t, exec (.seqOpen q) s = .next t ∧ Completes q d .ok (nextSeqId s) [.kv, .fresh] s t ∧
      t.kv = { s.kv with
        seqs := s.kv.seqs ++ [{ id := nextSeqId s, part := (takenCmd q d s).part, model := dfield d 8 1, policy := dfield d 12 4,
                                coils := newCoils s (takenCmd q d s).part (dfield d 8 1) (dfield d 12 4),
                                coilDir := newCoilDir s (dfield d 8 1), hostTag := dfield d 16 16 }]
        lastSeq := nextSeqId s }) ∧
  (∀ q d ds s, Front 0x01 q d ds s → dfield d 8 1 < 16 → modelLayers s (dfield d 8 1) ≠ 0 → dfield d 12 4 < 256 →
    policyDefined s (takenCmd q d s).part (dfield d 12 4) = true →
    od s 0x4010 ((takenCmd q d s).part + 1) ≤ openCount s (takenCmd q d s).part →
    ∃ t, exec (.seqOpen q) s = .next t ∧ Completes q d .quota 0 [] s t) ∧
  (∀ q d ds x s, Front 0x02 q d ds s → findSeq s (dSeq d) = some x → x.part = (takenCmd q d s).part →
    exec (.seqClose q) s = .next (complete (takenCmd q d s) .ok
      (s.kv.cols.length - (closeSeq x (popCmd q d ds s)).kv.cols.length) (closeSeq x (popCmd q d ds s)))) ∧
  (∀ x s, findSeq (closeSeq x s) x.id = none ∧ ∀ i, i ≠ x.id → findSeq (closeSeq x s) i = findSeq s i) ∧
  (∀ q d ds x s, Front 0x03 q d ds s → findSeq s (dSeq d) = some x → x.part = (takenCmd q d s).part → x.failed = false →
    dfield d 12 4 = 0 → x.length % 16 = 0 → x.prov = none → x.pendCount = 0 → seqRoom s x.part = .ok () →
    meadowCheck s x.part (listUnits (x.length / 16) + coilUnits s x.model) = .ok →
    exec (.seqFork q) s = .next (complete (takenCmd q d s) .ok (nextSeqId s + x.length / 16 * 2 ^ 32)
      (forEach addRef (x.cols.take (x.length / 16)) (fitList (nextSeqId s) (addSeq
        { id := nextSeqId s, part := x.part, model := x.model, length := x.length, policy := x.policy,
          cols := x.cols.take (x.length / 16),
          coils := (x.coils.zip (newCoils s x.part x.model x.policy)).map (fun y => { y.1 with loc := y.2.loc }),
          coilDir := newCoilDir s x.model, hostTag := dfield d 16 16 } (draws (1 + x.coils.length) (popCmd q d ds s))))))) ∧
  (∀ q d ds x s, Front 0x04 q d ds s → findSeq s (dSeq d) = some x → x.part = (takenCmd q d s).part →
    dfield d 12 4 < x.length → dfield d 12 4 % 16 = 0 → servable s x none (dfield d 12 4) = true → x.prov = none →
    x.pendCount = 0 →
    exec (.seqTruncate q) s = .next (complete (takenCmd q d s) .ok
      (dfield d 12 4 + (x.cols.length - dfield d 12 4 / 16) * 2 ^ 32)
      (cutSeq x.id (dfield d 12 4) (dfield d 12 4 / 16) (popCmd q d ds s))))

/-- KV_APPEND that starts at a column's first row (R146 to R148, R301, R302): the columns it needs are added, each layer's rows are
quantised and written, and with the last layer the sequence's length grows by the run; it waits for a column of the run that a copy
moves. -/
def Obligations.AppendsExtendASequence : Prop :=
  (∀ q d ds a t s, Front 0x10 q d ds s → appendArgs (takenCmd q d s).part d (popCmd q d ds s) = .ok a →
    a.seq.length % 16 = 0 →
    (a.seq.cols.drop (a.seq.length / 16)).all (fun k =>
      (findCol s k).all (fun c => !c.moving && c.home.tier == .meadow)) = true →
    addCols false a.seq.id (ceilDiv (a.seq.length + a.count) 16 - (findSeq s a.seq.id).elim 0 (fun x => x.cols.length))
      (popCmd q d ds s) = .ok t →
    exec (.kvAppend q) s = .next (complete (takenCmd q d s) .ok (appendWrite a (takenCmd q d s).part 0 t).1
      (forEach (fun i u => touchRead (takenCmd q d s).part (a.src + i * a.stride)
          (a.count * recordBytes u a.seq.model (a.first + i) a.fmt) u) (List.range a.layers)
        (appendWrite a (takenCmd q d s).part 0 t).2))) ∧
  (∀ q d ds a s, Front 0x10 q d ds s → appendArgs (takenCmd q d s).part d (popCmd q d ds s) = .ok a →
    a.seq.length % 16 = 0 →
    (a.seq.cols.drop (a.seq.length / 16)).any (fun k => (findCol s k).any (fun c => c.moving)) = true →
    exec (.kvAppend q) s = .next (setWork (takenCmd q d s).id .deferred (popCmd q d ds s))) ∧
  (∀ q d ds x s, Front 0x10 q d ds s → findSeq s (dSeq d) = some x → x.part = (takenCmd q d s).part → x.failed = true →
    ∃ t, exec (.kvAppend q) s = .next t ∧ Completes q d .poisoned 0 [] s t) ∧
  (∀ a p n s x, findSeq s a.seq.id = some x → a.first + a.layers = modelLayers s a.seq.model →
    ∃ y, findSeq (appendWrite a p n s).2 a.seq.id = some y ∧ y.length = a.seq.length + a.count ∧ y.pendCount = 0 ∧
      y.pendLayer = 0) ∧
  (∀ a p n s x, findSeq s a.seq.id = some x → a.first + a.layers ≠ modelLayers s a.seq.model →
    ∃ y, findSeq (appendWrite a p n s).2 a.seq.id = some y ∧ y.length = x.length ∧ y.pendCount = a.count ∧
      y.pendLayer = a.first + a.layers)

/-- COL_SEAL, COL_MOVE, COL_PIN, COL_UNPIN and COL_DISCARD act on each column that the command names and answer how many
(R140, R144, R145, R300). -/
def Obligations.ColumnCommandsAct : Prop :=
  (∀ q d ds cs s, Front 0x11 q d ds s → targetCols (takenCmd q d s).part d s = .ok cs → cs.all (canSeal s) = true →
    ∃ t, exec (.colSeal q) s = .next t ∧ Completes q d .ok cs.length [.kv] s t ∧
      ∀ k x, findCol s k = some x →
        findCol t k = some (if cs.any (fun c => c.slot == k) then { x with isSealed := true } else x)) ∧
  (∀ q d ds cs s, Front 0x13 q d ds s → targetCols (takenCmd q d s).part d s = .ok cs →
    exec (.colPin q) s = .next (complete (takenCmd q d s) .ok cs.length
      (abandonSweepOf (fun i => cs.any (fun c => isColItem c.slot i))
        (editCols (fun c => { c with pinned := true }) cs (popCmd q d ds s))))) ∧
  (∀ q d ds cs t ms s, Front 0x12 q d ds s → targetCols (takenCmd q d s).part d s = .ok cs →
    cs.any (fun k => k.poisoned) = false → dfield d 20 1 ≤ 2 → dfield d 21 1 ≤ 2 → cs.findSome? (colRefusal (tierOf (dfield d 20 1)) (dfield d 21 1) true) = none →
    cs.any (fun k => k.moving) = false → cs.findSome? (needsPort s (tierOf (dfield d 20 1)) (dfield d 21 1)) = none →
    moveEach (moveCol (tierOf (dfield d 20 1)) (dfield d 21 1) (.cmd (takenCmd q d s).id)) cs (popCmd q d ds s) = .ok (ms, t) →
    exec (.colMove q) s = .next
      (if ms = [] then complete (takenCmd q d s) .ok cs.length t
       else setWork (takenCmd q d s).id (.moves ms cs.length none []) t)) ∧
  (∀ q d ds cs s, Front 0x12 q d ds s → targetCols (takenCmd q d s).part d s = .ok cs →
    cs.any (fun k => k.poisoned) = true → ∃ t, exec (.colMove q) s = .next t ∧ Completes q d .poisoned 0 [] s t) ∧
  (∀ q d ds cs s, Front 0x14 q d ds s → targetCols (takenCmd q d s).part d s = .ok cs →
    ∃ t, exec (.colUnpin q) s = .next t ∧ Completes q d .ok cs.length [.kv] s t ∧
      ∀ k x, findCol s k = some x →
        findCol t k = some (if cs.any (fun c => c.slot == k) then { x with pinned := false } else x)) ∧
  (∀ q d ds cs x s, Front 0x15 q d ds s → targetCols (takenCmd q d s).part d s = .ok cs → bitOf (dFlags d) 0 = false →
    openSeq s (takenCmd q d s).part (dSeq d) = .ok x → cs.all (fun c => c.fill == 16) = true →
    (windowGroups s x.model).isEmpty = true →
    exec (.colDiscard q) s = .next (complete (takenCmd q d s) .ok (dfield d 16 4)
      (forEach (fun (c : Col) t => dropRef c.slot (dropSlices c.slot t)) cs (fitList x.id (setSeq { x with
        cols := x.cols.take (dfield d 12 4) ++ x.cols.drop (dfield d 12 4 + dfield d 16 4)
        length := x.length - 16 * dfield d 16 4 } (popCmd q d ds s))))))

/-- PREFIX_LOOKUP matches runs of 16 tokens from the first on and gives the sequence the matched columns;
PREFIX_COMMIT publishes columns; PREFIX_EVICT withdraws entries; while a rebuild runs they wait, started (R266, R268, R269, R272,
R275, R284, R289). -/
def Obligations.PrefixCommandsMatchPublishAndEvict : Prop :=
  (∀ q d ds a x es s, Front 0x20 q d ds s → s.pfx.rebuildState ≠ 1 → lookupArgs (takenCmd q d s).part d s = .ok a →
    a.seq = some x → spanPoisoned s (takenCmd q d s).part a.src (64 * a.runs) = false →
    (walk s (takenCmd q d s).part (modelTag s a.model) a.src a.runs 0 0 0).1 = es →
    meadowCheck s (takenCmd q d s).part (listUnits es.length) = .ok →
    ∃ t y, exec (.pfxLookup q) s = .next t ∧ Completes q d .ok (lookupResult s es) [.kv, .objs, .pfx, .od, .fresh] s t ∧
      findSeq t x.id = some y ∧ y.cols = es.map (fun e => e.column) ∧ y.length = 16 * es.length) ∧
  (∀ q d ds x a s, Front 0x21 q d ds s → s.pfx.rebuildState ≠ 1 → dFlags d = 0 → dfield d 12 4 = 0 → dfield d 32 8 = 0 →
    commitArgs (takenCmd q d s).part d s = .ok x →
    commitCols (takenCmd q d s).part (modelTag s x.model) (dfield d 24 8) 0 (x.cols.take (dfield d 16 4))
      { st := popCmd q d ds s, parent := 0, parentFp := 0, outs := [], crowded := false } = .ok a →
    (s.pfx.entries.filter (fun e => e.part == (takenCmd q d s).part)).length +
        (a.outs.filter (fun o => o.1 == 0)).length ≤ od s 0x4030 ((takenCmd q d s).part + 1) →
    a.crowded = false →
    exec (.pfxCommit q) s = .next (finishCommit (takenCmd q d s) (a.outs.map (fun o => o.2))
      ((a.outs.filter (fun o => o.1 == 0)).length +
        (dfield d 16 4 - (a.outs.filter (fun o => o.1 == 0)).length) * 2 ^ 32)
      (tendRing (touchRead (takenCmd q d s).part (dfield d 24 8) (64 * dfield d 16 4) a.st)))) ∧
  (∀ q d ds x s, Front 0x21 q d ds s → s.pfx.rebuildState ≠ 1 → findSeq s (dSeq d) = some x → x.part = (takenCmd q d s).part →
    x.failed = true → ∃ t, exec (.pfxCommit q) s = .next t ∧ Completes q d .poisoned 0 [] s t) ∧
  (∀ q d ds t s, Front 0x22 q d ds s → s.pfx.rebuildState ≠ 1 → s.pfx.rcTail.length < 2048 →
    evictState (takenCmd q d s).part d (popCmd q d ds s) = .ok t →
    exec (.pfxEvict q) s = .next (tendPrefix (settleDurable (complete (takenCmd q d s) .ok
      ((s.pfx.entries.length - t.pfx.entries.length) + (s.kv.cols.length - t.kv.cols.length) * 2 ^ 32 +
        ((s.pfx.entries.filter (fun e => e.logged)).length - (t.pfx.entries.filter (fun e => e.logged)).length) * 2 ^ 64) t)))) ∧
  (∀ c op q d ds s, c = .pfxLookup q ∧ op = 0x20 ∨ c = .pfxCommit q ∧ op = 0x21 →
    Front op q d ds s → s.pfx.rebuildState = 1 →
    exec c s = .next (setWork (takenCmd q d s).id .held (popCmd q d ds s))) ∧
  (∀ q d ds s, Front 0x22 q d ds s → s.pfx.rebuildState = 1 ∨ 2048 ≤ s.pfx.rcTail.length →
    exec (.pfxEvict q) s = .next (tendPrefix (setWork (takenCmd q d s).id .held (popCmd q d ds s)))) ∧
  (∀ s, s.queues.cmds = [] → tendPrefix s = s)

/-- A write into an object stores exactly its bytes: every other byte of every partition's range reads as before (R45, R295,
R302). -/
def Obligations.ObjectWritesStoreTheirBytes : Prop :=
  ∀ o id off bs s p a, findObj s id = some o →
    memByte (objStore id off bs s) p a =
      if memAddr o.part (o.off + off) ≤ memAddr p a ∧ memAddr p a < memAddr o.part (o.off + off) + bs.length then
        bs.getD (memAddr p a - memAddr o.part (o.off + off)) 0
      else memByte s p a

/-- OBJ_CREATE, OBJ_WRITE, OBJ_READ, OBJ_MOVE and OBJ_POLICY (R295 to R298, R300, R302). -/
def Obligations.ObjectCommandsAct : Prop :=
  (∀ q d ds s, Front 0x30 q d ds s → dfield d 12 4 < 256 → policyDefined s (takenCmd q d s).part (dfield d 12 4) = true →
    1 ≤ dfield d 8 1 → dfield d 8 1 ≤ 4 → dfield d 9 1 = 0 → dfield d 32 4 = 0 → dfield d 16 8 % 65536 = 0 →
    65536 ≤ dfield d 16 8 → dfield d 16 8 ≤ 2 ^ 40 → dfield d 24 8 % 65536 = 0 → 0x100000 ≤ dfield d 24 8 →
    dfield d 24 8 + dfield d 16 8 ≤ rangeBytes →
    s.objs.objs.any (fun o => o.part == (takenCmd q d s).part && overlaps (dfield d 24 8) (dfield d 16 8) o.off o.size) = false →
    meadowCheck s (takenCmd q d s).part (dfield d 16 8 / 4096) = .ok → s.objs.objs.length < 1048576 →
    ∃ t, exec (.objCreate q) s = .next t ∧ Completes q d .ok (nextObjId s) [.mem, .objs, .fresh] s t ∧
      t.objs.objs = s.objs.objs ++
        [{ id := nextObjId s, part := (takenCmd q d s).part, kind := dfield d 8 1, size := dfield d 16 8, off := dfield d 24 8,
           policy := dfield d 12 4, key := 0
           exts := meadowExts s (policyOf s (takenCmd q d s).part (dfield d 12 4)).stackMask (dfield d 16 8) }] ∧
      ∀ p a, memByte t p a =
        if memAddr (takenCmd q d s).part (dfield d 24 8) ≤ memAddr p a ∧
            memAddr p a < memAddr (takenCmd q d s).part (dfield d 24 8) + dfield d 16 8 then 0
        else memByte s p a) ∧
  (∀ q d ds a s, Front 0x31 q d ds s → writeArgs (takenCmd q d s).part d s = .ok a → a.decrypt = false → a.sealing = false →
    writeWaits s a.obj.id a.dst a.len = false →
    (extsOf a.obj a.dst a.len).any (fun i => (a.obj.exts.getD i default).home.tier == .heath) = false →
    a.obj.poisoned = false → downPort s a.obj (extsOf a.obj a.dst a.len) true = none →
    exec (.objWrite q) s = .next (complete (takenCmd q d s) .ok a.len (touchRead (takenCmd q d s).part a.src a.len
      (objStore a.obj.id a.dst (memRead s (takenCmd q d s).part a.src a.len) (popCmd q d ds s))))) ∧
  (∀ q d ds a s, Front 0x31 q d ds s → writeArgs (takenCmd q d s).part d s = .ok a → a.decrypt = false → a.sealing = true →
    writeWaits s a.obj.id a.dst 0 = false → a.len = 0 → a.obj.poisoned = false →
    exec (.objWrite q) s = .next (complete (takenCmd q d s) .ok 0 (touchRead (takenCmd q d s).part a.src 0
      (sealWeight a.obj (setObj { a.obj with immutable := true } (popCmd q d ds s)))))) ∧
  (∀ q d ds a s, Front 0x31 q d ds s → writeArgs (takenCmd q d s).part d s = .ok a → writeWaits s a.obj.id a.dst a.len = true →
    exec (.objWrite q) s = .next (setWork (takenCmd q d s).id .deferred (popCmd q d ds s))) ∧
  (∀ q d ds o s, Front 0x31 q d ds s → findObj s (dObj d) = some o → o.part ≠ (takenCmd q d s).part →
    ∃ t, exec (.objWrite q) s = .next t ∧ Completes q d .badObject 0 [] s t) ∧
  (∀ q d ds o s, Front 0x32 q d ds s → readArgs (takenCmd q d s).part d s = .ok (o, none) →
    downPort s o (extsOf o (dfield d 16 8) (dfield d 24 8)) false = none →
    ∃ u, OnlyIn [.queues, .objs, .shelves, .links] s u ∧
      exec (.objRead q) s = .next (complete (takenCmd q d s) .ok 0 (sendTile (dfield d 32 2) (dfield d 36 4) o.id 0xFFFFFFFF o.part
        .ok (objBytes s o (dfield d 16 8) (dfield d 24 8)) u))) ∧
  (∀ q d ds o s, Front 0x33 q d ds s → moveArgs (takenCmd q d s).part d s = .ok o → dfield d 13 1 = 3 →
    objInUse (popCmd q d ds s) o (takenCmd q d s).id = false →
    exec (.objMove q) s = .next (complete (takenCmd q d s) .ok o.exts.length (releaseObj o (popCmd q d ds s)))) ∧
  (∀ o s, findObj (releaseObj o s) o.id = none ∧ ∀ p a, memByte (releaseObj o s) p a =
    if memAddr o.part o.off ≤ memAddr p a ∧ memAddr p a < memAddr o.part o.off + o.size then 0 else memByte s p a) ∧
  (∀ q d ds o ms t s, Front 0x33 q d ds s → moveArgs (takenCmd q d s).part d s = .ok o → dfield d 13 1 < 3 → dfield d 24 8 = 0 →
    (List.range o.exts.length).any (fun i => (o.exts.getD i default).moving) = false →
    (List.range o.exts.length).any (fun i =>
      extRefused s (tierOf (dfield d 12 1)) (dfield d 13 1) o (o.exts.getD i default)) = false →
    downPort s o ((List.range o.exts.length).filter (fun i => (o.exts.getD i default).home.tier != tierOf (dfield d 12 1))) true =
      none →
    expandsMove s o (bitOf (dfield d 14 1) 0) (dfield d 16 8) (dfield d 24 8) = none →
    moveEach (moveExt (tierOf (dfield d 12 1)) (dfield d 13 1) (.cmd (takenCmd q d s).id) o.id) (List.range o.exts.length)
      (popCmd q d ds s) = .ok (ms, t) →
    exec (.objMove q) s = .next
      (if ms = [] then complete (takenCmd q d s) .ok o.exts.length t
       else setWork (takenCmd q d s).id (.moves ms o.exts.length none []) t)) ∧
  (∀ q d ds s, Front 0x34 q d ds s → dfield d 12 1 = 0 → 1 ≤ dfield d 8 4 → dfield d 8 4 < 256 → dfield d 16 4 ≠ 0 →
    dfield d 16 4 < 2 ^ 24 → dfield d 20 1 ≤ 2 → dfield d 21 1 ≤ 3 →
    ∃ x u, x = ({ part := (takenCmd q d s).part, id := dfield d 8 4, stackMask := dfield d 16 4, spill := dfield d 20 1,
                  opts := dfield d 21 1 } : Policy) ∧
      u = { popCmd q d ds s with objs := { s.objs with policies := setPolicy x s.objs.policies } } ∧
      exec (.objPolicy q) s = .next (flushHeld (complete (takenCmd q d s) .ok 0 (abandonSweepOf (neverSwept u) u)))) ∧
  (∀ q d ds s, Front 0x34 q d ds s → 2 < dfield d 12 1 →
    ∃ t, exec (.objPolicy q) s = .next t ∧ Completes q d .badDescriptor 0 [] s t)

/-- ATTN and ATTN_BWD make a job of their own, and SPEC_CONFIRM with its compaction commits the accepted path of a
provisional tail (R159, R169, R186 to R188, R198). -/
def Obligations.AttentionCommandsAct : Prop :=
  (∀ q d ds x g j s, Front 0x40 q d ds s → attnCheck (takenCmd q d s).part d s = .ok (x, g) →
    j = cmdJob .attn (takenCmd q d s) x g (popCmd q d ds s) →
    (∀ p ∈ (List.range j.items.length).flatMap (itemPages (popCmd q d ds s) j), ∀ y, tilePlace (popCmd q d ds s) j p = some y →
      onDownPort s y.2.1 = false) →
    exec (.attn q) s = .next (runCores (abandonSweeps (fetchCols j (addJob j (g.kind == 2)
      (setWork (takenCmd q d s).id (.job j.id) (popCmd q d ds s))))))) ∧
  (∀ q d ds x g j s, Front 0x41 q d ds s → bwdCheck (takenCmd q d s).part d s = .ok (x, g) →
    j = cmdJob .backward (takenCmd q d s) x g (popCmd q d ds s) →
    (∀ p ∈ (List.range j.items.length).flatMap (itemPages (popCmd q d ds s) j), ∀ y, tilePlace (popCmd q d ds s) j p = some y →
      onDownPort s y.2.1 = false) →
    exec (.attnBwd q) s = .next (runCores (abandonSweeps (fetchCols j (addJob j (g.kind == 2)
      (setWork (takenCmd q d s).id (.job j.id) (popCmd q d ds s))))))) ∧
  (∀ q d ds x s, Front 0x42 q d ds s → openSeq s (takenCmd q d s).part (dSeq d) = .ok x →
    x.prov.filter (fun t => t.step == dfield d 16 8) = none →
    ∃ t, exec (.specConfirm q) s = .next t ∧ Completes q d .specExpired 0 [] s t) ∧
  (∀ q d ds x p s, Front 0x42 q d ds s → openSeq s (takenCmd q d s).part (dSeq d) = .ok x → x.prov = some p →
    p.step = dfield d 16 8 → p.failed = false → pathOk p d = true → dfield d 11 1 ≠ 0 →
    exec (.specConfirm q) s = .next (setWork (takenCmd q d s).id .confirm (popCmd q d ds s))) ∧
  (∀ id c x p t s, findCmd s id = some c → c.work = .confirm → findSeq s (dSeq c.desc) = some x → x.prov = some p →
    p.step = dfield c.desc 16 8 → p.left = [] → p.failed = false → lastMoving s x = false →
    compactRows { x with prov := none } p ((List.range (dfield c.desc 11 1)).map (fun i => dfield c.desc (24 + i) 1))
      (dropTail x p.step s) = .ok t →
    exec (.compaction id) s = .next (complete c .ok (x.length + dfield c.desc 11 1 + (p.count - dfield c.desc 11 1) * 2 ^ 32)
      (releaseHeld x.id (odAdd 0x3000 0x05 64 (dfield c.desc 11 1) (settleVerify x.id p.step (dfield c.desc 11 1) p.count t))))) ∧
  (∀ id c x p s, findCmd s id = some c → c.work = .confirm → findSeq s (dSeq c.desc) = some x → x.prov = some p →
    p.step = dfield c.desc 16 8 → p.left ≠ [] → exec (.compaction id) s = .next s)

/-- TABLE_LOAD loads or empties a slot and advances its generation; TABLE_BUILD and COMPRESS hand out their blocks and end with
the last one encoded (R244, R245, R252 to R255). -/
def Obligations.CodingCommandsAct : Prop :=
  (∀ q d ds s, Front 0x51 q d ds s → dfield d 12 4 = 0 → dfield d 8 1 < 16 → dfield d 16 8 = 0 →
    slotInFlight (popCmd q d ds s) (dfield d 8 1) = 0 →
    ∃ t, exec (.tableLoad q) s = .next t ∧
      Completes q d .ok (nextGen (s.tables.getD (dfield d 8 1) {}).gen) [.tables] s t ∧
      t.tables = s.tables.set (dfield d 8 1) { gen := nextGen (s.tables.getD (dfield d 8 1) {}).gen, image := none }) ∧
  (∀ q d ds o s, Front 0x51 q d ds s → dfield d 12 4 ≠ 0 → ownObj s (takenCmd q d s).part (dfield d 12 4) = .ok o →
    o.poisoned = false → dfield d 8 1 < 16 → dfield d 16 8 % 64 = 0 → dfield d 16 8 + 256 ≤ o.size →
    slotInFlight (popCmd q d ds s) (dfield d 8 1) = 0 →
    ∃ t, exec (.tableLoad q) s = .next t ∧
      if imageOk (objBytes s o (dfield d 16 8) 256) = true then
        Completes q d .ok (nextGen (s.tables.getD (dfield d 8 1) {}).gen) [.tables, .objs] s t ∧
        t.tables = s.tables.set (dfield d 8 1) { gen := nextGen (s.tables.getD (dfield d 8 1) {}).gen,
                                                 image := some (objBytes s o (dfield d 16 8) 256) }
      else Completes q d .badDescriptor 0 [] s t) ∧
  (∀ q d ds s, Front 0x51 q d ds s → dfield d 12 4 = 0 → dfield d 8 1 < 16 → dfield d 16 8 = 0 →
    slotInFlight (popCmd q d ds s) (dfield d 8 1) ≠ 0 →
    ∃ t, exec (.tableLoad q) s = .next t ∧ Completes q d .conflict 0 [.od] s t) ∧
  (∀ q d ds a s, Front 0x50 q d ds s → buildArgs (takenCmd q d s).part d s = .ok a →
    a.dst.exts.any (fun e => e.home.tier == .heath) = false → a.dst.exts.any (fun e => e.moving) = false → codePort s a = none →
    exec (.tableBuild q) s = .next (assignCoding (setWork (takenCmd q d s).id
      (.coding { total := ceilDiv a.len a.block, busy := [], done := [], gen := (s.tables.getD a.slot {}).gen }) (popCmd q d ds s)))) ∧
  (∀ q d ds a s, Front 0x52 q d ds s → compressArgs (takenCmd q d s).part d s = .ok a →
    a.dst.exts.any (fun e => e.home.tier == .heath) = false → a.dst.exts.any (fun e => e.moving) = false → codePort s a = none →
    exec (.compress q) s = .next (assignCoding (setWork (takenCmd q d s).id
      (.coding { total := ceilDiv a.len a.block, busy := [], done := [], gen := (s.tables.getD a.slot {}).gen }) (popCmd q d ds s)))) ∧
  (∀ id core c k b s, findCmd s id = some c → c.work = .coding k → k.busy.find? (fun x => x.1 == core) = some b →
    k.done.length + 1 ≠ k.total →
    exec (.blockEncoded id core false) s = .next (assignCoding (setWork id (.coding { k with
      busy := k.busy.filter (fun x => x.1 != core), done := k.done ++ [b.2] }) s))) ∧
  (∀ id core c k b s, findCmd s id = some c → c.work = .coding k → k.busy.find? (fun x => x.1 == core) = some b →
    k.done.length + 1 = k.total →
    exec (.blockEncoded id core false) s = .next (assignCoding (finishCoding c { k with
      busy := k.busy.filter (fun x => x.1 != core), done := k.done ++ [b.2] } s)))

/-- CXL.mem reads answer the line's bytes, zero where there is no object, and writes store 64 bytes or, where they may not,
leave every byte and raise an event; a granule whose stored bytes are not those written last gives what they decrypt to if its tag
matches them, and else fails; outside OWNED an access is refused with one event (R14, R44, R45, R229, R301, R320, R451). That such
a read gives the poison indication, and that writes past objects and rings are discarded, are the model's choices (log entries 71
and 128). -/
def Obligations.CxlLinesReadAndWrite : Prop :=
  (∀ p line k s, cxlServes s = true → owned s = true → objAt s p (64 * line) 64 = none → inRing s p (64 * line) = false →
    exec (.cxlMemRead p line k) s = .next (send (.cxlData p line 0 false) s)) ∧
  (∀ p line o s, cxlServes s = true → owned s = true → objAt s p (64 * line) 64 = some o → o.poisoned = false →
    (o.exts.getD ((64 * line - o.off) / 2 ^ 20) default).image = none →
    (o.exts.getD ((64 * line - o.off) / 2 ^ 20) default).home.tier = .pasture →
    exec (.cxlMemRead p line .clean) s = .next (send (.cxlData p line
      (BitVec.ofNat 512 (leNat (memRead s p (64 * line) 64))) false) s)) ∧
  (∀ p line k o s, cxlServes s = true → owned s = true → objAt s p (64 * line) 64 = some o → o.poisoned = true →
    exec (.cxlMemRead p line k) s = .next (event .poisoned (some p) 0 0 (64 * line) (send (.cxlData p line 0 true) s))) ∧
  (∀ p line l o g x s, cxlServes s = true → owned s = true → objAt s p (64 * line) 64 = some o → o.poisoned = false →
    (o.exts.getD ((64 * line - o.off) / 2 ^ 20) default).image = none →
    (o.exts.getD ((64 * line - o.off) / 2 ^ 20) default).home = l → l.tier = .meadow →
    s.objs.altered.find? (fun y => y.1 == granuleAt l (64 * line - o.off)) = some g →
    openGranule s.sec.meadowKey (granuleAt l (64 * line - o.off)) g.2 = some x →
    exec (.cxlMemRead p line .clean) s = .next (send (.cxlData p line
      (BitVec.ofNat 512 (leNat ((x.drop ((64 * line - o.off) % 256)).take 64))) false) (lineRead l.unit p line s))) ∧
  (∀ p line l o g k s, cxlServes s = true → owned s = true → objAt s p (64 * line) 64 = some o → o.poisoned = false →
    (o.exts.getD ((64 * line - o.off) / 2 ^ 20) default).image = none →
    (o.exts.getD ((64 * line - o.off) / 2 ^ 20) default).home = l → l.tier = .meadow →
    s.objs.altered.find? (fun y => y.1 == granuleAt l (64 * line - o.off)) = some g →
    openGranule s.sec.meadowKey (granuleAt l (64 * line - o.off)) g.2 = none →
    exec (.cxlMemRead p line k) s = .next (poisonObj o.id (poisonFault 0 l ((64 * line - o.off) % 2 ^ 20 / 256 * 256) p
      (event .integrity (some p) 0 0 (64 * line) (send (.cxlData p line 0 true) (tagMismatch l true (lineRead l.unit p line s))))))) ∧
  (∀ p line k s, cxlServes s = true → owned s = false →
    exec (.cxlMemRead p line k) s = .next (refuseOnce p (Pos.step s.wheel.cur) (send (.cxlData p line 0 true) s))) ∧
  (∀ p line data s, cxlServes s = true → owned s = true → objAt s p (64 * line) 64 = none → inRing s p (64 * line) = true →
    exec (.cxlMemWrite p line data) s = .next (memWrite p (64 * line) (natLe 64 data.toNat) s)) ∧
  (∀ p line data o s, cxlServes s = true → owned s = true → objAt s p (64 * line) 64 = some o → o.immutable = false →
    (slotsOf s).any (fun x => x.obj == o.id) = false → o.poisoned = false →
    (o.exts.getD ((64 * line - o.off) / 2 ^ 20) default).home.tier = .meadow →
    exec (.cxlMemWrite p line data) s = .next
      (if writeWaits s o.id (64 * line - o.off) 64 = true then { s with objs := { s.objs with
         heldWrites := s.objs.heldWrites ++ [{ obj := o.id, off := 64 * line - o.off, bytes := natLe 64 data.toNat }] } }
       else objStore o.id (64 * line - o.off) (natLe 64 data.toNat) s)) ∧
  (∀ p line data o s, cxlServes s = true → owned s = true → objAt s p (64 * line) 64 = some o → o.immutable = true →
    exec (.cxlMemWrite p line data) s = .next (event .badObject (some p) 0 0 (64 * line) s)) ∧
  (∀ p line data s, cxlServes s = true → owned s = false →
    exec (.cxlMemWrite p line data) s = .next (refuseOnce p (Pos.step s.wheel.cur) s)) ∧
  (∀ p line data s, cxlServes s = false → exec (.cxlMemWrite p line data) s = .next s)

/-- TPP messages of each class are taken in the order of their numbers, each acknowledged with its credit units returned; one that
comes ahead of its turn waits, one that comes again is acknowledged and not acted on again. Its units are used when it comes, of the
64 of class 0 and the 8,192 of class 1, and return with its acknowledgement. In its turn a beat is judged, a whole sheet is
admitted or rejected as a whole, a submission's bytes reach their buffer and a window is registered; outside OWNED a beat is refused
with one event, and so are a submission and a window; with no streaming module in service none arrives (R65 to R69, R78, R80, R99,
R102, R105, R14). That messages outside READY are discarded, which plan a submission is for, how a submission and a window are
refused, and that a message beyond the credits is taken, are the model's readings (log entries 24, 78, 117 and 119). -/
def Obligations.MessagesActInTheirOrder : Prop :=
  (∀ m s u, tppServes s = true → u = useCredit 0 (creditUnits m.payload.length) s → s.host.held0 = [] → m.msgSeq = s.host.rx0 →
    exec (.beat m) s = .next (runCores (handOn m (giveCredit 0 (creditUnits m.payload.length)
      { u with host := { u.host with rx0 := u.host.rx0 + 1, held0 := [] } })))) ∧
  (∀ m s u, tppServes s = true → u = useCredit 0 (creditUnits m.payload.length) s → s.host.held0 = [] → m.msgSeq ≠ s.host.rx0 →
    (m.msgSeq - s.host.rx0).toNat < 32768 → exec (.beat m) s = .next (runCores { u with host := { u.host with held0 := [m] } })) ∧
  (∀ m s u, tppServes s = true → u = useCredit 0 (creditUnits m.payload.length) s → 32768 ≤ (m.msgSeq - s.host.rx0).toNat →
    exec (.beat m) s = .next (giveCredit 0 (creditUnits m.payload.length) u)) ∧
  (∀ c m s u, c = .sheet m ∨ c = .submit m ∨ c = .window m → tppServes s = true →
    u = useCredit 1 (creditUnits m.payload.length) s → s.host.held1 = [] → m.msgSeq = s.host.rx1 →
    ∃ t, t = handOn m (giveCredit 1 (creditUnits m.payload.length)
        { u with host := { u.host with rx1 := u.host.rx1 + 1, held1 := [] } }) ∧
      exec c s = .next (runCores (unblock t.wheel.blocked.length t))) ∧
  (∀ c m s u, c = .sheet m ∨ c = .submit m ∨ c = .window m → tppServes s = true →
    u = useCredit 1 (creditUnits m.payload.length) s → 32768 ≤ (m.msgSeq - s.host.rx1).toNat →
    exec c s = .next (giveCredit 1 (creditUnits m.payload.length) u)) ∧
  (∀ c m s, c = .beat m ∨ c = .sheet m ∨ c = .submit m ∨ c = .window m ∨ c = .credit m ∨ c = .sync m → tppServes s = false →
    exec c s = .next s) ∧
  (∀ n s, (useCredit 0 n s).host.grant0 = s.host.grant0 - n ∧ (useCredit 1 n s).host.grant1 = s.host.grant1 - n ∧
    (giveCredit 0 n s).host.grant0 = min 64 (s.host.grant0 + n) ∧ (giveCredit 1 n s).host.grant1 = min 8192 (s.host.grant1 + n)) ∧
  (∀ m s, headerFine m 0x01 = true → m.partition = 0xFF → m.length = 0 → argsZeroBut m [(16, 2)] = true → owned s = true →
    s.wheel.held = [] → handOn m s = judgeBeat m.wpos (BitVec.ofNat 16 (argField m 16 2)) s) ∧
  (∀ m s, headerFine m 0x01 = true → m.partition = 0xFF → m.length = 0 → argsZeroBut m [(16, 2)] = true → owned s = false →
    handOn m s = refuseOnce 32 (Pos.step m.wpos) s) ∧
  (∀ m s, headerFine m 0x02 = true → m.partition.toNat < 32 → m.wpos = 0 → argsZeroBut m [(16, 8)] = true →
    bitOf m.flags.toNat 0 = true → argField m 20 4 = 0 → argField m 16 4 = m.payload.length → m.payload.length ≤ 2 ^ 20 →
    handOn m s = judgeSheet m.partition.toNat m.payload { s with sheets := { s.sheets with
      arriving := s.sheets.arriving.filter (fun a => a.partition != m.partition.toNat) } }) ∧
  (∀ part bs s, owned s = true → sheetForm part bs = none → sheetFault (readSheet part bs) s = none →
    judgeSheet part bs s = admitSheet (readSheet part bs) s) ∧
  (∀ part bs r i s, owned s = true → sheetForm part bs = none → sheetFault (readSheet part bs) s = some (r, i) →
    judgeSheet part bs s = bump64 0x2030 0x06 (sheetEvent .rejectedSheet part (fieldAt bs 8 5) r i s)) ∧
  (∀ m ps s, headerFine m 0x03 = true → m.partition.toNat < 32 → argsZeroBut m [(16, 8)] = true → subPlan m s = some ps →
    argField m 16 4 < 2 * ps.plan.layers →
    argField m 20 4 + m.payload.length ≤ (ps.plan.parts.getD m.partition.toNat default).subBytes → owned s = true →
    bufferBusy ps.half m s = false → handOn m s = putSub ps.half m s) ∧
  (∀ m s, headerFine m 0x04 = true → m.length = 0 → m.wpos = 0 → argsZeroBut m [(16, 3), (20, 4)] = true →
    argField m 16 2 < 256 → argField m 18 1 = 2 ∨ argField m 18 1 = 3 → argField m 20 4 % 64 = 0 → owned s = true →
    windowBusy (argField m 16 2) s = false →
    handOn m s = setWindow { id := argField m 16 2, cls := argField m 18 1, bytes := argField m 20 4 } s) ∧
  (∀ m s, m.typ.toNat = 3 → owned s = false →
    handOn m s = refuseOnce (min m.partition.toNat 32) (Pos.step (if m.wpos = 0 then s.wheel.cur else m.wpos)) s) ∧
  (∀ m s, m.typ.toNat = 4 → owned s = false → handOn m s = refuseOnce (min m.partition.toNat 32) (Pos.step s.wheel.cur) s) ∧
  (∀ w s, findWindow w.id (setWindow w s) = some w)

/-- A beat is judged by where it stands: a later one takes effect, one at the current position is counted, one behind it moves
nothing and is reported, and one that would start a step too early is held until it may. Acting at a position leaves the wheel
there, and so does a beat for the position that follows the current one; silence of the beat opens every gate (R80 to R83, R109). -/
def Obligations.BeatsAreJudgedAndFollowed : Prop :=
  (∀ w c s, Pos.ok w = true → Pos.layer w ≤ lastAt s (Pos.step w) → s.wheel.fresh = false → s.wheel.cur.toNat < w.toNat →
    tooEarly s w = false → judgeBeat w c s = takeEffect w c s) ∧
  (∀ w c s, Pos.ok w = true → Pos.layer w ≤ lastAt s (Pos.step w) → s.wheel.fresh = true → s.wheel.floor.toNat ≤ w.toNat →
    tooEarly s w = false → judgeBeat w c s = takeEffect w c s) ∧
  (∀ w c s, Pos.ok w = true → Pos.layer w ≤ lastAt s (Pos.step w) → s.wheel.fresh = false → w = s.wheel.cur →
    judgeBeat w c s = bump64 0x2000 0x04 s) ∧
  (∀ w c s, Pos.ok w = true → Pos.layer w ≤ lastAt s (Pos.step w) → s.wheel.fresh = false → w.toNat < s.wheel.cur.toNat →
    OnlyIn [.host, .queues, .log, .od, .tx] s (judgeBeat w c s)) ∧
  (∀ w c s, Pos.ok w = true → Pos.layer w ≤ lastAt s (Pos.step w) → s.wheel.fresh = false → s.wheel.cur.toNat < w.toNat →
    tooEarly s w = true → OnlyIn [.wheel, .log, .od, .tx] s (judgeBeat w c s) ∧
      (judgeBeat w c s).wheel = { s.wheel with held := s.wheel.held ++ [{ wpos := w, c1 := c }] }) ∧
  (∀ b s, streamModules s ≠ [] → s.wheel.held = [b] → tooEarly { s with wheel := { s.wheel with held := [] } } b.wpos = false →
    exec .beatHoldRelease s = .next (judgeBeat b.wpos b.c1 { s with wheel := { s.wheel with held := [] } })) ∧
  (∀ b bs s, s.wheel.held = b :: bs → tooEarly { s with wheel := { s.wheel with held := bs } } b.wpos = true →
    exec .beatHoldRelease s = .next s) ∧
  (∀ s, streamModules s = [] → exec .beatHoldRelease s = .next s) ∧
  (∀ s, s.wheel.lastBeat + od s 0x7100 0x04 * 1000 ≤ s.now → exec .beatSilence s =
    .next (forEach (fun n => setMask n 0xF) (List.range 48) { s with wheel := { s.wheel with silent := true } })) ∧
  (∀ s, s.now < s.wheel.lastBeat + od s 0x7100 0x04 * 1000 → exec .beatSilence s = .next s) ∧
  (∀ w c s, (atPosition w c s).wheel.cur = w) ∧
  (∀ w c s, s.wheel.fresh = false → w = Pos.succ (lastAt s (Pos.step s.wheel.cur)) s.wheel.cur →
    (takeEffect w c s).wheel.cur = w)

/-- CREDIT drops the messages it acknowledges, sends their vectors and adds its credits; SYNC starts every number and credit again
and drops what was unacknowledged; outputs that have left by then are settled as on time or late. A module that leaves service is
counted and logged and its unacknowledged messages go out again on the others, one that is retrained takes its place again, and
MCTP moves to the lowest module whose sideband serves (R39, R63, R67, R68, R71, R72, R76, R77, R79). The host's credit after SYNC is
the model's reading (log entry 9). -/
def Obligations.CreditsSyncsAndModules : Prop :=
  (∀ m s, tppServes s = true → headerFine m 0x09 = true → m.length = 0 → ∃ gone,
    gone = s.host.unacked.filter (fun x => (x.cls == 2 && ackedBy (BitVec.ofNat 16 (argField m 24 4)) x) ||
      (x.cls == 3 && ackedBy (BitVec.ofNat 16 (argField m 28 4)) x)) ∧
    exec (.credit m) s = .next (settleAll (outputsLeft (pumpTx (applyWindows (forEach (fun (x : TxMsg) => match x.vector with
      | some v => sendVector v
      | none => id) gone { s with host := { s.host with
        unacked := s.host.unacked.filter (fun x => !((x.cls == 2 && ackedBy (BitVec.ofNat 16 (argField m 24 4)) x) ||
          (x.cls == 3 && ackedBy (BitVec.ofNat 16 (argField m 28 4)) x)))
        cred2 := s.host.cred2 + argField m 24 4 / 65536
        cred3 := s.host.cred3 + argField m 28 4 / 65536 } })))))) ∧
  (∀ m s, tppServes s = true → headerFine m 0x0A = true → m.length = 0 → m.args = 0 → s.wheel.blocked = [] →
    exec (.sync m) s = .next (settleAll (event .aborted none 0 0 s.host.unacked.length (applyWindows (outputsLeft { s with
      host := { s.host with rx0 := 0, rx1 := 0, held0 := [], held1 := [], tx2 := 0, tx3 := 0, cred2 := 1024, cred3 := 2048,
                            unacked := [], grant0 := 64, grant1 := 8192 }
      sheets := { s.sheets with arriving := [] } }))))) ∧
  (∀ m s t, s.jobs.leaving = [] → exec (.credit m) s = .next t → OnlyIn [.host, .queues, .peer, .tx] s t) ∧
  (∀ n b s, s.host.modules.getLsbD n = true → ∃ u, u = { s with host := { s.host with
      modules := s.host.modules &&& ~~~(1#48 <<< n), retraining := s.host.retraining &&& ~~~(1#48 <<< n) } } ∧
    exec (.moduleLinkDown n b) s = .next (resendLost (sendVector 259 (fault .ucieModule (unitModule n)
      ((if b then 1 else 0) + (if n < cxlSize s then (cxlModules u).length else (streamModules u).length) * 256) none
      (bump32 0x1200 0x04 u))))) ∧
  (∀ n b s t, exec (.moduleLinkDown n b) s = .next t → OnlyIn [.host, .log, .od, .tx] s t ∧
    ∀ i, i < 48 → i ≠ n → t.host.modules.getLsbD i = s.host.modules.getLsbD i) ∧
  (∀ n b s, s.host.modules.getLsbD n = false → n < 48 → s.power.failedModules.contains n = false → s.power.test = none →
    exec (.moduleRetrain n b) s = .next (runCores (settleAll (outputsLeft (pumpTx (resendLost (sendVector 259 { s with
      host := { s.host with
        modules := s.host.modules ||| (1#48 <<< n)
        retraining := s.host.retraining &&& ~~~(1#48 <<< n)
        degraded := if b then s.host.degraded ||| (1#48 <<< n) else s.host.degraded &&& ~~~(1#48 <<< n) } }))))))) ∧
  (∀ n b s, moduleServes s n = true ∨ s.power.failedModules.contains n = true → exec (.moduleRetrain n b) s = .next s) ∧
  (∀ n i s, (s.host.sidebands &&& ~~~(1#48 <<< n)) ≠ 0 →
    (List.range 48).find? (fun k => (s.host.sidebands &&& ~~~(1#48 <<< n)).getLsbD k) = some i →
    exec (.sidebandFailure n) s = .next { s with host := { s.host with
      sidebands := s.host.sidebands &&& ~~~(1#48 <<< n), mctpModule := i } })

/-- Jobs (R111, R112, R167, R214, R229, R320): a tile that lands is no longer missing, one that fails its check twice ends its page, be
it an image's, a home's or a coil's, an item whose tiles have landed is expanded, counted and done, its core taking its next one, and
a job all of whose items are done ends with its outputs, or with the status of an error it met, poison of what it reads among them. -/
def Obligations.JobsRunToTheirEnd : Prop :=
  (∀ id item p j s, findJob s id = some j → j.fetching.contains (item, p) = true → p ≠ weightTile →
    exec (.tileLanded (.page id) item p .clean) s = .next (runCores (setJob (tileIn j (item, p))
      (landPage j (j.items.getD item default) p s)))) ∧
  (∀ j m, (tileIn j m).missing = j.missing.filter (fun x => x != m) ∧ (tileIn j m).fetching = j.fetching.filter (fun x => x != m)) ∧
  (∀ id item p j s, findJob s id = some j → j.fetching.contains (item, p) = true → p ≠ weightTile →
    exec (.tileLanded (.page id) item p .failed) s = .next (jobPageFailed j p (some (j, (item, p))) s)) ∧
  (∀ j p w c l s, tilePlace s j p = some (c, l, true) →
    jobPageFailed j p w s = dropColImage c.slot (tagMismatch l false s)) ∧
  (∀ j p w c l s, tilePlace s j p = some (c, l, false) →
    jobPageFailed j p w s = tileLost w (poisonCol c.slot (poisonFault
      (if l.tier = .meadow then 0 else if l.tier = .heath then 1 else 2) l (pageStart s c.model j.layer) c.part (tagMismatch l true s)))) ∧
  (∀ j p w s, tilePlace s j p = none → jobPageFailed j p w s = coilFailed j.seq j.layer p w s) ∧
  (∀ id item j it a t w k s, findJob s id = some j → j.items[item]? = some it → it.state = .running →
    j.missing.any (fun m => m.1 == item) = false → j.status.isError = false → jobPoisoned s j = false → jobView s j = some a →
    itemExpand j it a.g s = (t, .ok w) →
    k = { j with weights := j.weights.filter (fun x => !w.any (fun y => y.1 == x.1)) ++ w } →
    exec (.itemComplete id item) s = .next (runCores (loadFirst k it (halfUsed true k it (setJob { k with
      lastCore := it.core
      items := j.items.set item { it with state := .done, cycles := (countItem j it a item t).2 } }
      (dropItemSlices k it item (useSlices k it item (countItem j it a item t).1))))))) ∧
  (∀ id item j it a f t k s, findJob s id = some j → j.items[item]? = some it → it.state = .running →
    j.missing.any (fun m => m.1 == item) = false → j.status.isError = false → jobPoisoned s j = false → jobView s j = some a →
    itemExpand j it a.g s = (t, .error f) → k = worsen f.status j →
    exec (.itemComplete id item) s = .next (runCores (loadFirst k it (halfUsed true k it (setJob { k with
      lastCore := it.core
      items := k.items.set item { it with state := .done, cycles := 0 } }
      (dropItemSlices k it item (useSlices k it item (auxFailed f it.core t)))))))) ∧
  (∀ id item j it s, findJob s id = some j → j.items[item]? = some it → it.state = .running →
    j.missing.any (fun m => m.1 == item) = false →
    (j.status.isError = true ∧ isSherdStatus j.status = false) ∨ jobPoisoned s j = true →
    exec (.itemComplete id item) s = .next (runCores (loadFirst j it (halfUsed true j it (setJob { j with
      lastCore := it.core
      items := j.items.set item { it with state := .done, cycles := 0 } }
      (dropItemSlices j it item (useSlices j it item s))))))) ∧
  (∀ id item j it s, findJob s id = some j → j.items[item]? = some it →
    it.state ≠ .running ∨ j.missing.any (fun m => m.1 == item) = true → exec (.itemComplete id item) s = .next s) ∧
  (∀ id j a s, findJob s id = some j → j.items.all (fun i => i.state == .done) = true → j.status.isError = false →
    jobPoisoned s j = false → jobInput s j = .ok a →
    exec (.jobComplete id) s = .next (runCores (pruneSheets (endJobGood j a s)))) ∧
  (∀ id j s, findJob s id = some j → j.items.all (fun i => i.state == .done) = true → j.status.isError = true →
    jobPoisoned s j = false → exec (.jobComplete id) s = .next (runCores (pruneSheets (endJobError j j.status s)))) ∧
  (∀ id j s, findJob s id = some j → j.items.all (fun i => i.state == .done) = true → jobPoisoned s j = true →
    exec (.jobComplete id) s = .next (runCores (pruneSheets (endJobError j (worsen .poisoned j).status s)))) ∧
  (∀ id item s, findJob s id = none → exec (.itemComplete id item) s = .next s)

/-- A tier copy commits as one step: the new home is in force and the old place free, or, where it failed, the old home stays. With
the kiln armed the next withdrawal enters the save ring as soon as 128 bytes are free, a column's data as far as there is room and
its record behind it when the data is in whole, with 128 bytes free; the CLASS records of a column that heath already holds enter
ahead of its record; without an armed kiln nothing enters; writes, recalls and packets that waited for a copy then go on, and where
nothing waits nothing else changes (R280, R301, R325, R473). -/
def Obligations.CopiesCommitAndEnterTheRing : Prop :=
  (∀ mv m s, s.objs.moves.find? (fun x => x.id == mv) = some m → m.dest.tier ≠ .heath → (∀ o, m.item ≠ .plain o) →
    sourcePoisoned s m = false →
    exec (.moveCommit mv .done) s = .next (tendPeer (tendRecalls (flushHeld (moveOver m (endMove m (applyMove m s))))))) ∧
  (∀ m k c s, m.item = .col k → findCol s k = some c → m.image = false → c.home.tier ≠ .heath → c.image = none →
    ∃ t, applyMove m s = t ∧ findCol t k = some { c with home := m.dest } ∧ ∀ i, i ≠ k → findCol t i = findCol s i) ∧
  (∀ m k c s, m.item = .col k → findCol s k = some c → m.image = true →
    findCol (applyMove m s) k = some { c with image := some m.dest }) ∧
  (∀ mv m s, s.objs.moves.find? (fun x => x.id == mv) = some m →
    exec (.moveCommit mv .dstFail) s = .next (tendPeer (tendRecalls (flushHeld (failMove m .media s))))) ∧
  (∀ mv m s, s.objs.moves.find? (fun x => x.id == mv) = some m → m.dest.tier ≠ .heath → sourcePoisoned s m = true →
    exec (.moveCommit mv .done) s = .next (tendPeer (tendRecalls (flushHeld (copySourceLost m s))))) ∧
  (∀ mv res s, s.objs.moves.find? (fun x => x.id == mv) = none →
    exec (.moveCommit mv res) s = .next (tendPeer (tendRecalls (flushHeld s)))) ∧
  (∀ s, s.objs.heldWrites = [] → s.objs.bring = [] → flushHeld s = s) ∧
  (∀ s, Quiet s → tendPeer (tendRecalls (flushHeld s)) = s) ∧
  (∀ r rs s t, ringOpen s = true → tendRing s = t → t.pfx.rcTail = r :: rs → ringUsed t + 128 ≤ ringCap →
    exec .saveRingCopyEnd s = .next (tendPrefix (drainAll { t with pfx := { t.pfx with
      rcTail := rs, ring := t.pfx.ring ++ [{ item := .withdraw r, bytes := 128 }] } }))) ∧
  (∀ r rs s t, ringOpen s = true → tendRing s = t → t.pfx.rcTail = r :: rs → ringCap < ringUsed t + 128 →
    exec .saveRingCopyEnd s = .next (tendPrefix t)) ∧
  (∀ c e l s t, ringOpen s = true → tendRing s = t → t.pfx.rcTail = [] → inCopy t = some (c, e, l) → e.left = 0 →
    ringUsed t + 128 ≤ ringCap → exec .saveRingCopyEnd s = .next (tendPrefix (enterRecord c l t))) ∧
  (∀ c e l s t, ringOpen s = true → tendRing s = t → t.pfx.rcTail = [] → inCopy t = some (c, e, l) → e.left ≠ 0 →
    exec .saveRingCopyEnd s = .next (tendPrefix t)) ∧
  (∀ k ks c s t, ringOpen s = true → tendRing s = t → t.pfx.rcTail = [] → inCopy t = none → t.pfx.durQueue = k :: ks →
    findCol t k = some c → c.home.tier = .heath →
    ringUsed t + 32 * (clsChanges c.home (columnUnits t c.model)).length + 128 ≤ ringCap →
    exec .saveRingCopyEnd s = .next (tendPrefix (enterRecord c c.home { t with pfx := { t.pfx with
      durQueue := ks
      ring := t.pfx.ring ++ [{ item := .cls k c.home (columnUnits t c.model)
                               bytes := 32 * (clsChanges c.home (columnUnits t c.model)).length }] } }))) ∧
  (∀ s, ringOpen s = false → exec .saveRingCopyEnd s = .next (tendPrefix s)) ∧
  (∀ c l r s, publishRec s c l = some r → r.recNo = s.pfx.nextRec ∧ r.withdrawal = false ∧ r.units = columnUnits s c.model)

/-- The send doorbell submits the work requests between the old tail and the new one and puts the pair into error where they are more
than the ring has free, the completion head frees slots, a doorbell for a pair that is not the partition's own is ignored and
reported, outside OWNED one is refused with an event, and one without a CXL module does nothing (R14, R79, R366, R370). The bits of a
value that R366 does not name, and the form of the refusal, are the model's choices (log entries 131 and 128). -/
def Obligations.PairDoorbellsSubmitAndFree : Prop :=
  (∀ p v q s, cxlServes s = true → owned s = true → bitsOf v.toNat 15 14 = 0 → doorbellPair s p v.toNat = some q → q.state = .ready →
    bitsOf v.toNat 11 0 < q.ring → q.waiting.length + modSub (bitsOf v.toNat 11 0) q.tail q.ring ≤ q.ring →
    exec (.peerSendTailDoorbell p v) s = .next (tendQp q.num (setQp { q with
      tail := bitsOf v.toNat 11 0
      waiting := q.waiting ++ wrRing (bringOn q.num (rang (peerBell p) v.toNat s)) q q.tail
        (modSub (bitsOf v.toNat 11 0) q.tail q.ring) }
      (bringOn q.num (rang (peerBell p) v.toNat s))))) ∧
  (∀ p v q s, cxlServes s = true → owned s = true → bitsOf v.toNat 15 14 = 0 → doorbellPair s p v.toNat = some q → q.state ≠ .error →
    q.ring ≤ bitsOf v.toNat 11 0 ∨ q.ring - q.waiting.length < modSub (bitsOf v.toNat 11 0) q.tail q.ring →
    exec (.peerSendTailDoorbell p v) s = .next (qpError q.num .badDescriptor .aborted
      (bringOn q.num (rang (peerBell p) v.toNat s)))) ∧
  (∀ p v q s, cxlServes s = true → owned s = true → bitsOf v.toNat 15 14 = 1 → doorbellPair s p v.toNat = some q → q.state ≠ .error →
    exec (.peerCompletionHeadDoorbell p v) s = .next (tendQp q.num (setQp { q with
      compHead := min q.written (q.compHead + modSub (bitsOf v.toNat 11 0 % q.ring) q.compHead q.ring) }
      (bringOn q.num (rang (peerBell p) v.toNat s))))) ∧
  (∀ c p v s, c = .peerSendTailDoorbell p v ∧ bitsOf v.toNat 15 14 = 0 ∨
      c = .peerCompletionHeadDoorbell p v ∧ bitsOf v.toNat 15 14 = 1 → cxlServes s = true → owned s = true →
    doorbellPair s p v.toNat = none → exec c s = .next (doorbellIgnored p (rang (peerBell p) v.toNat s))) ∧
  (∀ c p v s, c = .peerSendTailDoorbell p v ∧ bitsOf v.toNat 15 14 = 0 ∨
      c = .peerCompletionHeadDoorbell p v ∧ bitsOf v.toNat 15 14 = 1 → cxlServes s = true → owned s = false →
    exec c s = .next (refuseOnce p (Pos.step s.wheel.cur) (rang (peerBell p) v.toNat s))) ∧
  (∀ c p v s, c = .peerSendTailDoorbell p v ∨ c = .peerCompletionHeadDoorbell p v → cxlServes s = false → exec c s = .next s)

/-- The front work request of a ready pair starts when its pair has a completion slot and nothing holds it: its packets take the
next numbers and go out while the window allows; one that fails R368 completes with its status and sends nothing (R367 to
R370). -/
def Obligations.WorkRequestsStart : Prop :=
  (∀ c op n q d ds s, c = .wrWrite n ∧ op = 0x70 ∨ c = .wrWriteImm n ∧ op = 0x71 ∨ c = .wrRead n ∧ op = 0x72 ∨
      c = .wrWaitCount n ∧ op = 0x60 → findQp s n = some q → q.waiting = d :: ds → wrOp d = op → wrMayStart q d = true →
    wrCheck s q d = .ok →
    exec c s = .next (tendQp n (setQp { q with
      waiting := ds
      started := q.started ++ [{ desc := d, psn := q.nextPsn, pkts := wrPkts d, done := false, status := .ok }]
      nextPsn := (q.nextPsn + wrPkts d) % 2 ^ 24 } s))) ∧
  (∀ c op n q d ds st s, c = .wrWrite n ∧ op = 0x70 ∨ c = .wrWriteImm n ∧ op = 0x71 ∨ c = .wrRead n ∧ op = 0x72 ∨
      c = .wrWaitCount n ∧ op = 0x60 → findQp s n = some q → q.waiting = d :: ds → wrOp d = op → wrMayStart q d = true →
    wrCheck s q d = st → st ≠ .ok →
    exec c s = .next (tendQp n (setQp { q with
      waiting := ds
      started := q.started ++ [{ desc := d, psn := q.nextPsn, pkts := 0, done := true, status := st }]
      nextPsn := q.nextPsn % 2 ^ 24 } s))) ∧
  (∀ c n q d ds s, c = .wrWrite n ∨ c = .wrWriteImm n ∨ c = .wrRead n ∨ c = .wrWaitCount n → findQp s n = some q →
    q.waiting = d :: ds → wrMayStart q d = false → exec c s = .next s)

/-- A request packet at the expected number that passes its checks is placed, acknowledged with the last packet of a message and every
64th, and one with an immediate counts and is told to the host; a read is answered with its response packets; one whose bytes wait
for a tier copy is held; one that fails a check is answered with NAK ACCESS, an earlier one is acknowledged again, a later one is
answered with NAK SEQ once (R363, R374 to R376, R387, R389). -/
def Obligations.RequestPacketsAreAnswered : Prop :=
  (∀ port k q b u s, k.ptype = 1 → Accepts port k q s → linked q = true → k.psn.toNat = q.expPsn →
    b = setQp (epochKept k q) (bringOn k.dstQp.toNat s) → reqCheck b q k = .ok →
    spanWaits b q.part (bodyOff k) (reqLen k) = false →
    u = placeBytes none q.part (bodyOff k) (k.body.drop 24) (setQp { epochKept k q with
      expPsn := (q.expPsn + 1) % 2 ^ 24, nakFor := none, sinceAck := (q.sinceAck + 1) % 64 } b) →
    exec (.peerWrite port k) s = .next (settleAll
      (if bitOf k.flags.toNat 1 = true ∨ q.sinceAck + 1 = 64 then sendAck q.num u else u))) ∧
  (∀ port k q b u s, k.ptype = 2 → Accepts port k q s → linked q = true → 64 ≤ q.num → k.psn.toNat = q.expPsn →
    b = setQp (epochKept k q) (bringOn k.dstQp.toNat s) → reqCheck b q k = .ok →
    spanWaits b q.part (bodyOff k) (reqLen k) = false →
    u = placeBytes none q.part (bodyOff k) (k.body.drop 24) (setQp { epochKept k q with
      expPsn := (q.expPsn + 1) % 2 ^ 24, nakFor := none, sinceAck := (q.sinceAck + 1) % 64
      count := if bitOf k.flags.toNat 1 = true then q.count + 1 else q.count } b) →
    exec (.peerWriteImm port k) s = .next (settleAll
      (if bitOf k.flags.toNat 1 = true then
        sendAck q.num (event .ok (some q.part) 0 0 (q.num * 2 ^ 48 + fieldAt k.body 20 4) u)
       else if q.sinceAck + 1 = 64 then sendAck q.num u else u))) ∧
  (∀ port k q b s, k.ptype = 2 → Accepts port k q s → linked q = true → isLease q k = true → k.psn.toNat = q.expPsn →
    b = setQp (epochKept k q) (bringOn k.dstQp.toNat s) →
    exec (.peerWriteImm port k) s = .next (settleAll (sendAck q.num
      (leaseAct (fieldAt (k.body.drop 24) 0 1) q.num (leaseOf (k.body.drop 24)) (setQp { epochKept k q with
        expPsn := (q.expPsn + 1) % 2 ^ 24, nakFor := none, sinceAck := (q.sinceAck + 1) % 64, count := q.count + 1 } b))))) ∧
  (∀ port k q b s, k.ptype = 3 → Accepts port k q s → linked q = true → k.psn.toNat = q.expPsn →
    b = setQp (epochKept k q) (bringOn k.dstQp.toNat s) → reqCheck b q k = .ok →
    exec (.readReq port k) s = .next (sendResponses q.num k.psn.toNat q.part (bodyOff k) (fieldAt k.body 16 4)
      (setQp { epochKept k q with expPsn := (q.expPsn + 1) % 2 ^ 24, nakFor := none } b))) ∧
  (∀ c port k q b st s, c = .peerWrite port k ∧ k.ptype = 1 ∨ c = .peerWriteImm port k ∧ k.ptype = 2 ∨
      c = .readReq port k ∧ k.ptype = 3 → Accepts port k q s → linked q = true → k.psn.toNat = q.expPsn →
    b = setQp (epochKept k q) (bringOn k.dstQp.toNat s) → reqCheck b q k = st → st ≠ .ok →
    exec c s = .next (emit q.num ptNak 3 q.expPsn false (nakBody q.expPsn 3 st.code) b)) ∧
  (∀ c port k q b s, c = .peerWrite port k ∧ k.ptype = 1 ∨ c = .peerWriteImm port k ∧ k.ptype = 2 →
      Accepts port k q s → linked q = true → 64 ≤ q.num → k.psn.toNat = q.expPsn →
    b = setQp (epochKept k q) (bringOn k.dstQp.toNat s) → reqCheck b q k = .ok →
    spanWaits b q.part (bodyOff k) (reqLen k) = true → exec c s = .next (holdPkt k b)) ∧
  (∀ c port k q b s, c = .peerWrite port k ∧ k.ptype = 1 ∨ c = .peerWriteImm port k ∧ k.ptype = 2 →
      Accepts port k q s → linked q = true → 0 < modSub q.expPsn k.psn.toNat (2 ^ 24) →
    modSub q.expPsn k.psn.toNat (2 ^ 24) ≤ 2 ^ 23 → b = setQp (epochKept k q) (bringOn k.dstQp.toNat s) → exec c s = .next (sendAck q.num (bump64 0x7030 0x05 b))) ∧
  (∀ c port k q b s, c = .peerWrite port k ∧ k.ptype = 1 ∨ c = .peerWriteImm port k ∧ k.ptype = 2 ∨
      c = .readReq port k ∧ k.ptype = 3 → Accepts port k q s → linked q = true →
    2 ^ 23 < modSub q.expPsn k.psn.toNat (2 ^ 24) → b = setQp (epochKept k q) (bringOn k.dstQp.toNat s) →
    exec c s = .next (if q.nakFor = some q.expPsn then b
      else emit q.num ptNak 3 q.expPsn false (nakBody q.expPsn 1 0)
        (setQp { epochKept k q with nakFor := some q.expPsn } b))) ∧
  (∀ c port k q s, c = .peerWrite port k ∧ k.ptype = 1 ∨ c = .peerWriteImm port k ∧ k.ptype = 2 ∨
      c = .readReq port k ∧ k.ptype = 3 → Reaches port k q s → linked q = true ∨ q.state = .error → k.authentic = false →
    exec c s = .next (bump64 0x7000 0x06 (bringOn k.dstQp.toNat s))) ∧
  (∀ c port k q s, c = .peerWrite port k ∧ k.ptype = 1 ∨ c = .peerWriteImm port k ∧ k.ptype = 2 ∨
      c = .readReq port k ∧ k.ptype = 3 → Reaches port k q s → linked q = false → q.state ≠ .error →
    exec c s = .next (nakState k (bringOn k.dstQp.toNat s))) ∧
  (∀ p off bs o s, spanObjs s p off bs.length = [o] → o.off ≤ off → off + bs.length ≤ o.off + o.size →
    placeBytes none p off bs s = objWrite o.id (off - o.off) bs s)

/-- Answers at the requester (R365, R370, R379, R383, R448): an ACK completes what it covers and ends the run of time-outs, a NAK SEQ
resends, a response is placed once and the last one completes its READ, BUSY resends after 2 µs; CONNECT and CONNECT_ACK of the own
device set make a pair ready, under a secret whose value is free, and DISCONNECT drains it; one that is not authentic is dropped. -/
def Obligations.AnswerPacketsAct : Prop :=
  (∀ c port k q s, c = .readResp port k ∧ k.ptype = 4 ∨ c = .ack port k ∧ k.ptype = 5 ∨ c = .nak port k ∧ k.ptype = 6 ∨
      c = .disconnect port k ∧ k.ptype = 9 → Reaches port k q s → k.authentic = false →
    exec c s = .next (bump64 0x7000 0x06 (bringOn k.dstQp.toNat s))) ∧
  (∀ port k q psn s, k.ptype = 5 → Accepts port k q s → linked q = true → psn = fieldAt k.body 0 3 →
    exec (.ack port k) s = .next (tendQp q.num (setQp { ackTo psn (epochKept k q) with
        runs := 0
        timer := if (ackTo psn q).unacked = [] then none else if psnBefore q.acked psn then some s.now else q.timer
        acked := if psnBefore q.acked psn then psn else q.acked }
      (setQp (epochKept k q) (bringOn k.dstQp.toNat s))))) ∧
  (∀ port k q s, k.ptype = 6 → Accepts port k q s → linked q = true → fieldAt k.body 3 1 = 1 →
    exec (.nak port k) s = .next (resendFrom q.num (fieldAt k.body 0 3) (setQp (epochKept k q) (bringOn k.dstQp.toNat s)))) ∧
  (∀ port k q w i s, k.ptype = 4 → Accepts port k q s →
    q.started.find? (fun x => !x.done && wrOp x.desc == 0x72 && x.out == 1 && x.psn == k.psn.toNat) = some w →
    i = fieldAt k.body 0 4 → w.got.contains i = false → i < readPkts w.desc → w.got.length + 1 ≠ readPkts w.desc → q.unacked ≠ [] →
    spanWaits (setQp (epochKept k q) (bringOn k.dstQp.toNat s)) q.part (wrLocal w.desc + 4096 * i)
      ((k.body.drop 8).take (wrLen w.desc - 4096 * i)).length = false →
    exec (.readResp port k) s = .next (tendQp q.num (placeBytes none q.part (wrLocal w.desc + 4096 * i)
      ((k.body.drop 8).take (wrLen w.desc - 4096 * i)) (setQp { epochKept k q with
          started := q.started.map (fun x => if x == w then { w with got := w.got ++ [i], done := false, moved := 0 } else x) }
        (setQp (epochKept k q) (bringOn k.dstQp.toNat s)))))) ∧
  (∀ port k q w i kept s, k.ptype = 4 → Accepts port k q s →
    q.started.find? (fun x => !x.done && wrOp x.desc == 0x72 && x.out == 1 && x.psn == k.psn.toNat) = some w →
    i = fieldAt k.body 0 4 → w.got.contains i = false → i < readPkts w.desc → w.got.length + 1 = readPkts w.desc →
    kept = q.unacked.filter (fun x => !(x.ptype.toNat == 3 && x.psn == k.psn)) →
    spanWaits (setQp (epochKept k q) (bringOn k.dstQp.toNat s)) q.part (wrLocal w.desc + 4096 * i)
      ((k.body.drop 8).take (wrLen w.desc - 4096 * i)).length = false →
    exec (.readResp port k) s = .next (tendQp q.num (placeBytes none q.part (wrLocal w.desc + 4096 * i)
      ((k.body.drop 8).take (wrLen w.desc - 4096 * i)) (setQp { epochKept k q with
          started := q.started.map (fun x =>
            if x == w then { w with got := w.got ++ [i], done := true, moved := wrLen w.desc } else x)
          unacked := kept
          timer := if kept = [] then none else q.timer }
        (setQp (epochKept k q) (bringOn k.dstQp.toNat s)))))) ∧
  (∀ port k q s, k.ptype = 10 → Reaches port k q s → q.unacked ≠ [] →
    exec (.busy port k) s = .next (setQp { q with busy := q.busy ++ [(s.now, k.psn.toNat)] } (bringOn k.dstQp.toNat s))) ∧
  (∀ port k q s b x, k.ptype = 7 → Reaches port k q s → connectFits s k = true → fromRemote q k = true →
    q.state = .configured →
    b = sendConnect q.num ptConnectAck (setQp { q with remoteQp := k.srcQp.toNat } (bringOn k.dstQp.toNat s)) →
    findQp b q.num = some x →
    exec (.connect port k) s = .next (tendQp q.num (drawn (setQp (withSecret k b (qpReady x)) (dropHeld q.num b))))) ∧
  (∀ port k q s b x, k.ptype = 7 → Reaches port k q s → connectFits s k = true → fromRemote q k = true →
    q.state = .connecting → k.srcNode.toNat ≤ ownNode s →
    b = sendConnect q.num ptConnectAck (setQp { q with remoteQp := k.srcQp.toNat } (bringOn k.dstQp.toNat s)) →
    findQp b q.num = some x →
    exec (.connect port k) s = .next (tendQp q.num (qpResult q.num 2 .ok
      (drawn (setQp (withSecret k b (qpReady x)) (dropHeld q.num b)))))) ∧
  (∀ port k q s, k.ptype = 7 → Reaches port k q s → connectFits s k = true → q.state = .connecting → ownNode s < k.srcNode.toNat →
    exec (.connect port k) s = .next (bringOn k.dstQp.toNat s)) ∧
  (∀ port k q s b, k.ptype = 8 → Reaches port k q s → connectFits s k = true → fromRemote q k = true → q.state = .connecting →
    b = bringOn k.dstQp.toNat s →
    exec (.connectAck port k) s = .next (tendQp q.num (qpResult q.num 2 .ok
      (drawn (setQp (withSecret k b (qpReady q)) (dropHeld q.num b)))))) ∧
  (∀ port k q s, k.ptype = 8 → Reaches port k q s → connectFits s k = true → fromRemote q k = false → q.state = .connecting →
    exec (.connectAck port k) s = .next (qpResult q.num 2 .peerUnreachable
      (setQp { q with state := .configured, connectAt := none } (bringOn k.dstQp.toNat s)))) ∧
  (∀ k s q, withSecret k s q = { q with
    secret := some (freeOf 256 s), remoteGen := fieldAt k.body 24 3, remoteQp := k.srcQp.toNat }) ∧
  (∀ c port k q s, c = .connect port k ∧ k.ptype = 7 ∨ c = .connectAck port k ∧ k.ptype = 8 → Reaches port k q s →
    connectTag s k = false → exec c s = .next (bump64 0x7000 0x06 (bringOn k.dstQp.toNat s))) ∧
  (∀ c port k q s, c = .connect port k ∧ k.ptype = 7 ∨ c = .connectAck port k ∧ k.ptype = 8 → Reaches port k q s →
    connectTag s k = true → connectFits s k = false → exec c s = .next (bringOn k.dstQp.toNat s)) ∧
  (∀ port k q s, k.ptype = 9 → Accepts port k q s → q.state = .ready →
    exec (.disconnect port k) s = .next (tendQp q.num (setQp { epochKept k q with state := .draining, ending := false }
      (setQp (epochKept k q) (bringOn k.dstQp.toNat s)))))

/-- Timers of a pair (R365, R379, R382, R383, R386): no answer to CONNECT within 5 ms, an acknowledgement that does not come, the 2 µs
after a BUSY, and a key epoch used up, each with the pair's context on die. That a device pair asks again is the model's choice (log
entry 32). -/
def Obligations.PairTimersAct : Prop :=
  (∀ n q t s, findQp s n = some q → q.state = .connecting → q.connectAt = some t → t + 5000000 ≤ s.now →
    64 ≤ n ∨ portUp s (n % 32) = false →
    exec (.connectTimeout n) s = .next (qpResult n 2 .peerUnreachable
      (setQp { q with state := .configured, connectAt := none } (bringOn n s)))) ∧
  (∀ n q t s, findQp s n = some q → q.state = .connecting → q.connectAt = some t → t + 5000000 ≤ s.now → n < 64 →
    portUp s (n % 32) = true → exec (.connectTimeout n) s = .next
      (sendConnect n ptConnect (setQp { q with connectAt := some s.now } (bringOn n s)))) ∧
  (∀ n q s, findQp s n = some q → q.state ≠ .connecting → exec (.connectTimeout n) s = .next s) ∧
  (∀ n q t k ks s, findQp s n = some q → q.timer = some t → q.unacked = k :: ks → t + timeoutNs s q ≤ s.now →
    q.runs < od s 0x7010 0x02 →
    exec (.retransmissionTimeout n) s = .next (resendFrom n k.psn.toNat (setQp { q with runs := q.runs + 1 } (bringOn n s)))) ∧
  (∀ n q t k ks s, findQp s n = some q → q.timer = some t → q.unacked = k :: ks → t + timeoutNs s q ≤ s.now →
    od s 0x7010 0x02 ≤ q.runs →
    exec (.retransmissionTimeout n) s = .next (qpUnanswered n (bringOn n s))) ∧
  (∀ n q t psn later s, findQp s n = some q → q.busy = (t, psn) :: later → t + 2000 ≤ s.now →
    exec (.busyResend n) s = .next (resendFrom n psn (setQp { q with busy := later } (bringOn n s)))) ∧
  (∀ n q s, findQp s n = some q → od s 0x7010 0x05 ≤ q.counter → q.epoch + 1 < 2 ^ 32 - 1 →
    exec (.peerRekey n) s = .next (bump64 0x7030 0x08
      (setQp { q with epoch := q.epoch + 1, counter := 0 } (bringOn n s)))) ∧
  (∀ n q s, findQp s n = some q → q.counter < od s 0x7010 0x05 → exec (.peerRekey n) s = .next s)

/-- Lease messages (R315 to R318, R360, R363, R376, R389): one that arrives on the connected control pair of a port is acted on and
acknowledged: a lender grants what it can lend in whole GiB or refuses, a granted lease joins the borrower's pasture under pasture keys
whose value is free, and bytes returned or recalled leave the lease. Messages go out through the pair's queue. -/
def Obligations.LeasesAreLentAndReturned : Prop :=
  (∀ c kind port m q s, c = .leaseRequest port m ∧ kind = 1 ∨ c = .leaseGrant port m ∧ kind = 2 ∨ c = .leaseRefuse port m ∧ kind = 3 ∨
      c = .leaseReturn port m ∧ kind = 4 ∨ c = .leaseRecall port m ∧ kind = 5 ∨ c = .leaseDone port m ∧ kind = 6 →
    portUp s port = true → ownNode s ≠ 0xFFFF → findQp s port = some q → linked q = true →
    exec c s = .next (tendLeases (settleAll (sendAck port (leaseAct kind port m (setQp { q with
      expPsn := (q.expPsn + 1) % 2 ^ 24, nakFor := none, sinceAck := (q.sinceAck + 1) % 64, count := q.count + 1 } s)))))) ∧
  (∀ c port m s, c = .leaseRequest port m ∨ c = .leaseGrant port m ∨ c = .leaseRefuse port m ∨ c = .leaseReturn port m ∨
      c = .leaseRecall port m ∨ c = .leaseDone port m → portUp s port = false ∨ ownNode s = 0xFFFF ∨
      (∀ q, findQp s port = some q → linked q = false) → exec c s = .next s) ∧
  (∀ port kind m s, ∃ bs, sendLease port kind m s = send (.lease port kind m) { s with peer := { s.peer with
      leaseOut := s.peer.leaseOut ++ [(port, bs)] } } ∧ bs.length = 64 ∧ fieldAt bs 0 2 = kind % 65536 ∧ leaseOf bs = m) ∧
  (∀ port m s, lendable s = 0 → leaseAct 1 port m s = sendLease port 3 { m with lender := s.sec.unitId } s) ∧
  (∀ port m n s, n = min (m.bytes.toNat / gib * gib) (lendable s) → n ≠ 0 → ∃ t, leaseAct 1 port m s = t ∧
    OnlyIn [.pasture, .peer, .tx, .fresh] s t ∧ t.pasture.lastLease = s.pasture.lastLease % 65535 + 1 ∧
    ∃ base, t.pasture.leases = s.pasture.leases ++
      [{ id := s.pasture.lastLease % 65535 + 1, port := port, lent := true, bytes := n, notice := od s 0x5010 0x02,
         lender := s.sec.unitId, borrower := m.borrower, base := base }]) ∧
  (∀ port m s, leaseAct 2 port m s = drawn { s with pasture := { s.pasture with
    leases := s.pasture.leases.filter (fun x => x.lent || x.id != leaseKey port m.lease.toNat) ++
      [{ id := leaseKey port m.lease.toNat, port := port, lent := false, bytes := m.bytes.toNat, notice := m.notice.toNat,
         lender := m.lender, borrower := m.borrower, base := m.base.toNat, key := freeOf 768 s }] } }) ∧
  (∀ port m s, leaseAct 3 port m s = s) ∧
  (∀ port m s, leaseAct 4 port m s = { s with pasture := { s.pasture with
    leases := (s.pasture.leases.map (fun x => if x.lent && x.port == port && x.id == m.lease.toNat then
        { x with bytes := x.bytes - m.bytes.toNat } else x)).filter (fun x => !x.lent || x.bytes != 0) } }) ∧
  (∀ port m s, leaseAct 6 port m s = { s with pasture := { s.pasture with
    leases := (s.pasture.leases.map (fun x => if x.lent && x.port == port && x.id == m.lease.toNat then
        { x with bytes := x.bytes - m.bytes.toNat, recalls := [] } else x)).filter (fun x => !x.lent || x.bytes != 0) } }) ∧
  (∀ lease s, exec (.borrowerHoldExpiry lease) s = .next { s with pasture := { s.pasture with
    leases := s.pasture.leases.filter (fun l =>
      !(l.lent && l.id == lease && l.lostAt.any (fun t => t + od s 0x5010 0x03 * 1000000 ≤ s.now))) } }) ∧
  (∀ port m l s, s.pasture.leases.find? (fun x => !x.lent && x.id == leaseKey port m.lease.toNat) = some l →
    leaseImages s (leaseKey port m.lease.toNat) = [] → leaseHomes s (leaseKey port m.lease.toNat) = [] →
    ∃ r, r = ({ bytes := m.bytes.toNat, due := Pos.mk (Pos.step s.wheel.cur + m.notice.toNat) 0 0, late := false } : Recall) ∧
      leaseAct 5 port m s = tendRecall (leaseKey port m.lease.toNat) { s with pasture := { s.pasture with
        leases := s.pasture.leases.map (fun x =>
          if !x.lent && x.id == leaseKey port m.lease.toNat then { l with recalls := l.recalls ++ [r] } else x) } }) ∧
  (∀ port m s, s.pasture.leases.find? (fun x => !x.lent && x.id == leaseKey port m.lease.toNat) = none →
    leaseAct 5 port m s = s) ∧
  (∀ port bytes s, od s 0x5010 0x04 ≠ 0 → exec (.borrowerLeaseRequest port bytes) s = .next (tendLeases (sendLease port 1
    { bytes := bytes, lender := (s.links.ports.getD port {}).neighbour, borrower := s.sec.unitId } s))) ∧
  (∀ port bytes s, od s 0x5010 0x04 = 0 → exec (.borrowerLeaseRequest port bytes) s = .next (tendLeases s))

/-- Packets pass through and wait (R360, R382, R383, R388): one for another node goes on with one hop less, or is dropped and
counted with none left; one whose pair's context is off die is parked, and processed when the context has landed. -/
def Obligations.PacketsAreRelayedAndParked : Prop :=
  (∀ port k n s, portUp s port = true → ownNode s ≠ 0xFFFF → k.dstNode.toNat ≠ ownNode s → k.hops ≠ 0 →
    routePort s k.dstNode.toNat = some n →
    exec (.relayedPacket port k) s = .next (bump64 0x7000 0x04 (enqueue n (k.sched.toNat % 128)
      { len := pktLen k, pkt := some { k with hops := k.hops - 1 }
        wire := pktHdrBytes { k with hops := k.hops - 1 } ++
          (if k.ptype.toNat = ptBusy then [] else Config.relayedBody (packetAad k) k.body)
        transit := if od s 0x7003 (port + 1) = 1 then some port else none } s))) ∧
  (∀ port k s, portUp s port = true → ownNode s ≠ 0xFFFF → k.dstNode.toNat ≠ ownNode s → k.hops = 0 →
    exec (.relayedPacket port k) s = .next (bump64 0x7000 0x05 s)) ∧
  (∀ port k s, k.ptype = 1 → portUp s port = true → ownNode s ≠ 0xFFFF → k.dstNode.toNat = ownNode s →
    s.peer.onDie.contains k.dstQp.toNat = false → od s 0x7002 (port + 1) = 1 →
    (s.peer.parked.filter (fun x => x.1 == port)).length < 128 →
    exec (.peerWrite port k) s = .next (count (.port port) 0x0206 1 { part := some (k.sched.toNat / 4 % 32), cls := 3 }
      (bump64 0x7030 0x03 { s with peer := { s.peer with parked := s.peer.parked ++ [(port, k)] } }))) ∧
  (∀ n s, s.peer.parked.any (fun x => x.2.dstQp.toNat == n) = true → (bringOn n s).peer.onDie.contains n = true →
    exec (.contextFetch n) s = .next ((s.peer.parked.filter (fun x => x.2.dstQp.toNat == n)).foldl (fun t x => packetHere x.2 t)
      (bringOn n { s with peer := { s.peer with parked := s.peer.parked.filter (fun x => x.2.dstQp.toNat != n) } }))) ∧
  (∀ n s, s.peer.parked.any (fun x => x.2.dstQp.toNat == n) = false → exec (.contextFetch n) s = .next s) ∧
  (∀ n s, s.peer.onDie.contains n = true ∨ s.peer.onDie.length < 4096 ∨ s.peer.onDie.any (evictable s) = true →
    (bringOn n s).peer.onDie.contains n = true) ∧
  (∀ n s, s.peer.onDie.length ≤ 4096 → (bringOn n s).peer.onDie.length ≤ 4096)

/-- A port comes up by the steps of R395 and the key agreement of R447, in which each end proves its key: each step begins where the one
before ends, with light enough, alignment, and capabilities told and fitting; a step that takes too long, or a peer that fails, starts
it again with FLT_ISVER_LINK. That one command stands for each step's end is the model's choice (log entry 155). -/
def Obligations.PortsComeUp : Prop :=
  (∀ n caps s, Trains n s → (portOf s n).step = 0 → exec (.portBringUp n caps) s = .next (atStep 1 n s)) ∧
  (∀ n caps s, Trains n s → (portOf s n).step = 1 → minLanes s n ≤ laneCount (litLanes s n) →
    exec (.portBringUp n caps) s = .next (atStep 2 n s)) ∧
  (∀ n caps s, Trains n s → (portOf s n).step = 2 → exec (.portBringUp n caps) s = .next (atStep 3 n s)) ∧
  (∀ n caps s, Trains n s → (portOf s n).step = 3 →
    exec (.portBringUp n caps) s = .next (send (.linkCaps n (ownCaps n s)) (atStep 4 n s))) ∧
  (∀ n caps lanes s, Trains n s → (portOf s n).step = 4 → caps.heath = isHeathPort n →
    (isHeathPort n = true → caps.grants.length = 4 ∧ ∀ g ∈ caps.grants, 64 ≤ g) →
    lanes = bothLanes (bothLanes caps.lanes.toNat (litLanes s n)) (allLanes n) → minLanes s n ≤ laneCount lanes →
    s.sec.identity ≠ none → s.sec.unitId.toNat < caps.unit.toNat →
    exec (.portBringUp n caps) s = .next (send (.linkMsg n 1) (editPort n (fun x => { x with
      state := 1, step := 5, stepAt := s.now, txLanes := lanes, rxLanes := lanes, neighbour := caps.unit,
      node := caps.node.toNat, grants := caps.grants, keySent := true, secret := none, proofSent := false,
      peerPub := [], keyIn := none }) s))) ∧
  (∀ n caps s, Trains n s → (portOf s n).step = 1 ∧ laneCount (litLanes s n) < minLanes s n ∨
      (portOf s n).step = 4 ∧ capsFit n caps s = false → exec (.portBringUp n caps) s = .next s) ∧
  (∀ n k s, n < s.links.ports.length → (portOf (atStep k n s) n) = { portOf s n with state := 1, step := k, stepAt := s.now }) ∧
  (∀ n s, (portOf s n).state = 1 → (portOf s n).step ≠ 0 → (portOf s n).stepAt + stepBound (portOf s n).step ≤ s.now →
    exec (.bringupStepTimeout n) s = .next (retrain n (fault .isverLink (unitPort n) ((portOf s n).step + heathBit n 8) none s))) ∧
  (∀ n unit pub ek s, (portOf s n).state = 1 → (portOf s n).step = 4 → s.sec.identity ≠ none →
    exec (.linkKey n unit pub ek) s = .next (editPort n (fun x => { x with keyIn := some (unit, pub) }) s)) ∧
  (∀ n unit pub ek s, (portOf s n).state = 1 → (portOf s n).step = 5 → s.sec.identity ≠ none → (portOf s n).neighbour.toNat ≤ s.sec.unitId.toNat →
    unit = (portOf s n).neighbour →
    exec (.linkKey n unit pub ek) s = .next (drawn (send (.linkMsg n 3) (send (.linkMsg n 2) (editPort n (fun x => { x with
      peerPub := pub, secret := some (freeOf 256 s), proofSent := true }) s))))) ∧
  (∀ n unit pub ct s, agreeing (portOf s n) = true → s.sec.identity ≠ none → (portOf s n).keySent = true →
    unit = (portOf s n).neighbour →
    exec (.linkCt n unit pub ct) s = .next (drawn (send (.linkMsg n 3) (editPort n (fun x => { x with
      peerPub := pub, secret := some (freeOf 256 s), proofSent := true }) s)))) ∧
  (∀ n s, agreeing (portOf s n) = true → (portOf s n).secret ≠ none →
    keyIsOf (portOf s n).peerPub (portOf s n).neighbour = true → allowed s (portOf s n).neighbour = true →
    exec (.linkProof n true) s = .next (linkUp n s)) ∧
  (∀ n ok s, agreeing (portOf s n) = true → (portOf s n).secret ≠ none → ok = false ∨ allowed s (portOf s n).neighbour = false →
    exec (.linkProof n ok) s = .next (retrain n (fault .isverLink (unitPort n) (5 + heathBit n 8) none s))) ∧
  (∀ n unit pub x s, s.sec.identity = none → exec (.linkKey n unit pub x) s = .next s ∧ exec (.linkCt n unit pub x) s = .next s)

/-- What a frame that arrives whole does (R402, R403, R405, R406, R411): DATA takes credit of its class, CREDIT says what the other
end has had and freed, NAK has the stored frames from E on sent again, LANE changes the lanes at its switch counter, and IDLE only
keeps the counter going. -/
def Obligations.FramesAct : Prop :=
  (∀ n f s, Arrives n 1 f s → exec (.dataFrame n f) s = .next (editPort n (fun p => { p with
    rcvd := addAt p.rcvd (bitsOf f.flags.toNat 3 2) 1, freed := addAt p.freed (bitsOf f.flags.toNat 3 2) 1 }) (received n f s))) ∧
  (∀ n f s, Arrives n 0 f s → exec (.idleFrame n f) s = .next (received n f s)) ∧
  (∀ n f s, Arrives n 2 f s → exec (.creditFrame n f) s = .next (editPort n (fun p =>
    if fieldAt f.payload 0 8 < p.heard then p
    else { p with
      heard := fieldAt f.payload 0 8
      peerRcvd := (List.range 4).map (fun c => fieldAt f.payload (8 + 8 * c) 8)
      peerFreed := (List.range 4).map (fun c => fieldAt f.payload (40 + 8 * c) 8)
      sentTo := p.sentTo.filter (fun x => fieldAt f.payload 0 8 < x.ctr) }) (received n f s))) ∧
  (∀ n f s, Arrives n 3 f s → isHeathPort n = true → ∃ again,
    again = (portOf (received n f s) n).sentTo.filter (fun x => fieldAt f.payload 0 8 ≤ x.ctr) ∧
    exec (.nakFrame n f) s = .next (odAdd (portIx n) 0x0A 64 again.length
      (forEach (fun (x : SentFrame) => send (.replay n x.ctr x.wire)) again (received n f s)))) ∧
  (∀ n f s, Arrives n 4 f s → (portOf (received n f s) n).txCtr ≤ fieldAt f.payload 8 8 →
    exec (.lane n f) s = .next (editPort n (fun p => { p with
      laneSwitch := some (bothLanes (fieldAt f.payload 0 1) (allLanes n), fieldAt f.payload 8 8) }) (received n f s)))

/-- Frames that do not arrive whole (R396, R400 to R403, R409, R488): one that fails correction or authentication is dropped and
counted, the 1,024th in a row takes a port down, and a heath port asks for the expected one once; one out of order ends the run. -/
def Obligations.BadFramesAreDropped : Prop :=
  (∀ c n t f s, c = .dataFrame n f ∧ t = 1 ∨ c = .idleFrame n f ∧ t = 0 ∨ c = .creditFrame n f ∧ t = 2 ∨ c = .nakFrame n f ∧ t = 3 ∨
      c = .lane n f ∧ t = 4 → portUp s n = true → f.ftype.toNat = t → f.fecOk = false → (portOf s n).bad < 1023 →
    exec c s = .next (askReplay n (count (.port n) 0x0204 1 {} (bump64 (portIx n) 0x07
      (editPort n (fun p => { p with bad := (portOf s n).bad + 1 }) s))))) ∧
  (∀ c n t f s, c = .dataFrame n f ∧ t = 1 ∨ c = .idleFrame n f ∧ t = 0 ∨ c = .creditFrame n f ∧ t = 2 ∨ c = .nakFrame n f ∧ t = 3 ∨
      c = .lane n f ∧ t = 4 → portUp s n = true → f.ftype.toNat = t → f.fecOk = false → 1023 ≤ (portOf s n).bad →
    exec c s = .next (portDown n (count (.port n) 0x0204 1 {} (bump64 (portIx n) 0x07
      (editPort n (fun p => { p with bad := (portOf s n).bad + 1 }) s))))) ∧
  (∀ c n t f s, c = .dataFrame n f ∧ t = 1 ∨ c = .idleFrame n f ∧ t = 0 ∨ c = .creditFrame n f ∧ t = 2 ∨ c = .nakFrame n f ∧ t = 3 ∨
      c = .lane n f ∧ t = 4 → portUp s n = true → f.ftype.toNat = t → f.fecOk = true → f.authOk = true → isHeathPort n = true →
    frameCtr (portOf s n) f.ctrLo.toNat ≠ expectedCtr (portOf s n) →
    exec c s = .next (askReplay n (editPort n (fun p => { p with bad := 0 }) (odAdd (portIx n) 0x09 64 f.corrected s)))) ∧
  (∀ c n t f s, c = .dataFrame n f ∧ t = 1 ∨ c = .idleFrame n f ∧ t = 0 ∨ c = .creditFrame n f ∧ t = 2 ∨ c = .nakFrame n f ∧ t = 3 ∨
      c = .lane n f ∧ t = 4 → portUp s n = true → f.ftype.toNat = t → f.fecOk = true → f.authOk = false → (portOf s n).bad < 1023 →
    exec c s = .next (askReplay n (count (.port n) 0x0204 1 {} (bump64 (portIx n) 0x08
      (editPort n (fun p => { p with bad := (portOf s n).bad + 1 }) (odAdd (portIx n) 0x09 64 f.corrected s)))))) ∧
  (∀ c n t f s, c = .dataFrame n f ∧ t = 1 ∨ c = .idleFrame n f ∧ t = 0 ∨ c = .creditFrame n f ∧ t = 2 ∨ c = .nakFrame n f ∧ t = 3 ∨
      c = .lane n f ∧ t = 4 → portUp s n = true → f.ftype.toNat = t → f.fecOk = true → f.authOk = false → 1023 ≤ (portOf s n).bad →
    exec c s = .next (portDown n (fault .isverAuth (unitPort n) (frameCtr (portOf s n) f.ctrLo.toNat + heathBit n 64) none
      (count (.port n) 0x0204 1 {} (bump64 (portIx n) 0x08
        (editPort n (fun p => { p with bad := (portOf s n).bad + 1 }) (odAdd (portIx n) 0x09 64 f.corrected s))))))) ∧
  (∀ n s, isHeathPort n = true → (portOf s n).rxLost = false → askReplay n s = controlOut n 3 (nakPayload (expectedCtr (portOf s n)))
    (editPort n (fun x => { x with rxLost := true, nakAt := some s.now, nakFirst := s.now }) s)) ∧
  (∀ n s, n < 32 → askReplay n s = s) ∧
  (∀ c n f s, c = .dataFrame n f ∨ c = .idleFrame n f ∨ c = .creditFrame n f ∨ c = .nakFrame n f ∨ c = .lane n f →
    portUp s n = false → exec c s = .next s)

/-- Timers and lanes of a link, and its scheduler: a heath port repeats its NAK and gives up after 1 ms, credits are told in time but
for those of relayed packets that wait, a key epoch that is used up is followed by the next, a lane that fails is left out while enough remain, and at a packet boundary
the eligible packet with the least finish tag goes whole, or an IDLE frame where no queue may send (R384, R394, R396, R403, R405,
R408, R410, R411, R413). -/
def Obligations.LinksRepairAndSchedule : Prop :=
  (∀ n t s, isHeathPort n = true → portUp s n = true → (portOf s n).rxLost = true → (portOf s n).nakAt = some t →
    t + 2000 ≤ s.now → exec (.nakRepeat n) s = .next (controlOut n 3 (nakPayload (expectedCtr (portOf s n)))
      (editPort n (fun x => { x with nakAt := some s.now }) s))) ∧
  (∀ n s, isHeathPort n = true → (portOf s n).rxLost = true → (portOf s n).nakFirst + 1000000 ≤ s.now →
    exec (.replayTimeout n) s = .next (portDown n s)) ∧
  (∀ n s, portUp s n = true → creditDue s n = true → exec (.creditFrameTimer n) s = .next (controlOut n 2
    (creditPayload ((portOf s n).rxCtr.getD 0) (portOf s n).rcvd ((List.range 4).map (tellFreed s n)))
    (editPort n (fun x => { x with creditAt := s.now, freedTold := (List.range 4).map (tellFreed s n) }) s))) ∧
  (∀ n c s, heldTransit s n = [] → tellFreed s n c = max (nth (portOf s n).freedTold c) (nth (portOf s n).freed c)) ∧
  (∀ n c s, 128 ≤ (heldTransit s n).length → tellFreed s n c = nth (portOf s n).freedTold c) ∧
  (∀ n s, portUp s n = true → od s 0x7100 0x01 ≤ (portOf s n).epochFrames →
    exec (.linkRekey n) s = .next (editPort n (fun p => { p with txEpoch := p.txEpoch + 1, epochFrames := 0 }) s)) ∧
  (∀ n l s, portUp s n = true → bitOf (targetMask (portOf s n)) l = true →
    minLanes s n ≤ laneCount (laneClear (targetMask (portOf s n)) l) →
    exec (.laneFault n l) s = .next (laneAgree n (laneClear (targetMask (portOf s n)) l)
      (editPort n (fun x => { x with laneBad := x.laneBad ++ [(l, s.now)] })
        (laneFaultRec n l (laneClear (targetMask (portOf s n)) l) false s)))) ∧
  (∀ n l s, portUp s n = true → bitOf (targetMask (portOf s n)) l = true →
    laneCount (laneClear (targetMask (portOf s n)) l) < minLanes s n →
    exec (.laneFault n l) s = .next (portDown n (laneFaultRec n l (laneClear (targetMask (portOf s n)) l) false s))) ∧
  (∀ n a s, (portOf s n).agree = some a → portUp s n = true → a.lastSent + 1000 ≤ s.now →
    exec (.laneFrameRepeat n) s = .next (controlOut n 4 (lanePayload a.mask a.switchAt)
      (editPort n (fun p => { p with agree := some { a with lastSent := s.now } }) s))) ∧
  (∀ n a s, (portOf s n).agree = some a → a.since + 20000 ≤ s.now → exec (.laneAgreementTimeout n) s = .next (portDown n s)) ∧
  (∀ n l s, portUp s n = true → (portOf s n).laneBad.any (fun x => x.1 == l && x.2 + 100000000 ≤ s.now) = true →
    exec (.laneRetrain n l true) s = .next (laneAgree n (laneSet (targetMask (portOf s n)) l)
      (editPort n (fun x => { x with laneBad := x.laneBad.filter (fun y => y.1 != l) }) s))) ∧
  (∀ n l s, portUp s n = true → (portOf s n).laneBad.any (fun x => x.1 == l && x.2 + 100000000 ≤ s.now) = true →
    exec (.laneRetrain n l false) s = .next (editPort n (fun x => { x with
      laneBad := x.laneBad.map (fun y => if y.1 == l then (l, s.now) else y) }) s)) ∧
  (∀ powers s, s.links.lasers.length = 12 →
    (∀ k, k < 12 → (s.links.lasers.getD k {}).low = [] ∧ ∀ x ∈ powers.getD k [], (1200 : Int) ≤ x) →
    exec (.laserCheck powers) s = .next { s with links := { s.links with
      lasers := (List.range 12).map (fun k => { powers := powers.getD k [], low := [], goodSince := [] }) } }) ∧
  (∀ n q k x s, portUp s n = true → pickQueue n (portOf s n) = some (q, k) → k.pkt = some x →
    exec (.packetBoundary n) s = .next (send (.packet n x k.wire) (dataOut n q k.len k.wire (editPort n (fun p =>
        stampQ (weightOf s n q) q (setPkts q (pktsOf p q).tail { p with
          v := k.finish, lastFinish := insertKey q k.finish p.lastFinish })) s)))) ∧
  (∀ n q k s, portUp s n = true → pickQueue n (portOf s n) = some (q, k) → k.pkt = none →
    ∃ t, t = editPort n (fun p => stampQ (weightOf s n q) q (setPkts q (pktsOf p q).tail { p with
        v := k.finish, lastFinish := insertKey q k.finish p.lastFinish })) s ∧
      exec (.packetBoundary n) s = .next (requestLeft (n - 32) k.request
        (dataOut n q k.len (requestOn t (n - 32) k.request) t))) ∧
  (∀ n q len w s, dataOut n q len w s = forEach (fun i => frameOut n 1 (some q) (chunkStart i) (chunkOf w i))
    (List.range (ceilDiv len 220)) s) ∧
  (∀ n s, portUp s n = true → pickQueue n (portOf s n) = none → exec (.packetBoundary n) s = .next (controlOut n 0 (padFrame []) s)) ∧
  (∀ n s, portUp s n = false → exec (.packetBoundary n) s = .next s) ∧
  (∀ n p q k, pickQueue n p = some (q, k) → mayLeave n p q k = true ∧ ∃ ks, (q, k :: ks) ∈ p.queues) ∧
  (∀ n p, pickQueue n p = none → ∀ q k ks, (q, k :: ks) ∈ p.queues → mayLeave n p q k = false)

/-- What a bridge's answer does (R326, R329, R332, R342, R348, R351 to R354): a shelf that meets R326 is asked for its LUNs, bad blocks
enter the block table, a page that fits is served or, where its tag fails, poisoned, one that does not is rebuilt from its stripe, a
programmed page is mapped, an erased block counts, and a failed one is retired. -/
def Obligations.BridgeAnswersAct : Prop :=
  (∀ h b r o s, Answers h 0x01 b o s → (shelfOf (taken h o s) h).state = 1 → b.status = 0 → b.length.toNat = 64 →
    shelfRecOk r = true →
    exec (.identify h b r) s = .next (pump h (setShelf h (askLuns r { shelfOf (taken h o s) h with
      geom := some r, capability := b.capability.toNat, params := [], badSeen := 0 }) (taken h o s)))) ∧
  (∀ h b r o s, Answers h 0x01 b o s → (shelfOf (taken h o s) h).state = 1 →
    b.status ≠ 0 ∨ (b.length.toNat = 64 ∧ shelfRecOk r = false) →
    exec (.identify h b r) s = .next (setShelf h { shelfOf (taken h o s) h with state := 6, geom := none } (taken h o s))) ∧
  (∀ h b o s, Answers h 0x02 b o s → bringsData b 256 b.data.length = true →
    exec (.param h b) s = .next (pump h (setShelf h { shelfOf (taken h o s) h with
      params := (shelfOf (taken h o s) h).params ++ [(16 * o.channel + o.lun, b.data)] } (taken h o s)))) ∧
  (∀ h b o bad s, Answers h 0x03 b o s → b.status ≠ 0 ∨ b.length.toNat = badmapBytes (shelfOf s h) →
    exec (.badmap h b bad) s = .next (badmapSeen h o bad (taken h o s))) ∧
  (∀ h b o p s, Answers h 0x10 b o s → b.status ≠ 0 ∨ (b.length.toNat = 16512 ∧ p.data.length = 16384 ∧ p.spare.length = 128) →
    exec (.bridgeRead h b p) s = .next (readDone h b p o (taken h o s))) ∧
  (∀ h b o p u t s, o.use = .read (.host u) → t = setShelf h (noteRead s o b.corrected.toNat (shelfOf s h)) s →
    pageFits (shelfOf t h) (.host u) b.status.toNat p = true → pageTagOk t p = true →
    readDone h b p o s = serveUnit h u t) ∧
  (∀ h b o p u t s, o.use = .read (.host u) → t = setShelf h (noteRead s o b.corrected.toNat (shelfOf s h)) s →
    pageFits (shelfOf t h) (.host u) b.status.toNat p = true → pageTagOk t p = false →
    readDone h b p o s = tendPrefix (poisonFlow h u t)) ∧
  (∀ h b o p u t s, o.use = .read (.host u) → t = setShelf h (noteRead s o b.corrected.toNat (shelfOf s h)) s →
    pageFits (shelfOf t h) (.host u) b.status.toNat p = false → readDone h b p o s = startRebuild h (.host u) t) ∧
  (∀ x u st p, pageFits x (.host u) st p = true ↔
    st = 0 ∧ hcrcOk p.spare = true ∧ (hdrOf p.spare).unit = unitNo x u ∧ (hdrOf p.spare).kind ≤ 1) ∧
  (∀ h b o p s, Answers h 0x11 b o s → b.status ≠ 0 ∨ (b.length.toNat = 128 ∧ p.length = 128) →
    exec (.readMeta h b p) s = .next (metaDone h b p o (taken h o s))) ∧
  (∀ h b o s, Answers h 0x20 b o s → b.status ≠ 0 ∨ b.length = 0 → exec (.program h b) s = .next
    (if b.status = 0 then programDone h o (taken h o s) else programFailed h o (taken h o s))) ∧
  (∀ h b o sb s, Answers h 0x30 b o s → b.status ≠ 0 ∨ b.length = 0 → o.use = .erase sb → exec (.erase h b) s = .next
    (if b.status = 0 then eraseDone h sb o (taken h o s) else eraseFailed h sb o (taken h o s))) ∧
  (∀ h b o s, Answers h 0x30 b o s → b.status ≠ 0 ∨ b.length = 0 → o.use = .format →
    exec (.erase h b) s = .next (formatErased h b o (taken h o s))) ∧
  (∀ h b o s, Answers h 0x50 b o s → b.status ≠ 0 ∨ b.length = 0 → exec (.bridgeReset h b) s = .next
    (if b.status = 0 then pump h (taken h o s) else lunOut h o.channel o.lun none (taken h o s))) ∧
  (∀ u sb slot seq key copy x e, fineEnt x u = some e → fineEnt (mapTo u false sb slot seq key copy x) u =
    some { e with state := 2, sb := sb, slot := slot, keyId := key }) ∧
  (∀ st o h s, h < s.shelves.length → (blockEnt (shelfOf (retire st o h s) h) o.channel o.lun o.block).state = st)

/-- Housekeeping of a ready shelf: half a journal is programmed, a checkpoint is written when it is due, collection starts below its
mark on the victim that R350 orders first and asks for what lies there, and what has waited for a port for OD 0x6000:08 fails with ST_MEDIA. A response that nothing asked changes nothing, a LUN
that is silent, by status or for 50 ms, is asked to reset, and a status of the device's own fault is recorded and the operation
asked again (R328, R331, R345, R346, R350, R354; the meaning of status 6 is the model's reading, log entry 25). -/
def Obligations.ShelvesKeepHouseAndNoticeSilence : Prop :=
  (∀ h s, shelfJournals (shelfOf s h) = true → 512 ≤ (shelfOf s h).tail.length → journalBusy (shelfOf s h) = false →
    s.power.kiln.sag = none → exec (.journalHalfFull h) s = .next (pump h (setShelf h (journalPage (shelfOf s h)) s))) ∧
  (∀ h s, (shelfOf s h).tail.length < 512 → exec (.journalHalfFull h) s = .next s) ∧
  (∀ h s, (shelfOf s h).state = 4 → od s 0x6000 0x07 ≤ (shelfOf s h).journalPages → (shelfOf s h).ckpt = none →
    anyUse (shelfOf s h) isRootUse = false → s.power.kiln.sag = none →
    exec (.checkpoint h) s = .next (pump h (setShelf h (startCkpt (shelfOf s h)) s))) ∧
  (∀ h s, (shelfOf s h).state = 4 → s.power.kiln.sag = none → wantsGc (shelfOf s h) (od s 0x6000 0x01) = false →
    exec (.garbageCollection h) s = .next s) ∧
  (∀ h s, ∃ t, exec (.garbageCollection h) s = .next t ∧
    OnlyIn [.mem, .host, .queues, .jobs, .kv, .objs, .pfx, .shelves, .peer, .links, .od, .fresh] s t) ∧
  (∀ h v x s, x = shelfOf s h → x.state = 4 → x.collecting = none → s.power.kiln.sag = none →
    wantsGc x (od s 0x6000 0x01) = true → nextVictim x (od s 0x6000 0x02) = some v → inSb x v ≠ [] →
    exec (.garbageCollection h) s = .next (tend h (odAdd 0x6000 0x0E 64
      (if x.relocate.contains v && !x.lunMoves.contains v then 1 else 0) (setShelf h (startVictim v x) s)))) ∧
  (∀ x m, nextVictim x m = if belowMark x m then victim x else firstId ((candidates x).filter (fun b => x.relocate.contains b.id))) ∧
  (∀ x v, victim x = some v → ∃ b, b ∈ candidates x ∧ b.id = v ∧ (b.state = 3 ∨ (∀ c ∈ candidates x, c.state ≠ 3) ∧
    (x.relocate.contains v = true ∨ ∀ c ∈ candidates x, x.relocate.contains c.id = false ∧ b.uses.length ≤ c.uses.length))) ∧
  (∀ h s, heathUp s h = true → exec (.portDownWaitExpiry h) s = .next s) ∧
  (∀ h c s, heathUp s h = false → s.queues.cmds = [c] → c.work = .stalled h → portWaitOver s c.since = true →
    s.host.cxlWaiting = [] → s.objs.moves = [] → exec (.portDownWaitExpiry h) s = .next (flushHeld (complete c .media 0 s))) ∧
  (∀ h w s, heathUp s h = false → s.queues.cmds = [] → s.host.cxlWaiting = [w] → w.shelf = h → portWaitOver s w.since = true →
    s.objs.moves = [] → s.objs.heldWrites = [] → s.objs.bring = [] → exec (.portDownWaitExpiry h) s = .next (event .media (some w.part) 0 0 (64 * w.line)
      (cxlAnswer w.part w.line true { s with host := { s.host with cxlWaiting := [] } }))) ∧
  (∀ c h b s, (∃ r, c = .identify h b r) ∨ c = .param h b ∨ (∃ l, c = .badmap h b l) ∨ (∃ p, c = .bridgeRead h b p) ∨
      (∃ p, c = .readMeta h b p) ∨ c = .program h b ∨ c = .erase h b ∨ c = .bridgeReset h b → (shelfOf s h).ops = [] →
    exec c s = .next s) ∧
  (∀ h b o s, (shelfOf s h).ops.find? (fun x => x.tag == b.tag.toNat && x.op == 0x20) = some o → heathUp s h = true →
    b.flags.getLsbD 0 = true → b.status = 5 → exec (.program h b) s = .next (lunSilent h o (setShelf h { shelfOf s h with
      ops := (shelfOf s h).ops.filter (fun y => y.tag != o.tag) } s))) ∧
  (∀ h b o s, (shelfOf s h).ops.find? (fun x => x.tag == b.tag.toNat && x.op == 0x20) = some o → heathUp s h = true →
    b.flags.getLsbD 0 = true → b.status = 6 → exec (.program h b) s = .next (pump h (setShelf h { shelfOf s h with
      ops := (shelfOf s h).ops.filter (fun y => y.tag != o.tag), waiting := o :: (shelfOf s h).waiting }
      (fault .heathBridge (unitHeathPort h) (o.op + o.channel * 2 ^ 8 + o.lun * 2 ^ 16 + o.tag * 2 ^ 24) none s)))) ∧
  (∀ h tag o s, (shelfOf s h).ops.find? (fun x => x.tag == tag.toNat && x.at_ + 50000000 ≤ s.now) = some o →
    heathUp s h = true → o.op ≠ 1 → exec (.bridgeResponseTimeout h tag) s = .next (lunSilent h o (setShelf h { shelfOf s h with
      ops := (shelfOf s h).ops.filter (fun y => y.tag != tag.toNat) } s))) ∧
  (∀ h tag s, (shelfOf s h).ops = [] → exec (.bridgeResponseTimeout h tag) s = .next s)

/-- A shelf starts on what its root areas say (R335, R339, R347, R348, R356): once its LUNs have told of themselves the root pages are
read; a shelf without any is formatted, one of another device is refused, one whose root pages cannot be read, one whose tail was lost
and one whose checkpoint is not whole are scanned in full, and one that matches has its maps rebuilt; then the steps of R356 follow,
and it is ready once its checkpoint's root page is programmed. -/
def Obligations.ShelvesStartUp : Prop :=
  (∀ h found g s, (shelfOf s h).geom = some g → (shelfOf s h).state = 1 → (shelfOf s h).boot.phase = .none →
    g.channels * g.luns ≤ (shelfOf s h).badSeen → g.channels * g.luns ≤ (shelfOf s h).params.length → heathUp s h = true →
    exec (.shelfStartup h found) s = .next (pump h (setShelf h (startRoots found (shelfOf s h)) s))) ∧
  (∀ h found s, (shelfOf s h).geom = none ∨ (shelfOf s h).state ≠ 1 → exec (.shelfStartup h found) s = .next s) ∧
  (∀ h s, cursorsDone (shelfOf s h) = true →
    ((shelfOf s h).boot.phase = .roots → bootNext h s = rootsRead h s) ∧
    ((shelfOf s h).boot.phase = .format → bootNext h s = formatted h s) ∧
    ((shelfOf s h).boot.phase = .opened → bootNext h s = finishBoot h s) ∧
    ((shelfOf s h).boot.phase = .scan → bootNext h s = scanned h s)) ∧
  (∀ h s, cursorsDone (shelfOf s h) = false → bootNext h s = pump h s) ∧
  (∀ h q d g s, (shelfOf s h).boot.root = some (q, d) → (shelfOf s h).geom = some g → rootNames s.sec.unitId g d = false →
    rootsRead h s = setShelf h { shelfOf s h with state := 6, boot := {} } s) ∧
  (∀ h q d g x s, (shelfOf s h).boot.root = some (q, d) → (shelfOf s h).geom = some g → rootNames s.sec.unitId g d = true →
    x = { shelfOf s h with keyId := rootKeyId d, reserve := rootReserve d, capSum := rootSum d, named := rootCkpt d } →
    rootsRead h s = if s.power.tailsLost = true
      then startScan h 1 (setShelf h { x with sbs := withFound x.boot.found (rootMetas d) } s)
      else startMetas h d (setShelf h x s)) ∧
  (∀ h g s, (shelfOf s h).boot.root = none → (shelfOf s h).geom = some g → (shelfOf s h).boot.marked = true →
    rootsRead h s = startScan h 0 (setShelf h { shelfOf s h with
      keyId := bootKey s (shelfOf s h), sbs := withFound (shelfOf s h).boot.found [], reserve := od s 0x6000 0x03 } s)) ∧
  (∀ h g s, (shelfOf s h).boot.root = none → (shelfOf s h).geom = some g → (shelfOf s h).boot.marked = false →
    rootsRead h s = beginFormat h s) ∧
  (∀ h s, bootPage h (.error ()) s = startScan h 0 s) ∧
  (∀ h g s, (shelfOf s h).boot.todo = [] → (shelfOf s h).geom = some g →
    nextMeta h s = match ckptImage (shelfOf s h) with
      | some img => rebuildDone h g img s
      | none => startScan h 0 s) ∧
  (∀ h c g s, h < s.shelves.length → (shelfOf s h).geom = some g →
    ∃ x, startScan h c s = pump h (setShelf h x (fault .heathScan (unitHeathPort h) c none (bump32 0x6000 0x0F s))) ∧
      x.state = 3 ∧ x.boot.phase = .scan ∧ x.boot.cause = c) ∧
  (∀ h s, (shelfOf (consumeSave (tend h (setShelf h (freeMeta (shelfOf s h)) s))) h).boot.phase = .ckpt →
    rootDone h s = shelfReady h (consumeSave (tend h (setShelf h (freeMeta (shelfOf s h)) s))))

/-- The kinds of reset and what follows them (R441, R443, R456, R467, R534): a cold reset leaves a device that boots from step 1
and keeps what NOR, MRAM and heath hold, and a warm one keeps the identity, the repair, what is out of service, the log and the
counts since cold reset too; RST_N during a save waits for its end; a fault of the MGP is recorded and causes a warm
reset, before which an OWNED device is released; the steps of a release follow one another, and the last leaves it UNOWNED. -/
def Obligations.ResetsAndReleasesFollowTheirSteps : Prop :=
  (∀ c s, c = .powerOn ∨ (c = .rstN ∧ s.power.dev ≠ .saving) ∨
      (c = .recoveryImage ∧ s.power.dev = .recovery ∧ s.power.nor.slotValid = true) →
    ∃ t, exec (.coldReset c) s = .next t ∧ t.power.dev = .booting ∧ t.power.needsBoot = true ∧ t.power.warm = false ∧
      t.sec = State.reset.sec ∧ t.mem = [] ∧ t.objs = State.reset.objs ∧ t.kv = State.reset.kv ∧ t.od = [] ∧
      t.power.nor.slotValid = s.power.nor.slotValid ∧ t.power.nor.copyA = s.power.nor.copyA ∧
      t.power.nor.copyB = s.power.nor.copyB ∧ t.log.ring = s.log.ring ∧ t.shelves = s.shelves.map resetShelf ∧
      t.power.kiln.save = s.power.kiln.save.filter (fun v => v.trailer) ∧
      t.tx = s.tx ∧ t.pending = s.pending ∧ t.now = s.now) ∧
  (∀ s, (warmReset s).od = keptOd s ∧ (warmReset s).power.warm = true ∧ (warmReset s).power.needsBoot = true ∧
    (warmReset s).sec.identity = s.sec.identity ∧ (warmReset s).sec.pufRoot = s.sec.pufRoot ∧
    (warmReset s).sec.tenancy = .unowned ∧ (warmReset s).power.coreMap = s.power.coreMap ∧
    (warmReset s).power.failedCores = s.power.failedCores ∧ (warmReset s).log.tail = s.log.tail ∧
    (warmReset s).power.nor = s.power.nor ∧ (warmReset s).power.kiln = resetKiln s.power.kiln ∧ (warmReset s).mem = [] ∧
    (warmReset s).objs.objs = [] ∧ (warmReset s).kv = State.reset.kv ∧ (warmReset s).queues = State.reset.queues) ∧
  (∀ s, s.power.dev = .saving → exec (.coldReset .rstN) s = .next { s with power := { s.power with resetHeld := true } }) ∧
  (∀ a s, s.sec.rtp = .run → s.power.dev ≠ .saving → s.power.dev ≠ .saved → s.sec.tenancy ≠ .owned →
    s.sec.tenancy ≠ .releasing → exec (.mgpFault a) s = .next (warmReset (fault .mgp unitMgp a.toNat none s))) ∧
  (∀ a s, s.sec.rtp = .run → s.power.dev = .ready → s.sec.tenancy = .owned →
    exec (.mgpFault a) s = .next (startRelease { (fault .mgp unitMgp a.toNat none s) with
      sec := { s.sec with releaseThenReset := true } })) ∧
  (∀ s, s.sec.tenancy = .releasing → s.sec.releaseStep ≠ 0 →
      s.sec.releaseStep ≤ 5 ∨ (s.sec.releaseStep = 6 ∧ s.sec.releaseThenReset = false) → stepOver s = true →
    ∃ t, exec .releaseStepEnd s = .next t ∧ t.sec.releaseStep = s.sec.releaseStep + 1 ∧ t.sec.tenancy = .releasing) ∧
  (∀ s, s.sec.tenancy = .releasing → s.sec.releaseStep = 2 → (s.pasture.leases.any (fun l => l.lent)) = true →
    exec .releaseStepEnd s = .next s) ∧
  (∀ s, s.sec.tenancy = .releasing → s.sec.releaseStep = 6 → s.sec.releaseThenReset = true →
    exec .releaseStepEnd s = .next (warmReset s)) ∧
  (∀ s, s.sec.tenancy = .releasing → s.sec.releaseStep = 7 →
    ∃ t, exec .releaseStepEnd s = .next t ∧ t.sec.tenancy = .unowned ∧ t.sec.releaseStep = 0)

/-- Boot (R424, R458, R460 to R463, R466): an image that verifies leads to READY, with the RTP in RUN, new meadow keys and every
port that serves in bring-up; one that does not leads to recovery. The first boot after a cold reset takes its identity from the
PUF, and a warm one keeps it. Stored values and an image are written to NOR as wholes. -/
def Obligations.BootFollowsTheImage : Prop :=
  (∀ w s, s.power.needsBoot = true → (w.imageOk && s.power.nor.slotValid) = true →
    ∃ t, exec (.boot w) s = .next t ∧ t.power.dev = .ready ∧ t.power.needsBoot = false ∧ t.sec.rtp = .run ∧
      t.sec.meadowKeyGen = s.sec.meadowKeyGen + 1 ∧ t.power.nor.slotVersion = w.fwVersion) ∧
  (∀ w s, s.power.needsBoot = true → (w.imageOk && s.power.nor.slotValid) = false →
    ∃ t, exec (.boot w) s = .next t ∧ t.power.dev = .recovery ∧ t.sec.rtp = .recovery ∧ t.power.nor.slotValid = false) ∧
  (∀ w s, s.power.needsBoot = true → s.power.warm = false → w.pufOk = true →
    ∃ t, exec (.boot w) s = .next t ∧ t.sec.identity = some w.identityKey ∧ t.sec.pufRoot = some w.pufRoot) ∧
  (∀ w s, s.power.needsBoot = true → s.power.warm = true →
    ∃ t, exec (.boot w) s = .next t ∧ t.sec.identity = s.sec.identity ∧ t.power.coreMap = s.power.coreMap) ∧
  (∀ w s, s.power.needsBoot = false → exec (.boot w) s = .next s) ∧
  (∀ s l, s.power.nor.dirty = some l → s.power.dev = .ready →
    ∃ t, exec .storedValuesWritten s = .next t ∧ storedCopy t.power.nor = some l ∧ t.power.nor.dirty = none ∧
      OnlyIn [.power] s t) ∧
  (∀ s, updating s = true → s.power.dev ≠ .saved →
    ∃ t, exec (.slotProgrammed true) s = .next t ∧ t.power.nor.slotValid = true ∧
      t.power.nor.slotVersion = BitVec.ofNat 32 (fieldAt s.power.update 12 4) ∧ od t 0xC040 0x02 = 4 ∧
      od t 0xC040 0x04 = fieldAt s.power.update 12 4) ∧
  (∀ s, updating s = true → s.power.dev ≠ .saved →
    ∃ t, exec (.slotProgrammed false) s = .next t ∧ od t 0xC040 0x02 = 5 ∧ od t 0xC040 0x03 = Status.media.code ∧
      t.power.nor = s.power.nor)

/-- The kiln (R475 to R478, R482): a sag in service abandons jobs, commands and work requests and starts a save; at isolation
the save holds the shelves' tails, the items of the save ring that are whole, and the log tail, or, while a save is held, only the log tail goes to the
reserve area; with its trailer the save is valid and the device SAVED. -/
def Obligations.SagsAreSaved : Prop :=
  (∀ c v s, s.power.dev = .ready → c ≠ .vinDroop ∨ v < od s 0xC030 0x03 →
    ∃ t, exec (.supplySag c v) s = .next t ∧ t.power.dev = .saving ∧
      t.power.kiln.sag = some { t0 := s.now, cause := c, vinMv := v } ∧ t.jobs.jobs = [] ∧ t.jobs.leaving = [] ∧ t.queues.cmds = [] ∧
      t.objs.moves = [] ∧ t.objs.heldWrites = [] ∧ t.host.held0 = [] ∧ t.host.held1 = [] ∧ t.pfx = s.pfx ∧ t.sec = s.sec ∧ t.kv = s.kv) ∧
  (∀ v s, od s 0xC030 0x03 ≤ v → exec (.supplySag .vinDroop v) s = .next s) ∧
  (∀ c v s, s.power.dev = .booting ∨ s.power.dev = .rom ∨ s.power.dev = .recovery → c ≠ .vinDroop ∨ v < od s 0xC030 0x03 →
    ∃ t, exec (.supplySag c v) s = .next t ∧ t.power.dev = .saved ∧ t.power.kiln.reserve = t.log.tail) ∧
  (∀ s g, s.power.dev = .saving → s.power.kiln.sag = some g → g.isolated = false → s.power.kiln.held = false →
    s.power.kiln.mramOk = true →
    ∃ t v, exec .kilnIsolation s = .next t ∧ t.power.kiln.save = some v ∧ v.saveNo = s.power.kiln.saveNo + 1 ∧
      v.ring = s.pfx.ring.filter (ringWhole s.pfx.ring) ∧ v.bytes = saveBytes v.tails v.ring ∧ v.rcTail = s.pfx.rcTail ∧ v.tails = s.shelves.map (fun x => x.tail) ∧ v.logTail = s.log.tail ∧
      v.wpos = s.wheel.cur ∧ v.heathKeyId = s.sec.heathKeyId ∧ v.trailer = false ∧
      v.image = saveImage (kilnKey s) { v with image := [] }) ∧
  (∀ ring k l n b e, (∀ x ∈ ring, ∀ r, x.item ≠ .publish k r) → e = ({ item := .data k l n, bytes := b } : RingEntry) →
    ringWhole ring e = false) ∧
  (∀ s g, s.power.dev = .saving → s.power.kiln.sag = some g → g.isolated = false → s.power.kiln.held = true →
    ∃ t, exec .kilnIsolation s = .next t ∧ t.power.kiln.save = s.power.kiln.save ∧ t.power.kiln.reserve = s.log.tail) ∧
  (∀ m s g v, s.power.dev = .saving → s.power.kiln.sag = some g → g.isolated = true → g.partialSave = false →
    s.power.kiln.save = some v → s.power.resetHeld = false →
    exec (.saveEnd m) s = .next { s with power := { s.power with
      dev := .saved, kiln := { s.power.kiln with
        save := some (withTrailer (kilnKey s) m v)
        lastNo := s.power.kiln.saveNo, lastMicros := m, lastBytes := v.bytes } } })

/-- Self-test, cores that fail, the link test's checkers and SAFE (R235, R421, R504 to R510): TRIG starts the test it is set to,
a signature that matches returns the block to service, any other is recorded with FLT_BIST_FAIL and leaves it out; a core that
fails serves no more; a checker's lock and errors show; and a failure of the RTP or kiln domain leads to SAFE with every secret
erased. -/
def Obligations.TestsAndFailuresTakeBlocksOut : Prop :=
  (∀ s t, od s 0xB000 0x02 = 1 → s.power.dev = .ready → startTest (od s 0xB000 0x03) s = (.ok, t) →
    exec .trigEdge s = .next t) ∧
  (∀ s st t, od s 0xB000 0x02 = 1 → s.power.dev = .ready → startTest (od s 0xB000 0x03) s = (st, t) → st ≠ .ok →
    exec .trigEdge s = .next (bump32 0xB000 0x04 s)) ∧
  (∀ sig us x s, s.power.test = some x → sig.toNat = (Config.misrExpected x.kind).toNat →
    ∃ t, exec (.testComplete sig us) s = .next (runCores (testPassed x.kind x.unit t)) ∧ t.power.test = none ∧
      od t 0xB010 0x01 = testRecord x.kind x.unit 2 ∧ od t 0xB010 0x02 = sig.toNat ∧ OnlyIn [.power, .od] s t) ∧
  (∀ sig us x s, s.power.test = some x → sig.toNat ≠ (Config.misrExpected x.kind).toNat →
    ∃ t, exec (.testComplete sig us) s = .next (testFailed x.kind x.unit (faultEvent .bistFail (testUnitId x.kind x.unit)
      (sig.toNat + x.kind * 2 ^ 64) none .media sig.toNat t)) ∧ t.power.test = none ∧
      od t 0xB010 0x01 = testRecord x.kind x.unit 3 ∧ OnlyIn [.power, .od] s t) ∧
  (∀ sig us s, s.power.test = none → exec (.testComplete sig us) s = .next s) ∧
  (∀ n s, s.power.dev = .ready → coreUp s n = true →
    ∃ t, exec (.coreFailure n) s = .next t ∧ physOf s n ∈ t.power.failedCores ∧ coreUp t n = false) ∧
  (∀ l s, checkerThere s l = true → l < s.power.checkers.length →
    ∃ t, exec (.checkerLock l) s = .next t ∧ (t.power.checkers.getD l {}).locked = true ∧ OnlyIn [.power] s t) ∧
  (∀ l s, checkerThere s l = true → l < s.power.checkers.length →
    ∃ t, exec (.checkerLockLoss l) s = .next t ∧ (t.power.checkers.getD l {}).locked = false ∧ OnlyIn [.power] s t) ∧
  (∀ l n s, checkerThere s l = true → l < s.power.checkers.length → (s.power.checkers.getD l {}).locked = true →
    ∃ t, exec (.checkerError l n) s = .next t ∧
      (t.power.checkers.getD l {}).bits = (s.power.checkers.getD l {}).bits + n ∧
      (t.power.checkers.getD l {}).errors = (s.power.checkers.getD l {}).errors + 1 ∧ OnlyIn [.power, .tx] s t ∧
      ((od s 0xB040 0x05 = 1 ∧ s.power.trigAt ≤ s.now) → t.tx = s.tx ++ [.trigLow])) ∧
  (∀ k s, s.sec.rtp = .run →
    ∃ t, exec (.rtpDomainFailure k) s = .next t ∧ t.power.dev = .safe ∧ t.sec.rtp = .safe ∧ t.sec.identity = none ∧
      t.sec.sessions = [] ∧ t.mgmt.sessions = [] ∧ t.sec.setSecret = none ∧ t.sec.pufRoot = none ∧ t.sec.meadowKey = 0) ∧
  (∀ k s, s.sec.rtp ≠ .run → exec (.rtpDomainFailure k) s = .next s)

/-- Sensors, regulators, the log and counter samples (R458, R468 to R472, R498, R519, R521): a hot die warns once and trips into a
save; a regulator's answer enters its record and its silence is recorded once; mean power above its limit is recorded; the log
tail moves to NOR whole; a pair of code and unit that repeats is escalated; a due sample is raised as an event. -/
def Obligations.MonitorsRecord : Prop :=
  (∀ r s, s.power.dev = .ready → (hottest r).2 < i32Of (od s 0xC012 0x01) → (hottest r).2 < i32Of (od s 0xC012 0x02) →
    ∃ t, exec (.thermalSample r) s = .next t ∧ t.power.temps = r ∧ t.log = s.log ∧ OnlyIn [.power] s t) ∧
  (∀ r s, s.power.dev = .ready → i32Of (od s 0xC012 0x02) ≤ (hottest r).2 →
    ∃ t, exec (.thermalSample r) s = .next t ∧ t.power.dev = .saving ∧ t.power.thermTrip = true ∧ Sent.thermTrip ∈ t.tx) ∧
  (∀ l u s, s.power.dev = .ready → od s 0xC000 0x08 ≠ 1 →
    exec (.pmbusPoll l u) s = .next (forEach (fun x => regPoll x.1 x.2) (indexed l) s)) ∧
  (∀ l s, s.power.dev = .ready → od s 0xC000 0x08 = 1 → s.power.vddSet ≤ 845 →
    (∀ a, s.power.vddStepAt = some a → a + 10000000 ≤ s.now) →
    (indexed l).any (fun x => regEnabled (regAt s x.1) && regCode (regAt s x.1) == 1 && x.2.answered) = true →
    ∃ t, exec (.pmbusPoll l (some true)) s = .next t ∧ t.power.vddSet = s.power.vddSet + 5) ∧
  (∀ l u s a, s.power.dev = .ready → s.power.vddStepAt = some a → s.now < a + 10000000 →
    ∃ t, exec (.pmbusPoll l u) s = .next t ∧ t.power.vddSet = s.power.vddSet) ∧
  (∀ i s, s.power.dev = .ready → regEnabled (regAt s i) = true → i ∉ s.power.regLost →
    s.power.regSeen.getD i 0 + 100000000 ≤ s.now →
    exec (.pmbusTimeout i) s = .next (fault .pmbus (unitRegulator i) (regAddress (regAt s i)) none
      { s with power := { s.power with regLost := s.power.regLost ++ [i] } })) ∧
  (∀ i s, i ∈ s.power.regLost → exec (.pmbusTimeout i) s = .next s) ∧
  (∀ s, s.power.dev = .ready → 9 ≤ s.power.samples.length → s.power.overPower = false →
    od s 0xC000 0x05 * 10 < sumBy id ((s.power.samples ++ [diePower s]).drop (s.power.samples.length + 1 - 10)) →
    ∃ t, exec .powerCheck s = .next (faultEvent .power unitDevice
      (meanF32 (sumBy id ((s.power.samples ++ [diePower s]).drop (s.power.samples.length + 1 - 10))) 10) none .ok 0 t) ∧
      t.power.overPower = true ∧ OnlyIn [.power] s t) ∧
  (∀ s, s.power.dev = .ready → s.log.droppedSince = 0 →
    exec .logFlush s = .next { s with log := { s.log with ring := s.log.ring ++ s.log.tail, tail := [], droppedSince := 0 } }) ∧
  (∀ s n, s.power.dev = .ready → s.log.droppedSince = n + 1 →
    exec .logFlush s = .next (fault .logOverflow unitDevice (n + 1) none
      { s with log := { s.log with ring := s.log.ring ++ s.log.tail, tail := [], droppedSince := 0 } })) ∧
  (∀ c u e s, s.log.windows.find? (fun x => x.1 == c.toNat && x.2.1 == u.toNat) = some e → od s 0xD010 0x01 ≤ e.2.2.length →
    exec (.escalation c u) s = .next (event .ok none FaultCode.escalated.num u.toNat 0
      (recordFault (min 3 (sevOfCode c.toNat + 1)) FaultCode.escalated.num u.toNat (c.toNat + e.2.2.length * 2 ^ 16) none
        (bump32 0xD010 0x03 { s with log := { s.log with
          windows := s.log.windows.filter (fun x => !(x.1 == c.toNat && x.2.1 == u.toNat)) } })))) ∧
  (∀ i j k m x s, s.samplers.find? (fun y => y.id == i.toNat) = some x → x.due = true → x.lastAt ≠ s.now / 1000 + 1 →
    i.toNat < 0x8000 → exec (.counterSample i j k m) s = .next (event .ok none 0 i.toNat 0
      { s with samplers := setSampler { x with due := false, lastAt := s.now / 1000 + 1 } s.samplers })) ∧
  (∀ i j k m x s, s.samplers.find? (fun y => y.id == i.toNat) = some x → x.due = true → x.lastAt = s.now / 1000 + 1 →
    exec (.counterSample i j k m) s = .next (bump64 0xA000 0x02
      { s with samplers := setSampler { x with due := false } s.samplers }))
end

