-- ==== Sys2Proof/Laws/Kept.lean ====
section
/-! SUPPORT. What every operation on the state keeps: the waiting commands, the clock, what has been sent, the canonical
forms of memory and of the dictionary store, and each part of the state that it does not write. -/

namespace Sys2Proof.Laws

open Sys2Proof.Machine

/-! ## Parts of the state

A set of parts is a number: bit 0 is `mem`, 1 `mgmt`, 2 `host`, 3 `queues`, 4 `wheel`, 5 `sheets`, 6 `jobs`, 7 `kv`, 8 `objs`,
9 `pfx`, 10 `tables`, 11 `pasture`, 12 `shelves`, 13 `peer`, 14 `links`, 15 `sec`, 16 `power`, 17 `log`, 18 `samplers`, 19 `od`,
20 `tx`, 21 `fresh`. -/

/-- Every part of `w` is in `W`. -/
abbrev Sub (w W : Nat) : Prop := w &&& W = w

theorem Sub.trans {a b c : Nat} (h : Sub a b) (k : Sub b c) : Sub a c := by
  show a &&& c = a
  rw [← h, Nat.land_assoc, k]

/-- What lies in a set lies in a wider one. -/
theorem Sub.sub {a b c : Nat} (k : Sub b c) (h : Sub a b) : Sub a c := h.trans k

theorem Sub.refl (a : Nat) : Sub a a := Nat.and_self a

/-- A part of `w` is a part of `W`. -/
theorem Sub.bit {w W : Nat} (h : Sub w W) {i : Nat} (hi : w.testBit i = true) : W.testBit i = true := by
  have hj := hi
  rw [← h, Nat.testBit_and, hi, Bool.true_and] at hj
  exact hj

/-- What an operation that writes only the parts `W` keeps on its way from `s` to `t`. -/
structure Kept (W : Nat) (s t : State) : Prop where
  pending : t.pending = s.pending
  now : t.now = s.now
  sent : s.tx <+: t.tx
  drew : s.fresh ≤ t.fresh
  odForm : OdStore.wf s.od → OdStore.wf t.od
  memForm : Memory.wf s.mem → Memory.wf t.mem
  memSame : W.testBit 0 = false → t.mem = s.mem
  mgmtSame : W.testBit 1 = false → t.mgmt = s.mgmt
  hostSame : W.testBit 2 = false → t.host = s.host
  queuesSame : W.testBit 3 = false → t.queues = s.queues
  wheelSame : W.testBit 4 = false → t.wheel = s.wheel
  sheetsSame : W.testBit 5 = false → t.sheets = s.sheets
  jobsSame : W.testBit 6 = false → t.jobs = s.jobs
  kvSame : W.testBit 7 = false → t.kv = s.kv
  objsSame : W.testBit 8 = false → t.objs = s.objs
  pfxSame : W.testBit 9 = false → t.pfx = s.pfx
  tablesSame : W.testBit 10 = false → t.tables = s.tables
  pastureSame : W.testBit 11 = false → t.pasture = s.pasture
  shelvesSame : W.testBit 12 = false → t.shelves = s.shelves
  peerSame : W.testBit 13 = false → t.peer = s.peer
  linksSame : W.testBit 14 = false → t.links = s.links
  secSame : W.testBit 15 = false → t.sec = s.sec
  powerSame : W.testBit 16 = false → t.power = s.power
  logSame : W.testBit 17 = false → t.log = s.log
  samplersSame : W.testBit 18 = false → t.samplers = s.samplers
  odSame : W.testBit 19 = false → t.od = s.od
  txSame : W.testBit 20 = false → t.tx = s.tx
  freshSame : W.testBit 21 = false → t.fresh = s.fresh

theorem Kept.refl (W : Nat) (s : State) : Kept W s s :=
  ⟨rfl, rfl, List.prefix_refl _, Nat.le_refl _, id, id, fun _ => rfl, fun _ => rfl, fun _ => rfl, fun _ => rfl, fun _ => rfl, fun _ => rfl, fun _ => rfl, fun _ => rfl, fun _ => rfl, fun _ => rfl, fun _ => rfl, fun _ => rfl, fun _ => rfl, fun _ => rfl, fun _ => rfl, fun _ => rfl, fun _ => rfl, fun _ => rfl, fun _ => rfl, fun _ => rfl, fun _ => rfl, fun _ => rfl⟩

theorem Kept.trans {W : Nat} {r s t : State} (h : Kept W r s) (k : Kept W s t) : Kept W r t :=
  ⟨k.pending.trans h.pending, k.now.trans h.now, h.sent.trans k.sent, Nat.le_trans h.drew k.drew,
   k.odForm ∘ h.odForm, k.memForm ∘ h.memForm,
   fun e => (k.memSame e).trans (h.memSame e),
   fun e => (k.mgmtSame e).trans (h.mgmtSame e),
   fun e => (k.hostSame e).trans (h.hostSame e),
   fun e => (k.queuesSame e).trans (h.queuesSame e),
   fun e => (k.wheelSame e).trans (h.wheelSame e),
   fun e => (k.sheetsSame e).trans (h.sheetsSame e),
   fun e => (k.jobsSame e).trans (h.jobsSame e),
   fun e => (k.kvSame e).trans (h.kvSame e),
   fun e => (k.objsSame e).trans (h.objsSame e),
   fun e => (k.pfxSame e).trans (h.pfxSame e),
   fun e => (k.tablesSame e).trans (h.tablesSame e),
   fun e => (k.pastureSame e).trans (h.pastureSame e),
   fun e => (k.shelvesSame e).trans (h.shelvesSame e),
   fun e => (k.peerSame e).trans (h.peerSame e),
   fun e => (k.linksSame e).trans (h.linksSame e),
   fun e => (k.secSame e).trans (h.secSame e),
   fun e => (k.powerSame e).trans (h.powerSame e),
   fun e => (k.logSame e).trans (h.logSame e),
   fun e => (k.samplersSame e).trans (h.samplersSame e),
   fun e => (k.odSame e).trans (h.odSame e),
   fun e => (k.txSame e).trans (h.txSame e),
   fun e => (k.freshSame e).trans (h.freshSame e)⟩

/-- A wider set of parts keeps less. -/
theorem Kept.mono {w W : Nat} {s t : State} (hw : Sub w W) (h : Kept w s t) : Kept W s t := by
  have b : ∀ i, W.testBit i = false → w.testBit i = false := fun i e => by
    cases h2 : w.testBit i with
    | false => rfl
    | true => rw [hw.bit h2] at e; exact e
  exact ⟨h.pending, h.now, h.sent, h.drew, h.odForm, h.memForm,
   fun e => h.memSame (b 0 e),
   fun e => h.mgmtSame (b 1 e),
   fun e => h.hostSame (b 2 e),
   fun e => h.queuesSame (b 3 e),
   fun e => h.wheelSame (b 4 e),
   fun e => h.sheetsSame (b 5 e),
   fun e => h.jobsSame (b 6 e),
   fun e => h.kvSame (b 7 e),
   fun e => h.objsSame (b 8 e),
   fun e => h.pfxSame (b 9 e),
   fun e => h.tablesSame (b 10 e),
   fun e => h.pastureSame (b 11 e),
   fun e => h.shelvesSame (b 12 e),
   fun e => h.peerSame (b 13 e),
   fun e => h.linksSame (b 14 e),
   fun e => h.secSame (b 15 e),
   fun e => h.powerSame (b 16 e),
   fun e => h.logSame (b 17 e),
   fun e => h.samplersSame (b 18 e),
   fun e => h.odSame (b 19 e),
   fun e => h.txSame (b 20 e),
   fun e => h.freshSame (b 21 e)⟩

/-- A record update that writes only the parts `w`, none of them `od`, `mem`, `tx` or `fresh`. -/
theorem Kept.upd {W : Nat} {r s t : State} (w : Nat) (hw : Sub w W) (h : Kept W r s)
    (e : t = { s with mgmt := if w.testBit 1 then t.mgmt else s.mgmt, host := if w.testBit 2 then t.host else s.host, queues := if w.testBit 3 then t.queues else s.queues, wheel := if w.testBit 4 then t.wheel else s.wheel, sheets := if w.testBit 5 then t.sheets else s.sheets, jobs := if w.testBit 6 then t.jobs else s.jobs, kv := if w.testBit 7 then t.kv else s.kv, objs := if w.testBit 8 then t.objs else s.objs, pfx := if w.testBit 9 then t.pfx else s.pfx, tables := if w.testBit 10 then t.tables else s.tables, pasture := if w.testBit 11 then t.pasture else s.pasture, shelves := if w.testBit 12 then t.shelves else s.shelves, peer := if w.testBit 13 then t.peer else s.peer, links := if w.testBit 14 then t.links else s.links, sec := if w.testBit 15 then t.sec else s.sec, power := if w.testBit 16 then t.power else s.power, log := if w.testBit 17 then t.log else s.log, samplers := if w.testBit 18 then t.samplers else s.samplers }) :
    Kept W r t := by
  refine h.trans ?_
  have b : ∀ i, W.testBit i = false → w.testBit i = false := fun i e => by
    cases h2 : w.testBit i with
    | false => rfl
    | true => rw [hw.bit h2] at e; exact e
  refine ⟨by rw [e], by rw [e], by rw [e], by rw [e], by rw [e]; exact id, by rw [e]; exact id,
   fun _ => by rw [e],
   fun k => by rw [e]; simp [b 1 k],
   fun k => by rw [e]; simp [b 2 k],
   fun k => by rw [e]; simp [b 3 k],
   fun k => by rw [e]; simp [b 4 k],
   fun k => by rw [e]; simp [b 5 k],
   fun k => by rw [e]; simp [b 6 k],
   fun k => by rw [e]; simp [b 7 k],
   fun k => by rw [e]; simp [b 8 k],
   fun k => by rw [e]; simp [b 9 k],
   fun k => by rw [e]; simp [b 10 k],
   fun k => by rw [e]; simp [b 11 k],
   fun k => by rw [e]; simp [b 12 k],
   fun k => by rw [e]; simp [b 13 k],
   fun k => by rw [e]; simp [b 14 k],
   fun k => by rw [e]; simp [b 15 k],
   fun k => by rw [e]; simp [b 16 k],
   fun k => by rw [e]; simp [b 17 k],
   fun k => by rw [e]; simp [b 18 k],
   fun _ => by rw [e],
   fun _ => by rw [e],
   fun _ => by rw [e]⟩

/-- Conditions do not matter. -/
theorem Kept.ite {W : Nat} {r s t : State} {c : Prop} [Decidable c] (h : Kept W r s) (k : Kept W r t) :
    Kept W r (if c then s else t) := by
  split
  · exact h
  · exact k

/-! ## Results that carry a state -/

/-- What an answer with a status keeps. -/
abbrev KeptE (W : Nat) (r : State) (e : Except Status State) : Prop := ∀ t, e = .ok t → Kept W r t

/-- The same of an answer with a value beside its state. -/
abbrev KeptV {α : Type} (W : Nat) (r : State) (e : Except Status (α × State)) : Prop := ∀ x, e = .ok x → Kept W r x.2

theorem KeptV.error {α : Type} {W : Nat} {r : State} {st : Status} : KeptV (α := α) W r (.error st) := by
  intro x h; cases h

theorem KeptV.ok {α : Type} {W : Nat} {r : State} {v : α} {t : State} (h : Kept W r t) : KeptV W r (.ok (v, t)) := by
  intro x e; cases e; exact h

theorem KeptE.error {W : Nat} {r : State} {st : Status} : KeptE W r (.error st) := by
  intro x h; cases h

theorem KeptE.ok {W : Nat} {r t : State} (h : Kept W r t) : KeptE W r (.ok t) := by
  intro x e; cases e; exact h

theorem KeptV.bind {α β : Type} {W : Nat} {r : State} {e : Except Status β} {f : β → Except Status (α × State)}
    (h : ∀ b, e = .ok b → KeptV W r (f b)) : KeptV W r (e >>= f) := by
  intro x k
  cases e with
  | error st => cases k
  | ok b => exact h b rfl x k

theorem KeptE.bind {β : Type} {W : Nat} {r : State} {e : Except Status β} {f : β → Except Status State}
    (h : ∀ b, e = .ok b → KeptE W r (f b)) : KeptE W r (e >>= f) := by
  intro x k
  cases e with
  | error st => cases k
  | ok b => exact h b rfl x k

theorem KeptV.ite {α : Type} {W : Nat} {r : State} {c : Prop} [Decidable c] {x y : Except Status (α × State)}
    (h : KeptV W r x) (k : KeptV W r y) : KeptV W r (if c then x else y) := by
  split
  · exact h
  · exact k

theorem KeptE.ite {W : Nat} {r : State} {c : Prop} [Decidable c] {x y : Except Status State}
    (h : KeptE W r x) (k : KeptE W r y) : KeptE W r (if c then x else y) := by
  split
  · exact h
  · exact k

theorem KeptV.map {α β : Type} {W : Nat} {r : State} {e : Except Status (α × State)} {f : α × State → β × State}
    (h : ∀ x, Kept W r x.2 → Kept W r (f x).2) (k : KeptV W r e) : KeptV W r (Except.map f e) := by
  intro x j
  cases e with
  | error st => cases j
  | ok b => cases j; exact h b (k b rfl)

theorem KeptE.use {W : Nat} {r t : State} {e : Except Status State} (h : KeptE W r e) (k : e = .ok t) : Kept W r t := h t k

theorem KeptV.use {α : Type} {W : Nat} {r t : State} {a : α} {e : Except Status (α × State)} (h : KeptV W r e)
    (k : e = .ok (a, t)) : Kept W r t := h (a, t) k

theorem KeptV.use2 {α : Type} {W : Nat} {r : State} {x : α × State} {e : Except Status (α × State)} (h : KeptV W r e)
    (k : e = .ok x) : Kept W r x.2 := h x k

theorem KeptO.use {α : Type} {W : Nat} {r t : State} {a : α} {e : Option (α × State)}
    (h : ∀ x, e = some x → Kept W r x.2) (k : e = some (a, t)) : Kept W r t := h (a, t) k

theorem KeptO.use2 {α : Type} {W : Nat} {r : State} {x : α × State} {e : Option (α × State)}
    (h : ∀ x, e = some x → Kept W r x.2) (k : e = some x) : Kept W r x.2 := h x k

theorem Kept.of_pair {α : Type} {W : Nat} {r t : State} {a : α} {p : α × State} (k : p = (a, t)) (h : Kept W r p.2) :
    Kept W r t := by
  rw [k] at h; exact h

/-! ## The operations of Machine/Ops.lean -/

theorem forEach_kept {α : Type} {W : Nat} {r : State} {f : α → State → State} (hf : ∀ x t, Kept W r t → Kept W r (f x t))
    {l : List α} {s : State} (h : Kept W r s) : Kept W r (forEach f l s) := by
  induction l generalizing s with
  | nil => exact h
  | cons x xs ih => exact ih (hf x s h)

theorem onlyIf_kept {W : Nat} {r : State} {b : Bool} {f : State → State} (hf : ∀ t, Kept W r t → Kept W r (f t)) {s : State}
    (h : Kept W r s) : Kept W r (onlyIf b f s) := by
  unfold onlyIf
  split
  · exact hf s h
  · exact h

end Sys2Proof.Laws
end

