-- ==== Sys2Proof/Laws/Store.lean ====
section
/-! SUPPORT. The dictionary store and the partition ranges: their canonical forms are kept by every operation, a read after
a write gives the value written, and a write leaves every other place alone. -/

namespace Sys2Proof.Laws

open Sys2Proof.Machine

/-! ## Association lists with rising keys -/

theorem mem_insertKey {k v : Nat} {l : List (Nat × Nat)} {e : Nat × Nat} (h : e ∈ insertKey k v l) : e = (k, v) ∨ e ∈ l := by
  induction l with
  | nil => simpa [insertKey] using h
  | cons x xs ih =>
    unfold insertKey at h
    split at h
    · simpa using h
    · split at h
      · rcases List.mem_cons.1 h with h | h
        · exact .inl h
        · exact .inr (List.mem_cons_of_mem _ h)
      · rcases List.mem_cons.1 h with h | h
        · exact .inr (h ▸ List.mem_cons_self ..)
        · rcases ih h with h | h
          · exact .inl h
          · exact .inr (List.mem_cons_of_mem _ h)

theorem insertKey_rising {k v : Nat} {l : List (Nat × Nat)} (h : l.Pairwise (fun a b => a.1 < b.1)) :
    (insertKey k v l).Pairwise (fun a b => a.1 < b.1) := by
  induction l with
  | nil => simp [insertKey]
  | cons x xs ih =>
    have hx := List.pairwise_cons.1 h
    unfold insertKey
    split
    · rename_i hk
      refine List.pairwise_cons.2 ⟨fun e he => ?_, h⟩
      rcases List.mem_cons.1 he with rfl | he
      · exact hk
      · exact Nat.lt_trans hk (hx.1 e he)
    · split
      · rename_i hk
        exact List.pairwise_cons.2 ⟨fun e he => hk ▸ hx.1 e he, hx.2⟩
      · rename_i h1 h2
        refine List.pairwise_cons.2 ⟨fun e he => ?_, ih hx.2⟩
        rcases mem_insertKey he with rfl | he
        · omega
        · exact hx.1 e he

/-! ## The dictionary store -/

theorem odBind_wf {key v : Nat} {m : List (Nat × Nat)} (h : OdStore.wf m) : OdStore.wf (odBind key v m) := by
  unfold odBind
  split
  · exact ⟨h.1.filter _, fun e he => h.2 e (List.mem_filter.1 he).1⟩
  · rename_i hv
    refine ⟨insertKey_rising h.1, fun e he => ?_⟩
    rcases mem_insertKey he with rfl | he
    · exact hv
    · exact h.2 e he

theorem find_insertKey_same {k v : Nat} {l : List (Nat × Nat)} :
    (insertKey k v l).find? (fun e => e.1 == k) = some (k, v) := by
  induction l with
  | nil => simp [insertKey]
  | cons x xs ih =>
    unfold insertKey
    split
    · simp
    · split
      · simp
      · rename_i h1 h2
        have hne : (x.1 == k) = false := by simp; omega
        rw [List.find?_cons, hne]
        exact ih

theorem find_insertKey_other {k v j : Nat} {l : List (Nat × Nat)} (hj : j ≠ k) :
    (insertKey k v l).find? (fun e => e.1 == j) = l.find? (fun e => e.1 == j) := by
  induction l with
  | nil =>
    have : (k == j) = false := by simp; omega
    simp [insertKey, this]
  | cons x xs ih =>
    have hk : (k == j) = false := by simp; omega
    unfold insertKey
    split
    · rw [List.find?_cons, hk]
    · split
      · rename_i h1 h2
        have hx : (x.1 == j) = false := by simp; omega
        rw [List.find?_cons, List.find?_cons, hk, hx]
      · rw [List.find?_cons, List.find?_cons]
        split
        · rfl
        · exact ih

theorem find_filter_other {k j : Nat} {l : List (Nat × Nat)} (hj : j ≠ k) :
    (eraseKey k l).find? (fun e => e.1 == j) = l.find? (fun e => e.1 == j) := by
  unfold eraseKey
  induction l with
  | nil => rfl
  | cons x xs ih =>
    rw [List.filter_cons]
    split
    · rw [List.find?_cons, List.find?_cons, ih]
    · rename_i h
      have hx : (x.1 == j) = false := by
        simp at h ⊢
        omega
      rw [List.find?_cons, hx, ih]

theorem find_eraseKey_same {k : Nat} {l : List (Nat × Nat)} : (eraseKey k l).find? (fun e => e.1 == k) = none := by
  unfold eraseKey
  rw [List.find?_eq_none]
  intro e he
  have := (List.mem_filter.1 he).2
  simpa using this

/-- An object reads as the value it was given. -/
theorem odLook_bind_same {key v : Nat} {m : List (Nat × Nat)} : odLook (odBind key v m) key = v := by
  by_cases hv : v = odDefault key
  · simp only [odBind, if_pos hv, odLook, lookupD, find_eraseKey_same]
    exact hv.symm
  · simp only [odBind, if_neg hv, odLook, lookupD, find_insertKey_same]

/-- Every other object keeps its value. -/
theorem odLook_bind_other {key v j : Nat} {m : List (Nat × Nat)} (hj : j ≠ key) : odLook (odBind key v m) j = odLook m j := by
  by_cases hv : v = odDefault key
  · simp only [odBind, if_pos hv, odLook, lookupD, find_filter_other hj]
  · simp only [odBind, if_neg hv, odLook, lookupD, find_insertKey_other hj]

theorem od_odSet_same {index sub v : Nat} {s : State} : od (odSet index sub v s) index sub = v :=
  odLook_bind_same

theorem od_odSet_other {index sub v i k : Nat} {s : State} (h : odKey i k ≠ odKey index sub) :
    od (odSet index sub v s) i k = od s i k := odLook_bind_other h

/-! ## The partition ranges -/

theorem mem_cellPut {a : Nat} {v : Byte} {m : List Host.Cell} {c : Host.Cell} (h : c ∈ cellPut a v m) :
    (c = (a, v) ∧ v ≠ memUnlisted) ∨ c ∈ m := by
  induction m with
  | nil =>
    unfold cellPut at h
    split at h
    · simp at h
    · rename_i hv
      exact .inl ⟨by simpa using h, hv⟩
  | cons x xs ih =>
    unfold cellPut at h
    split at h
    · split at h
      · exact .inr h
      · rename_i hv
        rcases List.mem_cons.1 h with h | h
        · exact .inl ⟨h, hv⟩
        · exact .inr h
    · split at h
      · split at h
        · exact .inr (List.mem_cons_of_mem _ h)
        · rename_i hv
          rcases List.mem_cons.1 h with h | h
          · exact .inl ⟨h, hv⟩
          · exact .inr (List.mem_cons_of_mem _ h)
      · rcases List.mem_cons.1 h with h | h
        · exact .inr (h ▸ List.mem_cons_self ..)
        · rcases ih h with h | h
          · exact .inl h
          · exact .inr (List.mem_cons_of_mem _ h)

theorem cellPut_wf {a : Nat} {v : Byte} {m : List Host.Cell} (h : Memory.wf m) : Memory.wf (cellPut a v m) := by
  refine ⟨?_, fun c hc => ?_⟩
  · have hp := h.1
    clear h
    induction m with
    | nil =>
      unfold cellPut
      split <;> simp
    | cons x xs ih =>
      have hx := List.pairwise_cons.1 hp
      unfold cellPut
      split
      · rename_i hk
        split
        · exact hp
        · refine List.pairwise_cons.2 ⟨fun e he => ?_, hp⟩
          rcases List.mem_cons.1 he with rfl | he
          · exact hk
          · exact Nat.lt_trans hk (hx.1 e he)
      · split
        · rename_i hk
          split
          · exact hx.2
          · exact List.pairwise_cons.2 ⟨fun e he => hk ▸ hx.1 e he, hx.2⟩
        · rename_i h1 h2
          refine List.pairwise_cons.2 ⟨fun e he => ?_, ih hx.2⟩
          rcases mem_cellPut he with ⟨rfl, _⟩ | he
          · show x.1 < a
            omega
          · exact hx.1 e he
  · rcases mem_cellPut hc with ⟨rfl, hv⟩ | hc
    · exact hv
    · exact h.2 c hc

theorem cellsPut_wf {a : Nat} {bs : Bytes} {m : List Host.Cell} (h : Memory.wf m) : Memory.wf (cellsPut a bs m) := by
  induction bs generalizing a m with
  | nil => exact h
  | cons b bs ih => exact ih (cellPut_wf h)

theorem cellFilter_wf {p : Host.Cell → Bool} {m : List Host.Cell} (h : Memory.wf m) : Memory.wf (m.filter p) :=
  ⟨h.1.filter _, fun c hc => h.2 c (List.mem_filter.1 hc).1⟩

theorem cellGet_none_below {a : Nat} {m : List Host.Cell} (h : ∀ c ∈ m, a < c.1) : cellGet m a = memUnlisted := by
  unfold cellGet
  have : m.find? (fun c => c.1 == a) = none := by
    rw [List.find?_eq_none]
    intro c hc
    have := h c hc
    simp
    omega
  rw [this]

/-- A byte reads as what was last written to it. -/
theorem cellGet_put_same {a : Nat} {v : Byte} {m : List Host.Cell} (h : Memory.wf m) : cellGet (cellPut a v m) a = v := by
  have hp := h.1
  clear h
  induction m with
  | nil =>
    unfold cellPut
    split
    · rename_i hv
      rw [hv]
      rfl
    · simp [cellGet]
  | cons x xs ih =>
    have hx := List.pairwise_cons.1 hp
    unfold cellPut
    split
    · rename_i hk
      split
      · rename_i hv
        rw [hv]
        refine cellGet_none_below (fun c hc => ?_)
        rcases List.mem_cons.1 hc with rfl | hc
        · exact hk
        · exact Nat.lt_trans hk (hx.1 c hc)
      · simp [cellGet]
    · split
      · rename_i hk
        split
        · rename_i hv
          rw [hv]
          exact cellGet_none_below (fun c hc => hk ▸ hx.1 c hc)
        · simp [cellGet]
      · rename_i h1 h2
        have hne : (x.1 == a) = false := by simp; omega
        have := ih hx.2
        unfold cellGet at this ⊢
        rw [List.find?_cons, hne]
        exact this

/-- Every other byte keeps its value. -/
theorem cellGet_put_other {a b : Nat} {v : Byte} {m : List Host.Cell} (hb : b ≠ a) : cellGet (cellPut a v m) b = cellGet m b := by
  have hab : (a == b) = false := by simp; omega
  induction m with
  | nil =>
    unfold cellPut
    split
    · rfl
    · unfold cellGet
      rw [List.find?_cons, hab]
  | cons x xs ih =>
    unfold cellPut
    split
    · split
      · rfl
      · unfold cellGet
        rw [List.find?_cons, hab]
    · split
      · rename_i hk
        have hx : (x.1 == b) = false := by simp; omega
        split
        · unfold cellGet
          rw [List.find?_cons, hx]
        · unfold cellGet
          rw [List.find?_cons, hab, List.find?_cons, hx]
      · unfold cellGet at ih ⊢
        rw [List.find?_cons, List.find?_cons]
        cases hxb : (x.1 == b) with
        | true => rfl
        | false => exact ih

theorem cellGet_cellsPut_outside {a b : Nat} {bs : Bytes} {m : List Host.Cell} (h : b < a ∨ a + bs.length ≤ b) :
    cellGet (cellsPut a bs m) b = cellGet m b := by
  induction bs generalizing a m with
  | nil => rfl
  | cons x xs ih =>
    have hl : (x :: xs).length = xs.length + 1 := rfl
    rw [hl] at h
    have h1 := ih (a := a + 1) (m := cellPut a x m) (by omega)
    have h2 : b ≠ a := by omega
    exact h1.trans (cellGet_put_other h2)

theorem cellGet_cellsPut_inside {a i : Nat} {bs : Bytes} {m : List Host.Cell} (h : Memory.wf m) (hi : i < bs.length) :
    cellGet (cellsPut a bs m) (a + i) = bs[i] := by
  induction bs generalizing a i m with
  | nil => exact absurd hi (Nat.not_lt_zero _)
  | cons x xs ih =>
    cases i with
    | zero =>
      have h1 : cellGet (cellsPut (a + 1) xs (cellPut a x m)) a = cellGet (cellPut a x m) a :=
        cellGet_cellsPut_outside (by omega)
      exact h1.trans (cellGet_put_same h)
    | succ k =>
      have hk : k < xs.length := Nat.lt_of_succ_lt_succ hi
      have := ih (a := a + 1) (m := cellPut a x m) (cellPut_wf h) hk
      have e : a + 1 + k = a + (k + 1) := by omega
      rw [e] at this
      exact this

/-- A byte of partition `p`'s range reads as what was written. -/
theorem memByte_memWrite_inside {p off i : Nat} {bs : Bytes} {s : State} (h : Memory.wf s.mem) (hi : i < bs.length) :
    memByte (memWrite p off bs s) p (off + i) = bs[i] := by
  have := cellGet_cellsPut_inside (a := memAddr p off) h hi
  unfold memByte
  have e : memAddr p (off + i) = memAddr p off + i := by unfold memAddr; omega
  rw [e]
  exact this

/-- A byte outside the bytes written keeps its value. -/
theorem memByte_memWrite_outside {p off q o : Nat} {bs : Bytes} {s : State}
    (h : memAddr q o < memAddr p off ∨ memAddr p off + bs.length ≤ memAddr q o) :
    memByte (memWrite p off bs s) q o = memByte s q o := cellGet_cellsPut_outside h

end Sys2Proof.Laws
end

