-- ==== Sys2Proof/Laws/KeptOps.lean ====
section
/-! SUPPORT. What the operations of Sys2Proof/Machine/Ops.lean keep: one lemma for each, which callers cite. -/

namespace Sys2Proof.Laws

open Sys2Proof Sys2Proof.Machine

theorem memZero_kept {W : Nat} {r : State} {a0} {a1} {a2} {a3 : State} (hW : Sub 1 W) (ha3 : Kept W r a3) :
    Kept W r (memZero a0 a1 a2 a3) := by
  refine ha3.trans ⟨rfl, rfl, List.prefix_refl _, Nat.le_refl _, id, cellFilter_wf, ?_, fun _ => rfl, fun _ => rfl, fun _ => rfl, fun _ => rfl, fun _ => rfl, fun _ => rfl, fun _ => rfl, fun _ => rfl, fun _ => rfl, fun _ => rfl, fun _ => rfl, fun _ => rfl, fun _ => rfl, fun _ => rfl, fun _ => rfl, fun _ => rfl, fun _ => rfl, fun _ => rfl, fun _ => rfl, fun _ => rfl, fun _ => rfl⟩
  intro e
  rw [hW.bit (i := 0) (by decide)] at e
  cases e

theorem odPut_kept {W : Nat} {r : State} {a0} {a1} {a2 : State} (hW : Sub 524288 W) (ha2 : Kept W r a2) :
    Kept W r (odPut a0 a1 a2) := by
  refine ha2.trans ⟨rfl, rfl, List.prefix_refl _, Nat.le_refl _, odBind_wf, id, fun _ => rfl, fun _ => rfl, fun _ => rfl, fun _ => rfl, fun _ => rfl, fun _ => rfl, fun _ => rfl, fun _ => rfl, fun _ => rfl, fun _ => rfl, fun _ => rfl, fun _ => rfl, fun _ => rfl, fun _ => rfl, fun _ => rfl, fun _ => rfl, fun _ => rfl, fun _ => rfl, fun _ => rfl, ?_, fun _ => rfl, fun _ => rfl⟩
  intro e
  rw [hW.bit (i := 19) (by decide)] at e
  cases e

theorem odSet_kept {W : Nat} {r : State} {a0} {a1} {a2} {a3 : State} (hW : Sub 524288 W) (ha3 : Kept W r a3) :
    Kept W r (odSet a0 a1 a2 a3) := by
  unfold Sys2Proof.Machine.odSet
  exact odPut_kept (hW.sub (by decide)) ha3

theorem odAdd_kept {W : Nat} {r : State} {a0} {a1} {a2} {a3} {a4 : State} (hW : Sub 524288 W) (ha4 : Kept W r a4) :
    Kept W r (odAdd a0 a1 a2 a3 a4) := by
  unfold Sys2Proof.Machine.odAdd
  exact odSet_kept (hW.sub (by decide)) ha4

theorem bump64_kept {W : Nat} {r : State} {a0} {a1} {a2 : State} (hW : Sub 524288 W) (ha2 : Kept W r a2) :
    Kept W r (bump64 a0 a1 a2) := by
  unfold Sys2Proof.Machine.bump64
  exact odAdd_kept (hW.sub (by decide)) ha2

theorem bump32_kept {W : Nat} {r : State} {a0} {a1} {a2 : State} (hW : Sub 524288 W) (ha2 : Kept W r a2) :
    Kept W r (bump32 a0 a1 a2) := by
  unfold Sys2Proof.Machine.bump32
  exact odAdd_kept (hW.sub (by decide)) ha2

theorem drawn_kept {W : Nat} {r : State} {a0 : State} (hW : Sub 2097152 W) (ha0 : Kept W r a0) :
    Kept W r (drawn a0) := by
  refine ha0.trans ⟨rfl, rfl, List.prefix_refl _, Nat.le_succ _, id, id, fun _ => rfl, fun _ => rfl, fun _ => rfl, fun _ => rfl, fun _ => rfl, fun _ => rfl, fun _ => rfl, fun _ => rfl, fun _ => rfl, fun _ => rfl, fun _ => rfl, fun _ => rfl, fun _ => rfl, fun _ => rfl, fun _ => rfl, fun _ => rfl, fun _ => rfl, fun _ => rfl, fun _ => rfl, fun _ => rfl, fun _ => rfl, ?_⟩
  intro e
  rw [hW.bit (i := 21) (by decide)] at e
  cases e

theorem memClear_kept {W : Nat} {r : State} {a0 : State} (hW : Sub 257 W) (ha0 : Kept W r a0) :
    Kept W r (memClear a0) := by
  refine ha0.trans ⟨rfl, rfl, List.prefix_refl _, Nat.le_refl _, id, fun _ => ⟨List.Pairwise.nil, fun _ h => nomatch h⟩, ?_, fun _ => rfl, fun _ => rfl, fun _ => rfl, fun _ => rfl, fun _ => rfl, fun _ => rfl, fun _ => rfl, ?_, fun _ => rfl, fun _ => rfl, fun _ => rfl, fun _ => rfl, fun _ => rfl, fun _ => rfl, fun _ => rfl, fun _ => rfl, fun _ => rfl, fun _ => rfl, fun _ => rfl, fun _ => rfl, fun _ => rfl⟩
  · intro e
    rw [hW.bit (i := 0) (by decide)] at e
    cases e
  · intro e
    rw [hW.bit (i := 8) (by decide)] at e
    cases e

theorem odKeep_kept {W : Nat} {r : State} {a0} {a1 : State} (hW : Sub 524288 W) (ha1 : Kept W r a1) :
    Kept W r (odKeep a0 a1) := by
  refine ha1.trans ⟨rfl, rfl, List.prefix_refl _, Nat.le_refl _, fun h => ⟨h.1.filter _, fun e he => h.2 e (List.mem_filter.1 he).1⟩, id, fun _ => rfl, fun _ => rfl, fun _ => rfl, fun _ => rfl, fun _ => rfl, fun _ => rfl, fun _ => rfl, fun _ => rfl, fun _ => rfl, fun _ => rfl, fun _ => rfl, fun _ => rfl, fun _ => rfl, fun _ => rfl, fun _ => rfl, fun _ => rfl, fun _ => rfl, fun _ => rfl, fun _ => rfl, ?_, fun _ => rfl, fun _ => rfl⟩
  intro e
  rw [hW.bit (i := 19) (by decide)] at e
  cases e

theorem send_kept {W : Nat} {r : State} {a0} {a1 : State} (hW : Sub 1048576 W) (ha1 : Kept W r a1) :
    Kept W r (send a0 a1) := by
  refine ha1.trans ⟨rfl, rfl, List.prefix_append _ _, Nat.le_refl _, id, id, fun _ => rfl, fun _ => rfl, fun _ => rfl, fun _ => rfl, fun _ => rfl, fun _ => rfl, fun _ => rfl, fun _ => rfl, fun _ => rfl, fun _ => rfl, fun _ => rfl, fun _ => rfl, fun _ => rfl, fun _ => rfl, fun _ => rfl, fun _ => rfl, fun _ => rfl, fun _ => rfl, fun _ => rfl, fun _ => rfl, ?_, fun _ => rfl⟩
  intro e
  rw [hW.bit (i := 20) (by decide)] at e
  cases e

theorem memWrite_kept {W : Nat} {r : State} {a0} {a1} {a2} {a3 : State} (hW : Sub 1 W) (ha3 : Kept W r a3) :
    Kept W r (memWrite a0 a1 a2 a3) := by
  refine ha3.trans ⟨rfl, rfl, List.prefix_refl _, Nat.le_refl _, id, cellsPut_wf, ?_, fun _ => rfl, fun _ => rfl, fun _ => rfl, fun _ => rfl, fun _ => rfl, fun _ => rfl, fun _ => rfl, fun _ => rfl, fun _ => rfl, fun _ => rfl, fun _ => rfl, fun _ => rfl, fun _ => rfl, fun _ => rfl, fun _ => rfl, fun _ => rfl, fun _ => rfl, fun _ => rfl, fun _ => rfl, fun _ => rfl, fun _ => rfl⟩
  intro e
  rw [hW.bit (i := 0) (by decide)] at e
  cases e

theorem setRole_kept {W : Nat} {r : State} {a0} {a1} {a2 : State} (hW : Sub 2 W) (ha2 : Kept W r a2) :
    Kept W r (setRole a0 a1 a2) := by
  unfold Sys2Proof.Machine.setRole
  split
  · rename_i v0
    refine Kept.upd 2 ?_ ?_ rfl
    · exact hW.sub (by decide)
    · exact ha2
  · rename_i v1
    refine Kept.upd 2 ?_ ?_ rfl
    · exact hW.sub (by decide)
    · exact ha2

end Sys2Proof.Laws
end

