-- ==== Sys2Proof/Laws/KeptOperands.lean ====
section
/-! SUPPORT. What the operations of Sys2Proof/Machine/Operands.lean keep: one lemma for each, which callers cite. -/

namespace Sys2Proof.Laws

open Sys2Proof Sys2Proof.Machine

theorem setCol_kept {W : Nat} {r : State} {a0} {a1 : State} (hW : Sub 128 W) (ha1 : Kept W r a1) :
    Kept W r (setCol a0 a1) := by
  unfold Sys2Proof.Machine.setCol
  refine Kept.upd 128 ?_ ?_ rfl
  · exact hW.sub (by decide)
  · exact ha1

theorem setSeq_kept {W : Nat} {r : State} {a0} {a1 : State} (hW : Sub 128 W) (ha1 : Kept W r a1) :
    Kept W r (setSeq a0 a1) := by
  unfold Sys2Proof.Machine.setSeq
  refine Kept.upd 128 ?_ ?_ rfl
  · exact hW.sub (by decide)
  · exact ha1

theorem setObj_kept {W : Nat} {r : State} {a0} {a1 : State} (hW : Sub 256 W) (ha1 : Kept W r a1) :
    Kept W r (setObj a0 a1) := by
  unfold Sys2Proof.Machine.setObj
  refine Kept.upd 256 ?_ ?_ rfl
  · exact hW.sub (by decide)
  · exact ha1

end Sys2Proof.Laws
end

