-- ==== Sys2Proof/Laws/KeptEgress.lean ====
section
/-! SUPPORT. What the operations of Sys2Proof/Machine/Egress.lean keep: one lemma for each, which callers cite. -/

namespace Sys2Proof.Laws

open Sys2Proof Sys2Proof.Machine

theorem editPort_kept {W : Nat} {r : State} {a0} {a1} {a2 : State} (hW : Sub 16384 W) (ha2 : Kept W r a2) :
    Kept W r (editPort a0 a1 a2) := by
  unfold Sys2Proof.Machine.editPort
  refine Kept.upd 16384 ?_ ?_ rfl
  · exact hW.sub (by decide)
  · exact ha2

theorem setMask_kept {W : Nat} {r : State} {a0} {a1} {a2 : State} (hW : Sub 16384 W) (ha2 : Kept W r a2) :
    Kept W r (setMask a0 a1 a2) := by
  unfold Sys2Proof.Machine.setMask
  extract_lets +onlyGivenNames l0
  clear_value l0
  exact editPort_kept (hW.sub (by decide)) ha2

theorem enqueue_kept {W : Nat} {r : State} {a0} {a1} {a2} {a3 : State} (hW : Sub 16384 W) (ha3 : Kept W r a3) :
    Kept W r (enqueue a0 a1 a2 a3) := by
  unfold Sys2Proof.Machine.enqueue
  extract_lets +onlyGivenNames l0
  clear_value l0
  exact editPort_kept (hW.sub (by decide)) ha3

end Sys2Proof.Laws
end

