-- ==== Sys2Proof/Laws/KeptHostOut.lean ====
section
/-! SUPPORT. What the operations of Sys2Proof/Machine/HostOut.lean keep: one lemma for each, which callers cite. -/

namespace Sys2Proof.Laws

open Sys2Proof Sys2Proof.Machine

theorem setWork_kept {W : Nat} {r : State} {a0} {a1} {a2 : State} (hW : Sub 8 W) (ha2 : Kept W r a2) :
    Kept W r (setWork a0 a1 a2) := by
  unfold Sys2Proof.Machine.setWork
  refine Kept.upd 8 ?_ ?_ rfl
  · exact hW.sub (by decide)
  · exact ha2

theorem pumpTx_kept {W : Nat} {r : State} {a0 : State} (hW : Sub 4 W) (ha0 : Kept W r a0) :
    Kept W r (pumpTx a0) := by
  unfold Sys2Proof.Machine.pumpTx
  split
  · rename_i v0 v1
    exact ha0
  · rename_i v2 v3 v4 v5
    extract_lets +onlyGivenNames l6
    clear_value l6
    extract_lets +onlyGivenNames l7
    clear_value l7
    refine Kept.upd 4 ?_ ?_ rfl
    · exact hW.sub (by decide)
    · exact ha0

theorem sendFrag2_kept {W : Nat} {r : State} {a0} {a1} {a2} {a3} {a4} {a5 : State} (hW : Sub 4 W) (ha5 : Kept W r a5) :
    Kept W r (sendFrag2 a0 a1 a2 a3 a4 a5) := by
  unfold Sys2Proof.Machine.sendFrag2
  refine pumpTx_kept (hW.sub (by decide)) ?_
  refine Kept.upd 4 ?_ ?_ rfl
  · exact hW.sub (by decide)
  · exact ha5

theorem sendClass2_kept {W : Nat} {r : State} {a0} {a1} {a2} {a3 : State} (hW : Sub 4 W) (ha3 : Kept W r a3) :
    Kept W r (sendClass2 a0 a1 a2 a3) := by
  unfold Sys2Proof.Machine.sendClass2
  exact sendFrag2_kept (hW.sub (by decide)) ha3

theorem setEvRing_kept {W : Nat} {r : State} {a0} {a1} {a2 : State} (hW : Sub 8 W) (ha2 : Kept W r a2) :
    Kept W r (setEvRing a0 a1 a2) := by
  unfold Sys2Proof.Machine.setEvRing
  refine Kept.upd 8 ?_ ?_ rfl
  · exact hW.sub (by decide)
  · exact ha2

theorem writeEvent_kept {W : Nat} {r : State} {a0} {a1} {a2 : State} (hW : Sub 12 W) (ha2 : Kept W r a2) :
    Kept W r (writeEvent a0 a1 a2) := by
  unfold Sys2Proof.Machine.writeEvent
  extract_lets +onlyGivenNames l0
  clear_value l0
  extract_lets +onlyGivenNames l1
  clear_value l1
  refine sendClass2_kept (hW.sub (by decide)) ?_
  exact setEvRing_kept (hW.sub (by decide)) ha2

theorem pushEvent_kept {W : Nat} {r : State} {a0} {a1} {a2 : State} (hW : Sub 12 W) (ha2 : Kept W r a2) :
    Kept W r (pushEvent a0 a1 a2) := by
  unfold Sys2Proof.Machine.pushEvent
  extract_lets +onlyGivenNames l0
  clear_value l0
  refine Kept.ite ?_ ?_
  · exact writeEvent_kept (hW.sub (by decide)) ha2
  · refine Kept.ite ?_ ?_
    · exact setEvRing_kept (hW.sub (by decide)) ha2
    · exact setEvRing_kept (hW.sub (by decide)) ha2

theorem rang_kept {W : Nat} {r : State} {a0} {a1} {a2 : State} (hW : Sub 4 W) (ha2 : Kept W r a2) :
    Kept W r (rang a0 a1 a2) := by
  unfold Sys2Proof.Machine.rang
  refine Kept.ite ?_ ?_
  · refine Kept.upd 4 ?_ ?_ rfl
    · exact hW.sub (by decide)
    · exact ha2
  · exact ha2

theorem setQueue_kept {W : Nat} {r : State} {a0} {a1} {a2 : State} (hW : Sub 8 W) (ha2 : Kept W r a2) :
    Kept W r (setQueue a0 a1 a2) := by
  unfold Sys2Proof.Machine.setQueue
  refine Kept.upd 8 ?_ ?_ rfl
  · exact hW.sub (by decide)
  · exact ha2

theorem resendLost_kept {W : Nat} {r : State} {a0 : State} (hW : Sub 4 W) (ha0 : Kept W r a0) :
    Kept W r (resendLost a0) := by
  unfold Sys2Proof.Machine.resendLost
  split
  · rename_i v0 v1
    exact ha0
  · rename_i v2 v3 v4 v5
    refine Kept.upd 4 ?_ ?_ rfl
    · exact hW.sub (by decide)
    · exact ha0

theorem fireVector_kept {W : Nat} {r : State} {a0} {a1 : State} (hW : Sub 1048580 W) (ha1 : Kept W r a1) :
    Kept W r (fireVector a0 a1) := by
  unfold Sys2Proof.Machine.fireVector
  refine Kept.ite ?_ ?_
  · refine Kept.upd 4 ?_ ?_ rfl
    · exact hW.sub (by decide)
    · exact ha1
  · exact send_kept (hW.sub (by decide)) ha1

theorem setQp_kept {W : Nat} {r : State} {a0} {a1 : State} (hW : Sub 8192 W) (ha1 : Kept W r a1) :
    Kept W r (setQp a0 a1) := by
  unfold Sys2Proof.Machine.setQp
  extract_lets +onlyGivenNames l0
  clear_value l0
  refine Kept.upd 8192 ?_ ?_ rfl
  · exact hW.sub (by decide)
  · exact ha1

theorem event_kept {W : Nat} {r : State} {a0} {a1} {a2} {a3} {a4} {a5 : State} (hW : Sub 12 W) (ha5 : Kept W r a5) :
    Kept W r (event a0 a1 a2 a3 a4 a5) := by
  unfold Sys2Proof.Machine.event
  exact pushEvent_kept (hW.sub (by decide)) ha5

theorem sendInside_kept {W : Nat} {r : State} {a0} {a1} {a2} {a3} {a4} {a5} {a6 : State} (hW : Sub 12 W) (ha5 : ∀ (y0) (_ : Kept W r y0), Kept W r (a5 y0)) (ha6 : Kept W r a6) :
    Kept W r (sendInside a0 a1 a2 a3 a4 a5 a6) := by
  unfold Sys2Proof.Machine.sendInside
  refine Kept.ite ?_ ?_
  · apply ha5
    exact ha6
  · refine event_kept (hW.sub (by decide)) ?_
    refine Kept.upd 4 ?_ ?_ rfl
    · exact hW.sub (by decide)
    · exact ha6

theorem writeWrCompletion_kept {W : Nat} {r : State} {a0} {a1} {a2 : State} (hW : Sub 12 W) (ha2 : Kept W r a2) :
    Kept W r (writeWrCompletion a0 a1 a2) := by
  unfold Sys2Proof.Machine.writeWrCompletion
  extract_lets +onlyGivenNames l0
  clear_value l0
  extract_lets +onlyGivenNames l1
  have hl1 : Kept W r (l1) := by
    unfold l1
    apply sendInside_kept
    · exact hW.sub (by decide)
    · intro x2 h3
      exact sendClass2_kept (hW.sub (by decide)) h3
    · exact ha2
  clear_value l1
  apply onlyIf_kept
  · intro x4 h5
    exact event_kept (hW.sub (by decide)) h5
  · exact hl1

theorem flushWrs_kept {W : Nat} {r : State} {a0} {a1} {a2 : State} (hW : Sub 8204 W) (ha2 : Kept W r a2) :
    Kept W r (flushWrs a0 a1 a2) := by
  induction a1 generalizing a0 a2 with
  | zero  =>
    unfold Sys2Proof.Machine.flushWrs
    exact ha2
  | succ k0 ih =>
    unfold Sys2Proof.Machine.flushWrs
    split
    · rename_i v0 v1
      exact ha2
    · rename_i v2 v3 v4
      split
      · rename_i v5 v6
        exact ha2
      · rename_i v7 v8 v9 v10
        refine Kept.ite ?_ ?_
        · apply ih
          refine setQp_kept (hW.sub (by decide)) ?_
          exact writeWrCompletion_kept (hW.sub (by decide)) ha2
        · exact ha2

theorem flushVectors_kept {W : Nat} {r : State} {a0 : State} (hW : Sub 1048580 W) (ha0 : Kept W r a0) :
    Kept W r (flushVectors a0) := by
  unfold Sys2Proof.Machine.flushVectors
  refine Kept.ite ?_ ?_
  · apply forEach_kept
    · intro x0 x1 h2
      exact fireVector_kept (hW.sub (by decide)) h2
    · refine Kept.upd 4 ?_ ?_ rfl
      · exact hW.sub (by decide)
      · exact ha0
  · exact ha0

theorem sendLease_kept {W : Nat} {r : State} {a0} {a1} {a2} {a3 : State} (hW : Sub 1056768 W) (ha3 : Kept W r a3) :
    Kept W r (sendLease a0 a1 a2 a3) := by
  unfold Sys2Proof.Machine.sendLease
  refine send_kept (hW.sub (by decide)) ?_
  refine Kept.upd 8192 ?_ ?_ rfl
  · exact hW.sub (by decide)
  · exact ha3

theorem writeCompletion_kept {W : Nat} {r : State} {a0} {a1} {a2} {a3} {a4 : State} (hW : Sub 12 W) (ha4 : Kept W r a4) :
    Kept W r (writeCompletion a0 a1 a2 a3 a4) := by
  unfold Sys2Proof.Machine.writeCompletion
  extract_lets +onlyGivenNames l0
  clear_value l0
  extract_lets +onlyGivenNames l1
  clear_value l1
  extract_lets +onlyGivenNames l2
  clear_value l2
  extract_lets +onlyGivenNames l3
  have hl3 : Kept W r (l3) := by
    unfold l3
    exact setQueue_kept (hW.sub (by decide)) ha4
  clear_value l3
  refine Kept.ite ?_ ?_
  · exact hl3
  · apply sendInside_kept
    · exact hW.sub (by decide)
    · intro x4 h5
      exact sendClass2_kept (hW.sub (by decide)) h5
    · exact hl3

theorem finishCmd_kept {W : Nat} {r : State} {a0} {a1} {a2} {a3 : State} (hW : Sub 12 W) (ha3 : Kept W r a3) :
    Kept W r (finishCmd a0 a1 a2 a3) := by
  unfold Sys2Proof.Machine.finishCmd
  refine writeCompletion_kept (hW.sub (by decide)) ?_
  refine Kept.upd 8 ?_ ?_ rfl
  · exact hW.sub (by decide)
  · exact ha3

theorem sendVector_kept {W : Nat} {r : State} {a0} {a1 : State} (hW : Sub 1048580 W) (ha1 : Kept W r a1) :
    Kept W r (sendVector a0 a1) := by
  unfold Sys2Proof.Machine.sendVector
  refine flushVectors_kept (hW.sub (by decide)) ?_
  refine Kept.upd 4 ?_ ?_ rfl
  · exact hW.sub (by decide)
  · exact ha1

theorem sendFrag3_kept {W : Nat} {r : State} {a0} {a1} {a2} {a3} {a4 : State} (hW : Sub 4 W) (ha4 : Kept W r a4) :
    Kept W r (sendFrag3 a0 a1 a2 a3 a4) := by
  unfold Sys2Proof.Machine.sendFrag3
  refine pumpTx_kept (hW.sub (by decide)) ?_
  refine Kept.upd 4 ?_ ?_ rfl
  · exact hW.sub (by decide)
  · exact ha4

theorem flushEvents_kept {W : Nat} {r : State} {a0} {a1} {a2 : State} (hW : Sub 12 W) (ha2 : Kept W r a2) :
    Kept W r (flushEvents a0 a1 a2) := by
  induction a1 generalizing a0 a2 with
  | zero  =>
    unfold Sys2Proof.Machine.flushEvents
    exact ha2
  | succ k0 ih =>
    unfold Sys2Proof.Machine.flushEvents
    split
    · rename_i v0 v1
      exact ha2
    · rename_i v2 v3 v4 v5
      refine Kept.ite ?_ ?_
      · apply ih
        refine writeEvent_kept (hW.sub (by decide)) ?_
        exact setEvRing_kept (hW.sub (by decide)) ha2
      · exact ha2

end Sys2Proof.Laws
end

