-- ==== Sys2Proof/Laws/KeptFaults.lean ====
section
/-! SUPPORT. What the operations of Sys2Proof/Machine/Faults.lean keep: one lemma for each, which callers cite. -/

namespace Sys2Proof.Laws

open Sys2Proof Sys2Proof.Machine

theorem countFixed_kept {W : Nat} {r : State} {a0} {a1} {a2} {a3 : State} (hW : Sub 524288 W) (ha3 : Kept W r a3) :
    Kept W r (countFixed a0 a1 a2 a3) := by
  unfold Sys2Proof.Machine.countFixed
  refine Kept.ite ?_ ?_
  · exact ha3
  · exact odSet_kept (hW.sub (by decide)) ha3

theorem sampleCount_kept {W : Nat} {r : State} {a0} {a1} {a2} {a3 : State} (hW : Sub 786432 W) (ha3 : Kept W r a3) :
    Kept W r (sampleCount a0 a1 a2 a3) := by
  unfold Sys2Proof.Machine.sampleCount
  extract_lets +onlyGivenNames l0
  clear_value l0
  extract_lets +onlyGivenNames l1
  clear_value l1
  refine odAdd_kept (hW.sub (by decide)) ?_
  refine Kept.upd 262144 ?_ ?_ rfl
  · exact hW.sub (by decide)
  · exact ha3

theorem countOne_kept {W : Nat} {r : State} {a0} {a1} {a2} {a3} {a4} {a5 : State} (hW : Sub 786432 W) (ha5 : Kept W r a5) :
    Kept W r (countOne a0 a1 a2 a3 a4 a5) := by
  unfold Sys2Proof.Machine.countOne
  extract_lets +onlyGivenNames l0
  clear_value l0
  extract_lets +onlyGivenNames l1
  clear_value l1
  extract_lets +onlyGivenNames l2
  clear_value l2
  refine Kept.ite ?_ ?_
  · exact ha5
  · extract_lets +onlyGivenNames l3
    extract_lets +onlyGivenNames l4
    have hl4 : Kept W r (l4) := by
      unfold l4
      refine Kept.ite ?_ ?_
      · refine odSet_kept (hW.sub (by decide)) ?_
        refine Kept.ite ?_ ?_
        · exact odSet_kept (hW.sub (by decide)) ha5
        · exact ha5
      · exact odSet_kept (hW.sub (by decide)) ha5
    clear_value l4
    apply onlyIf_kept
    · intro x5 h6
      exact sampleCount_kept (hW.sub (by decide)) h6
    · exact hl4

theorem count_kept {W : Nat} {r : State} {a0} {a1} {a2} {a3} {a4 : State} (hW : Sub 786432 W) (ha4 : Kept W r a4) :
    Kept W r (count a0 a1 a2 a3 a4) := by
  unfold Sys2Proof.Machine.count
  refine Kept.ite ?_ ?_
  · exact ha4
  · apply forEach_kept
    · intro x0 x1 h2
      exact countOne_kept (hW.sub (by decide)) h2
    · exact ha4

theorem notify_kept {W : Nat} {r : State} {a0} {a1} {a2 : State} (hW : Sub 1048576 W) (ha2 : Kept W r a2) :
    Kept W r (notify a0 a1 a2) := by
  unfold Sys2Proof.Machine.notify
  apply forEach_kept
  · intro x0 x1 h2
    apply onlyIf_kept
    · intro x3 h4
      exact send_kept (hW.sub (by decide)) h4
    · exact h2
  · exact ha2

theorem recordFault_kept {W : Nat} {r : State} {a0} {a1} {a2} {a3} {a4} {a5 : State} (hW : Sub 1703936 W) (ha5 : Kept W r a5) :
    Kept W r (recordFault a0 a1 a2 a3 a4 a5) := by
  unfold Sys2Proof.Machine.recordFault
  extract_lets +onlyGivenNames l0
  clear_value l0
  extract_lets +onlyGivenNames l1
  clear_value l1
  extract_lets +onlyGivenNames l2
  clear_value l2
  extract_lets +onlyGivenNames l3
  clear_value l3
  extract_lets +onlyGivenNames l4
  have hl4 : Kept W r (l4) := by
    unfold l4
    refine Kept.upd 131072 ?_ ?_ rfl
    · exact hW.sub (by decide)
    · exact ha5
  clear_value l4
  extract_lets +onlyGivenNames l5
  have hl5 : Kept W r (l5) := by
    unfold l5
    refine bump64_kept (hW.sub (by decide)) ?_
    exact odAdd_kept (hW.sub (by decide)) hl4
  clear_value l5
  refine Kept.ite ?_ ?_
  · exact notify_kept (hW.sub (by decide)) hl5
  · exact hl5

theorem fault_kept {W : Nat} {r : State} {a0} {a1} {a2} {a3} {a4 : State} (hW : Sub 1703936 W) (ha4 : Kept W r a4) :
    Kept W r (fault a0 a1 a2 a3 a4) := by
  unfold Sys2Proof.Machine.fault
  exact recordFault_kept (hW.sub (by decide)) ha4

theorem faultEvent_kept {W : Nat} {r : State} {a0} {a1} {a2} {a3} {a4} {a5} {a6 : State} (hW : Sub 1703948 W) (ha6 : Kept W r a6) :
    Kept W r (faultEvent a0 a1 a2 a3 a4 a5 a6) := by
  unfold Sys2Proof.Machine.faultEvent
  refine event_kept (hW.sub (by decide)) ?_
  exact fault_kept (hW.sub (by decide)) ha6

end Sys2Proof.Laws
end

