-- ==== Sys2Proof/Laws/KeptQueues.lean ====
section
/-! SUPPORT. What the operations of Sys2Proof/Machine/Queues.lean keep: one lemma for each, which callers cite. -/

namespace Sys2Proof.Laws

open Sys2Proof Sys2Proof.Machine

theorem drainAborts_kept {W : Nat} {r : State} {a0} {a1} {a2 : State} (hW : Sub 12 W) (ha2 : Kept W r a2) :
    Kept W r (drainAborts a0 a1 a2) := by
  induction a1 generalizing a0 a2 with
  | zero  =>
    unfold Sys2Proof.Machine.drainAborts
    exact ha2
  | succ k0 ih =>
    unfold Sys2Proof.Machine.drainAborts
    split
    · rename_i v0 v1
      exact ha2
    · rename_i v2 v3 v4 v5
      refine Kept.ite ?_ ?_
      · apply ih
        refine writeCompletion_kept (hW.sub (by decide)) ?_
        exact setQueue_kept (hW.sub (by decide)) ha2
      · exact ha2

theorem abortQueue_kept {W : Nat} {r : State} {a0} {a1 : State} (hW : Sub 12 W) (ha1 : Kept W r a1) :
    Kept W r (abortQueue a0 a1) := by
  unfold Sys2Proof.Machine.abortQueue
  extract_lets +onlyGivenNames l0
  clear_value l0
  extract_lets +onlyGivenNames l1
  have hl1 : Kept W r (l1) := by
    unfold l1
    apply forEach_kept
    · intro x2 x3 h4
      exact finishCmd_kept (hW.sub (by decide)) h4
    · exact ha1
  clear_value l1
  extract_lets +onlyGivenNames l5
  clear_value l5
  extract_lets +onlyGivenNames l6
  have hl6 : Kept W r (l6) := by
    unfold l6
    exact setQueue_kept (hW.sub (by decide)) hl1
  clear_value l6
  extract_lets +onlyGivenNames l7
  have hl7 : Kept W r (l7) := by
    unfold l7
    exact drainAborts_kept (hW.sub (by decide)) hl6
  clear_value l7
  exact setQueue_kept (hW.sub (by decide)) hl7

theorem settle_kept {W : Nat} {r : State} {a0} {a1 : State} (hW : Sub 8204 W) (ha1 : Kept W r a1) :
    Kept W r (settle a0 a1) := by
  induction a0 generalizing a1 with
  | zero  =>
    unfold Sys2Proof.Machine.settle
    exact ha1
  | succ k0 ih =>
    unfold Sys2Proof.Machine.settle
    split
    · rename_i v0 v1 v2
      apply ih
      exact finishCmd_kept (hW.sub (by decide)) ha1
    · rename_i v3 v4
      split
      · rename_i v5 v6 v7
        apply ih
        refine flushWrs_kept (hW.sub (by decide)) ?_
        exact setQp_kept (hW.sub (by decide)) ha1
      · rename_i v8 v9
        split
        · rename_i v10 v11 v12 v13 v14
          apply ih
          refine writeCompletion_kept (hW.sub (by decide)) ?_
          exact setQueue_kept (hW.sub (by decide)) ha1
        · rename_i v15 v16
          split
          · rename_i v17 v18 v19 v20 v21
            apply ih
            refine writeCompletion_kept (hW.sub (by decide)) ?_
            exact setQueue_kept (hW.sub (by decide)) ha1
          · rename_i v22 v23
            exact ha1

theorem settleAll_kept {W : Nat} {r : State} {a0 : State} (hW : Sub 8204 W) (ha0 : Kept W r a0) :
    Kept W r (settleAll a0) := by
  unfold Sys2Proof.Machine.settleAll
  exact settle_kept (hW.sub (by decide)) ha0

theorem runFence_kept {W : Nat} {r : State} {a0} {a1 : State} (hW : Sub 8204 W) (ha1 : Kept W r a1) :
    Kept W r (runFence a0 a1) := by
  unfold Sys2Proof.Machine.runFence
  refine settleAll_kept (hW.sub (by decide)) ?_
  exact setWork_kept (hW.sub (by decide)) ha1

theorem popCmd_kept {W : Nat} {r : State} {a0} {a1} {a2} {a3 : State} (hW : Sub 8 W) (ha3 : Kept W r a3) :
    Kept W r (popCmd a0 a1 a2 a3) := Kept.upd 8 hW (setQueue_kept hW ha3) rfl

theorem complete_kept {W : Nat} {r : State} {a0} {a1} {a2} {a3 : State} (hW : Sub 8204 W) (ha3 : Kept W r a3) :
    Kept W r (complete a0 a1 a2 a3) := by
  unfold Sys2Proof.Machine.complete
  refine settleAll_kept (hW.sub (by decide)) ?_
  exact finishCmd_kept (hW.sub (by decide)) ha3

theorem goOrDefer_kept {W : Nat} {r : State} {a0} {a1} {a2 : State} (hW : Sub 524296 W) (ha0 : ∀ (y0) (y1) (_ : Kept W r y1), Kept W r (a0 y0 y1)) (ha2 : Kept W r a2) :
    Kept W r (goOrDefer a0 a1 a2) := by
  unfold Sys2Proof.Machine.goOrDefer
  refine Kept.ite ?_ ?_
  · refine bump64_kept (hW.sub (by decide)) ?_
    exact setWork_kept (hW.sub (by decide)) ha2
  · apply ha0
    exact ha2

theorem startAt_kept {W : Nat} {r : State} {a0} {a1} {a2 : State} (hW : Sub 532492 W) (ha0 : ∀ (y0) (y1) (_ : Kept W r y1), Kept W r (a0 y0 y1)) (ha2 : Kept W r a2) :
    Kept W r (startAt a0 a1 a2) := by
  unfold Sys2Proof.Machine.startAt
  refine Kept.ite ?_ ?_
  · refine Kept.ite ?_ ?_
    · exact complete_kept (hW.sub (by decide)) ha2
    · refine Kept.ite ?_ ?_
      · exact complete_kept (hW.sub (by decide)) ha2
      · exact setWork_kept (hW.sub (by decide)) ha2
  · apply goOrDefer_kept
    · exact hW.sub (by decide)
    · intro x0 x1 h2
      apply ha0
      exact h2
    · exact ha2

theorem eventHead_kept {W : Nat} {r : State} {a0} {a1} {a2 : State} (hW : Sub 12 W) (ha2 : Kept W r a2) :
    Kept W r (eventHead a0 a1 a2) := by
  unfold Sys2Proof.Machine.eventHead
  refine Kept.ite ?_ ?_
  · exact ha2
  · extract_lets +onlyGivenNames l0
    clear_value l0
    refine flushEvents_kept (hW.sub (by decide)) ?_
    exact setEvRing_kept (hW.sub (by decide)) ha2

theorem completionHead_kept {W : Nat} {r : State} {a0} {a1} {a2 : State} (hW : Sub 8204 W) (ha2 : Kept W r a2) :
    Kept W r (completionHead a0 a1 a2) := by
  unfold Sys2Proof.Machine.completionHead
  refine Kept.ite ?_ ?_
  · exact ha2
  · extract_lets +onlyGivenNames l0
    clear_value l0
    refine settleAll_kept (hW.sub (by decide)) ?_
    exact setQueue_kept (hW.sub (by decide)) ha2

theorem runWaitCount_kept {W : Nat} {r : State} {a0} {a1 : State} (hW : Sub 8204 W) (ha1 : Kept W r a1) :
    Kept W r (runWaitCount a0 a1) := by
  unfold Sys2Proof.Machine.runWaitCount
  extract_lets +onlyGivenNames l0
  clear_value l0
  extract_lets +onlyGivenNames l1
  clear_value l1
  refine Kept.ite ?_ ?_
  · exact complete_kept (hW.sub (by decide)) ha1
  · split
    · rename_i v2 v3
      exact complete_kept (hW.sub (by decide)) ha1
    · rename_i v4 v5 v6
      refine settleAll_kept (hW.sub (by decide)) ?_
      exact setWork_kept (hW.sub (by decide)) ha1

theorem startCmd_kept {W : Nat} {r : State} {a0} {a1} {a2} {a3 : State} (hW : Sub 532492 W)
    (ha1 : ∀ x t, Kept W r t → Kept W r (a1 x t)) (ha3 : Kept W r a3) : Kept W r (startCmd a0 a1 a2 a3) := by
  unfold startCmd
  split
  · exact ha3
  · refine Kept.ite ha3 ?_
    dsimp only
    have hp := popCmd_kept (W := W) (a0 := a2) (a1 := ‹Desc›) (a2 := ‹List Desc›) (hW.sub (by decide)) ha3
    have hc : ∀ st, Kept W r (complete (takenCmd a2 ‹Desc› a3) st 0 (popCmd a2 ‹Desc› ‹List Desc› a3)) := fun _ =>
      complete_kept (hW.sub (by decide)) hp
    exact Kept.ite (hc _) (Kept.ite (hc _) (startAt_kept hW ha1 hp))

theorem refuseOnce_kept {W : Nat} {r : State} {a0} {a1} {a2 : State} (hW : Sub 44 W) (ha2 : Kept W r a2) :
    Kept W r (refuseOnce a0 a1 a2) := by
  unfold Sys2Proof.Machine.refuseOnce
  refine Kept.ite ?_ ?_
  · exact ha2
  · refine event_kept (hW.sub (by decide)) ?_
    refine Kept.upd 32 ?_ ?_ rfl
    · exact hW.sub (by decide)
    · exact ha2

theorem stopQueue_kept {W : Nat} {r : State} {a0} {a1 : State} (hW : Sub 8204 W) (ha1 : Kept W r a1) :
    Kept W r (stopQueue a0 a1) := by
  unfold Sys2Proof.Machine.stopQueue
  extract_lets +onlyGivenNames l0
  clear_value l0
  extract_lets +onlyGivenNames l1
  have hl1 : Kept W r (l1) := by
    unfold l1
    exact setQueue_kept (hW.sub (by decide)) ha1
  clear_value l1
  extract_lets +onlyGivenNames l2
  have hl2 : Kept W r (l2) := by
    unfold l2
    exact event_kept (hW.sub (by decide)) hl1
  clear_value l2
  extract_lets +onlyGivenNames l3
  clear_value l3
  refine settleAll_kept (hW.sub (by decide)) ?_
  apply forEach_kept
  · intro x4 x5 h6
    exact finishCmd_kept (hW.sub (by decide)) h6
  · exact hl2

theorem commandTail_kept {W : Nat} {r : State} {a0} {a1} {a2} {a3 : State} (hW : Sub 8204 W) (ha3 : Kept W r a3) :
    Kept W r (commandTail a0 a1 a2 a3) := by
  unfold Sys2Proof.Machine.commandTail
  extract_lets +onlyGivenNames l0
  clear_value l0
  extract_lets +onlyGivenNames l1
  clear_value l1
  refine Kept.ite ?_ ?_
  · exact ha3
  · extract_lets +onlyGivenNames l2
    clear_value l2
    refine Kept.ite ?_ ?_
    · exact stopQueue_kept (hW.sub (by decide)) ha3
    · extract_lets +onlyGivenNames l3
      clear_value l3
      refine settleAll_kept (hW.sub (by decide)) ?_
      exact setQueue_kept (hW.sub (by decide)) ha3

end Sys2Proof.Laws
end

