-- ==== Sys2Proof/Laws/KeptHeathMap.lean ====
section
/-! SUPPORT. What the operations of Sys2Proof/Machine/HeathMap.lean keep: one lemma for each, which callers cite. -/

namespace Sys2Proof.Laws

open Sys2Proof Sys2Proof.Machine

theorem setShelf_kept {W : Nat} {r : State} {a0} {a1} {a2 : State} (hW : Sub 4096 W) (ha2 : Kept W r a2) :
    Kept W r (setShelf a0 a1 a2) := by
  unfold Sys2Proof.Machine.setShelf
  refine Kept.upd 4096 ?_ ?_ rfl
  · exact hW.sub (by decide)
  · exact ha2

theorem heathFree_kept {W : Nat} {r : State} {a0} {a1} {a2} {a3 : State} (hW : Sub 4096 W) (ha3 : Kept W r a3) :
    Kept W r (heathFree a0 a1 a2 a3) := by
  unfold Sys2Proof.Machine.heathFree
  extract_lets +onlyGivenNames l0
  clear_value l0
  extract_lets +onlyGivenNames l1
  clear_value l1
  extract_lets +onlyGivenNames l2
  clear_value l2
  extract_lets +onlyGivenNames l3
  clear_value l3
  extract_lets +onlyGivenNames l4
  clear_value l4
  exact setShelf_kept (hW.sub (by decide)) ha3

theorem allocAt_kept {W : Nat} {r : State} {a0} {a1} {a2} {a3} {a4 : State} (hW : Sub 4096 W) (ha4 : Kept W r a4) :
    Kept W r (allocAt a0 a1 a2 a3 a4).2 := by
  unfold Sys2Proof.Machine.allocAt
  dsimp only
  exact setShelf_kept (hW.sub (by decide)) ha4

theorem heathAlloc_kept {W : Nat} {r : State} {a0} {a1} {a2 : State} (hW : Sub 4096 W) (ha2 : Kept W r a2) :
    ∀ x, heathAlloc a0 a1 a2 = some x → Kept W r x.2 := by
  intro x e
  unfold heathAlloc at e
  split at e
  · cases e
  · obtain ⟨p, _, rfl⟩ := Option.map_eq_some_iff.1 e
    exact allocAt_kept hW ha2

end Sys2Proof.Laws
end

