-- ==== Sys2Proof/Laws/KeptPool.lean ====
section
/-! SUPPORT. What the operations of Sys2Proof/Machine/Pool.lean keep: one lemma for each, which callers cite. -/

namespace Sys2Proof.Laws

open Sys2Proof Sys2Proof.Machine

theorem draws_kept {W : Nat} {r : State} {a0} {a1 : State} (hW : Sub 2097152 W) (ha1 : Kept W r a1) :
    Kept W r (draws a0 a1) := by
  refine ha1.trans ⟨rfl, rfl, List.prefix_refl _, Nat.le_add_right _ _, id, id, fun _ => rfl, fun _ => rfl, fun _ => rfl, fun _ => rfl, fun _ => rfl, fun _ => rfl, fun _ => rfl, fun _ => rfl, fun _ => rfl, fun _ => rfl, fun _ => rfl, fun _ => rfl, fun _ => rfl, fun _ => rfl, fun _ => rfl, fun _ => rfl, fun _ => rfl, fun _ => rfl, fun _ => rfl, fun _ => rfl, fun _ => rfl, ?_⟩
  intro e
  rw [hW.bit (i := 21) (by decide)] at e
  cases e

theorem fitList_kept {W : Nat} {r : State} {a0} {a1 : State} (hW : Sub 2097280 W) (ha1 : Kept W r a1) :
    Kept W r (fitList a0 a1) := by
  unfold Sys2Proof.Machine.fitList
  split
  · rename_i v0 v1
    exact ha1
  · rename_i v2 v3 v4
    extract_lets +onlyGivenNames l5
    clear_value l5
    extract_lets +onlyGivenNames l6
    clear_value l6
    extract_lets +onlyGivenNames l7
    clear_value l7
    extract_lets +onlyGivenNames l8
    clear_value l8
    extract_lets +onlyGivenNames l9
    clear_value l9
    refine setSeq_kept (hW.sub (by decide)) ?_
    exact draws_kept (hW.sub (by decide)) ha1

theorem setDur_kept {W : Nat} {r : State} {a0} {a1} {a2 : State} (hW : Sub 128 W) (ha2 : Kept W r a2) :
    Kept W r (setDur a0 a1 a2) := by
  unfold Sys2Proof.Machine.setDur
  split
  · rename_i v0 v1 v2
    exact setCol_kept (hW.sub (by decide)) ha2
  · rename_i v3 v4
    exact ha2

theorem freeLoc_kept {W : Nat} {r : State} {a0} {a1} {a2 : State} (hW : Sub 4096 W) (ha2 : Kept W r a2) :
    Kept W r (freeLoc a0 a1 a2) := by
  unfold Sys2Proof.Machine.freeLoc
  refine Kept.ite ?_ ?_
  · exact heathFree_kept (hW.sub (by decide)) ha2
  · exact ha2

theorem freeOpt_kept {W : Nat} {r : State} {a0} {a1} {a2 : State} (hW : Sub 4096 W) (ha2 : Kept W r a2) :
    Kept W r (freeOpt a0 a1 a2) := by
  unfold Sys2Proof.Machine.freeOpt
  split
  · rename_i v0 v1
    exact freeLoc_kept (hW.sub (by decide)) ha2
  · rename_i v2
    exact ha2

theorem dropColImage_kept {W : Nat} {r : State} {a0} {a1 : State} (hW : Sub 4224 W) (ha1 : Kept W r a1) :
    Kept W r (dropColImage a0 a1) := by
  unfold Sys2Proof.Machine.dropColImage
  split
  · rename_i v0 v1
    exact ha1
  · rename_i v2 v3 v4
    refine setCol_kept (hW.sub (by decide)) ?_
    exact freeOpt_kept (hW.sub (by decide)) ha1

theorem writeDurs_kept {W : Nat} {r : State} {a0} {a1} {a2} {a3 : State} (hW : Sub 1 W) (ha3 : Kept W r a3) :
    Kept W r (writeDurs a0 a1 a2 a3) := by
  unfold Sys2Proof.Machine.writeDurs
  refine Kept.ite ?_ ?_
  · exact ha3
  · apply forEach_kept
    · intro x0 x1 h2
      exact memWrite_kept (hW.sub (by decide)) h2
    · exact ha3

theorem finishCommit_kept {W : Nat} {r : State} {a0} {a1} {a2} {a3 : State} (hW : Sub 8205 W) (ha3 : Kept W r a3) :
    Kept W r (finishCommit a0 a1 a2 a3) := by
  unfold Sys2Proof.Machine.finishCommit
  extract_lets +onlyGivenNames l0
  clear_value l0
  refine complete_kept (hW.sub (by decide)) ?_
  exact writeDurs_kept (hW.sub (by decide)) ha3

theorem settleDurable_kept {W : Nat} {r : State} {a0 : State} (hW : Sub 8205 W) (ha0 : Kept W r a0) :
    Kept W r (settleDurable a0) := by
  unfold Sys2Proof.Machine.settleDurable
  apply forEach_kept
  · intro x0 x1 h2
    split
    · rename_i v3 v4 v5 v6
      refine Kept.ite ?_ ?_
      · exact finishCommit_kept (hW.sub (by decide)) h2
      · exact h2
    · rename_i v7 v8
      exact h2
  · exact ha0

theorem durEvent_kept {W : Nat} {r : State} {a0} {a1} {a2} {a3 : State} (hW : Sub 12 W) (ha3 : Kept W r a3) :
    Kept W r (durEvent a0 a1 a2 a3) := by
  unfold Sys2Proof.Machine.durEvent
  split
  · rename_i v0 v1 v2
    exact event_kept (hW.sub (by decide)) ha3
  · rename_i v3 v4
    exact ha3

theorem leaveRing_kept {W : Nat} {r : State} {a0} {a1 : State} (hW : Sub 4608 W) (ha1 : Kept W r a1) :
    Kept W r (leaveRing a0 a1) := by
  unfold Sys2Proof.Machine.leaveRing
  extract_lets +onlyGivenNames l0
  have hl0 : Kept W r (l0) := by
    unfold l0
    apply forEach_kept
    · intro x1 x2 h3
      split
      · rename_i v4 v5 v6 v7 v8
        refine Kept.ite ?_ ?_
        · exact freeLoc_kept (hW.sub (by decide)) h3
        · exact h3
      · rename_i v9 v10
        exact h3
    · exact ha1
  clear_value l0
  refine Kept.upd 512 ?_ ?_ rfl
  · exact hW.sub (by decide)
  · exact hl0

theorem failDur_kept {W : Nat} {r : State} {a0} {a1} {a2 : State} (hW : Sub 537229 W) (ha2 : Kept W r a2) :
    Kept W r (failDur a0 a1 a2) := by
  unfold Sys2Proof.Machine.failDur
  refine settleDurable_kept (hW.sub (by decide)) ?_
  apply forEach_kept
  · intro x0 x1 h2
    refine bump64_kept (hW.sub (by decide)) ?_
    refine durEvent_kept (hW.sub (by decide)) ?_
    refine setDur_kept (hW.sub (by decide)) ?_
    exact leaveRing_kept (hW.sub (by decide)) h2
  · exact ha2

theorem setMoving_kept {W : Nat} {r : State} {a0} {a1} {a2 : State} (hW : Sub 384 W) (ha2 : Kept W r a2) :
    Kept W r (setMoving a0 a1 a2) := by
  unfold Sys2Proof.Machine.setMoving
  split
  · rename_i v0 v1
    split
    · rename_i v2 v3 v4
      exact setCol_kept (hW.sub (by decide)) ha2
    · rename_i v5 v6
      exact ha2
  · rename_i v7 v8 v9
    split
    · rename_i v10 v11 v12
      exact setObj_kept (hW.sub (by decide)) ha2
    · rename_i v13 v14
      exact ha2
  · rename_i v15 v16
    split
    · rename_i v17 v18 v19
      exact setObj_kept (hW.sub (by decide)) ha2
    · rename_i v20 v21
      exact ha2

theorem readOver_kept {W : Nat} {r : State} {a0} {a1} {a2 : State} (hW : Sub 128 W) (ha2 : Kept W r a2) :
    Kept W r (readOver a0 a1 a2) := by
  unfold Sys2Proof.Machine.readOver
  extract_lets +onlyGivenNames l0
  clear_value l0
  extract_lets +onlyGivenNames l1
  clear_value l1
  extract_lets +onlyGivenNames l2
  have hl2 : Kept W r (l2) := by
    unfold l2
    refine Kept.upd 128 ?_ ?_ rfl
    · exact hW.sub (by decide)
    · exact ha2
  clear_value l2
  refine Kept.ite ?_ ?_
  · exact ha2
  · split
    · rename_i v3 v4
      exact hl2
    · rename_i v5 v6 v7
      refine Kept.ite ?_ ?_
      · exact setSeq_kept (hW.sub (by decide)) hl2
      · exact hl2

theorem moveGone_kept {W : Nat} {r : State} {a0} {a1} {a2 : State} (hW : Sub 532620 W) (ha2 : Kept W r a2) :
    Kept W r (moveGone a0 a1 a2) := by
  unfold Sys2Proof.Machine.moveGone
  extract_lets +onlyGivenNames l0
  have hl0 : ∀ (z0), Kept W r (l0 z0) := by
    intros
    rename_i v1
    unfold l0
    split
    · rename_i v2 v3
      exact ha2
    · rename_i v4 v5 v6
      split
      · rename_i v7 v8 v9 v10 v11 v12
        extract_lets +onlyGivenNames l13
        clear_value l13
        refine Kept.ite ?_ ?_
        · refine complete_kept (hW.sub (by decide)) ?_
          exact readOver_kept (hW.sub (by decide)) ha2
        · exact setWork_kept (hW.sub (by decide)) ha2
      · rename_i v14 v15
        exact ha2
  clear_value l0
  split
  · rename_i v16 v17 v18
    apply hl0
  · rename_i v19 v20 v21
    apply hl0
  · rename_i v22 v23
    exact bump64_kept (hW.sub (by decide)) ha2
  · rename_i v24 v25 v26 v27
    exact ha2

theorem abandonMoves_kept {W : Nat} {r : State} {a0} {a1} {a2 : State} (hW : Sub 536972 W) (ha2 : Kept W r a2) :
    Kept W r (abandonMoves a0 a1 a2) := by
  unfold Sys2Proof.Machine.abandonMoves
  extract_lets +onlyGivenNames l0
  clear_value l0
  extract_lets +onlyGivenNames l1
  have hl1 : Kept W r (l1) := by
    unfold l1
    apply forEach_kept
    · intro x2 x3 h4
      refine setMoving_kept (hW.sub (by decide)) ?_
      exact freeLoc_kept (hW.sub (by decide)) h4
    · exact ha2
  clear_value l1
  extract_lets +onlyGivenNames l5
  clear_value l5
  extract_lets +onlyGivenNames l6
  have hl6 : Kept W r (l6) := by
    unfold l6
    refine Kept.upd 256 ?_ ?_ rfl
    · exact hW.sub (by decide)
    · exact hl1
  clear_value l6
  apply forEach_kept
  · intro x7 x8 h9
    exact moveGone_kept (hW.sub (by decide)) h9
  · exact hl6

theorem freeCol_kept {W : Nat} {r : State} {a0} {a1 : State} (hW : Sub 537484 W) (ha1 : Kept W r a1) :
    Kept W r (freeCol a0 a1) := by
  unfold Sys2Proof.Machine.freeCol
  extract_lets +onlyGivenNames l0
  clear_value l0
  extract_lets +onlyGivenNames l1
  have hl1 : Kept W r (l1) := by
    unfold l1
    refine leaveRing_kept (hW.sub (by decide)) ?_
    refine freeOpt_kept (hW.sub (by decide)) ?_
    refine freeLoc_kept (hW.sub (by decide)) ?_
    exact abandonMoves_kept (hW.sub (by decide)) ha1
  clear_value l1
  refine Kept.upd 128 ?_ ?_ rfl
  · exact hW.sub (by decide)
  · exact hl1

theorem dropRef_kept {W : Nat} {r : State} {a0} {a1 : State} (hW : Sub 537484 W) (ha1 : Kept W r a1) :
    Kept W r (dropRef a0 a1) := by
  unfold Sys2Proof.Machine.dropRef
  split
  · rename_i v0 v1
    exact ha1
  · rename_i v2 v3 v4
    refine Kept.ite ?_ ?_
    · exact freeCol_kept (hW.sub (by decide)) ha1
    · exact setCol_kept (hW.sub (by decide)) ha1

theorem withdrawOne_kept {W : Nat} {r : State} {a0} {a1} {a2 : State} (hW : Sub 537484 W) (ha2 : Kept W r a2) :
    Kept W r (withdrawOne a0 a1 a2) := by
  unfold Sys2Proof.Machine.withdrawOne
  extract_lets +onlyGivenNames l0
  clear_value l0
  extract_lets +onlyGivenNames l1
  have hl1 : Kept W r (l1) := by
    unfold l1
    refine Kept.upd 512 ?_ ?_ rfl
    · exact hW.sub (by decide)
    · exact ha2
  clear_value l1
  extract_lets +onlyGivenNames l2
  clear_value l2
  extract_lets +onlyGivenNames l3
  have hl3 : Kept W r (l3) := by
    unfold l3
    refine Kept.ite ?_ ?_
    · refine Kept.upd 512 ?_ ?_ rfl
      · exact hW.sub (by decide)
      · exact hl1
    · exact hl1
  clear_value l3
  extract_lets +onlyGivenNames l4
  have hl4 : Kept W r (l4) := by
    unfold l4
    exact leaveRing_kept (hW.sub (by decide)) hl3
  clear_value l4
  split
  · rename_i v5 v6 v7
    refine dropRef_kept (hW.sub (by decide)) ?_
    exact setCol_kept (hW.sub (by decide)) hl4
  · rename_i v8 v9
    exact hl4

theorem withdrawAll_kept {W : Nat} {r : State} {a0} {a1} {a2 : State} (hW : Sub 537484 W) (ha2 : Kept W r a2) :
    Kept W r (withdrawAll a0 a1 a2) := by
  unfold Sys2Proof.Machine.withdrawAll
  apply forEach_kept
  · intro x0 x1 h2
    split
    · rename_i v3 v4 v5
      exact withdrawOne_kept (hW.sub (by decide)) h2
    · rename_i v6 v7
      exact h2
  · exact ha2

theorem withdrawTree_kept {W : Nat} {r : State} {a0} {a1} {a2 : State} (hW : Sub 537484 W) (ha2 : Kept W r a2) :
    Kept W r (withdrawTree a0 a1 a2) := by
  unfold Sys2Proof.Machine.withdrawTree
  exact withdrawAll_kept (hW.sub (by decide)) ha2

theorem addRef_kept {W : Nat} {r : State} {a0} {a1 : State} (hW : Sub 128 W) (ha1 : Kept W r a1) :
    Kept W r (addRef a0 a1) := by
  unfold Sys2Proof.Machine.addRef
  split
  · rename_i v0 v1
    exact ha1
  · rename_i v2 v3 v4
    exact setCol_kept (hW.sub (by decide)) ha1

theorem poisonCol_kept {W : Nat} {r : State} {a0} {a1 : State} (hW : Sub 537485 W) (ha1 : Kept W r a1) :
    Kept W r (poisonCol a0 a1) := by
  unfold Sys2Proof.Machine.poisonCol
  split
  · rename_i v0 v1
    exact ha1
  · rename_i v2 v3 v4
    refine Kept.ite ?_ ?_
    · exact ha1
    · extract_lets +onlyGivenNames l5
      have hl5 : Kept W r (l5) := by
        unfold l5
        exact dropColImage_kept (hW.sub (by decide)) ha1
      clear_value l5
      extract_lets +onlyGivenNames l6
      clear_value l6
      extract_lets +onlyGivenNames l7
      have hl7 : Kept W r (l7) := by
        unfold l7
        refine bump64_kept (hW.sub (by decide)) ?_
        apply onlyIf_kept
        · intro x8 h9
          exact failDur_kept (hW.sub (by decide)) h9
        · exact setCol_kept (hW.sub (by decide)) hl5
      clear_value l7
      extract_lets +onlyGivenNames l10
      have hl10 : Kept W r (l10) := by
        unfold l10
        split
        · rename_i v11 v12
          exact hl7
        · rename_i v13 v14 v15
          extract_lets +onlyGivenNames l16
          have hl16 : Kept W r (l16) := by
            unfold l16
            refine withdrawTree_kept (hW.sub (by decide)) ?_
            exact addRef_kept (hW.sub (by decide)) hl7
          clear_value l16
          extract_lets +onlyGivenNames l17
          clear_value l17
          refine dropRef_kept (hW.sub (by decide)) ?_
          exact event_kept (hW.sub (by decide)) hl16
      clear_value l10
      extract_lets +onlyGivenNames l18
      have hl18 : Kept W r (l18) := by
        unfold l18
        apply forEach_kept
        · intro x19 x20 h21
          split
          · rename_i v22 v23 v24
            refine event_kept (hW.sub (by decide)) ?_
            exact setSeq_kept (hW.sub (by decide)) h21
          · rename_i v25 v26
            exact h21
        · exact hl10
      clear_value l18
      exact abandonMoves_kept (hW.sub (by decide)) hl18

theorem allocate_kept {W : Nat} {r : State} {a0} {a1} {a2} {a3} {a4} {a5} {a6 : State} (hW : Sub 2101248 W)
    (ha6 : Kept W r a6) : KeptV W r (allocate a0 a1 a2 a3 a4 a5 a6) := by
  unfold allocate
  cases a0 with
  | meadow =>
    dsimp only
    split
    · exact KeptV.ok (drawn_kept (hW.sub (by decide)) ha6)
    · exact KeptV.error
  | heath =>
    dsimp only
    refine KeptV.ite KeptV.error ?_
    split
    · rename_i x e
      exact KeptV.ok (heathAlloc_kept (hW.sub (by decide)) ha6 x e)
    · exact KeptV.error
  | pasture =>
    dsimp only
    refine KeptV.ite KeptV.error ?_
    split
    · exact KeptV.ok (drawn_kept (hW.sub (by decide)) ha6)
    · exact KeptV.error

theorem newCol_kept {W : Nat} {r : State} {a0} {a1} {a2} {a3} {a4} {a5} {a6 : State} (hW : Sub 128 W) (ha6 : Kept W r a6) :
    Kept W r (newCol a0 a1 a2 a3 a4 a5 a6).2 := by
  unfold Sys2Proof.Machine.newCol
  extract_lets +onlyGivenNames l0
  clear_value l0
  extract_lets +onlyGivenNames l1
  clear_value l1
  dsimp only
  refine Kept.upd 128 ?_ ?_ rfl
  · exact hW.sub (by decide)
  · exact ha6

theorem copyColBy_kept {W : Nat} {r : State} {a0} {a1} {a2} {a3} {a4 : State} (hW : Sub 2634636 W) (ha4 : Kept W r a4) :
    KeptV W r (copyColBy a0 a1 a2 a3 a4) := by
  unfold Sys2Proof.Machine.copyColBy
  split
  · rename_i v0 v1
    exact KeptV.error
  · rename_i v2 v3 v4
    refine KeptV.ite ?_ ?_
    · exact KeptV.error
    · extract_lets +onlyGivenNames l5
      clear_value l5
      extract_lets +onlyGivenNames l6
      clear_value l6
      extract_lets +onlyGivenNames l7
      have hl7 : KeptV W r (l7) := by
        unfold l7
        refine KeptV.ite ?_ ?_
        · refine KeptV.ok ?_
          exact drawn_kept (hW.sub (by decide)) ha4
        · exact allocate_kept (hW.sub (by decide)) ha4
      clear_value l7
      split
      · rename_i v8 v9
        exact KeptV.error
      · rename_i v10 v11 v12
        extract_lets +onlyGivenNames l13
        clear_value l13
        extract_lets +onlyGivenNames l14
        have hl14 : Kept W r (l14).2 := by
          unfold l14
          refine newCol_kept (hW.sub (by decide)) ?_
          exact hl7 _ rfl
        clear_value l14
        extract_lets +onlyGivenNames l15
        clear_value l15
        extract_lets +onlyGivenNames l16
        have hl16 : Kept W r (l16) := by
          unfold l16
          refine setCol_kept (hW.sub (by decide)) ?_
          exact setSeq_kept (hW.sub (by decide)) hl14
        clear_value l16
        refine KeptV.ok ?_
        refine bump64_kept (hW.sub (by decide)) ?_
        exact dropRef_kept (hW.sub (by decide)) hl16

theorem copyCol_kept {W : Nat} {r : State} {a0} {a1} {a2} {a3 : State} (hW : Sub 2634636 W) (ha3 : Kept W r a3) :
    KeptV W r (copyCol a0 a1 a2 a3) := by
  unfold Sys2Proof.Machine.copyCol
  exact copyColBy_kept (hW.sub (by decide)) ha3

theorem dropExtImage_kept {W : Nat} {r : State} {a0} {a1} {a2 : State} (hW : Sub 4352 W) (ha2 : Kept W r a2) :
    Kept W r (dropExtImage a0 a1 a2) := by
  unfold Sys2Proof.Machine.dropExtImage
  split
  · rename_i v0 v1
    exact ha2
  · rename_i v2 v3 v4
    split
    · rename_i v5 v6
      exact ha2
    · rename_i v7 v8 v9
      refine setObj_kept (hW.sub (by decide)) ?_
      exact freeOpt_kept (hW.sub (by decide)) ha2

theorem poisonObj_kept {W : Nat} {r : State} {a0} {a1 : State} (hW : Sub 536972 W) (ha1 : Kept W r a1) :
    Kept W r (poisonObj a0 a1) := by
  unfold Sys2Proof.Machine.poisonObj
  split
  · rename_i v0 v1
    exact ha1
  · rename_i v2 v3 v4
    refine Kept.ite ?_ ?_
    · exact ha1
    · extract_lets +onlyGivenNames l5
      have hl5 : Kept W r (l5) := by
        unfold l5
        apply forEach_kept
        · intro x6 x7 h8
          exact dropExtImage_kept (hW.sub (by decide)) h8
        · exact abandonMoves_kept (hW.sub (by decide)) ha1
      clear_value l5
      extract_lets +onlyGivenNames l9
      clear_value l9
      refine bump64_kept (hW.sub (by decide)) ?_
      refine event_kept (hW.sub (by decide)) ?_
      exact setObj_kept (hW.sub (by decide)) hl5

theorem abandonSweepOf_kept {W : Nat} {r : State} {a0} {a1 : State} (hW : Sub 536972 W) (ha1 : Kept W r a1) :
    Kept W r (abandonSweepOf a0 a1) := by
  unfold Sys2Proof.Machine.abandonSweepOf
  exact abandonMoves_kept (hW.sub (by decide)) ha1

end Sys2Proof.Laws
end

