-- ==== Sys2Proof/Laws/KeptHeathIo.lean ====
section
/-! SUPPORT. What the operations of Sys2Proof/Machine/HeathIo.lean keep: one lemma for each, which callers cite. -/

namespace Sys2Proof.Laws

open Sys2Proof Sys2Proof.Machine

theorem pumpShelf_kept {W : Nat} {r : State} {a0} {a1} {a2 : State} (hW : Sub 20480 W) (ha2 : Kept W r a2) :
    Kept W r (pumpShelf a0 a1 a2) := by
  induction a1 generalizing a0 a2 with
  | zero  =>
    unfold Sys2Proof.Machine.pumpShelf
    exact ha2
  | succ k0 ih =>
    unfold Sys2Proof.Machine.pumpShelf
    extract_lets +onlyGivenNames l0
    clear_value l0
    refine Kept.ite ?_ ?_
    · exact ha2
    · split
      · rename_i v1 v2
        exact ha2
      · rename_i v3 v4 v5
        extract_lets +onlyGivenNames l6
        clear_value l6
        extract_lets +onlyGivenNames l7
        have hl7 : Kept W r (l7) := by
          unfold l7
          exact setShelf_kept (hW.sub (by decide)) ha2
        clear_value l7
        apply ih
        refine Kept.ite ?_ ?_
        · exact hl7
        · exact enqueue_kept (hW.sub (by decide)) hl7

theorem pump_kept {W : Nat} {r : State} {a0} {a1 : State} (hW : Sub 20480 W) (ha1 : Kept W r a1) :
    Kept W r (pump a0 a1) := by
  unfold Sys2Proof.Machine.pump
  exact pumpShelf_kept (hW.sub (by decide)) ha1

theorem heathRead_kept {W : Nat} {r : State} {a0} {a1} {a2 : State} (hW : Sub 20480 W) (ha2 : Kept W r a2) :
    Kept W r (heathRead a0 a1 a2) := by
  unfold Sys2Proof.Machine.heathRead
  refine Kept.ite ?_ ?_
  · extract_lets +onlyGivenNames l0
    clear_value l0
    refine pump_kept (hW.sub (by decide)) ?_
    exact setShelf_kept (hW.sub (by decide)) ha2
  · exact ha2

theorem heathWrite_kept {W : Nat} {r : State} {a0} {a1} {a2 : State} (hW : Sub 20480 W) (ha2 : Kept W r a2) :
    Kept W r (heathWrite a0 a1 a2) := by
  unfold Sys2Proof.Machine.heathWrite
  refine Kept.ite ?_ ?_
  · refine pump_kept (hW.sub (by decide)) ?_
    exact setShelf_kept (hW.sub (by decide)) ha2
  · exact ha2

end Sys2Proof.Laws
end

