-- ==== Sys2Proof/Laws/KeptKv.lean ====
section
/-! SUPPORT. What the operations of Sys2Proof/Machine/Kv.lean keep: one lemma for each, which callers cite. -/

namespace Sys2Proof.Laws

open Sys2Proof Sys2Proof.Machine

theorem finish_kept {W : Nat} {r : State} {a0} {a1} {a2 : State} (hW : Sub 8204 W) (ha1 : KeptV W r (a1)) (ha2 : Kept W r a2) :
    Kept W r (finish a0 a1 a2) := by
  unfold Sys2Proof.Machine.finish
  split
  · rename_i v0 v1 v2
    refine complete_kept (hW.sub (by decide)) ?_
    exact ha1 _ rfl
  · rename_i v3 v4
    exact complete_kept (hW.sub (by decide)) ha2

theorem asideBack_kept {W : Nat} {r : State} {a0} {a1 : State} (hW : Sub 32 W) (ha1 : Kept W r a1) :
    Kept W r (asideBack a0 a1) := by
  unfold Sys2Proof.Machine.asideBack
  refine Kept.upd 32 ?_ ?_ rfl
  · exact hW.sub (by decide)
  · exact ha1

theorem dropSlicesIf_kept {W : Nat} {r : State} {a0} {a1 : State} (hW : Sub 64 W) (ha1 : Kept W r a1) :
    Kept W r (dropSlicesIf a0 a1) := by
  unfold Sys2Proof.Machine.dropSlicesIf
  extract_lets +onlyGivenNames l0
  clear_value l0
  refine Kept.upd 64 ?_ ?_ rfl
  · exact hW.sub (by decide)
  · exact ha1

theorem dropSlices_kept {W : Nat} {r : State} {a0} {a1 : State} (hW : Sub 64 W) (ha1 : Kept W r a1) :
    Kept W r (dropSlices a0 a1) := by
  unfold Sys2Proof.Machine.dropSlices
  exact dropSlicesIf_kept (hW.sub (by decide)) ha1

theorem closeSeq_kept {W : Nat} {r : State} {a0} {a1 : State} (hW : Sub 537580 W) (ha1 : Kept W r a1) :
    Kept W r (closeSeq a0 a1) := by
  unfold Sys2Proof.Machine.closeSeq
  extract_lets +onlyGivenNames l0
  clear_value l0
  extract_lets +onlyGivenNames l1
  have hl1 : Kept W r (l1) := by
    unfold l1
    refine asideBack_kept (hW.sub (by decide)) ?_
    refine Kept.upd 128 ?_ ?_ rfl
    · exact hW.sub (by decide)
    · exact ha1
  clear_value l1
  apply forEach_kept
  · intro x2 x3 h4
    refine dropRef_kept (hW.sub (by decide)) ?_
    exact dropSlices_kept (hW.sub (by decide)) h4
  · exact dropSlicesIf_kept (hW.sub (by decide)) hl1

theorem seqClose_kept {W : Nat} {r : State} {a0} {a1} {a2 : State} (hW : Sub 537580 W) (ha2 : Kept W r a2) :
    KeptV W r (seqClose a0 a1 a2) := by
  unfold Sys2Proof.Machine.seqClose
  refine KeptV.bind ?_
  intro b0 e1
  extract_lets +onlyGivenNames l2
  have hl2 : Kept W r (l2) := by
    unfold l2
    exact closeSeq_kept (hW.sub (by decide)) ha2
  clear_value l2
  refine KeptV.ok ?_
  exact hl2

theorem runSeqClose_kept {W : Nat} {r : State} {a0} {a1 : State} (hW : Sub 537580 W) (ha1 : Kept W r a1) :
    Kept W r (runSeqClose a0 a1) := by
  unfold Sys2Proof.Machine.runSeqClose
  apply finish_kept
  · exact hW.sub (by decide)
  · exact seqClose_kept (hW.sub (by decide)) ha1
  · exact ha1

theorem dropWrittenIf_kept {W : Nat} {r : State} {a0} {a1 : State} (hW : Sub 64 W) (ha1 : Kept W r a1) :
    Kept W r (dropWrittenIf a0 a1) := by
  unfold Sys2Proof.Machine.dropWrittenIf
  refine Kept.upd 64 ?_ ?_ rfl
  · exact hW.sub (by decide)
  · exact ha1

theorem dropCoilSlices_kept {W : Nat} {r : State} {a0} {a1} {a2 : State} (hW : Sub 64 W) (ha2 : Kept W r a2) :
    Kept W r (dropCoilSlices a0 a1 a2) := by
  unfold Sys2Proof.Machine.dropCoilSlices
  exact dropWrittenIf_kept (hW.sub (by decide)) ha2

theorem writeToken_kept {W : Nat} {r : State} {a0} {a1} {a2} {a3} {a4 : State} (hW : Sub 192 W) (ha4 : Kept W r a4) :
    Kept W r (writeToken a0 a1 a2 a3 a4) := by
  unfold Sys2Proof.Machine.writeToken
  split
  · rename_i v0 v1
    exact ha4
  · rename_i v2 v3 v4
    split
    · rename_i v5 v6
      exact ha4
    · rename_i v7 v8 v9
      refine Kept.ite ?_ ?_
      · refine dropCoilSlices_kept (hW.sub (by decide)) ?_
        exact setSeq_kept (hW.sub (by decide)) ha4
      · split
        · rename_i v10 v11
          exact ha4
        · rename_i v12 v13 v14
          exact setCol_kept (hW.sub (by decide)) ha4

/-- What a fold over a list keeps of the state in its third place. -/

theorem fold3_kept {α β γ : Type} {W : Nat} {r : State} {f : β × γ × State → α → β × γ × State}
    (hf : ∀ x a, Kept W r x.2.2 → Kept W r (f x a).2.2) {l : List α} {x : β × γ × State} (h : Kept W r x.2.2) :
    Kept W r (l.foldl f x).2.2 := by
  induction l generalizing x with
  | nil => exact h
  | cons y ys ih => exact ih (hf x y h)

theorem appendLayer_kept {W : Nat} {r : State} {a0} {a1} {a2} {a3} (hW : Sub 192 W) (ha3 : Kept W r (a3).2.2) :
    Kept W r (appendLayer a0 a1 a2 a3).2.2 := by
  unfold appendLayer
  dsimp only
  split
  · exact ha3
  · exact fold3_kept (fun x a h => writeToken_kept hW h) ha3

theorem dropWritten_kept {W : Nat} {r : State} {a0} {a1 : State} (hW : Sub 64 W) (ha1 : Kept W r a1) :
    Kept W r (dropWritten a0 a1) := by
  unfold Sys2Proof.Machine.dropWritten
  exact dropWrittenIf_kept (hW.sub (by decide)) ha1

theorem setLength_kept {W : Nat} {r : State} {a0} {a1} {a2} {a3 : State} (hW : Sub 128 W) (ha3 : Kept W r a3) :
    Kept W r (setLength a0 a1 a2 a3) := by
  unfold Sys2Proof.Machine.setLength
  split
  · rename_i v0 v1
    exact ha3
  · rename_i v2 v3 v4
    apply forEach_kept
    · intro x5 x6 h7
      split
      · rename_i v8 v9 v10
        refine Kept.ite ?_ ?_
        · exact setCol_kept (hW.sub (by decide)) h7
        · exact h7
      · rename_i v11 v12
        exact h7
    · exact setSeq_kept (hW.sub (by decide)) ha3

theorem appendWrite_kept {W : Nat} {r : State} {a0} {a1} {a2} {a3 : State} (hW : Sub 524480 W) (ha3 : Kept W r a3) :
    Kept W r (appendWrite a0 a1 a2 a3).2 := by
  unfold appendWrite
  extract_lets +onlyGivenNames x done s1 len s2 s3 s4
  have hx : Kept W r x.2.2 := fold3_kept (fun _ _ h => appendLayer_kept (hW.sub (by decide)) h) ha3
  have h1 : Kept W r s1 := odAdd_kept (hW.sub (by decide)) (odAdd_kept (hW.sub (by decide)) hx)
  have h2 : Kept W r s2 := by
    unfold s2
    split
    · exact h1
    · exact setSeq_kept (hW.sub (by decide)) h1
  have h3 : Kept W r s3 := forEach_kept (fun _ _ h => dropWritten_kept (hW.sub (by decide)) h) h2
  exact Kept.ite (setLength_kept (hW.sub (by decide)) h3) h3

theorem addSeq_kept {W : Nat} {r : State} {a0} {a1 : State} (hW : Sub 128 W) (ha1 : Kept W r a1) :
    Kept W r (addSeq a0 a1) := by
  unfold Sys2Proof.Machine.addSeq
  refine Kept.upd 128 ?_ ?_ rfl
  · exact hW.sub (by decide)
  · exact ha1

theorem seqOpen_kept {W : Nat} {r : State} {a0} {a1} {a2 : State} (hW : Sub 2097280 W) (ha2 : Kept W r a2) :
    KeptV W r (seqOpen a0 a1 a2) := by
  unfold Sys2Proof.Machine.seqOpen
  extract_lets +onlyGivenNames l0
  clear_value l0
  extract_lets +onlyGivenNames l1
  clear_value l1
  refine KeptV.bind ?_
  intro b2 e3
  refine KeptV.bind ?_
  intro b4 e5
  refine KeptV.bind ?_
  intro b6 e7
  extract_lets +onlyGivenNames l8
  clear_value l8
  refine KeptV.ok ?_
  refine addSeq_kept (hW.sub (by decide)) ?_
  exact draws_kept (hW.sub (by decide)) ha2

theorem runSeqOpen_kept {W : Nat} {r : State} {a0} {a1 : State} (hW : Sub 2105484 W) (ha1 : Kept W r a1) :
    Kept W r (runSeqOpen a0 a1) := by
  unfold Sys2Proof.Machine.runSeqOpen
  apply finish_kept
  · exact hW.sub (by decide)
  · exact seqOpen_kept (hW.sub (by decide)) ha1
  · exact ha1

theorem editEntry_kept {W : Nat} {r : State} {a0} {a1} {a2} {a3} {a4 : State} (hW : Sub 32 W) (ha4 : Kept W r a4) :
    Kept W r (editEntry a0 a1 a2 a3 a4) := by
  unfold Sys2Proof.Machine.editEntry
  refine Kept.upd 32 ?_ ?_ rfl
  · exact hW.sub (by decide)
  · exact ha4

theorem moreAside_kept {W : Nat} {r : State} {a0} {a1} {a2} {a3 : State} (hW : Sub 2097184 W) (ha3 : Kept W r a3) :
    Kept W r (moreAside a0 a1 a2 a3) := by
  unfold Sys2Proof.Machine.moreAside
  extract_lets +onlyGivenNames l0
  clear_value l0
  refine editEntry_kept (hW.sub (by decide)) ?_
  exact drawn_kept (hW.sub (by decide)) ha3

theorem seqFork_kept {W : Nat} {r : State} {a0} {a1} {a2 : State} (hW : Sub 2634732 W) (ha2 : Kept W r a2) :
    KeptV W r (seqFork a0 a1 a2) := by
  unfold Sys2Proof.Machine.seqFork
  refine KeptV.bind ?_
  intro b0 e1
  extract_lets +onlyGivenNames l2
  clear_value l2
  refine KeptV.bind ?_
  intro b3 e4
  refine KeptV.bind ?_
  intro b5 e6
  refine KeptV.bind ?_
  intro b7 e8
  extract_lets +onlyGivenNames l9
  clear_value l9
  extract_lets +onlyGivenNames l10
  clear_value l10
  extract_lets +onlyGivenNames l11
  clear_value l11
  extract_lets +onlyGivenNames l12
  clear_value l12
  extract_lets +onlyGivenNames l13
  clear_value l13
  refine KeptV.bind ?_
  intro b14 e15
  extract_lets +onlyGivenNames l16
  clear_value l16
  extract_lets +onlyGivenNames l17
  clear_value l17
  extract_lets +onlyGivenNames l18
  have hl18 : Kept W r (l18) := by
    unfold l18
    apply forEach_kept
    · intro x19 x20 h21
      exact addRef_kept (hW.sub (by decide)) h21
    · refine fitList_kept (hW.sub (by decide)) ?_
      refine addSeq_kept (hW.sub (by decide)) ?_
      exact draws_kept (hW.sub (by decide)) ha2
  clear_value l18
  extract_lets +onlyGivenNames l22
  have hl22 : Kept W r (l22) := by
    unfold l22
    apply forEach_kept
    · intro x23 x24 h25
      exact moreAside_kept (hW.sub (by decide)) h25
    · exact hl18
  clear_value l22
  refine KeptV.ite ?_ ?_
  · refine KeptV.bind ?_
    intro b26 e27
    split
    · rename_i v28 v29 v30
      exact KeptV.error
    · rename_i v31 v32 v33
      refine KeptV.ok ?_
      refine dropSlices_kept (hW.sub (by decide)) ?_
      refine readOver_kept (hW.sub (by decide)) ?_
      refine KeptV.use2 ?_ v33
      exact copyCol_kept (hW.sub (by decide)) hl22
  · refine KeptV.ok ?_
    exact hl22

theorem moveHome_kept {W : Nat} {r : State} {a0} {a1} {a2} {a3 : State} (hW : Sub 2118016 W) (ha3 : Kept W r a3) :
    KeptV W r (moveHome a0 a1 a2 a3) := by
  unfold Sys2Proof.Machine.moveHome
  split
  · rename_i v0 v1
    exact KeptV.error
  · rename_i v2 v3 v4
    split
    · rename_i v5 v6 v7
      exact KeptV.error
    · rename_i v8 v9 v10 v11
      extract_lets +onlyGivenNames l12
      clear_value l12
      extract_lets +onlyGivenNames l13
      clear_value l13
      extract_lets +onlyGivenNames l14
      have hl14 : Kept W r (l14) := by
        unfold l14
        refine Kept.upd 256 ?_ ?_ rfl
        · exact hW.sub (by decide)
        · refine KeptV.use ?_ v11
          exact allocate_kept (hW.sub (by decide)) ha3
      clear_value l14
      refine KeptV.ok ?_
      refine heathRead_kept (hW.sub (by decide)) ?_
      exact setCol_kept (hW.sub (by decide)) hl14

theorem stall_kept {W : Nat} {r : State} {a0} {a1} {a2 : State} (hW : Sub 8 W) (ha2 : Kept W r a2) :
    Kept W r (stall a0 a1 a2) := by
  unfold Sys2Proof.Machine.stall
  extract_lets +onlyGivenNames l0
  clear_value l0
  refine Kept.upd 8 ?_ ?_ rfl
  · exact hW.sub (by decide)
  · exact ha2

theorem finishCopy_kept {W : Nat} {r : State} {a0} {a1} {a2} {a3 : State} (hW : Sub 8204 W) (ha2 : KeptV W r (a2)) (ha3 : Kept W r a3) :
    Kept W r (finishCopy a0 a1 a2 a3) := by
  unfold Sys2Proof.Machine.finishCopy
  split
  · rename_i v0
    exact stall_kept (hW.sub (by decide)) ha3
  · rename_i v1 v2
    apply finish_kept
    · exact hW.sub (by decide)
    · exact ha2
    · exact ha3

theorem runSeqFork_kept {W : Nat} {r : State} {a0} {a1 : State} (hW : Sub 2634732 W) (ha1 : Kept W r a1) :
    Kept W r (runSeqFork a0 a1) := by
  unfold Sys2Proof.Machine.runSeqFork
  apply finishCopy_kept
  · exact hW.sub (by decide)
  · exact seqFork_kept (hW.sub (by decide)) ha1
  · exact ha1

theorem editSlots_kept {W : Nat} {r : State} {a0} {a1} {a2 : State} (hW : Sub 128 W) (ha2 : Kept W r a2) :
    Kept W r (editSlots a0 a1 a2) := by
  unfold Sys2Proof.Machine.editSlots
  apply forEach_kept
  · intro x0 x1 h2
    split
    · rename_i v3 v4 v5
      exact setCol_kept (hW.sub (by decide)) h2
    · rename_i v6 v7
      exact h2
  · exact ha2

theorem cutSeq_kept {W : Nat} {r : State} {a0} {a1} {a2} {a3 : State} (hW : Sub 2634700 W) (ha3 : Kept W r a3) :
    Kept W r (cutSeq a0 a1 a2 a3) := by
  unfold Sys2Proof.Machine.cutSeq
  split
  · rename_i v0 v1
    exact ha3
  · rename_i v2 v3 v4
    extract_lets +onlyGivenNames l5
    clear_value l5
    extract_lets +onlyGivenNames l6
    clear_value l6
    extract_lets +onlyGivenNames l7
    have hl7 : Kept W r (l7) := by
      unfold l7
      apply forEach_kept
      · intro x8 x9 h10
        refine dropRef_kept (hW.sub (by decide)) ?_
        exact dropSlices_kept (hW.sub (by decide)) h10
      · exact setSeq_kept (hW.sub (by decide)) ha3
    clear_value l7
    refine fitList_kept (hW.sub (by decide)) ?_
    exact setSeq_kept (hW.sub (by decide)) hl7

theorem seqTruncate_kept {W : Nat} {r : State} {a0} {a1} {a2 : State} (hW : Sub 2634700 W) (ha2 : Kept W r a2) :
    KeptV W r (seqTruncate a0 a1 a2) := by
  unfold Sys2Proof.Machine.seqTruncate
  refine KeptV.bind ?_
  intro b0 e1
  extract_lets +onlyGivenNames l2
  clear_value l2
  refine KeptV.bind ?_
  intro b3 e4
  refine KeptV.bind ?_
  intro b5 e6
  extract_lets +onlyGivenNames l7
  clear_value l7
  extract_lets +onlyGivenNames l8
  clear_value l8
  refine KeptV.ite ?_ ?_
  · refine KeptV.ok ?_
    exact ha2
  · refine KeptV.ite ?_ ?_
    · refine KeptV.ok ?_
      exact cutSeq_kept (hW.sub (by decide)) ha2
    · split
      · rename_i v9 v10
        exact KeptV.error
      · rename_i v11 v12 v13
        refine KeptV.ite ?_ ?_
        · refine KeptV.bind ?_
          intro b14 e15
          split
          · rename_i v16 v17 v18
            exact KeptV.error
          · rename_i v19 v20 v21
            refine KeptV.ok ?_
            refine cutSeq_kept (hW.sub (by decide)) ?_
            refine dropSlices_kept (hW.sub (by decide)) ?_
            refine KeptV.use2 ?_ v21
            exact copyCol_kept (hW.sub (by decide)) ha2
        · extract_lets +onlyGivenNames l23
          clear_value l23
          refine KeptV.ok ?_
          refine cutSeq_kept (hW.sub (by decide)) ?_
          refine dropSlices_kept (hW.sub (by decide)) ?_
          exact setCol_kept (hW.sub (by decide)) ha2

theorem runSeqTruncate_kept {W : Nat} {r : State} {a0} {a1 : State} (hW : Sub 2634700 W) (ha1 : Kept W r a1) :
    Kept W r (runSeqTruncate a0 a1) := by
  unfold Sys2Proof.Machine.runSeqTruncate
  apply finishCopy_kept
  · exact hW.sub (by decide)
  · exact seqTruncate_kept (hW.sub (by decide)) ha1
  · exact ha1

theorem privateLast_kept {W : Nat} {r : State} {a0} {a1} {a2 : State} (hW : Sub 2634700 W) (ha2 : Kept W r a2) :
    KeptV W r (privateLast a0 a1 a2) := by
  unfold Sys2Proof.Machine.privateLast
  split
  · rename_i v0 v1
    exact KeptV.error
  · rename_i v2 v3 v4
    refine KeptV.ite ?_ ?_
    · refine KeptV.ok ?_
      exact ha2
    · split
      · rename_i v5 v6
        exact KeptV.error
      · rename_i v7 v8 v9
        refine KeptV.ite ?_ ?_
        · refine KeptV.ok ?_
          exact ha2
        · refine KeptV.ite ?_ ?_
          · exact KeptV.error
          · split
            · rename_i v10 v11 v12
              refine KeptV.ok ?_
              refine dropSlices_kept (hW.sub (by decide)) ?_
              refine KeptV.use2 ?_ v12
              exact copyColBy_kept (hW.sub (by decide)) ha2
            · rename_i v14 v15 v16
              exact KeptV.error

theorem addCols_kept {W : Nat} {r : State} {a0} {a1} {a2} {a3 : State} (hW : Sub 2097280 W) (ha3 : Kept W r a3) :
    KeptE W r (addCols a0 a1 a2 a3) := by
  unfold Sys2Proof.Machine.addCols
  split
  · rename_i v0 v1
    exact KeptE.error
  · rename_i v2 v3 v4
    extract_lets +onlyGivenNames l5
    clear_value l5
    extract_lets +onlyGivenNames l6
    clear_value l6
    split
    · rename_i v7 v8
      refine KeptE.ok ?_
      refine fitList_kept (hW.sub (by decide)) ?_
      apply forEach_kept
      · intro x9 x10 h11
        split
        · rename_i v12 v13
          exact h11
        · rename_i v14 v15 v16
          extract_lets +onlyGivenNames l17
          clear_value l17
          extract_lets +onlyGivenNames l18
          have hl18 : Kept W r (l18).2 := by
            unfold l18
            refine newCol_kept (hW.sub (by decide)) ?_
            exact drawn_kept (hW.sub (by decide)) h11
          clear_value l18
          exact setSeq_kept (hW.sub (by decide)) hl18
      · exact ha3
    · rename_i v19 v20
      exact KeptE.error

theorem touchReadAt_kept {W : Nat} {r : State} {a0} {a1} {a2} {a3} {a4 : State} (hW : Sub 256 W) (ha4 : Kept W r a4) :
    Kept W r (touchReadAt a0 a1 a2 a3 a4) := by
  unfold Sys2Proof.Machine.touchReadAt
  extract_lets +onlyGivenNames l0
  clear_value l0
  refine Kept.upd 256 ?_ ?_ rfl
  · exact hW.sub (by decide)
  · exact ha4

theorem touchRead_kept {W : Nat} {r : State} {a0} {a1} {a2} {a3 : State} (hW : Sub 256 W) (ha3 : Kept W r a3) :
    Kept W r (touchRead a0 a1 a2 a3) := by
  unfold Sys2Proof.Machine.touchRead
  exact touchReadAt_kept (hW.sub (by decide)) ha3

theorem appendGo_kept {W : Nat} {r : State} {a0} {a1} {a2 : State} (hW : Sub 2651084 W) (ha2 : Kept W r a2) :
    Kept W r (appendGo a0 a1 a2) := by
  unfold Sys2Proof.Machine.appendGo
  split
  · rename_i v0 v1 v2
    exact complete_kept (hW.sub (by decide)) ha2
  · rename_i v3 v4 v5
    split
    · rename_i v6 v7
      exact stall_kept (hW.sub (by decide)) ha2
    · rename_i v8 v9 v10 v11
      exact complete_kept (hW.sub (by decide)) ha2
    · rename_i v12 v13 v14 v15
      extract_lets +onlyGivenNames l16
      clear_value l16
      refine Kept.ite ?_ ?_
      · exact setWork_kept (hW.sub (by decide)) ha2
      · split
        · rename_i v17 v18 v19
          split
          · rename_i v20 v21 v22
            exact complete_kept (hW.sub (by decide)) ha2
          · rename_i v23 v24 v25 v26
            refine setWork_kept (hW.sub (by decide)) ?_
            refine KeptV.use ?_ v26
            refine moveHome_kept (hW.sub (by decide)) ?_
            refine KeptV.use ?_ v15
            exact privateLast_kept (hW.sub (by decide)) ha2
        · rename_i v29 v30
          extract_lets +onlyGivenNames l31
          clear_value l31
          split
          · rename_i v32 v33 v34
            exact complete_kept (hW.sub (by decide)) ha2
          · rename_i v35 v36 v37
            extract_lets +onlyGivenNames l38
            have hl38 : Kept W r (l38).2 := by
              unfold l38
              refine appendWrite_kept (hW.sub (by decide)) ?_
              refine KeptE.use ?_ v37
              refine addCols_kept (hW.sub (by decide)) ?_
              refine KeptV.use ?_ v15
              exact privateLast_kept (hW.sub (by decide)) ha2
            clear_value l38
            refine complete_kept (hW.sub (by decide)) ?_
            apply forEach_kept
            · intro x41 x42 h43
              exact touchRead_kept (hW.sub (by decide)) h43
            · exact hl38

theorem editCols_kept {W : Nat} {r : State} {a0} {a1} {a2 : State} (hW : Sub 128 W) (ha2 : Kept W r a2) :
    Kept W r (editCols a0 a1 a2) := by
  unfold Sys2Proof.Machine.editCols
  apply forEach_kept
  · intro x0 x1 h2
    split
    · rename_i v3 v4 v5
      exact setCol_kept (hW.sub (by decide)) h2
    · rename_i v6 v7
      exact h2
  · exact ha2

theorem colSetPin_kept {W : Nat} {r : State} {a0} {a1} {a2} {a3 : State} (hW : Sub 536972 W) (ha3 : Kept W r a3) :
    KeptV W r (colSetPin a0 a1 a2 a3) := by
  unfold Sys2Proof.Machine.colSetPin
  refine KeptV.bind ?_
  intro b0 e1
  extract_lets +onlyGivenNames l2
  have hl2 : Kept W r (l2) := by
    unfold l2
    exact editCols_kept (hW.sub (by decide)) ha3
  clear_value l2
  refine KeptV.ok ?_
  refine Kept.ite ?_ ?_
  · exact abandonSweepOf_kept (hW.sub (by decide)) hl2
  · exact hl2

theorem runColUnpin_kept {W : Nat} {r : State} {a0} {a1 : State} (hW : Sub 536972 W) (ha1 : Kept W r a1) :
    Kept W r (runColUnpin a0 a1) := by
  unfold Sys2Proof.Machine.runColUnpin
  apply finish_kept
  · exact hW.sub (by decide)
  · exact colSetPin_kept (hW.sub (by decide)) ha1
  · exact ha1

theorem runColPin_kept {W : Nat} {r : State} {a0} {a1 : State} (hW : Sub 536972 W) (ha1 : Kept W r a1) :
    Kept W r (runColPin a0 a1) := by
  unfold Sys2Proof.Machine.runColPin
  apply finish_kept
  · exact hW.sub (by decide)
  · exact colSetPin_kept (hW.sub (by decide)) ha1
  · exact ha1

theorem runKvAppend_kept {W : Nat} {r : State} {a0} {a1 : State} (hW : Sub 2651084 W) (ha1 : Kept W r a1) :
    Kept W r (runKvAppend a0 a1) := by
  unfold Sys2Proof.Machine.runKvAppend
  exact appendGo_kept (hW.sub (by decide)) ha1

theorem colDiscard_kept {W : Nat} {r : State} {a0} {a1} {a2 : State} (hW : Sub 2634700 W) (ha2 : Kept W r a2) :
    KeptV W r (colDiscard a0 a1 a2) := by
  unfold Sys2Proof.Machine.colDiscard
  refine KeptV.bind ?_
  intro b0 e1
  refine KeptV.bind ?_
  intro b2 e3
  refine KeptV.bind ?_
  intro b4 e5
  refine KeptV.bind ?_
  intro b6 e7
  extract_lets +onlyGivenNames l8
  clear_value l8
  extract_lets +onlyGivenNames l9
  clear_value l9
  extract_lets +onlyGivenNames l10
  clear_value l10
  refine KeptV.ok ?_
  apply forEach_kept
  · intro x11 x12 h13
    refine dropRef_kept (hW.sub (by decide)) ?_
    exact dropSlices_kept (hW.sub (by decide)) h13
  · refine fitList_kept (hW.sub (by decide)) ?_
    exact setSeq_kept (hW.sub (by decide)) ha2

theorem runColDiscard_kept {W : Nat} {r : State} {a0} {a1 : State} (hW : Sub 2634700 W) (ha1 : Kept W r a1) :
    Kept W r (runColDiscard a0 a1) := by
  unfold Sys2Proof.Machine.runColDiscard
  apply finish_kept
  · exact hW.sub (by decide)
  · exact colDiscard_kept (hW.sub (by decide)) ha1
  · exact ha1

theorem colSeal_kept {W : Nat} {r : State} {a0} {a1} {a2 : State} (hW : Sub 128 W) (ha2 : Kept W r a2) :
    KeptV W r (colSeal a0 a1 a2) := by
  unfold Sys2Proof.Machine.colSeal
  refine KeptV.bind ?_
  intro b0 e1
  refine KeptV.bind ?_
  intro b2 e3
  refine KeptV.ok ?_
  exact editCols_kept (hW.sub (by decide)) ha2

theorem runColSeal_kept {W : Nat} {r : State} {a0} {a1 : State} (hW : Sub 8332 W) (ha1 : Kept W r a1) :
    Kept W r (runColSeal a0 a1) := by
  unfold Sys2Proof.Machine.runColSeal
  apply finish_kept
  · exact hW.sub (by decide)
  · exact colSeal_kept (hW.sub (by decide)) ha1
  · exact ha1

end Sys2Proof.Laws
end

