-- ==== Sys2Proof/Laws/KeptMoves.lean ====
section
/-! SUPPORT. What the operations of Sys2Proof/Machine/Moves.lean keep: one lemma for each, which callers cite. -/

namespace Sys2Proof.Laws

open Sys2Proof Sys2Proof.Machine

theorem poisonFault_kept {W : Nat} {r : State} {a0} {a1} {a2} {a3} {a4 : State} (hW : Sub 1703936 W) (ha4 : Kept W r a4) :
    Kept W r (poisonFault a0 a1 a2 a3 a4) := by
  unfold Sys2Proof.Machine.poisonFault
  extract_lets +onlyGivenNames l0
  clear_value l0
  exact fault_kept (hW.sub (by decide)) ha4

theorem poisonSource_kept {W : Nat} {r : State} {a0} {a1 : State} (hW : Sub 1717133 W) (ha1 : Kept W r a1) :
    Kept W r (poisonSource a0 a1) := by
  unfold Sys2Proof.Machine.poisonSource
  split
  · rename_i v0 v1 v2
    split
    · rename_i v3 v4 v5
      refine poisonCol_kept (hW.sub (by decide)) ?_
      exact poisonFault_kept (hW.sub (by decide)) ha1
    · rename_i v6 v7
      exact ha1
  · rename_i v8 v9 v10 v11
    split
    · rename_i v12 v13 v14
      refine poisonObj_kept (hW.sub (by decide)) ?_
      exact poisonFault_kept (hW.sub (by decide)) ha1
    · rename_i v15 v16
      exact ha1
  · rename_i v17 v18 v19
    split
    · rename_i v20 v21 v22
      refine poisonObj_kept (hW.sub (by decide)) ?_
      exact poisonFault_kept (hW.sub (by decide)) ha1
    · rename_i v23 v24
      exact ha1

theorem endMove_kept {W : Nat} {r : State} {a0} {a1 : State} (hW : Sub 384 W) (ha1 : Kept W r a1) :
    Kept W r (endMove a0 a1) := by
  unfold Sys2Proof.Machine.endMove
  refine setMoving_kept (hW.sub (by decide)) ?_
  refine Kept.upd 256 ?_ ?_ rfl
  · exact hW.sub (by decide)
  · exact ha1

theorem failMove_kept {W : Nat} {r : State} {a0} {a1} {a2 : State} (hW : Sub 536972 W) (ha2 : Kept W r a2) :
    Kept W r (failMove a0 a1 a2) := by
  unfold Sys2Proof.Machine.failMove
  refine moveGone_kept (hW.sub (by decide)) ?_
  refine endMove_kept (hW.sub (by decide)) ?_
  exact freeLoc_kept (hW.sub (by decide)) ha2

theorem copySourceLost_kept {W : Nat} {r : State} {a0} {a1 : State} (hW : Sub 1717133 W) (ha1 : Kept W r a1) :
    Kept W r (copySourceLost a0 a1) := by
  unfold Sys2Proof.Machine.copySourceLost
  extract_lets +onlyGivenNames l0
  have hl0 : Kept W r (l0) := by
    unfold l0
    exact poisonSource_kept (hW.sub (by decide)) ha1
  clear_value l0
  refine Kept.ite ?_ ?_
  · exact failMove_kept (hW.sub (by decide)) hl0
  · exact hl0

theorem sherdsExpanded_kept {W : Nat} {r : State} {a0} {a1} {a2 : State} (hW : Sub 524288 W) (ha2 : Kept W r a2) :
    Kept W r (sherdsExpanded a0 a1 a2) := by
  unfold Sys2Proof.Machine.sherdsExpanded
  refine odAdd_kept (hW.sub (by decide)) ?_
  exact odAdd_kept (hW.sub (by decide)) ha2

theorem runExpanded_kept {W : Nat} {r : State} {a0 : State} {a1} {a2} {a3} {a4} {a5 : State} (hW : Sub 524288 W) (ha0 : Kept W r a0) (ha5 : Kept W r a5) :
    Kept W r (runExpanded a0 a1 a2 a3 a4 a5) := by
  unfold Sys2Proof.Machine.runExpanded
  extract_lets +onlyGivenNames l0
  clear_value l0
  exact sherdsExpanded_kept (hW.sub (by decide)) ha5

theorem sherdFailed_kept {W : Nat} {r : State} {a0} {a1} {a2} {a3} {a4 : State} (hW : Sub 1703948 W) (ha4 : Kept W r a4) :
    Kept W r (sherdFailed a0 a1 a2 a3 a4) := by
  unfold Sys2Proof.Machine.sherdFailed
  extract_lets +onlyGivenNames l0
  clear_value l0
  refine bump64_kept (hW.sub (by decide)) ?_
  exact faultEvent_kept (hW.sub (by decide)) ha4

theorem freeExts_kept {W : Nat} {r : State} {a0} {a1 : State} (hW : Sub 4096 W) (ha1 : Kept W r a1) :
    Kept W r (freeExts a0 a1) := by
  unfold Sys2Proof.Machine.freeExts
  apply forEach_kept
  · intro x0 x1 h2
    refine freeOpt_kept (hW.sub (by decide)) ?_
    exact freeLoc_kept (hW.sub (by decide)) h2
  · exact ha1

theorem applyPlain_kept {W : Nat} {r : State} {a0} {a1} {a2 : State} (hW : Sub 1708301 W) (ha2 : Kept W r a2) :
    Kept W r (applyPlain a0 a1 a2).2 := by
  unfold Sys2Proof.Machine.applyPlain
  split
  · rename_i v0 v1
    dsimp only
    exact ha2
  · rename_i v2 v3 v4
    split
    · rename_i v5 v6
      dsimp only
      exact ha2
    · rename_i v7 v8 v9
      split
      · rename_i v10
        dsimp only
        exact ha2
      · rename_i v11
        extract_lets +onlyGivenNames l12
        have hl12 : Kept W r (l12) := by
          unfold l12
          apply runExpanded_kept
          · exact hW.sub (by decide)
          · exact ha2
          · exact ha2
        clear_value l12
        split
        · rename_i v13 v14 v15 v16
          dsimp only
          refine Kept.ite ?_ ?_
          · exact sherdFailed_kept (hW.sub (by decide)) hl12
          · exact hl12
        · rename_i v17 v18 v19
          extract_lets +onlyGivenNames l20
          clear_value l20
          extract_lets +onlyGivenNames l21
          clear_value l21
          extract_lets +onlyGivenNames l22
          have hl22 : Kept W r (l22) := by
            unfold l22
            refine memWrite_kept (hW.sub (by decide)) ?_
            refine memZero_kept (hW.sub (by decide)) ?_
            exact freeExts_kept (hW.sub (by decide)) hl12
          clear_value l22
          dsimp only
          exact hl12

theorem recallSettle_kept {W : Nat} {r : State} {a0} {a1 : State} (hW : Sub 1058816 W) (ha1 : Kept W r a1) :
    Kept W r (recallSettle a0 a1) := by
  unfold Sys2Proof.Machine.recallSettle
  split
  · rename_i v0 v1
    exact ha1
  · rename_i v2 v3 v4
    extract_lets +onlyGivenNames l5
    clear_value l5
    refine Kept.ite ?_ ?_
    · exact ha1
    · extract_lets +onlyGivenNames l6
      clear_value l6
      extract_lets +onlyGivenNames l7
      clear_value l7
      refine sendLease_kept (hW.sub (by decide)) ?_
      refine Kept.upd 2048 ?_ ?_ rfl
      · exact hW.sub (by decide)
      · exact ha1

theorem moveOver_kept {W : Nat} {r : State} {a0} {a1 : State} (hW : Sub 3701708 W) (ha1 : Kept W r a1) :
    Kept W r (moveOver a0 a1) := by
  unfold Sys2Proof.Machine.moveOver
  split
  · rename_i v0 v1 v2
    split
    · rename_i v3 v4
      exact ha1
    · rename_i v5 v6 v7
      split
      · rename_i v8 v9 v10 v11 v12 v13
        extract_lets +onlyGivenNames l14
        clear_value l14
        extract_lets +onlyGivenNames l15
        clear_value l15
        refine Kept.ite ?_ ?_
        · exact setWork_kept (hW.sub (by decide)) ha1
        · extract_lets +onlyGivenNames l16
          have hl16 : Kept W r (l16) := by
            unfold l16
            exact readOver_kept (hW.sub (by decide)) ha1
          clear_value l16
          split
          · rename_i v17 v18
            exact complete_kept (hW.sub (by decide)) hl16
          · rename_i v19
            exact complete_kept (hW.sub (by decide)) hl16
      · rename_i v20 v21
        exact ha1
  · rename_i v22 v23 v24
    split
    · rename_i v25 v26
      exact ha1
    · rename_i v27 v28 v29
      split
      · rename_i v30 v31 v32 v33 v34 v35
        refine appendGo_kept (hW.sub (by decide)) ?_
        split
        · rename_i v36 v37 v38
          exact readOver_kept (hW.sub (by decide)) ha1
        · rename_i v39 v40
          exact ha1
      · rename_i v41 v42
        exact ha1
  · rename_i v43 v44
    refine Kept.ite ?_ ?_
    · exact ha1
    · exact bump64_kept (hW.sub (by decide)) ha1
  · rename_i v45 v46 v47
    exact recallSettle_kept (hW.sub (by decide)) ha1
  · rename_i v48 v49
    exact ha1

theorem applyMove_kept {W : Nat} {r : State} {a0} {a1 : State} (hW : Sub 4544 W) (ha1 : Kept W r a1) :
    Kept W r (applyMove a0 a1) := by
  unfold Sys2Proof.Machine.applyMove
  split
  · rename_i v0 v1 v2
    split
    · rename_i v3 v4
      exact freeLoc_kept (hW.sub (by decide)) ha1
    · rename_i v5 v6 v7
      extract_lets +onlyGivenNames l8
      clear_value l8
      extract_lets +onlyGivenNames l9
      clear_value l9
      extract_lets +onlyGivenNames l10
      have hl10 : Kept W r (l10) := by
        unfold l10
        refine freeLoc_kept (hW.sub (by decide)) ?_
        refine Kept.ite ?_ ?_
        · exact freeOpt_kept (hW.sub (by decide)) ha1
        · exact ha1
      clear_value l10
      extract_lets +onlyGivenNames l11
      have hl11 : Kept W r (l11) := by
        unfold l11
        refine Kept.ite ?_ ?_
        · exact setCol_kept (hW.sub (by decide)) ha1
        · exact setCol_kept (hW.sub (by decide)) hl10
      clear_value l11
      exact dropSlices_kept (hW.sub (by decide)) hl11
  · rename_i v12 v13 v14 v15
    split
    · rename_i v16 v17
      exact freeLoc_kept (hW.sub (by decide)) ha1
    · rename_i v18 v19 v20
      split
      · rename_i v21 v22
        exact freeLoc_kept (hW.sub (by decide)) ha1
      · rename_i v23 v24 v25
        extract_lets +onlyGivenNames l26
        clear_value l26
        extract_lets +onlyGivenNames l27
        clear_value l27
        extract_lets +onlyGivenNames l28
        clear_value l28
        refine Kept.ite ?_ ?_
        · exact setObj_kept (hW.sub (by decide)) ha1
        · extract_lets +onlyGivenNames l29
          clear_value l29
          extract_lets +onlyGivenNames l30
          have hl30 : Kept W r (l30) := by
            unfold l30
            refine freeLoc_kept (hW.sub (by decide)) ?_
            refine Kept.ite ?_ ?_
            · exact freeOpt_kept (hW.sub (by decide)) ha1
            · exact ha1
          clear_value l30
          exact setObj_kept (hW.sub (by decide)) hl30
  · rename_i v31 v32 v33
    exact ha1

theorem applyPlain_done_kept {W : Nat} {r t : State} {a0} {a1} {a2 : State} (hW : Sub 1708301 W) (ha2 : Kept W r a2)
    (e : (applyPlain a0 a1 a2).1 = .ok t) : Kept W r t := by
  unfold applyPlain at e
  split at e
  · cases e
  · split at e
    · cases e
    · dsimp only at e
      split at e
      · cases e
      · rename_i o _ _ d _ _
        have hs : Kept W r (runExpanded a2 o d d.count 0 a2) := runExpanded_kept (hW.sub (by decide)) ha2 ha2
        generalize runExpanded a2 o d d.count 0 a2 = s at e hs
        split at e
        · cases e
        · cases e
          refine setObj_kept (hW.sub (by decide)) ?_
          exact memWrite_kept (hW.sub (by decide)) (memZero_kept (hW.sub (by decide)) (freeExts_kept (hW.sub (by decide)) hs))

theorem moveCommit_kept {W : Nat} {r : State} {a0} {a1} {a2 : State} (hW : Sub 3832781 W) (ha2 : Kept W r a2) :
    Kept W r (moveCommit a0 a1 a2) := by
  unfold moveCommit
  split
  · exact ha2
  · split
    · exact copySourceLost_kept (hW.sub (by decide)) ha2
    · exact failMove_kept (hW.sub (by decide)) ha2
    · refine Kept.ite (copySourceLost_kept (hW.sub (by decide)) ha2) (Kept.ite ha2 ?_)
      split
      · split
        · rename_i e
          refine moveOver_kept (hW.sub (by decide)) (endMove_kept (hW.sub (by decide)) ?_)
          exact applyPlain_done_kept (hW.sub (by decide)) ha2 (congrArg Prod.fst e)
        · rename_i e
          refine failMove_kept (hW.sub (by decide)) ?_
          exact Kept.of_pair e (applyPlain_kept (hW.sub (by decide)) ha2)
      · refine moveOver_kept (hW.sub (by decide)) (endMove_kept (hW.sub (by decide)) ?_)
        exact applyMove_kept (hW.sub (by decide)) ha2

theorem allocateAway_kept {W : Nat} {r : State} {a0} {a1 : State} (hW : Sub 4096 W) (ha1 : Kept W r a1) :
    KeptV W r (allocateAway a0 a1) := by
  unfold Sys2Proof.Machine.allocateAway
  extract_lets +onlyGivenNames l0
  clear_value l0
  split
  · rename_i v1 v2
    exact KeptV.error
  · rename_i v3 v4 v5 v6
    refine KeptV.ok ?_
    exact setShelf_kept (hW.sub (by decide)) ha1

theorem copyTo_kept {W : Nat} {r : State} {a0} {a1} {a2} {a3} {a4} {a5} {a6} {a7} {a8} {a9 : State} (hW : Sub 2118016 W) (ha9 : Kept W r a9) :
    KeptV W r (copyTo a0 a1 a2 a3 a4 a5 a6 a7 a8 a9) := by
  unfold Sys2Proof.Machine.copyTo
  refine KeptV.ite ?_ ?_
  · exact KeptV.error
  · extract_lets +onlyGivenNames l0
    have hl0 : KeptV W r (l0) := by
      unfold l0
      split
      · rename_i v1 v2
        refine KeptV.ite ?_ ?_
        · exact allocateAway_kept (hW.sub (by decide)) ha9
        · exact KeptV.error
      · rename_i v3 v4
        exact allocate_kept (hW.sub (by decide)) ha9
    clear_value l0
    split
    · rename_i v5 v6
      exact KeptV.error
    · rename_i v7 v8 v9
      extract_lets +onlyGivenNames l10
      clear_value l10
      extract_lets +onlyGivenNames l11
      clear_value l11
      extract_lets +onlyGivenNames l12
      have hl12 : Kept W r (l12) := by
        unfold l12
        refine Kept.upd 256 ?_ ?_ rfl
        · exact hW.sub (by decide)
        · exact hl0 _ rfl
      clear_value l12
      refine KeptV.ok ?_
      refine heathWrite_kept (hW.sub (by decide)) ?_
      refine heathRead_kept (hW.sub (by decide)) ?_
      exact setMoving_kept (hW.sub (by decide)) hl12

theorem moveExt_kept {W : Nat} {r : State} {a0} {a1} {a2} {a3} {a4} {a5 : State} (hW : Sub 2118016 W) (ha5 : Kept W r a5) :
    KeptV W r (moveExt a0 a1 a2 a3 a4 a5) := by
  unfold Sys2Proof.Machine.moveExt
  split
  · rename_i v0 v1
    exact KeptV.error
  · rename_i v2 v3 v4
    split
    · rename_i v5 v6
      exact KeptV.error
    · rename_i v7 v8 v9
      extract_lets +onlyGivenNames l10
      clear_value l10
      extract_lets +onlyGivenNames l11
      clear_value l11
      extract_lets +onlyGivenNames l12
      have hl12 : ∀ (z0) (z1) (_ : Kept W r z1), KeptV W r (l12 z0 z1) := by
        intros
        rename_i v13 v14 v15
        unfold l12
        split
        · rename_i v16 v17 v18
          refine KeptV.ok ?_
          refine KeptV.use2 ?_ v18
          refine copyTo_kept (hW.sub (by decide)) ?_
          exact v15
        · rename_i v20 v21 v22
          exact KeptV.error
      clear_value l12
      extract_lets +onlyGivenNames l23
      clear_value l23
      refine KeptV.ite ?_ ?_
      · exact KeptV.error
      · refine KeptV.ite ?_ ?_
        · refine KeptV.ok ?_
          exact dropExtImage_kept (hW.sub (by decide)) ha5
        · refine KeptV.ite ?_ ?_
          · refine KeptV.ite ?_ ?_
            · refine KeptV.ok ?_
              exact ha5
            · apply hl12
              exact dropExtImage_kept (hW.sub (by decide)) ha5
          · refine KeptV.ite ?_ ?_
            · refine KeptV.ok ?_
              exact ha5
            · refine KeptV.ite ?_ ?_
              · extract_lets +onlyGivenNames l24
                clear_value l24
                refine KeptV.ok ?_
                refine freeLoc_kept (hW.sub (by decide)) ?_
                exact setObj_kept (hW.sub (by decide)) ha5
              · apply hl12
                exact ha5

theorem moveEach_kept {W : Nat} {r : State} {α : Type} {f : α → State → Except Status (Option Nat × State)} {l : List α}
    {s : State} (hf : ∀ x t, Kept W r t → KeptV W r (f x t)) (hs : Kept W r s) : KeptV W r (moveEach f l s) := by
  induction l generalizing s with
  | nil => exact KeptV.ok hs
  | cons x xs ih =>
    unfold moveEach
    split
    · exact KeptV.error
    · rename_i e
      split
      · exact KeptV.error
      · rename_i e2
        exact KeptV.ok (KeptV.use (ih (KeptV.use (hf x s hs) e)) e2)

theorem afterMoves_kept {W : Nat} {r : State} {a0} {a1} {a2} {a3 : State} (hW : Sub 8204 W) (ha2 : KeptV W r (a2)) (ha3 : Kept W r a3) :
    Kept W r (afterMoves a0 a1 a2 a3) := by
  unfold Sys2Proof.Machine.afterMoves
  split
  · rename_i v0 v1
    exact complete_kept (hW.sub (by decide)) ha3
  · rename_i v2 v3
    refine complete_kept (hW.sub (by decide)) ?_
    exact ha2 _ rfl
  · rename_i v4 v5 v6 v7
    refine setWork_kept (hW.sub (by decide)) ?_
    exact ha2 _ rfl

theorem moveCol_kept {W : Nat} {r : State} {a0} {a1} {a2} {a3} {a4 : State} (hW : Sub 2118080 W) (ha4 : Kept W r a4) :
    KeptV W r (moveCol a0 a1 a2 a3 a4) := by
  unfold Sys2Proof.Machine.moveCol
  extract_lets +onlyGivenNames l0
  clear_value l0
  extract_lets +onlyGivenNames l1
  clear_value l1
  extract_lets +onlyGivenNames l2
  have hl2 : ∀ (z0) (z1) (_ : Kept W r z1), KeptV W r (l2 z0 z1) := by
    intros
    rename_i v3 v4 v5
    unfold l2
    split
    · rename_i v6 v7 v8
      refine KeptV.ok ?_
      refine KeptV.use2 ?_ v8
      refine copyTo_kept (hW.sub (by decide)) ?_
      exact v5
    · rename_i v10 v11 v12
      exact KeptV.error
  clear_value l2
  extract_lets +onlyGivenNames l13
  clear_value l13
  split
  · rename_i v14 v15 v16
    exact KeptV.error
  · rename_i v17 v18
    refine KeptV.ite ?_ ?_
    · refine KeptV.ok ?_
      exact dropColImage_kept (hW.sub (by decide)) ha4
    · refine KeptV.ite ?_ ?_
      · refine KeptV.ite ?_ ?_
        · refine KeptV.ok ?_
          exact ha4
        · apply hl2
          exact dropColImage_kept (hW.sub (by decide)) ha4
      · refine KeptV.ite ?_ ?_
        · refine KeptV.ok ?_
          exact ha4
        · refine KeptV.ite ?_ ?_
          · refine KeptV.ite ?_ ?_
            · refine KeptV.ok ?_
              exact ha4
            · apply hl2
              exact dropColImage_kept (hW.sub (by decide)) ha4
          · refine KeptV.ite ?_ ?_
            · extract_lets +onlyGivenNames l19
              have hl19 : Kept W r (l19) := by
                unfold l19
                exact setCol_kept (hW.sub (by decide)) ha4
              clear_value l19
              refine KeptV.ok ?_
              refine dropSlices_kept (hW.sub (by decide)) ?_
              exact freeLoc_kept (hW.sub (by decide)) hl19
            · apply hl2
              exact ha4

theorem runColMove_kept {W : Nat} {r : State} {a0} {a1 : State} (hW : Sub 2126284 W) (ha1 : Kept W r a1) :
    Kept W r (runColMove a0 a1) := by
  unfold runColMove
  dsimp only
  have hc : ∀ st v, Kept W r (complete a0 st v a1) := fun _ _ => complete_kept (hW.sub (by decide)) ha1
  split
  · exact hc _ _
  · refine Kept.ite (hc _ _) (Kept.ite (hc _ _) ?_)
    split
    · exact hc _ _
    · refine Kept.ite (setWork_kept (hW.sub (by decide)) ha1) ?_
      split
      · exact stall_kept (hW.sub (by decide)) ha1
      · refine afterMoves_kept (hW.sub (by decide)) (moveEach_kept (fun _ _ h => ?_) ha1) ha1
        exact moveCol_kept (hW.sub (by decide)) h

theorem tagMismatch_kept {W : Nat} {r : State} {a0} {a1} {a2 : State} (hW : Sub 786432 W) (ha2 : Kept W r a2) :
    Kept W r (tagMismatch a0 a1 a2) := by
  unfold Sys2Proof.Machine.tagMismatch
  refine Kept.ite ?_ ?_
  · exact ha2
  · apply onlyIf_kept
    · intro x0 h1
      exact bump64_kept (hW.sub (by decide)) h1
    · refine count_kept (hW.sub (by decide)) ?_
      exact bump64_kept (hW.sub (by decide)) ha2

end Sys2Proof.Laws
end

