-- ==== Sys2Proof/Laws/KeptObjects.lean ====
section
/-! SUPPORT. What the operations of Sys2Proof/Machine/Objects.lean keep: one lemma for each, which callers cite. -/

namespace Sys2Proof.Laws

open Sys2Proof Sys2Proof.Machine

theorem dropAltered_kept {W : Nat} {r : State} {a0} {a1} {a2} {a3 : State} (hW : Sub 256 W) (ha3 : Kept W r a3) :
    Kept W r (dropAltered a0 a1 a2 a3) := by
  unfold Sys2Proof.Machine.dropAltered
  refine Kept.upd 256 ?_ ?_ rfl
  · exact hW.sub (by decide)
  · exact ha3

theorem dropLines_kept {W : Nat} {r : State} {a0} {a1} {a2} {a3 : State} (hW : Sub 64 W) (ha3 : Kept W r a3) :
    Kept W r (dropLines a0 a1 a2 a3) := by
  unfold Sys2Proof.Machine.dropLines
  refine Kept.upd 64 ?_ ?_ rfl
  · exact hW.sub (by decide)
  · exact ha3

theorem reloadCount_kept {W : Nat} {r : State} {a0} {a1} {a2} {a3 : State} (hW : Sub 268 W) (ha3 : Kept W r a3) :
    Kept W r (reloadCount a0 a1 a2 a3) := by
  unfold Sys2Proof.Machine.reloadCount
  split
  · rename_i v0 v1
    exact ha3
  · rename_i v2 v3 v4
    refine Kept.ite ?_ ?_
    · exact ha3
    · extract_lets +onlyGivenNames l5
      clear_value l5
      refine Kept.ite ?_ ?_
      · refine event_kept (hW.sub (by decide)) ?_
        exact setObj_kept (hW.sub (by decide)) ha3
      · exact setObj_kept (hW.sub (by decide)) ha3

theorem objStore_kept {W : Nat} {r : State} {a0} {a1} {a2} {a3 : State} (hW : Sub 20813 W) (ha3 : Kept W r a3) :
    Kept W r (objStore a0 a1 a2 a3) := by
  unfold Sys2Proof.Machine.objStore
  split
  · rename_i v0 v1
    exact ha3
  · rename_i v2 v3 v4
    extract_lets +onlyGivenNames l5
    clear_value l5
    extract_lets +onlyGivenNames l6
    have hl6 : Kept W r (l6) := by
      unfold l6
      apply forEach_kept
      · intro x7 x8 h9
        exact dropExtImage_kept (hW.sub (by decide)) h9
      · exact ha3
    clear_value l6
    extract_lets +onlyGivenNames l10
    have hl10 : Kept W r (l10) := by
      unfold l10
      refine dropAltered_kept (hW.sub (by decide)) ?_
      refine dropLines_kept (hW.sub (by decide)) ?_
      exact memWrite_kept (hW.sub (by decide)) hl6
    clear_value l10
    extract_lets +onlyGivenNames l11
    have hl11 : Kept W r (l11) := by
      unfold l11
      apply forEach_kept
      · intro x12 x13 h14
        split
        · rename_i v15 v16 v17
          exact heathWrite_kept (hW.sub (by decide)) h14
        · rename_i v18 v19
          exact h14
      · exact hl10
    clear_value l11
    exact reloadCount_kept (hW.sub (by decide)) hl11

theorem objWriteFor_kept {W : Nat} {r : State} {a0} {a1} {a2} {a3} {a4 : State} (hW : Sub 20813 W) (ha4 : Kept W r a4) :
    Kept W r (objWriteFor a0 a1 a2 a3 a4) := by
  unfold Sys2Proof.Machine.objWriteFor
  refine Kept.ite ?_ ?_
  · refine Kept.upd 256 ?_ ?_ rfl
    · exact hW.sub (by decide)
    · exact ha4
  · exact objStore_kept (hW.sub (by decide)) ha4

theorem rehome_kept {W : Nat} {r : State} {a0} {a1 : State} (hW : Sub 2101504 W) (ha1 : Kept W r a1) :
    KeptE W r (rehome a0 a1) := by
  unfold Sys2Proof.Machine.rehome
  split
  · rename_i v0 v1
    exact KeptE.error
  · rename_i v2 v3 v4
    extract_lets +onlyGivenNames l5
    have hl5 : Kept W r (l5) := by
      unfold l5
      exact freeExts_kept (hW.sub (by decide)) ha1
    clear_value l5
    split
    · rename_i v6 v7
      refine KeptE.ok ?_
      refine setObj_kept (hW.sub (by decide)) ?_
      exact draws_kept (hW.sub (by decide)) hl5
    · rename_i v8 v9
      exact KeptE.error

theorem objWrite_kept {W : Nat} {r : State} {a0} {a1} {a2} {a3 : State} (hW : Sub 20813 W) (ha3 : Kept W r a3) :
    Kept W r (objWrite a0 a1 a2 a3) := by
  unfold Sys2Proof.Machine.objWrite
  exact objWriteFor_kept (hW.sub (by decide)) ha3

theorem reloadWrite_kept {W : Nat} {r : State} {a0} {a1} {a2} {a3 : State} (hW : Sub 2117965 W) (ha3 : Kept W r a3) :
    Kept W r (reloadWrite a0 a1 a2 a3) := by
  unfold Sys2Proof.Machine.reloadWrite
  refine Kept.ite ?_ ?_
  · exact event_kept (hW.sub (by decide)) ha3
  · split
    · rename_i v0 v1 v2
      refine objWrite_kept (hW.sub (by decide)) ?_
      refine KeptE.use ?_ v2
      refine KeptE.ite ?_ ?_
      · exact rehome_kept (hW.sub (by decide)) ha3
      · refine KeptE.ok ?_
        exact ha3
    · rename_i v4 v5 v6
      exact event_kept (hW.sub (by decide)) ha3

theorem heldOn_kept {W : Nat} {r : State} {a0} {a1 : State} (hW : Sub 2117965 W) (ha1 : Kept W r a1) :
    Kept W r (heldOn a0 a1) := by
  unfold Sys2Proof.Machine.heldOn
  split
  · rename_i v0 v1 v2
    exact objWriteFor_kept (hW.sub (by decide)) ha1
  · rename_i v3 v4 v5 v6 v7
    exact reloadWrite_kept (hW.sub (by decide)) ha1
  · rename_i v8 v9 v10 v11 v12 v13
    refine Kept.ite ?_ ?_
    · exact setWork_kept (hW.sub (by decide)) ha1
    · exact ha1

theorem bringLater_kept {W : Nat} {r : State} {a0} {a1 : State} (hW : Sub 256 W) (ha1 : Kept W r a1) :
    Kept W r (bringLater a0 a1) := by
  unfold Sys2Proof.Machine.bringLater
  refine Kept.ite ?_ ?_
  · exact ha1
  · refine Kept.upd 256 ?_ ?_ rfl
    · exact hW.sub (by decide)
    · exact ha1

theorem cxlAnswer_kept {W : Nat} {r : State} {a0} {a1} {a2} {a3 : State} (hW : Sub 1048576 W) (ha3 : Kept W r a3) :
    Kept W r (cxlAnswer a0 a1 a2 a3) := by
  unfold Sys2Proof.Machine.cxlAnswer
  exact send_kept (hW.sub (by decide)) ha3

theorem placedOver_kept {W : Nat} {r : State} {a0 : State} (hW : Sub 8204 W) (ha0 : Kept W r a0) :
    Kept W r (placedOver a0) := by
  unfold Sys2Proof.Machine.placedOver
  apply forEach_kept
  · intro x0 x1 h2
    split
    · rename_i v3 v4 v5 v6
      refine Kept.ite ?_ ?_
      · exact h2
      · exact complete_kept (hW.sub (by decide)) h2
    · rename_i v7 v8
      exact h2
  · exact ha0

theorem allocExts_kept {W : Nat} {r : State} {a0} {a1} {a2} {a3} {a4} {a5} {a6 : State} (hW : Sub 2101248 W) (ha6 : Kept W r a6) :
    KeptV W r (allocExts a0 a1 a2 a3 a4 a5 a6) := by
  induction a4 generalizing a0 a1 a2 a3 a5 a6 with
  | zero  =>
    unfold Sys2Proof.Machine.allocExts
    refine KeptV.ok ?_
    exact ha6
  | succ k0 ih =>
    unfold Sys2Proof.Machine.allocExts
    split
    · rename_i v0 v1 v2
      exact KeptV.error
    · rename_i v3 v4 v5 v6
      split
      · rename_i v7 v8 v9
        exact KeptV.error
      · rename_i v10 v11 v12 v13
        refine KeptV.ok ?_
        refine KeptV.use ?_ v13
        apply ih
        refine KeptV.use ?_ v6
        exact allocate_kept (hW.sub (by decide)) ha6

theorem objCreate_kept {W : Nat} {r : State} {a0} {a1} {a2 : State} (hW : Sub 2101505 W) (ha2 : Kept W r a2) :
    KeptV W r (objCreate a0 a1 a2) := by
  unfold Sys2Proof.Machine.objCreate
  extract_lets +onlyGivenNames l0
  clear_value l0
  extract_lets +onlyGivenNames l1
  clear_value l1
  extract_lets +onlyGivenNames l2
  clear_value l2
  extract_lets +onlyGivenNames l3
  clear_value l3
  extract_lets +onlyGivenNames l4
  clear_value l4
  extract_lets +onlyGivenNames l5
  clear_value l5
  refine KeptV.bind ?_
  intro b6 e7
  refine KeptV.bind ?_
  intro b8 e9
  refine KeptV.bind ?_
  intro b10 e11
  refine KeptV.bind ?_
  intro b12 e13
  refine KeptV.bind ?_
  intro b14 e15
  extract_lets +onlyGivenNames l16
  clear_value l16
  refine KeptV.bind ?_
  intro b17 e18
  refine KeptV.bind ?_
  intro b19 e20
  extract_lets +onlyGivenNames l21
  clear_value l21
  refine KeptV.bind ?_
  intro b22 e23
  extract_lets +onlyGivenNames l24
  clear_value l24
  extract_lets +onlyGivenNames l25
  clear_value l25
  refine KeptV.ok ?_
  refine memZero_kept (hW.sub (by decide)) ?_
  extract_lets +onlyGivenNames l26
  have hl26 : Kept W r (l26) := by
    unfold l26
    refine KeptV.use2 ?_ e23
    refine KeptV.ite ?_ ?_
    · refine KeptV.ok ?_
      exact draws_kept (hW.sub (by decide)) ha2
    · exact allocExts_kept (hW.sub (by decide)) ha2
  clear_value l26
  refine Kept.upd 256 ?_ ?_ rfl
  · exact hW.sub (by decide)
  · exact hl26

theorem lineRead_kept {W : Nat} {r : State} {a0} {a1} {a2} {a3 : State} (hW : Sub 786496 W) (ha3 : Kept W r a3) :
    Kept W r (lineRead a0 a1 a2 a3) := by
  unfold Sys2Proof.Machine.lineRead
  extract_lets +onlyGivenNames l0
  clear_value l0
  extract_lets +onlyGivenNames l1
  clear_value l1
  extract_lets +onlyGivenNames l2
  clear_value l2
  extract_lets +onlyGivenNames l3
  clear_value l3
  extract_lets +onlyGivenNames l4
  clear_value l4
  refine count_kept (hW.sub (by decide)) ?_
  refine Kept.upd 64 ?_ ?_ rfl
  · exact hW.sub (by decide)
  · exact ha3

theorem poisonReads_kept {W : Nat} {r : State} {a0} {a1} {a2 : State} (hW : Sub 1048588 W) (ha2 : Kept W r a2) :
    Kept W r (poisonReads a0 a1 a2) := by
  unfold Sys2Proof.Machine.poisonReads
  extract_lets +onlyGivenNames l0
  clear_value l0
  apply forEach_kept
  · intro x1 x2 h3
    refine event_kept (hW.sub (by decide)) ?_
    exact cxlAnswer_kept (hW.sub (by decide)) h3
  · refine Kept.upd 4 ?_ ?_ rfl
    · exact hW.sub (by decide)
    · exact ha2

theorem poisonFlow_kept {W : Nat} {r : State} {a0} {a1} {a2 : State} (hW : Sub 1717133 W) (ha2 : Kept W r a2) :
    Kept W r (poisonFlow a0 a1 a2) := by
  unfold Sys2Proof.Machine.poisonFlow
  extract_lets +onlyGivenNames l0
  have hl0 : Kept W r (l0) := by
    unfold l0
    apply forEach_kept
    · intro x1 x2 h3
      exact failDur_kept (hW.sub (by decide)) h3
    · exact ha2
  clear_value l0
  extract_lets +onlyGivenNames l4
  clear_value l4
  extract_lets +onlyGivenNames l5
  have hl5 : Kept W r (l5) := by
    unfold l5
    apply forEach_kept
    · intro x6 x7 h8
      extract_lets +onlyGivenNames l9
      clear_value l9
      refine Kept.ite ?_ ?_
      · refine Kept.ite ?_ ?_
        · exact h8
        · refine poisonCol_kept (hW.sub (by decide)) ?_
          exact poisonFault_kept (hW.sub (by decide)) h8
      · refine Kept.ite ?_ ?_
        · exact dropColImage_kept (hW.sub (by decide)) h8
        · exact h8
    · exact hl0
  clear_value l5
  extract_lets +onlyGivenNames l10
  have hl10 : Kept W r (l10) := by
    unfold l10
    apply forEach_kept
    · intro x11 x12 h13
      apply forEach_kept
      · intro x14 x15 h16
        refine Kept.ite ?_ ?_
        · refine Kept.ite ?_ ?_
          · exact h16
          · refine poisonObj_kept (hW.sub (by decide)) ?_
            exact poisonFault_kept (hW.sub (by decide)) h16
        · refine Kept.ite ?_ ?_
          · exact dropExtImage_kept (hW.sub (by decide)) h16
          · exact h16
      · exact h13
    · exact hl5
  clear_value l10
  exact poisonReads_kept (hW.sub (by decide)) hl10

theorem cxlAsk_kept {W : Nat} {r : State} {a0} {a1} {a2} {a3} {a4 : State} (hW : Sub 1733517 W) (ha4 : Kept W r a4) :
    Kept W r (cxlAsk a0 a1 a2 a3 a4) := by
  unfold Sys2Proof.Machine.cxlAsk
  extract_lets +onlyGivenNames l0
  clear_value l0
  extract_lets +onlyGivenNames l1
  clear_value l1
  extract_lets +onlyGivenNames l2
  have hl2 : Kept W r (l2) := by
    unfold l2
    refine Kept.upd 4 ?_ ?_ rfl
    · exact hW.sub (by decide)
    · exact ha4
  clear_value l2
  refine Kept.ite ?_ ?_
  · exact poisonFlow_kept (hW.sub (by decide)) hl2
  · refine Kept.ite ?_ ?_
    · exact cxlAnswer_kept (hW.sub (by decide)) ha4
    · refine pump_kept (hW.sub (by decide)) ?_
      exact setShelf_kept (hW.sub (by decide)) hl2

theorem sendPieces_kept {W : Nat} {r : State} {a0} {a1} {a2} {a3} {a4} {a5} {a6} {a7} {a8} {a9} {a10 : State} (hW : Sub 12 W) (ha10 : Kept W r a10) :
    Kept W r (sendPieces a0 a1 a2 a3 a4 a5 a6 a7 a8 a9 a10) := by
  induction a6 generalizing a0 a1 a2 a3 a4 a5 a7 a8 a9 a10 with
  | zero  =>
    unfold Sys2Proof.Machine.sendPieces
    exact ha10
  | succ k0 ih =>
    unfold Sys2Proof.Machine.sendPieces
    extract_lets +onlyGivenNames l0
    clear_value l0
    extract_lets +onlyGivenNames l1
    clear_value l1
    extract_lets +onlyGivenNames l2
    clear_value l2
    extract_lets +onlyGivenNames l3
    have hl3 : Kept W r (l3) := by
      unfold l3
      apply sendInside_kept
      · exact hW.sub (by decide)
      · intro x4 h5
        exact sendFrag3_kept (hW.sub (by decide)) h5
      · exact ha10
    clear_value l3
    refine Kept.ite ?_ ?_
    · exact hl3
    · apply ih
      exact hl3

theorem sendTile_kept {W : Nat} {r : State} {a0} {a1} {a2} {a3} {a4} {a5} {a6} {a7 : State} (hW : Sub 12 W) (ha7 : Kept W r a7) :
    Kept W r (sendTile a0 a1 a2 a3 a4 a5 a6 a7) := by
  unfold Sys2Proof.Machine.sendTile
  exact sendPieces_kept (hW.sub (by decide)) ha7

theorem lineAnswer_kept {W : Nat} {r : State} {a0} {a1} {a2} {a3 : State} (hW : Sub 1048576 W) (ha3 : Kept W r a3) :
    Kept W r (lineAnswer a0 a1 a2 a3) := by
  unfold Sys2Proof.Machine.lineAnswer
  split
  · rename_i v0
    exact cxlAnswer_kept (hW.sub (by decide)) ha3
  · rename_i v1 v2
    exact send_kept (hW.sub (by decide)) ha3

theorem runObjCreate_kept {W : Nat} {r : State} {a0} {a1 : State} (hW : Sub 2109709 W) (ha1 : Kept W r a1) :
    Kept W r (runObjCreate a0 a1) := by
  unfold Sys2Proof.Machine.runObjCreate
  apply finish_kept
  · exact hW.sub (by decide)
  · exact objCreate_kept (hW.sub (by decide)) ha1
  · exact ha1

theorem bringCol_kept {W : Nat} {r : State} {a0} {a1 : State} (hW : Sub 2642368 W) (ha1 : Kept W r a1) :
    Kept W r (bringCol a0 a1) := by
  unfold Sys2Proof.Machine.bringCol
  split
  · rename_i v0 v1
    exact ha1
  · rename_i v2 v3 v4
    refine Kept.ite ?_ ?_
    · exact ha1
    · refine Kept.ite ?_ ?_
      · exact bump64_kept (hW.sub (by decide)) ha1
      · refine Kept.ite ?_ ?_
        · exact bringLater_kept (hW.sub (by decide)) ha1
        · split
          · rename_i v5 v6 v7
            refine KeptV.use2 ?_ v7
            exact moveCol_kept (hW.sub (by decide)) ha1
          · rename_i v9 v10 v11
            exact bump64_kept (hW.sub (by decide)) ha1

theorem bringExt_kept {W : Nat} {r : State} {a0} {a1} {a2 : State} (hW : Sub 2642304 W) (ha2 : Kept W r a2) :
    Kept W r (bringExt a0 a1 a2) := by
  unfold Sys2Proof.Machine.bringExt
  split
  · rename_i v0 v1
    exact ha2
  · rename_i v2 v3 v4
    extract_lets +onlyGivenNames l5
    clear_value l5
    refine Kept.ite ?_ ?_
    · exact bump64_kept (hW.sub (by decide)) ha2
    · refine Kept.ite ?_ ?_
      · exact ha2
      · refine Kept.ite ?_ ?_
        · exact bringLater_kept (hW.sub (by decide)) ha2
        · split
          · rename_i v6 v7 v8
            refine KeptV.use2 ?_ v8
            exact moveExt_kept (hW.sub (by decide)) ha2
          · rename_i v10 v11 v12
            exact bump64_kept (hW.sub (by decide)) ha2

theorem bringItem_kept {W : Nat} {r : State} {a0} {a1 : State} (hW : Sub 2642368 W) (ha1 : Kept W r a1) :
    Kept W r (bringItem a0 a1) := by
  unfold Sys2Proof.Machine.bringItem
  split
  · rename_i v0 v1
    exact bringCol_kept (hW.sub (by decide)) ha1
  · rename_i v2 v3 v4
    exact bringExt_kept (hW.sub (by decide)) ha1
  · rename_i v5 v6
    exact ha1

theorem flushHeld_kept {W : Nat} {r : State} {a0 : State} (hW : Sub 2650573 W) (ha0 : Kept W r a0) :
    Kept W r (flushHeld a0) := by
  unfold Sys2Proof.Machine.flushHeld
  extract_lets +onlyGivenNames l0
  clear_value l0
  extract_lets +onlyGivenNames l1
  have hl1 : Kept W r (l1) := by
    unfold l1
    refine Kept.ite ?_ ?_
    · exact ha0
    · refine placedOver_kept (hW.sub (by decide)) ?_
      apply forEach_kept
      · intro x2 x3 h4
        exact heldOn_kept (hW.sub (by decide)) h4
      · refine Kept.upd 256 ?_ ?_ rfl
        · exact hW.sub (by decide)
        · exact ha0
  clear_value l1
  refine Kept.ite ?_ ?_
  · exact hl1
  · apply forEach_kept
    · intro x5 x6 h7
      exact bringItem_kept (hW.sub (by decide)) h7
    · refine Kept.upd 256 ?_ ?_ rfl
      · exact hW.sub (by decide)
      · exact hl1

theorem releaseObj_kept {W : Nat} {r : State} {a0} {a1 : State} (hW : Sub 37121 W) (ha1 : Kept W r a1) :
    Kept W r (releaseObj a0 a1) := by
  unfold Sys2Proof.Machine.releaseObj
  extract_lets +onlyGivenNames l0
  have hl0 : Kept W r (l0) := by
    unfold l0
    refine memZero_kept (hW.sub (by decide)) ?_
    exact freeExts_kept (hW.sub (by decide)) ha1
  clear_value l0
  refine Kept.upd 33024 ?_ ?_ rfl
  · exact hW.sub (by decide)
  · exact hl0

theorem startPlain_kept {W : Nat} {r : State} {a0} {a1} {a2} {a3 : State} (hW : Sub 2118016 W) (ha3 : Kept W r a3) :
    KeptV W r (startPlain a0 a1 a2 a3) := by
  unfold Sys2Proof.Machine.startPlain
  extract_lets +onlyGivenNames l0
  clear_value l0
  extract_lets +onlyGivenNames l1
  clear_value l1
  refine KeptV.ite ?_ ?_
  · exact KeptV.error
  · split
    · rename_i v2 v3
      extract_lets +onlyGivenNames l4
      clear_value l4
      extract_lets +onlyGivenNames l5
      clear_value l5
      extract_lets +onlyGivenNames l6
      have hl6 : Kept W r (l6) := by
        unfold l6
        refine setMoving_kept (hW.sub (by decide)) ?_
        refine Kept.upd 256 ?_ ?_ rfl
        · exact hW.sub (by decide)
        · exact ha3
      clear_value l6
      refine KeptV.ok ?_
      apply forEach_kept
      · intro x7 x8 h9
        exact heathRead_kept (hW.sub (by decide)) h9
      · exact draws_kept (hW.sub (by decide)) hl6
    · rename_i v10 v11
      exact KeptV.error

theorem runObjMove_kept {W : Nat} {r : State} {a0} {a1 : State} (hW : Sub 2158989 W) (ha1 : Kept W r a1) :
    Kept W r (runObjMove a0 a1) := by
  unfold runObjMove
  dsimp only
  have hc : ∀ st v, Kept W r (complete a0 st v a1) := fun _ _ => complete_kept (hW.sub (by decide)) ha1
  split
  · exact hc _ _
  · refine Kept.ite (Kept.ite (hc _ _) ?_) (Kept.ite (hc _ _) (Kept.ite (setWork_kept (hW.sub (by decide)) ha1) ?_))
    · exact complete_kept (hW.sub (by decide)) (releaseObj_kept (hW.sub (by decide)) ha1)
    · split
      · exact stall_kept (hW.sub (by decide)) ha1
      · split
        · exact afterMoves_kept (hW.sub (by decide)) (KeptV.map (fun _ h => h) (startPlain_kept (hW.sub (by decide)) ha1)) ha1
        · refine afterMoves_kept (hW.sub (by decide)) (moveEach_kept (fun _ _ h => ?_) ha1) ha1
          exact moveExt_kept (hW.sub (by decide)) h

theorem sealWeight_kept {W : Nat} {r : State} {a0} {a1 : State} (hW : Sub 32768 W) (ha1 : Kept W r a1) :
    Kept W r (sealWeight a0 a1) := by
  unfold Sys2Proof.Machine.sealWeight
  refine Kept.ite ?_ ?_
  · exact ha1
  · extract_lets +onlyGivenNames l0
    clear_value l0
    extract_lets +onlyGivenNames l1
    clear_value l1
    refine Kept.upd 32768 ?_ ?_ rfl
    · exact hW.sub (by decide)
    · exact ha1

theorem heathLine_kept {W : Nat} {r : State} {a0} {a1} {a2} {a3} {a4 : State} (hW : Sub 1733517 W) (ha4 : Kept W r a4) :
    Kept W r (heathLine a0 a1 a2 a3 a4) := by
  unfold Sys2Proof.Machine.heathLine
  extract_lets +onlyGivenNames l0
  clear_value l0
  refine Kept.ite ?_ ?_
  · exact cxlAsk_kept (hW.sub (by decide)) ha4
  · extract_lets +onlyGivenNames l1
    clear_value l1
    refine Kept.upd 4 ?_ ?_ rfl
    · exact hW.sub (by decide)
    · exact ha4

theorem cxlRead_kept {W : Nat} {r : State} {a0} {a1} {a2} {a3 : State} (hW : Sub 1995757 W) (ha3 : Kept W r a3) :
    Kept W r (cxlRead a0 a1 a2 a3) := by
  unfold Sys2Proof.Machine.cxlRead
  extract_lets +onlyGivenNames l0
  clear_value l0
  refine Kept.ite ?_ ?_
  · exact ha3
  · refine Kept.ite ?_ ?_
    · refine refuseOnce_kept (hW.sub (by decide)) ?_
      exact cxlAnswer_kept (hW.sub (by decide)) ha3
    · split
      · rename_i v1 v2
        refine Kept.ite ?_ ?_
        · exact cxlAnswer_kept (hW.sub (by decide)) ha3
        · exact send_kept (hW.sub (by decide)) ha3
      · rename_i v3 v4 v5
        extract_lets +onlyGivenNames l6
        clear_value l6
        extract_lets +onlyGivenNames l7
        clear_value l7
        extract_lets +onlyGivenNames l8
        clear_value l8
        refine Kept.ite ?_ ?_
        · refine event_kept (hW.sub (by decide)) ?_
          exact cxlAnswer_kept (hW.sub (by decide)) ha3
        · refine Kept.ite ?_ ?_
          · exact heathLine_kept (hW.sub (by decide)) ha3
          · extract_lets +onlyGivenNames l9
            have hl9 : Kept W r (l9) := by
              unfold l9
              refine Kept.ite ?_ ?_
              · exact lineRead_kept (hW.sub (by decide)) ha3
              · exact ha3
            clear_value l9
            extract_lets +onlyGivenNames l10
            clear_value l10
            refine Kept.ite ?_ ?_
            · exact lineAnswer_kept (hW.sub (by decide)) hl9
            · refine Kept.ite ?_ ?_
              · refine lineAnswer_kept (hW.sub (by decide)) ?_
                exact tagMismatch_kept (hW.sub (by decide)) hl9
              · refine Kept.ite ?_ ?_
                · extract_lets +onlyGivenNames l11
                  have hl11 : Kept W r (l11) := by
                    unfold l11
                    refine dropExtImage_kept (hW.sub (by decide)) ?_
                    exact tagMismatch_kept (hW.sub (by decide)) hl9
                  clear_value l11
                  refine Kept.ite ?_ ?_
                  · exact heathLine_kept (hW.sub (by decide)) hl11
                  · exact cxlAnswer_kept (hW.sub (by decide)) hl11
                · extract_lets +onlyGivenNames l12
                  clear_value l12
                  refine poisonObj_kept (hW.sub (by decide)) ?_
                  refine poisonFault_kept (hW.sub (by decide)) ?_
                  refine event_kept (hW.sub (by decide)) ?_
                  refine cxlAnswer_kept (hW.sub (by decide)) ?_
                  exact tagMismatch_kept (hW.sub (by decide)) hl9

theorem runObjWrite_kept {W : Nat} {r : State} {a0} {a1 : State} (hW : Sub 2158925 W) (ha1 : Kept W r a1) :
    Kept W r (runObjWrite a0 a1) := by
  unfold Sys2Proof.Machine.runObjWrite
  split
  · rename_i v0 v1 v2
    exact complete_kept (hW.sub (by decide)) ha1
  · rename_i v3 v4 v5
    extract_lets +onlyGivenNames l6
    clear_value l6
    extract_lets +onlyGivenNames l7
    clear_value l7
    refine Kept.ite ?_ ?_
    · exact setWork_kept (hW.sub (by decide)) ha1
    · refine Kept.ite ?_ ?_
      · exact complete_kept (hW.sub (by decide)) ha1
      · split
        · rename_i v8 v9 v10
          exact stall_kept (hW.sub (by decide)) ha1
        · rename_i v11 v12
          split
          · rename_i v13 v14 v15
            exact complete_kept (hW.sub (by decide)) ha1
          · rename_i v16 v17 v18
            extract_lets +onlyGivenNames l19
            clear_value l19
            extract_lets +onlyGivenNames l20
            have hl20 : Kept W r (l20) := by
              unfold l20
              refine Kept.ite ?_ ?_
              · refine KeptE.use ?_ v18
                refine KeptE.ite ?_ ?_
                · exact rehome_kept (hW.sub (by decide)) ha1
                · refine KeptE.ok ?_
                  exact ha1
              · refine objStore_kept (hW.sub (by decide)) ?_
                refine KeptE.use ?_ v18
                refine KeptE.ite ?_ ?_
                · exact rehome_kept (hW.sub (by decide)) ha1
                · refine KeptE.ok ?_
                  exact ha1
            clear_value l20
            refine Kept.ite ?_ ?_
            · exact complete_kept (hW.sub (by decide)) hl20
            · extract_lets +onlyGivenNames l23
              have hl23 : Kept W r (l23) := by
                unfold l23
                split
                · rename_i v24 v25 v26
                  refine Kept.ite ?_ ?_
                  · refine sealWeight_kept (hW.sub (by decide)) ?_
                    exact setObj_kept (hW.sub (by decide)) hl20
                  · exact hl20
                · rename_i v27 v28
                  exact hl20
              clear_value l23
              refine complete_kept (hW.sub (by decide)) ?_
              exact touchRead_kept (hW.sub (by decide)) hl23

theorem placeBytes_kept {W : Nat} {r : State} {a0} {a1} {a2} {a3} {a4 : State} (hW : Sub 20813 W) (ha4 : Kept W r a4) :
    Kept W r (placeBytes a0 a1 a2 a3 a4) := by
  unfold Sys2Proof.Machine.placeBytes
  apply forEach_kept
  · intro x0 x1 h2
    exact objWriteFor_kept (hW.sub (by decide)) h2
  · exact ha4

theorem objPolicy_kept {W : Nat} {r : State} {a0} {a1} {a2 : State} (hW : Sub 384 W) (ha2 : Kept W r a2) :
    KeptV W r (objPolicy a0 a1 a2) := by
  unfold Sys2Proof.Machine.objPolicy
  extract_lets +onlyGivenNames l0
  clear_value l0
  extract_lets +onlyGivenNames l1
  clear_value l1
  extract_lets +onlyGivenNames l2
  clear_value l2
  refine KeptV.ite ?_ ?_
  · refine KeptV.bind ?_
    intro b3 e4
    extract_lets +onlyGivenNames l5
    clear_value l5
    refine KeptV.ok ?_
    refine Kept.upd 256 ?_ ?_ rfl
    · exact hW.sub (by decide)
    · exact ha2
  · refine KeptV.ite ?_ ?_
    · refine KeptV.bind ?_
      intro b6 e7
      refine KeptV.bind ?_
      intro b8 e9
      refine KeptV.ok ?_
      exact setObj_kept (hW.sub (by decide)) ha2
    · refine KeptV.ite ?_ ?_
      · refine KeptV.bind ?_
        intro b10 e11
        refine KeptV.bind ?_
        intro b12 e13
        refine KeptV.bind ?_
        intro b14 e15
        refine KeptV.ok ?_
        refine editCols_kept (hW.sub (by decide)) ?_
        exact setSeq_kept (hW.sub (by decide)) ha2
      · exact KeptV.error

theorem runObjPolicy_kept {W : Nat} {r : State} {a0} {a1 : State} (hW : Sub 2650573 W) (ha1 : Kept W r a1) :
    Kept W r (runObjPolicy a0 a1) := by
  unfold runObjPolicy
  refine flushHeld_kept (hW.sub (by decide)) (finish_kept (hW.sub (by decide)) (KeptV.map (fun x h => ?_) (objPolicy_kept (hW.sub (by decide)) ha1)) ha1)
  exact abandonSweepOf_kept (hW.sub (by decide)) h

theorem cxlWrite_kept {W : Nat} {r : State} {a0} {a1} {a2} {a3 : State} (hW : Sub 2117997 W) (ha3 : Kept W r a3) :
    Kept W r (cxlWrite a0 a1 a2 a3) := by
  unfold Sys2Proof.Machine.cxlWrite
  extract_lets +onlyGivenNames l0
  clear_value l0
  extract_lets +onlyGivenNames l1
  clear_value l1
  refine Kept.ite ?_ ?_
  · exact ha3
  · refine Kept.ite ?_ ?_
    · exact refuseOnce_kept (hW.sub (by decide)) ha3
    · split
      · rename_i v2 v3
        refine Kept.ite ?_ ?_
        · exact memWrite_kept (hW.sub (by decide)) ha3
        · exact event_kept (hW.sub (by decide)) ha3
      · rename_i v4 v5 v6
        extract_lets +onlyGivenNames l7
        clear_value l7
        refine Kept.ite ?_ ?_
        · exact event_kept (hW.sub (by decide)) ha3
        · refine Kept.ite ?_ ?_
          · exact reloadWrite_kept (hW.sub (by decide)) ha3
          · refine Kept.ite ?_ ?_
            · exact event_kept (hW.sub (by decide)) ha3
            · refine Kept.ite ?_ ?_
              · exact event_kept (hW.sub (by decide)) ha3
              · exact objWrite_kept (hW.sub (by decide)) ha3

theorem portDownWait_kept {W : Nat} {r : State} {a0} {a1 : State} (hW : Sub 3699149 W) (ha1 : Kept W r a1) :
    Kept W r (portDownWait a0 a1) := by
  unfold Sys2Proof.Machine.portDownWait
  refine Kept.ite ?_ ?_
  · exact ha1
  · extract_lets +onlyGivenNames l0
    clear_value l0
    extract_lets +onlyGivenNames l1
    clear_value l1
    extract_lets +onlyGivenNames l2
    clear_value l2
    extract_lets +onlyGivenNames l3
    clear_value l3
    extract_lets +onlyGivenNames l4
    have hl4 : Kept W r (l4) := by
      unfold l4
      refine Kept.upd 4 ?_ ?_ rfl
      · exact hW.sub (by decide)
      · exact ha1
    clear_value l4
    extract_lets +onlyGivenNames l5
    have hl5 : Kept W r (l5) := by
      unfold l5
      apply forEach_kept
      · intro x6 x7 h8
        refine event_kept (hW.sub (by decide)) ?_
        exact cxlAnswer_kept (hW.sub (by decide)) h8
      · exact hl4
    clear_value l5
    extract_lets +onlyGivenNames l9
    clear_value l9
    refine flushHeld_kept (hW.sub (by decide)) ?_
    apply forEach_kept
    · intro x10 x11 h12
      exact failMove_kept (hW.sub (by decide)) h12
    · apply forEach_kept
      · intro x13 x14 h15
        exact complete_kept (hW.sub (by decide)) h15
      · exact hl5

theorem completePlaced_kept {W : Nat} {r : State} {a0} {a1} {a2} {a3 : State} (hW : Sub 8204 W) (ha3 : Kept W r a3) :
    Kept W r (completePlaced a0 a1 a2 a3) := by
  unfold Sys2Proof.Machine.completePlaced
  refine Kept.ite ?_ ?_
  · exact setWork_kept (hW.sub (by decide)) ha3
  · exact complete_kept (hW.sub (by decide)) ha3

theorem runObjRead_kept {W : Nat} {r : State} {a0} {a1 : State} (hW : Sub 1732876 W) (ha1 : Kept W r a1) :
    Kept W r (runObjRead a0 a1) := by
  unfold Sys2Proof.Machine.runObjRead
  extract_lets +onlyGivenNames l0
  clear_value l0
  split
  · rename_i v1 v2 v3
    exact complete_kept (hW.sub (by decide)) ha1
  · rename_i v4 v5 v6 v7
    extract_lets +onlyGivenNames l8
    clear_value l8
    extract_lets +onlyGivenNames l9
    clear_value l9
    extract_lets +onlyGivenNames l10
    clear_value l10
    split
    · rename_i v11 v12 v13
      exact stall_kept (hW.sub (by decide)) ha1
    · rename_i v14 v15
      extract_lets +onlyGivenNames l16
      have hl16 : Kept W r (l16) := by
        unfold l16
        apply forEach_kept
        · intro x17 x18 h19
          split
          · rename_i v20 v21 v22
            refine Kept.ite ?_ ?_
            · exact heathRead_kept (hW.sub (by decide)) h19
            · exact h19
          · rename_i v23 v24
            exact h19
        · exact ha1
      clear_value l16
      extract_lets +onlyGivenNames l25
      have hl25 : Kept W r (l25) := by
        unfold l25
        exact setObj_kept (hW.sub (by decide)) hl16
      clear_value l25
      split
      · rename_i v26
        refine complete_kept (hW.sub (by decide)) ?_
        exact sendTile_kept (hW.sub (by decide)) hl25
      · rename_i v27 v28
        extract_lets +onlyGivenNames l29
        clear_value l29
        extract_lets +onlyGivenNames l30
        clear_value l30
        extract_lets +onlyGivenNames l31
        have hl31 : Kept W r (l31) := by
          unfold l31
          apply runExpanded_kept
          · exact hW.sub (by decide)
          · exact ha1
          · apply forEach_kept
            · intro x32 x33 h34
              exact touchRead_kept (hW.sub (by decide)) h34
            · exact hl25
        clear_value l31
        split
        · rename_i v35 v36
          refine complete_kept (hW.sub (by decide)) ?_
          exact sendTile_kept (hW.sub (by decide)) hl31
        · rename_i v37 v38 v39 v40
          extract_lets +onlyGivenNames l41
          have hl41 : Kept W r (l41) := by
            unfold l41
            exact sendTile_kept (hW.sub (by decide)) hl31
          clear_value l41
          refine complete_kept (hW.sub (by decide)) ?_
          refine Kept.ite ?_ ?_
          · exact sherdFailed_kept (hW.sub (by decide)) hl41
          · exact hl41

end Sys2Proof.Laws
end

