-- ==== Sys2Proof/Laws/KeptPrefix.lean ====
section
/-! SUPPORT. What the operations of Sys2Proof/Machine/Prefix.lean keep: one lemma for each, which callers cite. -/

namespace Sys2Proof.Laws

open Sys2Proof Sys2Proof.Machine

theorem afterRebuild_kept {W : Nat} {r : State} {a0} {a1} {a2 : State} (hW : Sub 8 W) (ha0 : ∀ (y0) (y1) (_ : Kept W r y1), Kept W r (a0 y0 y1)) (ha2 : Kept W r a2) :
    Kept W r (afterRebuild a0 a1 a2) := by
  unfold Sys2Proof.Machine.afterRebuild
  refine Kept.ite ?_ ?_
  · exact setWork_kept (hW.sub (by decide)) ha2
  · apply ha0
    exact ha2

theorem withdrawRec_kept {W : Nat} {r : State} {a0} {a1 : State} (hW : Sub 529024 W) (ha1 : Kept W r a1) :
    Kept W r (withdrawRec a0 a1) := by
  unfold Sys2Proof.Machine.withdrawRec
  extract_lets +onlyGivenNames l0
  clear_value l0
  extract_lets +onlyGivenNames l1
  clear_value l1
  extract_lets +onlyGivenNames l2
  clear_value l2
  extract_lets +onlyGivenNames l3
  clear_value l3
  extract_lets +onlyGivenNames l4
  have hl4 : Kept W r (l4) := by
    unfold l4
    apply forEach_kept
    · intro x5 x6 h7
      exact setDur_kept (hW.sub (by decide)) h7
    · refine Kept.upd 512 ?_ ?_ rfl
      · exact hW.sub (by decide)
      · exact ha1
  clear_value l4
  extract_lets +onlyGivenNames l8
  have hl8 : Kept W r (l8) := by
    unfold l8
    exact bump32_kept (hW.sub (by decide)) hl4
  clear_value l8
  refine Kept.ite ?_ ?_
  · exact hl8
  · exact heathFree_kept (hW.sub (by decide)) hl8

theorem rebuildRec_kept {W : Nat} {r : State} {a0} {a1 : State} (hW : Sub 529024 W) (ha1 : Kept W r a1) :
    Kept W r (rebuildRec a0 a1) := by
  unfold Sys2Proof.Machine.rebuildRec
  split
  · rename_i v0 v1
    exact bump32_kept (hW.sub (by decide)) ha1
  · rename_i v2 v3 v4
    extract_lets +onlyGivenNames l5
    clear_value l5
    split
    · rename_i v6
      exact withdrawRec_kept (hW.sub (by decide)) ha1
    · rename_i v7 v8
      extract_lets +onlyGivenNames l9
      clear_value l9
      split
      · rename_i v10 v11
        exact withdrawRec_kept (hW.sub (by decide)) ha1
      · rename_i v12 v13 v14
        refine Kept.ite ?_ ?_
        · exact withdrawRec_kept (hW.sub (by decide)) ha1
        · extract_lets +onlyGivenNames l15
          clear_value l15
          extract_lets +onlyGivenNames l16
          have hl16 : Kept W r (l16).2 := by
            unfold l16
            exact newCol_kept (hW.sub (by decide)) ha1
          clear_value l16
          extract_lets +onlyGivenNames l17
          have hl17 : Kept W r (l17) := by
            unfold l17
            split
            · rename_i v18 v19 v20
              exact setCol_kept (hW.sub (by decide)) hl16
            · rename_i v21 v22
              exact hl16
          clear_value l17
          extract_lets +onlyGivenNames l23
          clear_value l23
          refine Kept.upd 512 ?_ ?_ rfl
          · exact hW.sub (by decide)
          · exact hl17

theorem writeLog_kept {W : Nat} {r : State} {a0} {a1 : State} (hW : Sub 20480 W) (ha1 : Kept W r a1) :
    Kept W r (writeLog a0 a1) := by
  unfold Sys2Proof.Machine.writeLog
  refine pump_kept (hW.sub (by decide)) ?_
  exact setShelf_kept (hW.sub (by decide)) ha1

theorem publishDone_kept {W : Nat} {r : State} {a0} {a1} {a2 : State} (hW : Sub 537484 W) (ha2 : Kept W r a2) :
    Kept W r (publishDone a0 a1 a2) := by
  unfold Sys2Proof.Machine.publishDone
  extract_lets +onlyGivenNames l0
  have hl0 : Kept W r (l0) := by
    unfold l0
    exact abandonMoves_kept (hW.sub (by decide)) ha2
  clear_value l0
  split
  · rename_i v1 v2
    exact hl0
  · rename_i v3 v4 v5
    extract_lets +onlyGivenNames l6
    clear_value l6
    extract_lets +onlyGivenNames l7
    clear_value l7
    extract_lets +onlyGivenNames l8
    have hl8 : Kept W r (l8) := by
      unfold l8
      refine Kept.ite ?_ ?_
      · exact freeLoc_kept (hW.sub (by decide)) hl0
      · exact hl0
    clear_value l8
    extract_lets +onlyGivenNames l9
    clear_value l9
    extract_lets +onlyGivenNames l10
    clear_value l10
    refine setCol_kept (hW.sub (by decide)) ?_
    refine Kept.upd 512 ?_ ?_ rfl
    · exact hW.sub (by decide)
    · exact hl8

theorem sealCol_kept {W : Nat} {r : State} {a0} {a1 : State} (hW : Sub 128 W) (ha1 : Kept W r a1) :
    Kept W r (sealCol a0 a1) := by
  unfold Sys2Proof.Machine.sealCol
  split
  · rename_i v0 v1 v2
    exact setCol_kept (hW.sub (by decide)) ha1
  · rename_i v3 v4
    exact ha1

theorem pruneLeaves_kept {W : Nat} {r : State} {a0} {a1} {a2} {a3} {a4 : State} (hW : Sub 537484 W) (ha4 : Kept W r a4) :
    Kept W r (pruneLeaves a0 a1 a2 a3 a4) := by
  induction a2 generalizing a0 a1 a3 a4 with
  | zero  =>
    unfold Sys2Proof.Machine.pruneLeaves
    exact ha4
  | succ k0 ih =>
    unfold Sys2Proof.Machine.pruneLeaves
    extract_lets +onlyGivenNames l0
    clear_value l0
    refine Kept.ite ?_ ?_
    · exact ha4
    · extract_lets +onlyGivenNames l1
      clear_value l1
      apply ih
      exact withdrawAll_kept (hW.sub (by decide)) ha4

theorem evictState_kept {W : Nat} {r : State} {a0} {a1} {a2 : State} (hW : Sub 537484 W) (ha2 : Kept W r a2) :
    KeptE W r (evictState a0 a1 a2) := by
  unfold Sys2Proof.Machine.evictState
  extract_lets +onlyGivenNames l0
  clear_value l0
  refine KeptE.bind ?_
  intro b1 e2
  refine KeptE.ite ?_ ?_
  · refine KeptE.bind ?_
    intro b3 e4
    refine KeptE.ok ?_
    apply forEach_kept
    · intro x5 x6 h7
      split
      · rename_i v8 v9 v10
        exact withdrawTree_kept (hW.sub (by decide)) h7
      · rename_i v11 v12
        exact h7
    · exact ha2
  · refine KeptE.ite ?_ ?_
    · extract_lets +onlyGivenNames l13
      clear_value l13
      refine KeptE.ok ?_
      exact pruneLeaves_kept (hW.sub (by decide)) ha2
    · extract_lets +onlyGivenNames l14
      clear_value l14
      refine KeptE.ok ?_
      apply forEach_kept
      · intro x15 x16 h17
        exact withdrawTree_kept (hW.sub (by decide)) h17
      · exact ha2

theorem pfxEvict_kept {W : Nat} {r : State} {a0} {a1} {a2 : State} (hW : Sub 537484 W) (ha2 : Kept W r a2) :
    KeptV W r (pfxEvict a0 a1 a2) := by
  unfold Sys2Proof.Machine.pfxEvict
  refine KeptV.bind ?_
  intro b0 e1
  extract_lets +onlyGivenNames l2
  clear_value l2
  refine KeptV.ok ?_
  refine KeptE.use ?_ e1
  exact evictState_kept (hW.sub (by decide)) ha2

theorem pfxEvictGo_kept {W : Nat} {r : State} {a0} {a1 : State} (hW : Sub 537485 W) (ha1 : Kept W r a1) :
    Kept W r (pfxEvictGo a0 a1) := by
  unfold Sys2Proof.Machine.pfxEvictGo
  refine Kept.ite ?_ ?_
  · exact setWork_kept (hW.sub (by decide)) ha1
  · refine settleDurable_kept (hW.sub (by decide)) ?_
    apply finish_kept
    · exact hW.sub (by decide)
    · exact pfxEvict_kept (hW.sub (by decide)) ha1
    · exact ha1

theorem consumeSave_kept {W : Nat} {r : State} {a0 : State} (hW : Sub 65536 W) (ha0 : Kept W r a0) :
    Kept W r (consumeSave a0) := by
  unfold Sys2Proof.Machine.consumeSave
  refine Kept.ite ?_ ?_
  · refine Kept.upd 65536 ?_ ?_ rfl
    · exact hW.sub (by decide)
    · exact ha0
  · exact ha0

theorem dropSealed_kept {W : Nat} {r : State} {a0 : State} (hW : Sub 4096 W) (ha0 : Kept W r a0) :
    Kept W r (dropSealed a0) := by
  unfold Sys2Proof.Machine.dropSealed
  refine Kept.upd 4096 ?_ ?_ rfl
  · exact hW.sub (by decide)
  · exact ha0

theorem shrinkRing_kept {W : Nat} {r : State} {a0 : State} (hW : Sub 512 W) (ha0 : Kept W r a0) :
    Kept W r (shrinkRing a0) := by
  unfold Sys2Proof.Machine.shrinkRing
  refine Kept.upd 512 ?_ ?_ rfl
  · exact hW.sub (by decide)
  · exact ha0

theorem fillRing_kept {W : Nat} {r : State} {a0 : State} (hW : Sub 20992 W) (ha0 : Kept W r a0) :
    Kept W r (fillRing a0) := by
  unfold Sys2Proof.Machine.fillRing
  split
  · rename_i v0 v1
    exact ha0
  · rename_i v2 v3 v4
    split
    · rename_i v5 v6 v7 v8 v9
      extract_lets +onlyGivenNames l10
      clear_value l10
      extract_lets +onlyGivenNames l11
      clear_value l11
      extract_lets +onlyGivenNames l12
      clear_value l12
      extract_lets +onlyGivenNames l13
      clear_value l13
      refine pump_kept (hW.sub (by decide)) ?_
      refine setShelf_kept (hW.sub (by decide)) ?_
      refine Kept.upd 512 ?_ ?_ rfl
      · exact hW.sub (by decide)
      · exact ha0
    · rename_i v14 v15
      exact ha0

theorem nextData_kept {W : Nat} {r : State} {a0} {a1 : State} (hW : Sub 537229 W) (ha1 : Kept W r a1) :
    Kept W r (nextData a0 a1) := by
  induction a0 generalizing a1 with
  | zero => exact ha1
  | succ n ih =>
    unfold nextData
    refine Kept.ite ha1 ?_
    split
    · exact ha1
    · rename_i k ks _
      extract_lets +onlyGivenNames src s1
      have h1 : Kept W r s1 := Kept.upd 512 (hW.sub (by decide)) ha1 rfl
      clear_value s1
      split
      · exact ih h1
      · extract_lets +onlyGivenNames u
        refine Kept.ite ha1 (Kept.ite (ih (failDur_kept (hW.sub (by decide)) h1)) ?_)
        split
        · exact ih (failDur_kept (hW.sub (by decide)) h1)
        · rename_i l s2 e2
          exact Kept.upd 512 (hW.sub (by decide)) (heathAlloc_kept (hW.sub (by decide)) h1 _ e2) rfl

theorem passCls_kept {W : Nat} {r : State} {a0} {a1} {a2 : State} (hW : Sub 4096 W) (ha2 : Kept W r a2) :
    ∀ x, passCls a0 a1 a2 = some x → Kept W r x := by
  intro x e
  unfold passCls at e
  dsimp only at e
  split at e
  · cases e
    exact setShelf_kept hW ha2
  · cases e

theorem logAppend_kept {W : Nat} {r : State} {a0} {a1 : State} (hW : Sub 20992 W) (ha1 : Kept W r a1) :
    ∀ x, logAppend a0 a1 = some x → Kept W r x := by
  intro x e
  unfold logAppend at e
  split at e
  · cases e
    refine writeLog_kept (hW.sub (by decide)) ?_
    exact Kept.upd 512 (hW.sub (by decide)) ha1 rfl
  · obtain ⟨p, hp, rfl⟩ := Option.map_eq_some_iff.1 e
    refine writeLog_kept (hW.sub (by decide)) ?_
    exact Kept.upd 512 (hW.sub (by decide)) (heathAlloc_kept (hW.sub (by decide)) ha1 p hp) rfl

theorem drainRing_kept {W : Nat} {r : State} {a0} {a1 : State} (hW : Sub 553869 W) (ha1 : Kept W r a1) :
    Kept W r (drainRing a0 a1) := by
  induction a0 generalizing a1 with
  | zero => exact ha1
  | succ n ih =>
    unfold drainRing
    split
    · exact ha1
    · rename_i e es _
      have hs : Kept W r { a1 with pfx := { a1.pfx with ring := es } } := Kept.upd 512 (hW.sub (by decide)) ha1 rfl
      dsimp only
      split
      · split
        · split
          · exact ih (Kept.upd 512 (hW.sub (by decide)) hs rfl)
          · exact ha1
        · cases k : logAppend _ a1 with
          | none => exact ha1
          | some t => exact logAppend_kept (hW.sub (by decide)) ha1 t k
      · split
        · split
          · exact ih (publishDone_kept (hW.sub (by decide)) (Kept.upd 512 (hW.sub (by decide)) hs rfl))
          · exact ha1
        · split
          · rename_i k
            exact logAppend_kept (hW.sub (by decide)) ha1 _ k
          · split
            · exact ha1
            · exact ih (failDur_kept (hW.sub (by decide)) hs)
      · split
        · rename_i k
          exact ih (passCls_kept (hW.sub (by decide)) hs _ k)
        · exact ha1
      · split
        · exact ih hs
        · exact ha1

theorem tendRing_kept {W : Nat} {r : State} {a0 : State} (hW : Sub 553869 W) (ha0 : Kept W r a0) :
    Kept W r (tendRing a0) := by
  unfold Sys2Proof.Machine.tendRing
  extract_lets +onlyGivenNames l0
  have hl0 : Kept W r (l0) := by
    unfold l0
    refine dropSealed_kept (hW.sub (by decide)) ?_
    refine shrinkRing_kept (hW.sub (by decide)) ?_
    exact drainRing_kept (hW.sub (by decide)) ha0
  clear_value l0
  refine fillRing_kept (hW.sub (by decide)) ?_
  exact nextData_kept (hW.sub (by decide)) hl0

theorem drainAll_kept {W : Nat} {r : State} {a0 : State} (hW : Sub 619405 W) (ha0 : Kept W r a0) :
    Kept W r (drainAll a0) := by
  unfold Sys2Proof.Machine.drainAll
  refine consumeSave_kept (hW.sub (by decide)) ?_
  refine settleDurable_kept (hW.sub (by decide)) ?_
  exact tendRing_kept (hW.sub (by decide)) ha0

theorem enterRecord_kept {W : Nat} {r : State} {a0} {a1} {a2 : State} (hW : Sub 619405 W) (ha2 : Kept W r a2) :
    Kept W r (enterRecord a0 a1 a2) := by
  unfold Sys2Proof.Machine.enterRecord
  split
  · rename_i v0 v1
    exact setDur_kept (hW.sub (by decide)) ha2
  · rename_i v2 v3 v4
    extract_lets +onlyGivenNames l5
    clear_value l5
    extract_lets +onlyGivenNames l6
    clear_value l6
    extract_lets +onlyGivenNames l7
    have hl7 : Kept W r (l7) := by
      unfold l7
      refine setDur_kept (hW.sub (by decide)) ?_
      refine Kept.upd 512 ?_ ?_ rfl
      · exact hW.sub (by decide)
      · exact ha2
    clear_value l7
    extract_lets +onlyGivenNames l8
    have hl8 : Kept W r (l8) := by
      unfold l8
      exact drainRing_kept (hW.sub (by decide)) hl7
    clear_value l8
    refine drainAll_kept (hW.sub (by decide)) ?_
    exact durEvent_kept (hW.sub (by decide)) hl8

theorem pfxLookup_kept {W : Nat} {r : State} {a0} {a1} {a2 : State} (hW : Sub 2622336 W) (ha2 : Kept W r a2) :
    KeptV W r (pfxLookup a0 a1 a2) := by
  unfold Sys2Proof.Machine.pfxLookup
  refine KeptV.bind ?_
  intro b0 e1
  refine KeptV.bind ?_
  intro b2 e3
  extract_lets +onlyGivenNames l4
  clear_value l4
  extract_lets +onlyGivenNames l5
  clear_value l5
  extract_lets +onlyGivenNames l6
  have hl6 : Kept W r (l6) := by
    unfold l6
    refine odAdd_kept (hW.sub (by decide)) ?_
    refine odAdd_kept (hW.sub (by decide)) ?_
    refine bump64_kept (hW.sub (by decide)) ?_
    exact touchRead_kept (hW.sub (by decide)) ha2
  clear_value l6
  split
  · rename_i v7 v8
    refine KeptV.ok ?_
    exact hl6
  · rename_i v9 v10 v11
    split
    · rename_i v12 v13
      extract_lets +onlyGivenNames l14
      clear_value l14
      extract_lets +onlyGivenNames l15
      clear_value l15
      extract_lets +onlyGivenNames l16
      have hl16 : Kept W r (l16) := by
        unfold l16
        refine fitList_kept (hW.sub (by decide)) ?_
        refine setSeq_kept (hW.sub (by decide)) ?_
        apply forEach_kept
        · intro x17 x18 h19
          exact addRef_kept (hW.sub (by decide)) h19
        · exact hl6
      clear_value l16
      extract_lets +onlyGivenNames l20
      clear_value l20
      refine KeptV.ok ?_
      refine Kept.upd 512 ?_ ?_ rfl
      · exact hW.sub (by decide)
      · exact hl16
    · rename_i v21 v22
      exact KeptV.error

theorem runPfxLookup_kept {W : Nat} {r : State} {a0} {a1 : State} (hW : Sub 2630540 W) (ha1 : Kept W r a1) :
    Kept W r (runPfxLookup a0 a1) := by
  unfold Sys2Proof.Machine.runPfxLookup
  apply afterRebuild_kept
  · exact hW.sub (by decide)
  · intro x0 x1 h2
    apply finish_kept
    · exact hW.sub (by decide)
    · exact pfxLookup_kept (hW.sub (by decide)) h2
    · exact h2
  · exact ha1

theorem adoptAll_kept {W : Nat} {r : State} {a0} {a1} {a2} {a3 : State} (hW : Sub 537548 W) (ha3 : Kept W r a3) :
    Kept W r (adoptAll a0 a1 a2 a3) := by
  unfold Sys2Proof.Machine.adoptAll
  apply forEach_kept
  · intro x0 x1 h2
    split
    · rename_i v3 v4
      exact h2
    · rename_i v5 v6 v7
      extract_lets +onlyGivenNames l8
      clear_value l8
      refine Kept.ite ?_ ?_
      · refine dropRef_kept (hW.sub (by decide)) ?_
        refine dropSlices_kept (hW.sub (by decide)) ?_
        refine setSeq_kept (hW.sub (by decide)) ?_
        exact addRef_kept (hW.sub (by decide)) h2
      · exact h2
  · exact ha3

theorem askDur_kept {W : Nat} {r : State} {a0} {a1 : State} (hW : Sub 640 W) (ha1 : Kept W r a1) :
    Kept W r (askDur a0 a1) := by
  unfold Sys2Proof.Machine.askDur
  apply forEach_kept
  · intro x0 x1 h2
    refine setDur_kept (hW.sub (by decide)) ?_
    refine Kept.upd 512 ?_ ?_ rfl
    · exact hW.sub (by decide)
    · exact h2
  · exact ha1

theorem commitCol_kept {W : Nat} {r : State} {p tag src i slot : Nat} {a b : Commit} (hW : Sub 524928 W)
    (h : Kept W r a.st) (e : commitCol p tag src i slot a = .ok b) : Kept W r b.st := by
  unfold commitCol at e
  extract_lets +onlyGivenNames toks f hit s0 at e
  clear_value hit
  have h0 : Kept W r s0 := odAdd_kept (hW.sub (by decide)) h
  split at e
  · split at e
    · cases e
      exact h0
    · cases e
  · split at e
    · cases e
      exact sealCol_kept (hW.sub (by decide)) h0
    · cases e
      exact Kept.upd 512 (hW.sub (by decide)) (addRef_kept (hW.sub (by decide)) (sealCol_kept (hW.sub (by decide)) h0)) rfl

theorem commitCols_kept {W : Nat} {r : State} {p tag src i : Nat} {l : List Nat} {a b : Commit} (hW : Sub 524928 W)
    (h : Kept W r a.st) (e : commitCols p tag src i l a = .ok b) : Kept W r b.st := by
  induction l generalizing i a with
  | nil =>
    cases e
    exact h
  | cons k ks ih =>
    unfold commitCols at e
    split at e
    · cases e
    · rename_i c ec
      exact ih (commitCol_kept hW h ec) e

theorem pfxCommit_kept {W : Nat} {r : State} {a0} {a1 : State} (hW : Sub 553933 W) (ha1 : Kept W r a1) :
    Kept W r (pfxCommit a0 a1) := by
  unfold pfxCommit
  have hc : ∀ st v, Kept W r (complete a0 st v a1) := fun _ _ => complete_kept (hW.sub (by decide)) ha1
  extract_lets +onlyGivenNames d durable
  split
  · exact hc _ _
  · extract_lets +onlyGivenNames first n dst owns up
    split
    · exact hc _ _
    · rename_i a ea
      have ha : Kept W r a.st := commitCols_kept (hW.sub (by decide)) ha1 ea
      extract_lets +onlyGivenNames fresh asks all
      have hb : Kept W r (bump64 0x4020 0x06 a1) := bump64_kept (hW.sub (by decide)) ha1
      refine Kept.ite (hc _ _) (Kept.ite (hc _ _) (Kept.ite (hc _ _) (Kept.ite (complete_kept (hW.sub (by decide)) hb) ?_)))
      refine Kept.ite (hc _ _) (Kept.ite (setWork_kept (hW.sub (by decide)) (onlyIf_kept (fun _ h => bump64_kept (hW.sub (by decide)) h) ha1)) ?_)
      extract_lets +onlyGivenNames s1 s2 s3 slots res
      have h1 : Kept W r s1 := Kept.ite ha (forEach_kept (fun _ _ h => memWrite_kept (hW.sub (by decide)) h) ha)
      have h2 : Kept W r s2 := Kept.ite (adoptAll_kept (hW.sub (by decide)) h1) h1
      have h3 : Kept W r s3 := tendRing_kept (hW.sub (by decide)) (touchRead_kept (hW.sub (by decide)) (askDur_kept (hW.sub (by decide)) h2))
      refine Kept.ite ?_ (finishCommit_kept (hW.sub (by decide)) h3)
      exact settleDurable_kept (hW.sub (by decide)) (setWork_kept (hW.sub (by decide)) h3)

theorem runPfxCommit_kept {W : Nat} {r : State} {a0} {a1 : State} (hW : Sub 553933 W) (ha1 : Kept W r a1) :
    Kept W r (runPfxCommit a0 a1) := by
  unfold Sys2Proof.Machine.runPfxCommit
  apply afterRebuild_kept
  · exact hW.sub (by decide)
  · intro x0 x1 h2
    exact pfxCommit_kept (hW.sub (by decide)) h2
  · exact ha1

theorem runPfxEvict_kept {W : Nat} {r : State} {a0} {a1 : State} (hW : Sub 537485 W) (ha1 : Kept W r a1) :
    Kept W r (runPfxEvict a0 a1) := by
  unfold Sys2Proof.Machine.runPfxEvict
  apply afterRebuild_kept
  · exact hW.sub (by decide)
  · intro x0 x1 h2
    exact pfxEvictGo_kept (hW.sub (by decide)) h2
  · exact ha1

theorem resumePrefix_kept {W : Nat} {r : State} {a0} {a1 : State} (hW : Sub 2651085 W) (ha1 : Kept W r a1) :
    Kept W r (resumePrefix a0 a1) := by
  unfold Sys2Proof.Machine.resumePrefix
  split
  · rename_i v0 v1
    exact ha1
  · rename_i v2 v3 v4
    refine Kept.ite ?_ ?_
    · apply goOrDefer_kept
      · exact hW.sub (by decide)
      · intro x5 x6 h7
        exact runPfxLookup_kept (hW.sub (by decide)) h7
      · exact ha1
    · refine Kept.ite ?_ ?_
      · apply goOrDefer_kept
        · exact hW.sub (by decide)
        · intro x8 x9 h10
          exact runPfxCommit_kept (hW.sub (by decide)) h10
        · exact ha1
      · exact runPfxEvict_kept (hW.sub (by decide)) ha1

theorem tendPrefix_kept {W : Nat} {r : State} {a0 : State} (hW : Sub 2651085 W) (ha0 : Kept W r a0) :
    Kept W r (tendPrefix a0) := by
  unfold Sys2Proof.Machine.tendPrefix
  apply forEach_kept
  · intro x0 x1 h2
    apply forEach_kept
    · intro x3 x4 h5
      exact resumePrefix_kept (hW.sub (by decide)) h5
    · exact h2
  · exact settleDurable_kept (hW.sub (by decide)) ha0

theorem rebuildStep_kept {W : Nat} {r : State} {a0 : State} (hW : Sub 2651085 W) (ha0 : Kept W r a0) :
    Kept W r (rebuildStep a0) := by
  unfold Sys2Proof.Machine.rebuildStep
  refine Kept.ite ?_ ?_
  · exact ha0
  · split
    · rename_i v0 v1
      refine tendPrefix_kept (hW.sub (by decide)) ?_
      refine Kept.upd 512 ?_ ?_ rfl
      · exact hW.sub (by decide)
      · exact ha0
    · rename_i v2 v3 v4 v5
      extract_lets +onlyGivenNames l6
      clear_value l6
      extract_lets +onlyGivenNames l7
      have hl7 : Kept W r (l7) := by
        unfold l7
        refine Kept.upd 512 ?_ ?_ rfl
        · exact hW.sub (by decide)
        · exact ha0
      clear_value l7
      refine Kept.ite ?_ ?_
      · exact hl7
      · exact rebuildRec_kept (hW.sub (by decide)) hl7

theorem rebuildStart_kept {W : Nat} {r : State} {a0 : State} (hW : Sub 512 W) (ha0 : Kept W r a0) :
    Kept W r (rebuildStart a0).2 := by
  unfold Sys2Proof.Machine.rebuildStart
  split
  · rename_i v0
    dsimp only
    exact ha0
  · rename_i v1
    extract_lets +onlyGivenNames l2
    clear_value l2
    extract_lets +onlyGivenNames l3
    clear_value l3
    dsimp only
    refine Kept.upd 512 ?_ ?_ rfl
    · exact hW.sub (by decide)
    · exact ha0

theorem saveRingCopyEnd_kept {W : Nat} {r : State} {a0 : State} (hW : Sub 619405 W) (ha0 : Kept W r a0) :
    Kept W r (saveRingCopyEnd a0) := by
  unfold Sys2Proof.Machine.saveRingCopyEnd
  refine Kept.ite ?_ ?_
  · exact ha0
  · extract_lets +onlyGivenNames l0
    have hl0 : Kept W r (l0) := by
      unfold l0
      exact tendRing_kept (hW.sub (by decide)) ha0
    clear_value l0
    extract_lets +onlyGivenNames l1
    split
    · rename_i v2 v3 v4 v5 v6 v7
      refine Kept.ite ?_ ?_
      · refine drainAll_kept (hW.sub (by decide)) ?_
        refine Kept.upd 512 ?_ ?_ rfl
        · exact hW.sub (by decide)
        · exact hl0
      · exact hl0
    · rename_i v8 v9 v10 v11 v12 v13 v14 v15
      refine Kept.ite ?_ ?_
      · exact enterRecord_kept (hW.sub (by decide)) hl0
      · exact hl0
    · rename_i v16 v17 v18 v19 v20 v21 v22 v23
      split
      · rename_i v24 v25 v26
        extract_lets +onlyGivenNames l27
        clear_value l27
        extract_lets +onlyGivenNames l28
        clear_value l28
        refine Kept.ite ?_ ?_
        · refine enterRecord_kept (hW.sub (by decide)) ?_
          refine Kept.upd 512 ?_ ?_ rfl
          · exact hW.sub (by decide)
          · exact hl0
        · exact hl0
      · rename_i v29 v30
        exact hl0
    · rename_i v31 v32 v33 v34 v35 v36
      exact hl0

end Sys2Proof.Laws
end

