-- ==== Sys2Proof/Laws/KeptCoding.lean ====
section
/-! SUPPORT. What the operations of Sys2Proof/Machine/Coding.lean keep: one lemma for each, which callers cite. -/

namespace Sys2Proof.Laws

open Sys2Proof Sys2Proof.Machine

theorem giveBlock_kept {W : Nat} {r : State} {a0} {a1 : State} (hW : Sub 8 W) (ha1 : Kept W r a1) :
    Kept W r (giveBlock a0 a1) := by
  unfold giveBlock
  refine Kept.ite ha1 ?_
  extract_lets +onlyGivenNames pick
  cases e : a1.queues.cmds.findSome? pick with
  | none => exact ha1
  | some t =>
    obtain ⟨c, _, hc⟩ := List.exists_of_findSome?_eq_some e
    unfold pick at hc
    split at hc
    · obtain ⟨i, _, hi⟩ := Option.map_eq_some_iff.1 hc
      exact hi ▸ setWork_kept hW ha1
    · cases hc

theorem assignCoding_kept {W : Nat} {r : State} {a0 : State} (hW : Sub 8 W) (ha0 : Kept W r a0) :
    Kept W r (assignCoding a0) := by
  unfold Sys2Proof.Machine.assignCoding
  apply forEach_kept
  · intro x0 x1 h2
    exact giveBlock_kept (hW.sub (by decide)) h2
  · exact ha0

theorem startCoding_kept {W : Nat} {r : State} {a0} {a1 : State} (hW : Sub 8204 W) (ha1 : Kept W r a1) :
    Kept W r (startCoding a0 a1) := by
  unfold Sys2Proof.Machine.startCoding
  split
  · rename_i v0 v1 v2
    exact complete_kept (hW.sub (by decide)) ha1
  · rename_i v3 v4 v5
    refine Kept.ite ?_ ?_
    · exact complete_kept (hW.sub (by decide)) ha1
    · refine Kept.ite ?_ ?_
      · exact setWork_kept (hW.sub (by decide)) ha1
      · split
        · rename_i v6 v7 v8
          exact stall_kept (hW.sub (by decide)) ha1
        · rename_i v9 v10
          extract_lets +onlyGivenNames l11
          clear_value l11
          refine assignCoding_kept (hW.sub (by decide)) ?_
          exact setWork_kept (hW.sub (by decide)) ha1

theorem touchCoded_kept {W : Nat} {r : State} {a0} {a1 : State} (hW : Sub 256 W) (ha1 : Kept W r a1) :
    Kept W r (touchCoded a0 a1) := by
  unfold Sys2Proof.Machine.touchCoded
  extract_lets +onlyGivenNames l0
  have hl0 : Kept W r (l0) := by
    unfold l0
    exact touchRead_kept (hW.sub (by decide)) ha1
  clear_value l0
  split
  · rename_i v1 v2 v3
    exact touchRead_kept (hW.sub (by decide)) hl0
  · rename_i v4 v5
    exact hl0

theorem finishCoding_kept {W : Nat} {r : State} {a0} {a1} {a2 : State} (hW : Sub 553293 W) (ha2 : Kept W r a2) :
    Kept W r (finishCoding a0 a1 a2) := by
  unfold Sys2Proof.Machine.finishCoding
  split
  · rename_i v0 v1 v2
    exact complete_kept (hW.sub (by decide)) ha2
  · rename_i v3 v4 v5
    extract_lets +onlyGivenNames l6
    have hl6 : Kept W r (l6) := by
      unfold l6
      exact touchCoded_kept (hW.sub (by decide)) ha2
    clear_value l6
    refine Kept.ite ?_ ?_
    · extract_lets +onlyGivenNames l7
      clear_value l7
      extract_lets +onlyGivenNames l8
      clear_value l8
      refine completePlaced_kept (hW.sub (by decide)) ?_
      exact objWriteFor_kept (hW.sub (by decide)) hl6
    · extract_lets +onlyGivenNames l9
      clear_value l9
      refine completePlaced_kept (hW.sub (by decide)) ?_
      refine odAdd_kept (hW.sub (by decide)) ?_
      exact objWriteFor_kept (hW.sub (by decide)) hl6

theorem runCompress_kept {W : Nat} {r : State} {a0} {a1 : State} (hW : Sub 8204 W) (ha1 : Kept W r a1) :
    Kept W r (runCompress a0 a1) := by
  unfold Sys2Proof.Machine.runCompress
  exact startCoding_kept (hW.sub (by decide)) ha1

theorem tableLoad_kept {W : Nat} {r : State} {a0} {a1} {a2 : State} (hW : Sub 1280 W) (ha2 : Kept W r a2) :
    KeptV W r (tableLoad a0 a1 a2) := by
  unfold Sys2Proof.Machine.tableLoad
  extract_lets +onlyGivenNames l0
  clear_value l0
  extract_lets +onlyGivenNames l1
  clear_value l1
  extract_lets +onlyGivenNames l2
  clear_value l2
  extract_lets +onlyGivenNames l3
  clear_value l3
  extract_lets +onlyGivenNames l4
  have hl4 : ∀ (z0), Kept W r (l4 z0).2 := by
    intros
    rename_i v5
    unfold l4
    dsimp only
    refine Kept.upd 1024 ?_ ?_ rfl
    · exact hW.sub (by decide)
    · exact ha2
  clear_value l4
  refine KeptV.ite ?_ ?_
  · refine KeptV.bind ?_
    intro b6 e7
    refine KeptV.bind ?_
    intro b8 e9
    refine KeptV.ok ?_
    apply hl4
  · refine KeptV.bind ?_
    intro b10 e11
    refine KeptV.bind ?_
    intro b12 e13
    extract_lets +onlyGivenNames l14
    clear_value l14
    refine KeptV.bind ?_
    intro b15 e16
    refine KeptV.bind ?_
    intro b17 e18
    extract_lets +onlyGivenNames l19
    have hl19 : Kept W r (l19).2 := by
      unfold l19
      apply hl4
    clear_value l19
    refine KeptV.ok ?_
    exact touchRead_kept (hW.sub (by decide)) hl19

theorem runTableLoad_kept {W : Nat} {r : State} {a0} {a1 : State} (hW : Sub 533772 W) (ha1 : Kept W r a1) :
    Kept W r (runTableLoad a0 a1) := by
  unfold Sys2Proof.Machine.runTableLoad
  split
  · rename_i v0 v1 v2 v3
    refine complete_kept (hW.sub (by decide)) ?_
    refine KeptV.use ?_ v3
    exact tableLoad_kept (hW.sub (by decide)) ha1
  · rename_i v5 v6 v7
    refine complete_kept (hW.sub (by decide)) ?_
    refine Kept.ite ?_ ?_
    · exact bump32_kept (hW.sub (by decide)) ha1
    · exact ha1

theorem runTableBuild_kept {W : Nat} {r : State} {a0} {a1 : State} (hW : Sub 8204 W) (ha1 : Kept W r a1) :
    Kept W r (runTableBuild a0 a1) := by
  unfold Sys2Proof.Machine.runTableBuild
  exact startCoding_kept (hW.sub (by decide)) ha1

theorem abandonBlock_kept {W : Nat} {r : State} {a0} {a1 : State} (hW : Sub 8 W) (ha1 : Kept W r a1) :
    Kept W r (abandonBlock a0 a1) := by
  unfold Sys2Proof.Machine.abandonBlock
  refine Kept.upd 8 ?_ ?_ rfl
  · exact hW.sub (by decide)
  · exact ha1

theorem blockEncoded_kept {W : Nat} {r : State} {a0} {a1} {a2} {a3 : State} (hW : Sub 553293 W) (ha3 : Kept W r a3) :
    Kept W r (blockEncoded a0 a1 a2 a3) := by
  unfold Sys2Proof.Machine.blockEncoded
  split
  · rename_i v0 v1
    exact ha3
  · rename_i v2 v3 v4
    split
    · rename_i v5 v6 v7
      split
      · rename_i v8 v9
        exact ha3
      · rename_i v10 v11 v12
        refine Kept.ite ?_ ?_
        · refine assignCoding_kept (hW.sub (by decide)) ?_
          exact complete_kept (hW.sub (by decide)) ha3
        · extract_lets +onlyGivenNames l13
          clear_value l13
          refine Kept.ite ?_ ?_
          · refine assignCoding_kept (hW.sub (by decide)) ?_
            exact finishCoding_kept (hW.sub (by decide)) ha3
          · refine assignCoding_kept (hW.sub (by decide)) ?_
            exact setWork_kept (hW.sub (by decide)) ha3
    · rename_i v14 v15
      exact ha3

end Sys2Proof.Laws
end

