-- ==== Sys2Proof/Laws/KeptJobData.lean ====
section
/-! SUPPORT. What the operations of Sys2Proof/Machine/JobData.lean keep: one lemma for each, which callers cite. -/

namespace Sys2Proof.Laws

open Sys2Proof Sys2Proof.Machine

theorem writeTail_kept {W : Nat} {r : State} {a0} {a1 : State} (hW : Sub 524448 W) (ha1 : Kept W r a1) :
    Kept W r (writeTail a0 a1) := by
  unfold Sys2Proof.Machine.writeTail
  split
  · rename_i v0 v1
    exact ha1
  · rename_i v2 v3 v4
    split
    · rename_i v5 v6
      exact ha1
    · rename_i v7 v8 v9
      extract_lets +onlyGivenNames l10
      clear_value l10
      extract_lets +onlyGivenNames l11
      clear_value l11
      extract_lets +onlyGivenNames l12
      clear_value l12
      extract_lets +onlyGivenNames l13
      clear_value l13
      split
      · rename_i v14
        exact ha1
      · rename_i v15 v16
        extract_lets +onlyGivenNames l17
        clear_value l17
        extract_lets +onlyGivenNames l18
        clear_value l18
        extract_lets +onlyGivenNames l19
        clear_value l19
        extract_lets +onlyGivenNames l20
        have hl20 : Kept W r (l20) := by
          unfold l20
          refine odAdd_kept (hW.sub (by decide)) ?_
          refine odAdd_kept (hW.sub (by decide)) ?_
          exact setSeq_kept (hW.sub (by decide)) ha1
        clear_value l20
        refine Kept.ite ?_ ?_
        · refine odAdd_kept (hW.sub (by decide)) ?_
          exact editEntry_kept (hW.sub (by decide)) hl20
        · exact hl20

theorem pullHome_kept {W : Nat} {r : State} {a0} {a1} {a2} {a3 : State} (hW : Sub 2101440 W) (ha3 : Kept W r a3) :
    KeptE W r (pullHome a0 a1 a2 a3) := by
  unfold Sys2Proof.Machine.pullHome
  split
  · rename_i v0 v1
    exact KeptE.error
  · rename_i v2 v3 v4
    refine KeptE.ite ?_ ?_
    · refine KeptE.ok ?_
      exact ha3
    · refine KeptE.ite ?_ ?_
      · exact KeptE.error
      · refine KeptE.ite ?_ ?_
        · exact KeptE.error
        · extract_lets +onlyGivenNames l5
          clear_value l5
          extract_lets +onlyGivenNames l6
          clear_value l6
          extract_lets +onlyGivenNames l7
          have hl7 : KeptV W r (l7) := by
            unfold l7
            refine KeptV.ite ?_ ?_
            · refine KeptV.ok ?_
              exact drawn_kept (hW.sub (by decide)) ha3
            · exact allocate_kept (hW.sub (by decide)) ha3
          clear_value l7
          split
          · rename_i v8 v9
            exact KeptE.error
          · rename_i v10 v11 v12
            extract_lets +onlyGivenNames l13
            have hl13 : Kept W r (l13) := by
              unfold l13
              refine freeLoc_kept (hW.sub (by decide)) ?_
              refine freeOpt_kept (hW.sub (by decide)) ?_
              exact hl7 _ rfl
            clear_value l13
            refine KeptE.ok ?_
            refine dropSlices_kept (hW.sub (by decide)) ?_
            exact editCols_kept (hW.sub (by decide)) hl13

theorem readyColumns_kept {W : Nat} {r : State} {a0} {a1} {a2} {a3 : State} (hW : Sub 2634700 W) (ha3 : Kept W r a3) :
    KeptE W r (readyColumns a0 a1 a2 a3) := by
  unfold Sys2Proof.Machine.readyColumns
  split
  · rename_i v0 v1 v2
    exact KeptE.error
  · rename_i v3 v4 v5 v6
    split
    · rename_i v7 v8
      exact KeptE.error
    · rename_i v9 v10 v11
      extract_lets +onlyGivenNames l12
      have hl12 : KeptE W r (l12) := by
        unfold l12
        refine KeptE.ite ?_ ?_
        · refine KeptE.ok ?_
          refine KeptV.use ?_ v6
          exact privateLast_kept (hW.sub (by decide)) ha3
        · refine pullHome_kept (hW.sub (by decide)) ?_
          refine KeptV.use ?_ v6
          exact privateLast_kept (hW.sub (by decide)) ha3
      clear_value l12
      split
      · rename_i v15 v16
        exact hl12
      · rename_i v17 v18
        refine addCols_kept (hW.sub (by decide)) ?_
        exact hl12 _ rfl

theorem abandonSweeps_kept {W : Nat} {r : State} {a0 : State} (hW : Sub 536972 W) (ha0 : Kept W r a0) :
    Kept W r (abandonSweeps a0) := by
  unfold Sys2Proof.Machine.abandonSweeps
  apply forEach_kept
  · intro x0 x1 h2
    extract_lets +onlyGivenNames l3
    clear_value l3
    refine Kept.ite ?_ ?_
    · exact failMove_kept (hW.sub (by decide)) h2
    · exact h2
  · exact ha0

theorem writeStepRow_kept {W : Nat} {r : State} {a0} {a1 : State} (hW : Sub 524480 W) (ha1 : Kept W r a1) :
    Kept W r (writeStepRow a0 a1) := by
  unfold Sys2Proof.Machine.writeStepRow
  split
  · rename_i v0 v1
    exact ha1
  · rename_i v2 v3 v4
    split
    · rename_i v5 v6
      exact ha1
    · rename_i v7 v8 v9
      split
      · rename_i v10 v11
        exact ha1
      · rename_i v12 v13 v14 v15
        extract_lets +onlyGivenNames l16
        have hl16 : Kept W r (l16) := by
          unfold l16
          refine odAdd_kept (hW.sub (by decide)) ?_
          refine odAdd_kept (hW.sub (by decide)) ?_
          exact writeToken_kept (hW.sub (by decide)) ha1
        clear_value l16
        extract_lets +onlyGivenNames l17
        have hl17 : Kept W r (l17) := by
          unfold l17
          refine Kept.ite ?_ ?_
          · exact hl16
          · exact dropWritten_kept (hW.sub (by decide)) hl16
        clear_value l17
        extract_lets +onlyGivenNames l18
        split
        · rename_i v19 v20
          exact hl17
        · rename_i v21 v22 v23
          refine Kept.ite ?_ ?_
          · exact hl17
          · refine Kept.ite ?_ ?_
            · refine setLength_kept (hW.sub (by decide)) ?_
              exact setSeq_kept (hW.sub (by decide)) hl17
            · exact setSeq_kept (hW.sub (by decide)) hl17

end Sys2Proof.Laws
end

