-- ==== Sys2Proof/Laws/KeptJobs.lean ====
section
/-! SUPPORT. What the operations of Sys2Proof/Machine/Jobs.lean keep: one lemma for each, which callers cite. -/

namespace Sys2Proof.Laws

open Sys2Proof Sys2Proof.Machine

theorem setJob_kept {W : Nat} {r : State} {a0} {a1 : State} (hW : Sub 64 W) (ha1 : Kept W r a1) :
    Kept W r (setJob a0 a1) := by
  unfold Sys2Proof.Machine.setJob
  refine Kept.upd 64 ?_ ?_ rfl
  · exact hW.sub (by decide)
  · exact ha1

theorem claimStep_kept {W : Nat} {r : State} {a0} {a1} {a2} {a3 : State} (hW : Sub 2634732 W) (ha3 : Kept W r a3) :
    Kept W r (claimStep a0 a1 a2 a3) := by
  unfold Sys2Proof.Machine.claimStep
  split
  · rename_i v0 v1 v2
    refine KeptE.use ?_ v2
    exact readyColumns_kept (hW.sub (by decide)) ha3
  · rename_i v4 v5 v6
    refine Kept.ite ?_ ?_
    · refine editEntry_kept (hW.sub (by decide)) ?_
      exact event_kept (hW.sub (by decide)) ha3
    · exact ha3

theorem pullRow_kept {W : Nat} {r : State} {a0} {a1 : State} (hW : Sub 2101440 W) (ha1 : Kept W r a1) :
    Kept W r (pullRow a0 a1) := by
  unfold Sys2Proof.Machine.pullRow
  split
  · rename_i v0 v1
    exact ha1
  · rename_i v2 v3 v4
    split
    · rename_i v5 v6 v7
      refine KeptE.use ?_ v7
      exact pullHome_kept (hW.sub (by decide)) ha1
    · rename_i v9 v10 v11
      refine Kept.ite ?_ ?_
      · exact setJob_kept (hW.sub (by decide)) ha1
      · exact ha1

theorem startJob_kept {W : Nat} {r : State} {a0} {a1 : State} (hW : Sub 2634732 W) (ha1 : Kept W r a1) :
    Kept W r (startJob a0 a1) := by
  unfold Sys2Proof.Machine.startJob
  refine Kept.ite ?_ ?_
  · exact ha1
  · extract_lets +onlyGivenNames l0
    have hl0 : Kept W r (l0) := by
      unfold l0
      exact setJob_kept (hW.sub (by decide)) ha1
    clear_value l0
    refine Kept.ite ?_ ?_
    · exact hl0
    · refine Kept.ite ?_ ?_
      · extract_lets +onlyGivenNames l1
        have hl1 : Kept W r (l1) := by
          unfold l1
          refine Kept.ite ?_ ?_
          · exact claimStep_kept (hW.sub (by decide)) hl0
          · exact pullRow_kept (hW.sub (by decide)) hl0
        clear_value l1
        split
        · rename_i v2 v3 v4
          exact setJob_kept (hW.sub (by decide)) hl1
        · rename_i v5 v6
          refine Kept.ite ?_ ?_
          · exact hl1
          · exact writeStepRow_kept (hW.sub (by decide)) hl1
      · exact writeTail_kept (hW.sub (by decide)) hl0

theorem acceptRow_kept {W : Nat} {r : State} {a0} {a1} {a2} {a3} {a4 : State} (hW : Sub 192 W) (ha4 : Kept W r a4) :
    Kept W r (acceptRow a0 a1 a2 a3 a4) := by
  unfold Sys2Proof.Machine.acceptRow
  apply forEach_kept
  · intro x0 x1 h2
    refine Kept.ite ?_ ?_
    · exact writeToken_kept (hW.sub (by decide)) h2
    · exact h2
  · exact ha4

theorem lateEvent_kept {W : Nat} {r : State} {a0} {a1 : State} (hW : Sub 524300 W) (ha1 : Kept W r a1) :
    Kept W r (lateEvent a0 a1) := by
  unfold Sys2Proof.Machine.lateEvent
  refine event_kept (hW.sub (by decide)) ?_
  exact bump64_kept (hW.sub (by decide)) ha1

theorem recordLate_kept {W : Nat} {r : State} {a0} {a1 : State} (hW : Sub 1703948 W) (ha1 : Kept W r a1) :
    Kept W r (recordLate a0 a1) := by
  unfold Sys2Proof.Machine.recordLate
  split
  · rename_i v0 v1
    exact ha1
  · rename_i v2 v3 v4
    extract_lets +onlyGivenNames l5
    clear_value l5
    extract_lets +onlyGivenNames l6
    clear_value l6
    extract_lets +onlyGivenNames l7
    clear_value l7
    extract_lets +onlyGivenNames l8
    have hl8 : Kept W r (l8) := by
      unfold l8
      exact faultEvent_kept (hW.sub (by decide)) ha1
    clear_value l8
    refine odSet_kept (hW.sub (by decide)) ?_
    exact odAdd_kept (hW.sub (by decide)) hl8

theorem outputsLeft_kept {W : Nat} {r : State} {a0 : State} (hW : Sub 1704012 W) (ha0 : Kept W r a0) :
    Kept W r (outputsLeft a0) := by
  unfold Sys2Proof.Machine.outputsLeft
  apply forEach_kept
  · intro x0 x1 h2
    refine Kept.ite ?_ ?_
    · exact h2
    · refine recordLate_kept (hW.sub (by decide)) ?_
      refine Kept.upd 64 ?_ ?_ rfl
      · exact hW.sub (by decide)
      · exact h2
  · exact ha0

theorem leaveWith_kept {W : Nat} {r : State} {a0} {a1} {a2 : State} (hW : Sub 1704012 W) (ha2 : Kept W r a2) :
    Kept W r (leaveWith a0 a1 a2) := by
  unfold Sys2Proof.Machine.leaveWith
  refine outputsLeft_kept (hW.sub (by decide)) ?_
  refine Kept.upd 64 ?_ ?_ rfl
  · exact hW.sub (by decide)
  · exact ha2

theorem fetchHalf_kept {W : Nat} {r : State} {a0} {a1 : State} (hW : Sub 64 W) (ha1 : Kept W r a1) :
    Kept W r (fetchHalf a0 a1) := by
  unfold Sys2Proof.Machine.fetchHalf
  refine Kept.upd 64 ?_ ?_ rfl
  · exact hW.sub (by decide)
  · exact ha1

theorem loadLayer_kept {W : Nat} {r : State} {a0} {a1} {a2} {a3 : State} (hW : Sub 64 W) (ha3 : Kept W r a3) :
    Kept W r (loadLayer a0 a1 a2 a3) := by
  unfold Sys2Proof.Machine.loadLayer
  split
  · rename_i v0 v1
    exact ha3
  · rename_i v2 v3 v4
    refine Kept.ite ?_ ?_
    · exact ha3
    · exact fetchHalf_kept (hW.sub (by decide)) ha3

theorem loadNext_kept {W : Nat} {r : State} {a0} {a1} {a2 : State} (hW : Sub 64 W) (ha2 : Kept W r a2) :
    Kept W r (loadNext a0 a1 a2) := by
  unfold Sys2Proof.Machine.loadNext
  split
  · rename_i v0 v1
    exact ha2
  · rename_i v2 v3 v4
    refine Kept.ite ?_ ?_
    · exact loadLayer_kept (hW.sub (by decide)) ha2
    · exact ha2

theorem halfUsed_kept {W : Nat} {r : State} {a0} {a1} {a2} {a3 : State} (hW : Sub 64 W) (ha3 : Kept W r a3) :
    Kept W r (halfUsed a0 a1 a2 a3) := by
  unfold Sys2Proof.Machine.halfUsed
  extract_lets +onlyGivenNames l0
  clear_value l0
  refine Kept.upd 64 ?_ ?_ rfl
  · exact hW.sub (by decide)
  · exact ha3

theorem useSlices_kept {W : Nat} {r : State} {a0} {a1} {a2} {a3 : State} (hW : Sub 64 W) (ha3 : Kept W r a3) :
    Kept W r (useSlices a0 a1 a2 a3) := by
  unfold Sys2Proof.Machine.useSlices
  extract_lets +onlyGivenNames l0
  clear_value l0
  extract_lets +onlyGivenNames l1
  clear_value l1
  refine Kept.upd 64 ?_ ?_ rfl
  · exact hW.sub (by decide)
  · exact ha3

theorem pumpItems_kept {W : Nat} {r : State} {a0} {a1 : State} (hW : Sub 2896876 W) (ha1 : Kept W r a1) :
    Kept W r (pumpItems a0 a1) := by
  induction a0 generalizing a1 with
  | zero  =>
    unfold Sys2Proof.Machine.pumpItems
    exact ha1
  | succ k0 ih =>
    unfold Sys2Proof.Machine.pumpItems
    split
    · rename_i v0 v1
      exact ha1
    · rename_i v2 v3 v4 v5 v6
      split
      · rename_i v7 v8
        exact ha1
      · rename_i v9 v10 v11
        extract_lets +onlyGivenNames l12
        have hl12 : Kept W r (l12) := by
          unfold l12
          exact startJob_kept (hW.sub (by decide)) ha1
        clear_value l12
        split
        · rename_i v13 v14
          exact hl12
        · rename_i v15 v16 v17
          extract_lets +onlyGivenNames l18
          clear_value l18
          extract_lets +onlyGivenNames l19
          clear_value l19
          extract_lets +onlyGivenNames l20
          clear_value l20
          apply ih
          apply onlyIf_kept
          · intro x21 h22
            exact loadNext_kept (hW.sub (by decide)) h22
          · apply onlyIf_kept
            · intro x23 h24
              exact count_kept (hW.sub (by decide)) h24
            · refine halfUsed_kept (hW.sub (by decide)) ?_
              refine useSlices_kept (hW.sub (by decide)) ?_
              refine setJob_kept (hW.sub (by decide)) ?_
              exact abandonBlock_kept (hW.sub (by decide)) hl12

theorem dropItemSlices_kept {W : Nat} {r : State} {a0} {a1} {a2} {a3 : State} (hW : Sub 64 W) (ha3 : Kept W r a3) :
    Kept W r (dropItemSlices a0 a1 a2 a3) := by
  unfold Sys2Proof.Machine.dropItemSlices
  extract_lets +onlyGivenNames l0
  clear_value l0
  refine Kept.upd 64 ?_ ?_ rfl
  · exact hW.sub (by decide)
  · exact ha3

theorem tileFetch_kept {W : Nat} {r : State} {a0} {a1} {a2} {a3 : State} (hW : Sub 786432 W) (ha3 : Kept W r a3) :
    Kept W r (tileFetch a0 a1 a2 a3) := by
  unfold Sys2Proof.Machine.tileFetch
  extract_lets +onlyGivenNames l0
  clear_value l0
  extract_lets +onlyGivenNames l1
  have hl1 : Kept W r (l1) := by
    unfold l1
    exact count_kept (hW.sub (by decide)) ha3
  clear_value l1
  refine Kept.ite ?_ ?_
  · exact hl1
  · exact count_kept (hW.sub (by decide)) hl1

theorem issueFetch_kept {W : Nat} {r : State} {a0} {a1 : State} (hW : Sub 786496 W) (ha1 : Kept W r a1) :
    Kept W r (issueFetch a0 a1) := by
  unfold Sys2Proof.Machine.issueFetch
  split
  · rename_i v0 v1
    exact ha1
  · rename_i v2 v3 v4
    extract_lets +onlyGivenNames l5
    clear_value l5
    extract_lets +onlyGivenNames l6
    have hl6 : ∀ (z0) (_ : Kept W r z0), Kept W r (l6 z0) := by
      intros
      rename_i v7 v8
      unfold l6
      extract_lets +onlyGivenNames l9
      clear_value l9
      refine tileFetch_kept (hW.sub (by decide)) ?_
      refine Kept.upd 64 ?_ ?_ rfl
      · exact hW.sub (by decide)
      · exact v8
    clear_value l6
    refine Kept.ite ?_ ?_
    · split
      · rename_i v10 v11
        exact ha1
      · rename_i v12 v13 v14
        apply hl6
        exact fetchHalf_kept (hW.sub (by decide)) ha1
    · refine Kept.ite ?_ ?_
      · apply hl6
        exact ha1
      · exact ha1

theorem issueFetches_kept {W : Nat} {r : State} {a0 : State} (hW : Sub 786496 W) (ha0 : Kept W r a0) :
    Kept W r (issueFetches a0) := by
  unfold Sys2Proof.Machine.issueFetches
  apply forEach_kept
  · intro x0 x1 h2
    exact issueFetch_kept (hW.sub (by decide)) h2
  · exact ha0

theorem putSub_kept {W : Nat} {r : State} {a0} {a1} {a2 : State} (hW : Sub 32 W) (ha2 : Kept W r a2) :
    Kept W r (putSub a0 a1 a2) := by
  unfold Sys2Proof.Machine.putSub
  extract_lets +onlyGivenNames l0
  clear_value l0
  extract_lets +onlyGivenNames l1
  clear_value l1
  refine Kept.upd 32 ?_ ?_ rfl
  · exact hW.sub (by decide)
  · exact ha2

theorem releaseSubmits_kept {W : Nat} {r : State} {a0 : State} (hW : Sub 36 W) (ha0 : Kept W r a0) :
    Kept W r (releaseSubmits a0) := by
  unfold Sys2Proof.Machine.releaseSubmits
  apply forEach_kept
  · intro x0 x1 h2
    split
    · rename_i v3 v4
      refine Kept.upd 4 ?_ ?_ rfl
      · exact hW.sub (by decide)
      · exact h2
    · rename_i v5 v6 v7
      refine Kept.ite ?_ ?_
      · exact h2
      · refine putSub_kept (hW.sub (by decide)) ?_
        refine Kept.upd 4 ?_ ?_ rfl
        · exact hW.sub (by decide)
        · exact h2
  · exact ha0

theorem runCores_kept {W : Nat} {r : State} {a0 : State} (hW : Sub 2913261 W) (ha0 : Kept W r a0) :
    Kept W r (runCores a0) := by
  unfold Sys2Proof.Machine.runCores
  refine issueFetches_kept (hW.sub (by decide)) ?_
  refine assignCoding_kept (hW.sub (by decide)) ?_
  refine pumpItems_kept (hW.sub (by decide)) ?_
  refine releaseSubmits_kept (hW.sub (by decide)) ?_
  refine flushHeld_kept (hW.sub (by decide)) ?_
  exact tendPrefix_kept (hW.sub (by decide)) ha0

theorem tileLost_kept {W : Nat} {r : State} {a0} {a1 : State} (hW : Sub 2913261 W) (ha1 : Kept W r a1) :
    Kept W r (tileLost a0 a1) := by
  unfold Sys2Proof.Machine.tileLost
  split
  · rename_i v0 v1
    exact ha1
  · rename_i v2 v3 v4 v5
    refine runCores_kept (hW.sub (by decide)) ?_
    exact setJob_kept (hW.sub (by decide)) ha1

theorem pageFailed_kept {W : Nat} {r : State} {a0} {a1} {a2} {a3} {a4} {a5 : State} (hW : Sub 4092909 W) (ha5 : Kept W r a5) :
    Kept W r (pageFailed a0 a1 a2 a3 a4 a5) := by
  unfold Sys2Proof.Machine.pageFailed
  refine Kept.ite ?_ ?_
  · refine dropColImage_kept (hW.sub (by decide)) ?_
    exact tagMismatch_kept (hW.sub (by decide)) ha5
  · extract_lets +onlyGivenNames l0
    clear_value l0
    refine tileLost_kept (hW.sub (by decide)) ?_
    refine poisonCol_kept (hW.sub (by decide)) ?_
    refine poisonFault_kept (hW.sub (by decide)) ?_
    exact tagMismatch_kept (hW.sub (by decide)) ha5

theorem coilFailed_kept {W : Nat} {r : State} {a0} {a1} {a2} {a3} {a4 : State} (hW : Sub 4092909 W) (ha4 : Kept W r a4) :
    Kept W r (coilFailed a0 a1 a2 a3 a4) := by
  unfold Sys2Proof.Machine.coilFailed
  split
  · rename_i v0 v1
    exact tileLost_kept (hW.sub (by decide)) ha4
  · rename_i v2 v3 v4 v5 v6
    extract_lets +onlyGivenNames l7
    have hl7 : Kept W r (l7) := by
      unfold l7
      refine poisonFault_kept (hW.sub (by decide)) ?_
      exact tagMismatch_kept (hW.sub (by decide)) ha4
    clear_value l7
    extract_lets +onlyGivenNames l8
    have hl8 : Kept W r (l8) := by
      unfold l8
      refine Kept.ite ?_ ?_
      · exact hl7
      · refine event_kept (hW.sub (by decide)) ?_
        exact setSeq_kept (hW.sub (by decide)) hl7
    clear_value l8
    exact tileLost_kept (hW.sub (by decide)) hl8

theorem jobPageFailed_kept {W : Nat} {r : State} {a0} {a1} {a2} {a3 : State} (hW : Sub 4092909 W) (ha3 : Kept W r a3) :
    Kept W r (jobPageFailed a0 a1 a2 a3) := by
  unfold Sys2Proof.Machine.jobPageFailed
  split
  · rename_i v0 v1 v2 v3 v4
    exact pageFailed_kept (hW.sub (by decide)) ha3
  · rename_i v5 v6
    exact coilFailed_kept (hW.sub (by decide)) ha3

theorem verifyOver_kept {W : Nat} {r : State} {a0} {a1} {a2 : State} (hW : Sub 160 W) (ha2 : Kept W r a2) :
    Kept W r (verifyOver a0 a1 a2) := by
  unfold Sys2Proof.Machine.verifyOver
  refine Kept.ite ?_ ?_
  · exact ha2
  · extract_lets +onlyGivenNames l0
    have hl0 : Kept W r (l0) := by
      unfold l0
      exact editEntry_kept (hW.sub (by decide)) ha2
    clear_value l0
    split
    · rename_i v1 v2
      exact hl0
    · rename_i v3 v4 v5
      split
      · rename_i v6 v7
        exact hl0
      · rename_i v8 v9 v10
        refine Kept.ite ?_ ?_
        · exact hl0
        · exact setSeq_kept (hW.sub (by decide)) hl0

theorem fetchCols_kept {W : Nat} {r : State} {a0} {a1 : State} (hW : Sub 20480 W) (ha1 : Kept W r a1) :
    Kept W r (fetchCols a0 a1) := by
  unfold Sys2Proof.Machine.fetchCols
  extract_lets +onlyGivenNames l0
  clear_value l0
  extract_lets +onlyGivenNames l1
  clear_value l1
  apply forEach_kept
  · intro x2 x3 h4
    split
    · rename_i v5 v6 v7 v8 v9
      refine Kept.ite ?_ ?_
      · exact heathRead_kept (hW.sub (by decide)) h4
      · exact h4
    · rename_i v10 v11
      exact h4
  · exact ha1

theorem addJob_kept {W : Nat} {r : State} {a0} {a1} {a2 : State} (hW : Sub 786504 W) (ha2 : Kept W r a2) :
    Kept W r (addJob a0 a1 a2) := by
  unfold Sys2Proof.Machine.addJob
  extract_lets +onlyGivenNames l0
  clear_value l0
  extract_lets +onlyGivenNames l1
  clear_value l1
  extract_lets +onlyGivenNames l2
  have hl2 : Kept W r (l2) := by
    unfold l2
    refine Kept.upd 64 ?_ ?_ rfl
    · exact hW.sub (by decide)
    · exact ha2
  clear_value l2
  apply forEach_kept
  · intro x3 x4 h5
    extract_lets +onlyGivenNames l6
    clear_value l6
    extract_lets +onlyGivenNames l7
    clear_value l7
    extract_lets +onlyGivenNames l8
    clear_value l8
    refine Kept.ite ?_ ?_
    · exact h5
    · refine halfUsed_kept (hW.sub (by decide)) ?_
      refine abandonBlock_kept (hW.sub (by decide)) ?_
      refine count_kept (hW.sub (by decide)) ?_
      refine count_kept (hW.sub (by decide)) ?_
      exact count_kept (hW.sub (by decide)) h5
  · exact hl2

theorem startCmdJob_kept {W : Nat} {r : State} {a0} {a1} {a2} {a3} {a4 : State} (hW : Sub 2913261 W) (ha4 : Kept W r a4) :
    Kept W r (startCmdJob a0 a1 a2 a3 a4) := by
  unfold Sys2Proof.Machine.startCmdJob
  extract_lets +onlyGivenNames l0
  clear_value l0
  extract_lets +onlyGivenNames l1
  clear_value l1
  split
  · rename_i v2 v3
    exact stall_kept (hW.sub (by decide)) ha4
  · rename_i v4
    refine runCores_kept (hW.sub (by decide)) ?_
    refine abandonSweeps_kept (hW.sub (by decide)) ?_
    refine fetchCols_kept (hW.sub (by decide)) ?_
    refine addJob_kept (hW.sub (by decide)) ?_
    exact setWork_kept (hW.sub (by decide)) ha4

theorem runAttnBwd_kept {W : Nat} {r : State} {a0} {a1 : State} (hW : Sub 2913261 W) (ha1 : Kept W r a1) :
    Kept W r (runAttnBwd a0 a1) := by
  unfold Sys2Proof.Machine.runAttnBwd
  split
  · rename_i v0 v1 v2
    exact complete_kept (hW.sub (by decide)) ha1
  · rename_i v3 v4 v5 v6
    exact startCmdJob_kept (hW.sub (by decide)) ha1

theorem dropTail_kept {W : Nat} {r : State} {a0} {a1} {a2 : State} (hW : Sub 160 W) (ha2 : Kept W r a2) :
    Kept W r (dropTail a0 a1 a2) := by
  unfold Sys2Proof.Machine.dropTail
  refine setSeq_kept (hW.sub (by decide)) ?_
  exact editEntry_kept (hW.sub (by decide)) ha2

theorem refuseOutput_kept {W : Nat} {r : State} {a0} {a1} {a2} {a3} {a4 : State} (hW : Sub 12 W) (ha4 : Kept W r a4) :
    Kept W r (refuseOutput a0 a1 a2 a3 a4) := by
  unfold Sys2Proof.Machine.refuseOutput
  apply sendInside_kept
  · exact hW.sub (by decide)
  · intro x0 h1
    exact sendClass2_kept (hW.sub (by decide)) h1
  · exact ha4

theorem leavingLate_kept {W : Nat} {r : State} {a0} {a1 : State} (hW : Sub 524364 W) (ha1 : Kept W r a1) :
    Kept W r (leavingLate a0 a1) := by
  unfold Sys2Proof.Machine.leavingLate
  split
  · rename_i v0 v1
    exact ha1
  · rename_i v2 v3 v4
    refine Kept.ite ?_ ?_
    · exact ha1
    · refine lateEvent_kept (hW.sub (by decide)) ?_
      refine Kept.upd 68 ?_ ?_ rfl
      · exact hW.sub (by decide)
      · exact ha1

theorem itemExpand_kept {W : Nat} {r : State} {a0} {a1} {a2} {a3 : State} (hW : Sub 786432 W) (ha3 : Kept W r a3) :
    Kept W r (itemExpand a0 a1 a2 a3).1 := by
  unfold Sys2Proof.Machine.itemExpand
  split
  · rename_i v0
    dsimp only
    exact ha3
  · rename_i v1
    split
    · rename_i v2 v3
      dsimp only
      exact ha3
    · rename_i v4 v5 v6
      split
      · rename_i v7
        dsimp only
        exact ha3
      · rename_i v8
        split
        · rename_i v9 v10
          dsimp only
          exact ha3
        · rename_i v11 v12 v13
          extract_lets +onlyGivenNames l14
          clear_value l14
          extract_lets +onlyGivenNames l15
          clear_value l15
          extract_lets +onlyGivenNames l16
          have hl16 : Kept W r (l16) := by
            unfold l16
            refine count_kept (hW.sub (by decide)) ?_
            refine odAdd_kept (hW.sub (by decide)) ?_
            exact odAdd_kept (hW.sub (by decide)) ha3
          clear_value l16
          split
          · rename_i v17 v18 v19
            dsimp only
            exact hl16
          · rename_i v20 v21
            dsimp only
            exact hl16

theorem checkEntry_kept {W : Nat} {r : State} {a0} {a1} {a2} {a3 : State} (hW : Sub 44 W) (ha3 : Kept W r a3) :
    Kept W r (checkEntry a0 a1 a2 a3) := by
  unfold Sys2Proof.Machine.checkEntry
  split
  · rename_i v0 v1
    exact ha3
  · rename_i v2 v3 v4
    refine Kept.ite ?_ ?_
    · exact ha3
    · extract_lets +onlyGivenNames l5
      clear_value l5
      refine Kept.ite ?_ ?_
      · exact ha3
      · refine editEntry_kept (hW.sub (by decide)) ?_
        exact event_kept (hW.sub (by decide)) ha3

theorem sendEmptyOutput_kept {W : Nat} {r : State} {a0} {a1} {a2 : State} (hW : Sub 12 W) (ha2 : Kept W r a2) :
    Kept W r (sendEmptyOutput a0 a1 a2) := by
  unfold Sys2Proof.Machine.sendEmptyOutput
  apply sendInside_kept
  · exact hW.sub (by decide)
  · intro x0 h1
    exact sendClass2_kept (hW.sub (by decide)) h1
  · exact ha2

theorem settleCore_kept {W : Nat} {r : State} {a0} {a1} {a2} {a3 : State} (hW : Sub 524288 W) (ha3 : Kept W r a3) :
    Kept W r (settleCore a0 a1 a2 a3) := by
  unfold Sys2Proof.Machine.settleCore
  extract_lets +onlyGivenNames l0
  clear_value l0
  refine countFixed_kept (hW.sub (by decide)) ?_
  refine countFixed_kept (hW.sub (by decide)) ?_
  exact odSet_kept (hW.sub (by decide)) ha3

theorem settleItems_kept {W : Nat} {r : State} {a0} {a1} {a2 : State} (hW : Sub 524288 W) (ha2 : Kept W r a2) :
    Kept W r (settleItems a0 a1 a2) := by
  unfold Sys2Proof.Machine.settleItems
  apply forEach_kept
  · intro x0 x1 h2
    refine Kept.ite ?_ ?_
    · exact h2
    · exact settleCore_kept (hW.sub (by decide)) h2
  · exact ha2

theorem removeJob_kept {W : Nat} {r : State} {a0} {a1 : State} (hW : Sub 64 W) (ha1 : Kept W r a1) :
    Kept W r (removeJob a0 a1) := by
  unfold Sys2Proof.Machine.removeJob
  refine Kept.upd 64 ?_ ?_ rfl
  · exact hW.sub (by decide)
  · exact ha1

theorem touchUsed_kept {W : Nat} {r : State} {a0} {a1 : State} (hW : Sub 384 W) (ha1 : Kept W r a1) :
    Kept W r (touchUsed a0 a1) := by
  unfold Sys2Proof.Machine.touchUsed
  extract_lets +onlyGivenNames l0
  have hl0 : Kept W r (l0) := by
    unfold l0
    apply forEach_kept
    · intro x1 x2 h3
      exact touchRead_kept (hW.sub (by decide)) h3
    · exact ha1
  clear_value l0
  extract_lets +onlyGivenNames l4
  clear_value l4
  extract_lets +onlyGivenNames l5
  have hl5 : Kept W r (l5) := by
    unfold l5
    refine Kept.ite ?_ ?_
    · exact hl0
    · exact editSlots_kept (hW.sub (by decide)) hl0
  clear_value l5
  split
  · rename_i v6 v7 v8
    exact setSeq_kept (hW.sub (by decide)) hl5
  · rename_i v9 v10
    exact hl5

theorem endJobError_kept {W : Nat} {r : State} {a0} {a1} {a2 : State} (hW : Sub 1712620 W) (ha2 : Kept W r a2) :
    Kept W r (endJobError a0 a1 a2) := by
  unfold Sys2Proof.Machine.endJobError
  extract_lets +onlyGivenNames l0
  have hl0 : Kept W r (l0) := by
    unfold l0
    refine Kept.ite ?_ ?_
    · exact ha2
    · exact sendEmptyOutput_kept (hW.sub (by decide)) ha2
  clear_value l0
  extract_lets +onlyGivenNames l1
  have hl1 : Kept W r (l1) := by
    unfold l1
    refine leaveWith_kept (hW.sub (by decide)) ?_
    refine settleItems_kept (hW.sub (by decide)) ?_
    refine verifyOver_kept (hW.sub (by decide)) ?_
    exact removeJob_kept (hW.sub (by decide)) hl0
  clear_value l1
  extract_lets +onlyGivenNames l2
  have hl2 : Kept W r (l2) := by
    unfold l2
    refine bump64_kept (hW.sub (by decide)) ?_
    exact touchUsed_kept (hW.sub (by decide)) hl1
  clear_value l2
  split
  · rename_i v3 v4 v5
    refine Kept.ite ?_ ?_
    · exact complete_kept (hW.sub (by decide)) hl2
    · exact hl2
  · rename_i v6 v7
    exact hl2

theorem reportMissing_kept {W : Nat} {r : State} {a0} {a1 : State} (hW : Sub 1703948 W) (ha1 : Kept W r a1) :
    Kept W r (reportMissing a0 a1) := by
  unfold Sys2Proof.Machine.reportMissing
  split
  · rename_i v0 v1
    exact ha1
  · rename_i v2 v3 v4
    refine Kept.ite ?_ ?_
    · exact ha1
    · extract_lets +onlyGivenNames l5
      clear_value l5
      extract_lets +onlyGivenNames l6
      clear_value l6
      refine bump64_kept (hW.sub (by decide)) ?_
      exact faultEvent_kept (hW.sub (by decide)) ha1

theorem unholdJob_kept {W : Nat} {r : State} {a0} {a1 : State} (hW : Sub 3814380 W) (ha1 : Kept W r a1) :
    Kept W r (unholdJob a0 a1) := by
  unfold Sys2Proof.Machine.unholdJob
  split
  · rename_i v0 v1
    exact ha1
  · rename_i v2 v3 v4
    extract_lets +onlyGivenNames l5
    have hl5 : Kept W r (l5) := by
      unfold l5
      refine Kept.ite ?_ ?_
      · exact claimStep_kept (hW.sub (by decide)) ha1
      · exact ha1
    clear_value l5
    split
    · rename_i v6 v7 v8 v9
      exact endJobError_kept (hW.sub (by decide)) hl5
    · rename_i v10 v11 v12 v13 v14
      extract_lets +onlyGivenNames l15
      clear_value l15
      extract_lets +onlyGivenNames l16
      clear_value l16
      refine reportMissing_kept (hW.sub (by decide)) ?_
      exact setJob_kept (hW.sub (by decide)) hl5
    · rename_i v17 v18 v19 v20
      exact endJobError_kept (hW.sub (by decide)) hl5

theorem releaseHeld_kept {W : Nat} {r : State} {a0} {a1 : State} (hW : Sub 4092909 W) (ha1 : Kept W r a1) :
    Kept W r (releaseHeld a0 a1) := by
  unfold Sys2Proof.Machine.releaseHeld
  extract_lets +onlyGivenNames l0
  have hl0 : Kept W r (l0) := by
    unfold l0
    apply forEach_kept
    · intro x1 x2 h3
      refine Kept.ite ?_ ?_
      · apply forEach_kept
        · intro x4 x5 h6
          refine Kept.ite ?_ ?_
          · exact checkEntry_kept (hW.sub (by decide)) h6
          · exact h6
        · exact h3
      · exact h3
    · exact ha1
  clear_value l0
  refine runCores_kept (hW.sub (by decide)) ?_
  apply forEach_kept
  · intro x7 x8 h9
    exact unholdJob_kept (hW.sub (by decide)) h9
  · exact hl0

theorem settleVerify_kept {W : Nat} {r : State} {a0} {a1} {a2} {a3} {a4 : State} (hW : Sub 524352 W) (ha4 : Kept W r a4) :
    Kept W r (settleVerify a0 a1 a2 a3 a4) := by
  unfold Sys2Proof.Machine.settleVerify
  extract_lets +onlyGivenNames l0
  clear_value l0
  extract_lets +onlyGivenNames l1
  clear_value l1
  apply forEach_kept
  · intro x2 x3 h4
    exact settleCore_kept (hW.sub (by decide)) h4
  · refine Kept.upd 64 ?_ ?_ rfl
    · exact hW.sub (by decide)
    · exact ha4

theorem confirmStart_kept {W : Nat} {r : State} {a0} {a1 : State} (hW : Sub 4092909 W) (ha1 : Kept W r a1) :
    Kept W r (confirmStart a0 a1) := by
  unfold Sys2Proof.Machine.confirmStart
  extract_lets +onlyGivenNames l0
  clear_value l0
  split
  · rename_i v1 v2 v3
    exact complete_kept (hW.sub (by decide)) ha1
  · rename_i v4 v5 v6
    split
    · rename_i v7 v8
      exact complete_kept (hW.sub (by decide)) ha1
    · rename_i v9 v10 v11
      extract_lets +onlyGivenNames l12
      clear_value l12
      refine Kept.ite ?_ ?_
      · refine complete_kept (hW.sub (by decide)) ?_
        refine releaseHeld_kept (hW.sub (by decide)) ?_
        refine settleVerify_kept (hW.sub (by decide)) ?_
        exact dropTail_kept (hW.sub (by decide)) ha1
      · refine Kept.ite ?_ ?_
        · exact complete_kept (hW.sub (by decide)) ha1
        · refine Kept.ite ?_ ?_
          · refine complete_kept (hW.sub (by decide)) ?_
            refine releaseHeld_kept (hW.sub (by decide)) ?_
            refine settleVerify_kept (hW.sub (by decide)) ?_
            exact dropTail_kept (hW.sub (by decide)) ha1
          · exact setWork_kept (hW.sub (by decide)) ha1

theorem runSpecConfirm_kept {W : Nat} {r : State} {a0} {a1 : State} (hW : Sub 4092909 W) (ha1 : Kept W r a1) :
    Kept W r (runSpecConfirm a0 a1) := by
  unfold Sys2Proof.Machine.runSpecConfirm
  exact confirmStart_kept (hW.sub (by decide)) ha1

theorem retried_kept {W : Nat} {r : State} {a0} {a1} {a2 : State} (hW : Sub 786432 W) (ha2 : Kept W r a2) :
    Kept W r (retried a0 a1 a2) := by
  unfold Sys2Proof.Machine.retried
  split
  · rename_i v0 v1 v2
    exact tagMismatch_kept (hW.sub (by decide)) ha2
  · rename_i v3 v4 v5
    exact ha2

theorem sendRegion_kept {W : Nat} {r : State} {a0} {a1} {a2} {a3} {a4} {a5} {a6} {a7 : State} (hW : Sub 12 W) (ha7 : Kept W r a7) :
    Kept W r (sendRegion a0 a1 a2 a3 a4 a5 a6 a7) := by
  induction a4 generalizing a0 a1 a2 a3 a5 a6 a7 with
  | zero  =>
    unfold Sys2Proof.Machine.sendRegion
    exact ha7
  | succ k0 ih =>
    unfold Sys2Proof.Machine.sendRegion
    extract_lets +onlyGivenNames l0
    clear_value l0
    extract_lets +onlyGivenNames l1
    clear_value l1
    extract_lets +onlyGivenNames l2
    clear_value l2
    extract_lets +onlyGivenNames l3
    clear_value l3
    extract_lets +onlyGivenNames l4
    have hl4 : Kept W r (l4) := by
      unfold l4
      apply sendInside_kept
      · exact hW.sub (by decide)
      · intro x5 h6
        exact sendFrag2_kept (hW.sub (by decide)) h6
      · exact ha7
    clear_value l4
    refine Kept.ite ?_ ?_
    · exact hl4
    · apply ih
      exact hl4

theorem countJob_kept {W : Nat} {r : State} {a0} {a1} {a2} {a3} {a4 : State} (hW : Sub 524288 W) (ha4 : Kept W r a4) :
    Kept W r (countJob a0 a1 a2 a3 a4) := by
  unfold Sys2Proof.Machine.countJob
  refine odAdd_kept (hW.sub (by decide)) ?_
  refine odAdd_kept (hW.sub (by decide)) ?_
  refine odAdd_kept (hW.sub (by decide)) ?_
  refine odAdd_kept (hW.sub (by decide)) ?_
  exact bump64_kept (hW.sub (by decide)) ha4

theorem compactRows_kept {W : Nat} {r : State} {a0} {a1} {a2} {a3 : State} (hW : Sub 2634700 W) (ha3 : Kept W r a3) :
    KeptE W r (compactRows a0 a1 a2 a3) := by
  unfold Sys2Proof.Machine.compactRows
  split
  · rename_i v0 v1 v2
    exact KeptE.error
  · rename_i v3 v4 v5
    extract_lets +onlyGivenNames l6
    have hl6 : Kept W r (l6) := by
      unfold l6
      apply forEach_kept
      · intro x7 x8 h9
        exact acceptRow_kept (hW.sub (by decide)) h9
      · refine KeptE.use ?_ v5
        exact readyColumns_kept (hW.sub (by decide)) ha3
    clear_value l6
    extract_lets +onlyGivenNames l11
    have hl11 : Kept W r (l11) := by
      unfold l11
      apply forEach_kept
      · intro x12 x13 h14
        exact dropWritten_kept (hW.sub (by decide)) h14
      · exact hl6
    clear_value l11
    refine KeptE.ok ?_
    exact setLength_kept (hW.sub (by decide)) hl11

theorem compaction_kept {W : Nat} {r : State} {a0} {a1 : State} (hW : Sub 4092909 W) (ha1 : Kept W r a1) :
    Kept W r (compaction a0 a1) := by
  unfold Sys2Proof.Machine.compaction
  split
  · rename_i v0 v1
    exact ha1
  · rename_i v2 v3 v4
    refine Kept.ite ?_ ?_
    · exact ha1
    · split
      · rename_i v5 v6
        exact complete_kept (hW.sub (by decide)) ha1
      · rename_i v7 v8 v9
        split
        · rename_i v10 v11
          exact complete_kept (hW.sub (by decide)) ha1
        · rename_i v12 v13 v14
          refine Kept.ite ?_ ?_
          · exact ha1
          · refine Kept.ite ?_ ?_
            · refine complete_kept (hW.sub (by decide)) ?_
              refine releaseHeld_kept (hW.sub (by decide)) ?_
              refine settleVerify_kept (hW.sub (by decide)) ?_
              exact dropTail_kept (hW.sub (by decide)) ha1
            · extract_lets +onlyGivenNames l15
              clear_value l15
              extract_lets +onlyGivenNames l16
              clear_value l16
              extract_lets +onlyGivenNames l17
              clear_value l17
              split
              · rename_i v18 v19
                exact stall_kept (hW.sub (by decide)) ha1
              · rename_i v20 v21 v22 v23
                exact complete_kept (hW.sub (by decide)) ha1
              · rename_i v24 v25 v26
                extract_lets +onlyGivenNames l27
                have hl27 : Kept W r (l27) := by
                  unfold l27
                  refine odAdd_kept (hW.sub (by decide)) ?_
                  refine settleVerify_kept (hW.sub (by decide)) ?_
                  refine KeptE.use ?_ v26
                  refine compactRows_kept (hW.sub (by decide)) ?_
                  exact dropTail_kept (hW.sub (by decide)) ha1
                clear_value l27
                refine complete_kept (hW.sub (by decide)) ?_
                exact releaseHeld_kept (hW.sub (by decide)) hl27

theorem runAttn_kept {W : Nat} {r : State} {a0} {a1 : State} (hW : Sub 2913261 W) (ha1 : Kept W r a1) :
    Kept W r (runAttn a0 a1) := by
  unfold Sys2Proof.Machine.runAttn
  split
  · rename_i v0 v1 v2
    exact complete_kept (hW.sub (by decide)) ha1
  · rename_i v3 v4 v5 v6
    exact startCmdJob_kept (hW.sub (by decide)) ha1

theorem writeGrads_kept {W : Nat} {r : State} {a0} {a1} {a2 : State} (hW : Sub 20813 W) (ha2 : Kept W r a2) :
    Kept W r (writeGrads a0 a1 a2).2 := by
  unfold Sys2Proof.Machine.writeGrads
  extract_lets +onlyGivenNames l0
  clear_value l0
  extract_lets +onlyGivenNames l1
  clear_value l1
  extract_lets +onlyGivenNames l2
  clear_value l2
  extract_lets +onlyGivenNames l3
  extract_lets +onlyGivenNames l4
  clear_value l4
  extract_lets +onlyGivenNames l5
  clear_value l5
  extract_lets +onlyGivenNames l6
  clear_value l6
  extract_lets +onlyGivenNames l7
  clear_value l7
  extract_lets +onlyGivenNames l8
  clear_value l8
  extract_lets +onlyGivenNames l9
  clear_value l9
  extract_lets +onlyGivenNames l10
  clear_value l10
  extract_lets +onlyGivenNames l11
  clear_value l11
  extract_lets +onlyGivenNames l12
  clear_value l12
  extract_lets +onlyGivenNames l13
  clear_value l13
  dsimp only
  refine placeBytes_kept (hW.sub (by decide)) ?_
  exact placeBytes_kept (hW.sub (by decide)) ha2

theorem endJobGood_kept {W : Nat} {r : State} {a0} {a1} {a2 : State} (hW : Sub 1733101 W) (ha2 : Kept W r a2) :
    Kept W r (endJobGood a0 a1 a2) := by
  unfold Sys2Proof.Machine.endJobGood
  extract_lets +onlyGivenNames l0
  clear_value l0
  extract_lets +onlyGivenNames l1
  clear_value l1
  refine Kept.ite ?_ ?_
  · extract_lets +onlyGivenNames l2
    have hl2 : Kept W r (l2).2 := by
      unfold l2
      exact writeGrads_kept (hW.sub (by decide)) ha2
    clear_value l2
    extract_lets +onlyGivenNames l3
    clear_value l3
    extract_lets +onlyGivenNames l4
    have hl4 : Kept W r (l4) := by
      unfold l4
      refine countJob_kept (hW.sub (by decide)) ?_
      refine touchUsed_kept (hW.sub (by decide)) ?_
      refine settleItems_kept (hW.sub (by decide)) ?_
      exact removeJob_kept (hW.sub (by decide)) hl2
    clear_value l4
    split
    · rename_i v5 v6 v7
      exact completePlaced_kept (hW.sub (by decide)) hl4
    · rename_i v8 v9
      exact hl4
  · extract_lets +onlyGivenNames l10
    clear_value l10
    extract_lets +onlyGivenNames l11
    clear_value l11
    extract_lets +onlyGivenNames l12
    clear_value l12
    extract_lets +onlyGivenNames l13
    clear_value l13
    extract_lets +onlyGivenNames l14
    clear_value l14
    extract_lets +onlyGivenNames l15
    clear_value l15
    extract_lets +onlyGivenNames l16
    clear_value l16
    extract_lets +onlyGivenNames l17
    have hl17 : Kept W r (l17) := by
      unfold l17
      exact sendRegion_kept (hW.sub (by decide)) ha2
    clear_value l17
    extract_lets +onlyGivenNames l18
    have hl18 : Kept W r (l18) := by
      unfold l18
      refine leaveWith_kept (hW.sub (by decide)) ?_
      refine verifyOver_kept (hW.sub (by decide)) ?_
      exact removeJob_kept (hW.sub (by decide)) hl17
    clear_value l18
    extract_lets +onlyGivenNames l19
    clear_value l19
    extract_lets +onlyGivenNames l20
    have hl20 : Kept W r (l20) := by
      unfold l20
      refine Kept.ite ?_ ?_
      · exact settleItems_kept (hW.sub (by decide)) hl18
      · refine Kept.ite ?_ ?_
        · exact settleItems_kept (hW.sub (by decide)) hl18
        · refine Kept.upd 64 ?_ ?_ rfl
          · exact hW.sub (by decide)
          · exact hl18
    clear_value l20
    extract_lets +onlyGivenNames l21
    have hl21 : Kept W r (l21) := by
      unfold l21
      refine countJob_kept (hW.sub (by decide)) ?_
      exact touchUsed_kept (hW.sub (by decide)) hl20
    clear_value l21
    split
    · rename_i v22 v23 v24
      refine Kept.ite ?_ ?_
      · exact complete_kept (hW.sub (by decide)) hl21
      · exact hl21
    · rename_i v25 v26
      exact hl21

theorem loadFirst_kept {W : Nat} {r : State} {a0} {a1} {a2 : State} (hW : Sub 64 W) (ha2 : Kept W r a2) :
    Kept W r (loadFirst a0 a1 a2) := by
  unfold Sys2Proof.Machine.loadFirst
  split
  · rename_i v0 v1
    exact ha2
  · rename_i v2 v3 v4
    extract_lets +onlyGivenNames l5
    clear_value l5
    refine Kept.ite ?_ ?_
    · exact loadLayer_kept (hW.sub (by decide)) ha2
    · exact ha2

theorem satisfy_kept {W : Nat} {r : State} {a0 : State} (hW : Sub 2913261 W) (ha0 : Kept W r a0) :
    Kept W r (satisfy a0) := by
  unfold Sys2Proof.Machine.satisfy
  extract_lets +onlyGivenNames l0
  clear_value l0
  refine runCores_kept (hW.sub (by decide)) ?_
  refine Kept.upd 64 ?_ ?_ rfl
  · exact hW.sub (by decide)
  · exact ha0

theorem landStream_kept {W : Nat} {r : State} {a0} {a1 : State} (hW : Sub 64 W) (ha1 : Kept W r a1) :
    Kept W r (landStream a0 a1) := by
  unfold Sys2Proof.Machine.landStream
  extract_lets +onlyGivenNames l0
  clear_value l0
  refine Kept.upd 64 ?_ ?_ rfl
  · exact hW.sub (by decide)
  · exact ha1

theorem weightFailed_kept {W : Nat} {r : State} {a0} {a1 : State} (hW : Sub 1978764 W) (ha1 : Kept W r a1) :
    Kept W r (weightFailed a0 a1) := by
  unfold Sys2Proof.Machine.weightFailed
  split
  · rename_i v0 v1
    exact ha1
  · rename_i v2 v3 v4
    extract_lets +onlyGivenNames l5
    clear_value l5
    extract_lets +onlyGivenNames l6
    clear_value l6
    refine poisonObj_kept (hW.sub (by decide)) ?_
    refine poisonFault_kept (hW.sub (by decide)) ?_
    exact tagMismatch_kept (hW.sub (by decide)) ha1

theorem landHalf_kept {W : Nat} {r : State} {a0} {a1} {a2 : State} (hW : Sub 4092909 W) (ha2 : Kept W r a2) :
    Kept W r (landHalf a0 a1 a2) := by
  unfold Sys2Proof.Machine.landHalf
  refine Kept.ite ?_ ?_
  · refine runCores_kept (hW.sub (by decide)) ?_
    refine weightFailed_kept (hW.sub (by decide)) ?_
    refine Kept.upd 64 ?_ ?_ rfl
    · exact hW.sub (by decide)
    · exact ha2
  · refine satisfy_kept (hW.sub (by decide)) ?_
    refine retried_kept (hW.sub (by decide)) ?_
    refine Kept.upd 64 ?_ ?_ rfl
    · exact hW.sub (by decide)
    · exact ha2

theorem pruneSlices_kept {W : Nat} {r : State} {a0 : State} (hW : Sub 64 W) (ha0 : Kept W r a0) :
    Kept W r (pruneSlices a0) := by
  unfold Sys2Proof.Machine.pruneSlices
  refine Kept.upd 64 ?_ ?_ rfl
  · exact hW.sub (by decide)
  · exact ha0

theorem pruneSheets_kept {W : Nat} {r : State} {a0 : State} (hW : Sub 96 W) (ha0 : Kept W r a0) :
    Kept W r (pruneSheets a0) := by
  unfold Sys2Proof.Machine.pruneSheets
  refine pruneSlices_kept (hW.sub (by decide)) ?_
  refine Kept.upd 32 ?_ ?_ rfl
  · exact hW.sub (by decide)
  · exact ha0

theorem jobComplete_kept {W : Nat} {r : State} {a0} {a1 : State} (hW : Sub 4092909 W) (ha1 : Kept W r a1) :
    Kept W r (jobComplete a0 a1) := by
  unfold Sys2Proof.Machine.jobComplete
  split
  · rename_i v0 v1
    exact ha1
  · rename_i v2 v3 v4
    refine Kept.ite ?_ ?_
    · exact ha1
    · extract_lets +onlyGivenNames l5
      clear_value l5
      extract_lets +onlyGivenNames l6
      have hl6 : Kept W r (l6) := by
        unfold l6
        refine Kept.ite ?_ ?_
        · exact endJobError_kept (hW.sub (by decide)) ha1
        · split
          · rename_i v7 v8 v9
            exact endJobError_kept (hW.sub (by decide)) ha1
          · rename_i v10 v11 v12
            exact endJobGood_kept (hW.sub (by decide)) ha1
      clear_value l6
      refine runCores_kept (hW.sub (by decide)) ?_
      exact pruneSheets_kept (hW.sub (by decide)) hl6

theorem auxFailed_kept {W : Nat} {r : State} {a0} {a1} {a2 : State} (hW : Sub 1703948 W) (ha2 : Kept W r a2) :
    Kept W r (auxFailed a0 a1 a2) := by
  unfold Sys2Proof.Machine.auxFailed
  split
  · rename_i v0 v1 v2 v3
    refine Kept.ite ?_ ?_
    · exact sherdFailed_kept (hW.sub (by decide)) ha2
    · exact ha2
  · rename_i v4 v5
    exact ha2

theorem countItem_kept {W : Nat} {r : State} {a0} {a1} {a2} {a3} {a4 : State} (hW : Sub 786432 W) (ha4 : Kept W r a4) :
    Kept W r (countItem a0 a1 a2 a3 a4).1 := by
  unfold Sys2Proof.Machine.countItem
  extract_lets +onlyGivenNames l0
  clear_value l0
  extract_lets +onlyGivenNames l1
  clear_value l1
  extract_lets +onlyGivenNames l2
  clear_value l2
  extract_lets +onlyGivenNames l3
  clear_value l3
  extract_lets +onlyGivenNames l4
  clear_value l4
  extract_lets +onlyGivenNames l5
  clear_value l5
  extract_lets +onlyGivenNames l6
  clear_value l6
  extract_lets +onlyGivenNames l7
  clear_value l7
  extract_lets +onlyGivenNames l8
  clear_value l8
  extract_lets +onlyGivenNames l9
  clear_value l9
  extract_lets +onlyGivenNames l10
  have hl10 : Kept W r (l10) := by
    unfold l10
    refine count_kept (hW.sub (by decide)) ?_
    refine count_kept (hW.sub (by decide)) ?_
    refine count_kept (hW.sub (by decide)) ?_
    refine count_kept (hW.sub (by decide)) ?_
    refine count_kept (hW.sub (by decide)) ?_
    refine count_kept (hW.sub (by decide)) ?_
    exact count_kept (hW.sub (by decide)) ha4
  clear_value l10
  extract_lets +onlyGivenNames l11
  have hl11 : Kept W r (l11) := by
    unfold l11
    refine countFixed_kept (hW.sub (by decide)) ?_
    refine countFixed_kept (hW.sub (by decide)) ?_
    exact countFixed_kept (hW.sub (by decide)) hl10
  clear_value l11
  dsimp only
  exact odAdd_kept (hW.sub (by decide)) hl11

theorem itemComplete_kept {W : Nat} {r : State} {a0} {a1} {a2 : State} (hW : Sub 4092909 W) (ha2 : Kept W r a2) :
    Kept W r (itemComplete a0 a1 a2) := by
  unfold Sys2Proof.Machine.itemComplete
  split
  · rename_i v0 v1
    exact ha2
  · rename_i v2 v3 v4
    split
    · rename_i v5 v6
      exact ha2
    · rename_i v7 v8 v9
      refine Kept.ite ?_ ?_
      · exact ha2
      · extract_lets +onlyGivenNames l10
        have hl10 : ∀ (z0) (z1) (z2) (_ : Kept W r z2), Kept W r (l10 z0 z1 z2) := by
          intros
          rename_i v11 v12 v13 v14
          unfold l10
          refine runCores_kept (hW.sub (by decide)) ?_
          refine loadFirst_kept (hW.sub (by decide)) ?_
          refine halfUsed_kept (hW.sub (by decide)) ?_
          refine setJob_kept (hW.sub (by decide)) ?_
          refine dropItemSlices_kept (hW.sub (by decide)) ?_
          refine useSlices_kept (hW.sub (by decide)) ?_
          exact v14
        clear_value l10
        refine Kept.ite ?_ ?_
        · apply hl10
          exact ha2
        · split
          · rename_i v15 v16
            apply hl10
            exact ha2
          · rename_i v17 v18 v19
            extract_lets +onlyGivenNames l20
            have hl20 : Kept W r (l20).1 := by
              unfold l20
              exact itemExpand_kept (hW.sub (by decide)) ha2
            clear_value l20
            split
            · rename_i v21 v22 v23
              apply hl10
              exact auxFailed_kept (hW.sub (by decide)) hl20
            · rename_i v24 v25 v26
              extract_lets +onlyGivenNames l27
              have hl27 : Kept W r (l27).1 := by
                unfold l27
                exact countItem_kept (hW.sub (by decide)) hl20
              clear_value l27
              apply hl10
              exact hl27

theorem landPage_kept {W : Nat} {r : State} {a0} {a1} {a2} {a3 : State} (hW : Sub 64 W) (ha3 : Kept W r a3) :
    Kept W r (landPage a0 a1 a2 a3) := by
  unfold Sys2Proof.Machine.landPage
  apply forEach_kept
  · intro x0 x1 h2
    exact landStream_kept (hW.sub (by decide)) h2
  · exact ha3

theorem landJobTile_kept {W : Nat} {r : State} {a0} {a1} {a2} {a3} {a4 : State} (hW : Sub 4092909 W) (ha4 : Kept W r a4) :
    Kept W r (landJobTile a0 a1 a2 a3 a4) := by
  unfold Sys2Proof.Machine.landJobTile
  split
  · rename_i v0 v1
    exact ha4
  · rename_i v2 v3 v4
    extract_lets +onlyGivenNames l5
    clear_value l5
    refine Kept.ite ?_ ?_
    · refine Kept.ite ?_ ?_
      · extract_lets +onlyGivenNames l6
        have hl6 : ∀ (z0) (z1) (_ : Kept W r z1), Kept W r (l6 z0 z1) := by
          intros
          rename_i v7 v8 v9
          unfold l6
          split
          · rename_i v10 v11
            exact v9
          · rename_i v12 v13 v14
            refine satisfy_kept (hW.sub (by decide)) ?_
            refine setJob_kept (hW.sub (by decide)) ?_
            exact v9
        clear_value l6
        extract_lets +onlyGivenNames l15
        clear_value l15
        refine Kept.ite ?_ ?_
        · apply hl6
          refine weightFailed_kept (hW.sub (by decide)) ?_
          refine Kept.upd 64 ?_ ?_ rfl
          · exact hW.sub (by decide)
          · exact ha4
        · apply hl6
          refine retried_kept (hW.sub (by decide)) ?_
          refine Kept.upd 64 ?_ ?_ rfl
          · exact hW.sub (by decide)
          · exact ha4
      · refine Kept.ite ?_ ?_
        · exact jobPageFailed_kept (hW.sub (by decide)) ha4
        · refine runCores_kept (hW.sub (by decide)) ?_
          refine setJob_kept (hW.sub (by decide)) ?_
          refine landPage_kept (hW.sub (by decide)) ?_
          exact retried_kept (hW.sub (by decide)) ha4
    · refine Kept.ite ?_ ?_
      · refine Kept.ite ?_ ?_
        · exact jobPageFailed_kept (hW.sub (by decide)) ha4
        · refine landPage_kept (hW.sub (by decide)) ?_
          exact retried_kept (hW.sub (by decide)) ha4
      · exact ha4

theorem landPlanned_kept {W : Nat} {r : State} {a0} {a1} {a2 : State} (hW : Sub 4092909 W) (ha2 : Kept W r a2) :
    Kept W r (landPlanned a0 a1 a2) := by
  unfold Sys2Proof.Machine.landPlanned
  extract_lets +onlyGivenNames l0
  clear_value l0
  extract_lets +onlyGivenNames l1
  clear_value l1
  extract_lets +onlyGivenNames l2
  have hl2 : Kept W r (l2) := by
    unfold l2
    refine Kept.upd 64 ?_ ?_ rfl
    · exact hW.sub (by decide)
    · exact ha2
  clear_value l2
  refine Kept.ite ?_ ?_
  · split
    · rename_i v3 v4 v5 v6
      exact pageFailed_kept (hW.sub (by decide)) hl2
    · rename_i v7
      exact coilFailed_kept (hW.sub (by decide)) hl2
  · extract_lets +onlyGivenNames l8
    clear_value l8
    refine satisfy_kept (hW.sub (by decide)) ?_
    refine retried_kept (hW.sub (by decide)) ?_
    refine Kept.upd 64 ?_ ?_ rfl
    · exact hW.sub (by decide)
    · exact ha2

theorem tileLanded_kept {W : Nat} {r : State} {a0} {a1} {a2} {a3} {a4 : State} (hW : Sub 4092909 W) (ha4 : Kept W r a4) :
    Kept W r (tileLanded a0 a1 a2 a3 a4) := by
  unfold Sys2Proof.Machine.tileLanded
  split
  · rename_i v0 v1
    exact landJobTile_kept (hW.sub (by decide)) ha4
  · rename_i v2 v3 v4 v5 v6
    split
    · rename_i v7 v8
      exact ha4
    · rename_i v9 v10 v11
      exact landPlanned_kept (hW.sub (by decide)) ha4
  · rename_i v12
    split
    · rename_i v13 v14
      exact ha4
    · rename_i v15 v16 v17
      exact landHalf_kept (hW.sub (by decide)) ha4

end Sys2Proof.Laws
end

