-- ==== Sys2Proof/Laws/KeptCommands.lean ====
section
/-! SUPPORT. What the operations of Sys2Proof/Machine/Commands.lean keep: one lemma for each, which callers cite. -/

namespace Sys2Proof.Laws

open Sys2Proof Sys2Proof.Machine

theorem runCmd_kept {W : Nat} {r : State} {a0} {a1 : State} (hW : Sub 4126701 W) (ha1 : Kept W r a1) :
    Kept W r (runCmd a0 a1) := by
  unfold Sys2Proof.Machine.runCmd
  split
  · rename_i v0 v1
    exact runSeqOpen_kept (hW.sub (by decide)) ha1
  · rename_i v2 v3
    exact runSeqClose_kept (hW.sub (by decide)) ha1
  · rename_i v4 v5
    exact runSeqFork_kept (hW.sub (by decide)) ha1
  · rename_i v6 v7
    exact runSeqTruncate_kept (hW.sub (by decide)) ha1
  · rename_i v8 v9
    exact runKvAppend_kept (hW.sub (by decide)) ha1
  · rename_i v10 v11
    exact runColSeal_kept (hW.sub (by decide)) ha1
  · rename_i v12 v13
    exact runColMove_kept (hW.sub (by decide)) ha1
  · rename_i v14 v15
    exact runColPin_kept (hW.sub (by decide)) ha1
  · rename_i v16 v17
    exact runColUnpin_kept (hW.sub (by decide)) ha1
  · rename_i v18 v19
    exact runColDiscard_kept (hW.sub (by decide)) ha1
  · rename_i v20 v21
    exact runPfxLookup_kept (hW.sub (by decide)) ha1
  · rename_i v22 v23
    exact runPfxCommit_kept (hW.sub (by decide)) ha1
  · rename_i v24 v25
    exact runPfxEvict_kept (hW.sub (by decide)) ha1
  · rename_i v26 v27
    exact runObjCreate_kept (hW.sub (by decide)) ha1
  · rename_i v28 v29
    exact runObjWrite_kept (hW.sub (by decide)) ha1
  · rename_i v30 v31
    exact runObjRead_kept (hW.sub (by decide)) ha1
  · rename_i v32 v33
    exact runObjMove_kept (hW.sub (by decide)) ha1
  · rename_i v34 v35
    exact runObjPolicy_kept (hW.sub (by decide)) ha1
  · rename_i v36 v37
    exact runAttn_kept (hW.sub (by decide)) ha1
  · rename_i v38 v39
    exact runAttnBwd_kept (hW.sub (by decide)) ha1
  · rename_i v40 v41
    exact runSpecConfirm_kept (hW.sub (by decide)) ha1
  · rename_i v42 v43
    exact runTableBuild_kept (hW.sub (by decide)) ha1
  · rename_i v44 v45
    exact runTableLoad_kept (hW.sub (by decide)) ha1
  · rename_i v46 v47
    exact runCompress_kept (hW.sub (by decide)) ha1
  · rename_i v48 v49
    exact runWaitCount_kept (hW.sub (by decide)) ha1
  · rename_i v50 v51
    exact runFence_kept (hW.sub (by decide)) ha1
  · rename_i v52 v53 v54 v55 v56 v57 v58 v59 v60 v61 v62 v63 v64 v65 v66 v67 v68 v69 v70 v71 v72 v73 v74 v75 v76 v77 v78
    exact ha1

theorem portReturns_kept {W : Nat} {r : State} {a0} {a1 : State} (hW : Sub 4126701 W) (ha1 : Kept W r a1) :
    Kept W r (portReturns a0 a1) := by
  unfold Sys2Proof.Machine.portReturns
  extract_lets +onlyGivenNames l0
  clear_value l0
  extract_lets +onlyGivenNames l1
  have hl1 : Kept W r (l1) := by
    unfold l1
    apply forEach_kept
    · intro x2 x3 h4
      split
      · rename_i v5 v6 v7
        refine runCmd_kept (hW.sub (by decide)) ?_
        exact setWork_kept (hW.sub (by decide)) h4
      · rename_i v8 v9
        exact h4
    · exact ha1
  clear_value l1
  refine runCores_kept (hW.sub (by decide)) ?_
  apply forEach_kept
  · intro x10 x11 h12
    refine Kept.ite ?_ ?_
    · refine cxlAsk_kept (hW.sub (by decide)) ?_
      refine Kept.upd 4 ?_ ?_ rfl
      · exact hW.sub (by decide)
      · exact h12
    · exact h12
  · exact hl1

theorem deferredStart_kept {W : Nat} {r : State} {a0} {a1 : State} (hW : Sub 4126701 W) (ha1 : Kept W r a1) :
    Kept W r (deferredStart a0 a1) := by
  unfold Sys2Proof.Machine.deferredStart
  split
  · rename_i v0 v1
    exact ha1
  · rename_i v2 v3 v4
    refine Kept.ite ?_ ?_
    · exact runCmd_kept (hW.sub (by decide)) ha1
    · exact ha1

theorem commandsAt_kept {W : Nat} {r : State} {a0} {a1 : State} (hW : Sub 4126701 W) (ha1 : Kept W r a1) :
    Kept W r (commandsAt a0 a1) := by
  unfold Sys2Proof.Machine.commandsAt
  extract_lets +onlyGivenNames l0
  clear_value l0
  apply forEach_kept
  · intro x1 x2 h3
    split
    · rename_i v4 v5 v6
      apply goOrDefer_kept
      · exact hW.sub (by decide)
      · intro x7 x8 h9
        exact runCmd_kept (hW.sub (by decide)) h9
      · exact setWork_kept (hW.sub (by decide)) h3
    · rename_i v10 v11
      exact h3
  · exact ha1

end Sys2Proof.Laws
end

