-- ==== Sys2Proof/Laws/KeptHeathFix.lean ====
section
/-! SUPPORT. What the operations of Sys2Proof/Machine/HeathFix.lean keep: one lemma for each, which callers cite. -/

namespace Sys2Proof.Laws

open Sys2Proof Sys2Proof.Machine

theorem dropStuck_kept {W : Nat} {r : State} {a0} {a1 : State} (hW : Sub 2651085 W) (ha1 : Kept W r a1) :
    Kept W r (dropStuck a0 a1) := by
  unfold Sys2Proof.Machine.dropStuck
  extract_lets +onlyGivenNames l0
  clear_value l0
  refine Kept.ite ?_ ?_
  · refine tendPrefix_kept (hW.sub (by decide)) ?_
    apply forEach_kept
    · intro x1 x2 h3
      exact failDur_kept (hW.sub (by decide)) h3
    · exact ha1
  · exact ha1

theorem tend_kept {W : Nat} {r : State} {a0} {a1 : State} (hW : Sub 2651085 W) (ha1 : Kept W r a1) :
    Kept W r (tend a0 a1) := by
  unfold Sys2Proof.Machine.tend
  extract_lets +onlyGivenNames l0
  clear_value l0
  extract_lets +onlyGivenNames l1
  clear_value l1
  extract_lets +onlyGivenNames l2
  clear_value l2
  extract_lets +onlyGivenNames l3
  clear_value l3
  refine dropStuck_kept (hW.sub (by decide)) ?_
  refine pump_kept (hW.sub (by decide)) ?_
  refine odAdd_kept (hW.sub (by decide)) ?_
  exact setShelf_kept (hW.sub (by decide)) ha1

theorem gcStart_kept {W : Nat} {r : State} {a0} {a1 : State} (hW : Sub 2651085 W) (ha1 : Kept W r a1) :
    Kept W r (gcStart a0 a1) := by
  unfold Sys2Proof.Machine.gcStart
  extract_lets +onlyGivenNames l0
  clear_value l0
  refine Kept.ite ?_ ?_
  · exact ha1
  · extract_lets +onlyGivenNames l1
    clear_value l1
    refine tend_kept (hW.sub (by decide)) ?_
    refine odAdd_kept (hW.sub (by decide)) ?_
    exact setShelf_kept (hW.sub (by decide)) ha1

theorem unitLost_kept {W : Nat} {r : State} {a0} {a1} {a2 : State} (hW : Sub 3830733 W) (ha2 : Kept W r a2) :
    Kept W r (unitLost a0 a1 a2) := by
  unfold Sys2Proof.Machine.unitLost
  extract_lets +onlyGivenNames l0
  clear_value l0
  refine tend_kept (hW.sub (by decide)) ?_
  refine tendPrefix_kept (hW.sub (by decide)) ?_
  refine poisonFlow_kept (hW.sub (by decide)) ?_
  refine odAdd_kept (hW.sub (by decide)) ?_
  exact setShelf_kept (hW.sub (by decide)) ha2

theorem eraseOver_kept {W : Nat} {r : State} {a0} {a1} {a2 : State} (hW : Sub 2651085 W) (ha2 : Kept W r a2) :
    Kept W r (eraseOver a0 a1 a2) := by
  unfold Sys2Proof.Machine.eraseOver
  extract_lets +onlyGivenNames l0
  clear_value l0
  refine Kept.ite ?_ ?_
  · exact pump_kept (hW.sub (by decide)) ha2
  · extract_lets +onlyGivenNames l1
    clear_value l1
    refine tend_kept (hW.sub (by decide)) ?_
    refine odAdd_kept (hW.sub (by decide)) ?_
    exact setShelf_kept (hW.sub (by decide)) ha2

theorem retire_kept {W : Nat} {r : State} {a0} {a1} {a2} {a3 : State} (hW : Sub 528384 W) (ha3 : Kept W r a3) :
    Kept W r (retire a0 a1 a2 a3) := by
  unfold Sys2Proof.Machine.retire
  extract_lets +onlyGivenNames l0
  clear_value l0
  refine bump64_kept (hW.sub (by decide)) ?_
  exact setShelf_kept (hW.sub (by decide)) ha3

theorem eraseDone_kept {W : Nat} {r : State} {a0} {a1} {a2} {a3 : State} (hW : Sub 2651085 W) (ha3 : Kept W r a3) :
    Kept W r (eraseDone a0 a1 a2 a3) := by
  unfold Sys2Proof.Machine.eraseDone
  extract_lets +onlyGivenNames l0
  clear_value l0
  extract_lets +onlyGivenNames l1
  clear_value l1
  extract_lets +onlyGivenNames l2
  clear_value l2
  extract_lets +onlyGivenNames l3
  extract_lets +onlyGivenNames l4
  have hl4 : Kept W r (l4) := by
    unfold l4
    exact setShelf_kept (hW.sub (by decide)) ha3
  clear_value l4
  refine eraseOver_kept (hW.sub (by decide)) ?_
  refine Kept.ite ?_ ?_
  · exact retire_kept (hW.sub (by decide)) hl4
  · exact hl4

theorem serveUnit_kept {W : Nat} {r : State} {a0} {a1} {a2 : State} (hW : Sub 1048588 W) (ha2 : Kept W r a2) :
    Kept W r (serveUnit a0 a1 a2) := by
  unfold Sys2Proof.Machine.serveUnit
  extract_lets +onlyGivenNames l0
  clear_value l0
  apply forEach_kept
  · intro x1 x2 h3
    refine Kept.ite ?_ ?_
    · refine event_kept (hW.sub (by decide)) ?_
      exact cxlAnswer_kept (hW.sub (by decide)) h3
    · exact cxlAnswer_kept (hW.sub (by decide)) h3
  · refine Kept.upd 4 ?_ ?_ rfl
    · exact hW.sub (by decide)
    · exact ha2

theorem eraseFailed_kept {W : Nat} {r : State} {a0} {a1} {a2} {a3 : State} (hW : Sub 3830733 W) (ha3 : Kept W r a3) :
    Kept W r (eraseFailed a0 a1 a2 a3) := by
  unfold Sys2Proof.Machine.eraseFailed
  refine eraseOver_kept (hW.sub (by decide)) ?_
  refine fault_kept (hW.sub (by decide)) ?_
  exact retire_kept (hW.sub (by decide)) ha3

end Sys2Proof.Laws
end

