-- ==== Sys2Proof/Laws/KeptHeathBoot.lean ====
section
/-! SUPPORT. What the operations of Sys2Proof/Machine/HeathBoot.lean keep: one lemma for each, which callers cite. -/

namespace Sys2Proof.Laws

open Sys2Proof Sys2Proof.Machine

theorem giveFines_kept {W : Nat} {r : State} {a0} {a1 : State} (hW : Sub 4096 W) (ha1 : Kept W r a1) :
    Kept W r (giveFines a0 a1) := by
  unfold Sys2Proof.Machine.giveFines
  extract_lets +onlyGivenNames l0
  clear_value l0
  extract_lets +onlyGivenNames l1
  clear_value l1
  apply forEach_kept
  · intro x2 x3 h4
    exact setShelf_kept (hW.sub (by decide)) h4
  · exact ha1

theorem trimKey_kept {W : Nat} {r : State} {a0} {a1} {a2 : State} (hW : Sub 4608 W) (ha2 : Kept W r a2) :
    Kept W r (trimKey a0 a1 a2) := by
  unfold Sys2Proof.Machine.trimKey
  extract_lets +onlyGivenNames l0
  clear_value l0
  extract_lets +onlyGivenNames l1
  have hl1 : Kept W r (l1) := by
    unfold l1
    exact setShelf_kept (hW.sub (by decide)) ha2
  clear_value l1
  refine Kept.ite ?_ ?_
  · refine Kept.upd 512 ?_ ?_ rfl
    · exact hW.sub (by decide)
    · exact hl1
  · exact hl1

theorem trimStale_kept {W : Nat} {r : State} {a0} {a1 : State} (hW : Sub 4608 W) (ha1 : Kept W r a1) :
    Kept W r (trimStale a0 a1) := by
  unfold Sys2Proof.Machine.trimStale
  extract_lets +onlyGivenNames l0
  clear_value l0
  apply forEach_kept
  · intro x1 x2 h3
    exact trimKey_kept (hW.sub (by decide)) h3
  · exact setShelf_kept (hW.sub (by decide)) ha1

theorem ringDone_kept {W : Nat} {r : State} {a0} {a1 : State} (hW : Sub 2651085 W) (ha1 : Kept W r a1) :
    Kept W r (ringDone a0 a1) := by
  unfold Sys2Proof.Machine.ringDone
  extract_lets +onlyGivenNames l0
  clear_value l0
  refine Kept.ite ?_ ?_
  · refine tend_kept (hW.sub (by decide)) ?_
    exact setShelf_kept (hW.sub (by decide)) ha1
  · exact ha1

theorem reissue_kept {W : Nat} {r : State} {a0} {a1 : State} (hW : Sub 4096 W) (ha1 : Kept W r a1) :
    Kept W r (reissue a0 a1) := by
  unfold Sys2Proof.Machine.reissue
  apply forEach_kept
  · intro x0 x1 h2
    split
    · rename_i v3 v4 v5 v6
      refine Kept.ite ?_ ?_
      · exact h2
      · extract_lets +onlyGivenNames l7
        clear_value l7
        extract_lets +onlyGivenNames l8
        clear_value l8
        extract_lets +onlyGivenNames l9
        clear_value l9
        extract_lets +onlyGivenNames l10
        clear_value l10
        extract_lets +onlyGivenNames l11
        clear_value l11
        extract_lets +onlyGivenNames l12
        clear_value l12
        extract_lets +onlyGivenNames l13
        clear_value l13
        extract_lets +onlyGivenNames l14
        clear_value l14
        extract_lets +onlyGivenNames l15
        clear_value l15
        refine giveFines_kept (hW.sub (by decide)) ?_
        exact setShelf_kept (hW.sub (by decide)) h2
    · rename_i v16 v17
      exact h2
  · exact ha1

theorem finishBoot_kept {W : Nat} {r : State} {a0} {a1 : State} (hW : Sub 2651085 W) (ha1 : Kept W r a1) :
    Kept W r (finishBoot a0 a1) := by
  unfold Sys2Proof.Machine.finishBoot
  extract_lets +onlyGivenNames l0
  clear_value l0
  extract_lets +onlyGivenNames l1
  clear_value l1
  extract_lets +onlyGivenNames l2
  have hl2 : Kept W r (l2) := by
    unfold l2
    refine trimStale_kept (hW.sub (by decide)) ?_
    exact setShelf_kept (hW.sub (by decide)) ha1
  clear_value l2
  extract_lets +onlyGivenNames l3
  clear_value l3
  extract_lets +onlyGivenNames l4
  clear_value l4
  refine ringDone_kept (hW.sub (by decide)) ?_
  refine tend_kept (hW.sub (by decide)) ?_
  refine reissue_kept (hW.sub (by decide)) ?_
  exact setShelf_kept (hW.sub (by decide)) hl2

theorem scanned_kept {W : Nat} {r : State} {a0} {a1 : State} (hW : Sub 2651085 W) (ha1 : Kept W r a1) :
    Kept W r (scanned a0 a1) := by
  unfold Sys2Proof.Machine.scanned
  extract_lets +onlyGivenNames l0
  have hl0 : Kept W r (l0) := by
    unfold l0
    refine giveFines_kept (hW.sub (by decide)) ?_
    exact setShelf_kept (hW.sub (by decide)) ha1
  clear_value l0
  extract_lets +onlyGivenNames l1
  have hl1 : ∀ (z0) (_ : Kept W r z0), Kept W r (l1 z0) := by
    intros
    rename_i v2 v3
    unfold l1
    refine setShelf_kept (hW.sub (by decide)) ?_
    exact v3
  clear_value l1
  refine Kept.ite ?_ ?_
  · refine tend_kept (hW.sub (by decide)) ?_
    apply hl1
    exact trimStale_kept (hW.sub (by decide)) hl0
  · exact finishBoot_kept (hW.sub (by decide)) hl0

theorem rebuildDone_kept {W : Nat} {r : State} {a0} {a1} {a2} {a3 : State} (hW : Sub 2651085 W) (ha3 : Kept W r a3) :
    Kept W r (rebuildDone a0 a1 a2 a3) := by
  unfold Sys2Proof.Machine.rebuildDone
  extract_lets +onlyGivenNames l0
  have hl0 : Kept W r (l0) := by
    unfold l0
    refine giveFines_kept (hW.sub (by decide)) ?_
    exact setShelf_kept (hW.sub (by decide)) ha3
  clear_value l0
  extract_lets +onlyGivenNames l1
  clear_value l1
  extract_lets +onlyGivenNames l2
  clear_value l2
  refine Kept.ite ?_ ?_
  · exact finishBoot_kept (hW.sub (by decide)) hl0
  · refine pump_kept (hW.sub (by decide)) ?_
    exact setShelf_kept (hW.sub (by decide)) hl0

theorem startScan_kept {W : Nat} {r : State} {a0} {a1} {a2 : State} (hW : Sub 1724416 W) (ha2 : Kept W r a2) :
    Kept W r (startScan a0 a1 a2) := by
  unfold Sys2Proof.Machine.startScan
  extract_lets +onlyGivenNames l0
  clear_value l0
  split
  · rename_i v1 v2
    exact ha2
  · rename_i v3 v4 v5
    extract_lets +onlyGivenNames l6
    clear_value l6
    refine pump_kept (hW.sub (by decide)) ?_
    refine setShelf_kept (hW.sub (by decide)) ?_
    refine fault_kept (hW.sub (by decide)) ?_
    exact bump32_kept (hW.sub (by decide)) ha2

theorem nextMeta_kept {W : Nat} {r : State} {a0} {a1 : State} (hW : Sub 3830733 W) (ha1 : Kept W r a1) :
    Kept W r (nextMeta a0 a1) := by
  unfold Sys2Proof.Machine.nextMeta
  extract_lets +onlyGivenNames l0
  clear_value l0
  split
  · rename_i v1 v2 v3 v4 v5
    refine pump_kept (hW.sub (by decide)) ?_
    exact setShelf_kept (hW.sub (by decide)) ha1
  · rename_i v6 v7 v8 v9 v10
    split
    · rename_i v11 v12 v13
      exact rebuildDone_kept (hW.sub (by decide)) ha1
    · rename_i v14 v15
      exact startScan_kept (hW.sub (by decide)) ha1
  · rename_i v16 v17 v18 v19
    exact ha1

theorem formatted_kept {W : Nat} {r : State} {a0} {a1 : State} (hW : Sub 20480 W) (ha1 : Kept W r a1) :
    Kept W r (formatted a0 a1) := by
  unfold Sys2Proof.Machine.formatted
  extract_lets +onlyGivenNames l0
  clear_value l0
  split
  · rename_i v1 v2
    exact ha1
  · rename_i v3 v4 v5
    refine pump_kept (hW.sub (by decide)) ?_
    exact setShelf_kept (hW.sub (by decide)) ha1

theorem startMetas_kept {W : Nat} {r : State} {a0} {a1} {a2 : State} (hW : Sub 3830733 W) (ha2 : Kept W r a2) :
    Kept W r (startMetas a0 a1 a2) := by
  unfold Sys2Proof.Machine.startMetas
  extract_lets +onlyGivenNames l0
  clear_value l0
  extract_lets +onlyGivenNames l1
  clear_value l1
  extract_lets +onlyGivenNames l2
  clear_value l2
  extract_lets +onlyGivenNames l3
  clear_value l3
  refine nextMeta_kept (hW.sub (by decide)) ?_
  exact setShelf_kept (hW.sub (by decide)) ha2

theorem beginFormat_kept {W : Nat} {r : State} {a0} {a1 : State} (hW : Sub 20992 W) (ha1 : Kept W r a1) :
    Kept W r (beginFormat a0 a1) := by
  unfold Sys2Proof.Machine.beginFormat
  extract_lets +onlyGivenNames l0
  clear_value l0
  split
  · rename_i v1 v2
    exact ha1
  · rename_i v3 v4 v5
    extract_lets +onlyGivenNames l6
    clear_value l6
    refine pump_kept (hW.sub (by decide)) ?_
    refine setShelf_kept (hW.sub (by decide)) ?_
    refine Kept.upd 512 ?_ ?_ rfl
    · exact hW.sub (by decide)
    · exact ha1

theorem rootsRead_kept {W : Nat} {r : State} {a0} {a1 : State} (hW : Sub 3830733 W) (ha1 : Kept W r a1) :
    Kept W r (rootsRead a0 a1) := by
  unfold Sys2Proof.Machine.rootsRead
  extract_lets +onlyGivenNames l0
  clear_value l0
  split
  · rename_i v1 v2 v3 v4 v5 v6 v7
    refine Kept.ite ?_ ?_
    · exact setShelf_kept (hW.sub (by decide)) ha1
    · extract_lets +onlyGivenNames l8
      clear_value l8
      refine Kept.ite ?_ ?_
      · refine startScan_kept (hW.sub (by decide)) ?_
        exact setShelf_kept (hW.sub (by decide)) ha1
      · refine startMetas_kept (hW.sub (by decide)) ?_
        exact setShelf_kept (hW.sub (by decide)) ha1
  · rename_i v9 v10 v11 v12 v13
    refine Kept.ite ?_ ?_
    · refine startScan_kept (hW.sub (by decide)) ?_
      exact setShelf_kept (hW.sub (by decide)) ha1
    · exact beginFormat_kept (hW.sub (by decide)) ha1
  · rename_i v14 v15 v16
    exact ha1

theorem shelfReady_kept {W : Nat} {r : State} {a0} {a1 : State} (hW : Sub 4192237 W) (ha1 : Kept W r a1) :
    Kept W r (shelfReady a0 a1) := by
  unfold Sys2Proof.Machine.shelfReady
  refine tendPrefix_kept (hW.sub (by decide)) ?_
  refine drainAll_kept (hW.sub (by decide)) ?_
  refine portReturns_kept (hW.sub (by decide)) ?_
  exact setShelf_kept (hW.sub (by decide)) ha1

theorem rootDone_kept {W : Nat} {r : State} {a0} {a1 : State} (hW : Sub 4192237 W) (ha1 : Kept W r a1) :
    Kept W r (rootDone a0 a1) := by
  unfold Sys2Proof.Machine.rootDone
  extract_lets +onlyGivenNames l0
  have hl0 : Kept W r (l0) := by
    unfold l0
    refine consumeSave_kept (hW.sub (by decide)) ?_
    refine tend_kept (hW.sub (by decide)) ?_
    exact setShelf_kept (hW.sub (by decide)) ha1
  clear_value l0
  refine Kept.ite ?_ ?_
  · exact shelfReady_kept (hW.sub (by decide)) hl0
  · exact hl0

theorem bootPage_kept {W : Nat} {r : State} {a0} {a1} {a2 : State} (hW : Sub 3830733 W) (ha2 : Kept W r a2) :
    Kept W r (bootPage a0 a1 a2) := by
  unfold Sys2Proof.Machine.bootPage
  extract_lets +onlyGivenNames l0
  clear_value l0
  extract_lets +onlyGivenNames l1
  clear_value l1
  split
  · rename_i v2 v3
    exact startScan_kept (hW.sub (by decide)) ha2
  · rename_i v4
    refine nextMeta_kept (hW.sub (by decide)) ?_
    exact setShelf_kept (hW.sub (by decide)) ha2
  · rename_i v5 v6
    refine Kept.ite ?_ ?_
    · exact startScan_kept (hW.sub (by decide)) ha2
    · extract_lets +onlyGivenNames l7
      refine nextMeta_kept (hW.sub (by decide)) ?_
      exact setShelf_kept (hW.sub (by decide)) ha2

theorem bootNext_kept {W : Nat} {r : State} {a0} {a1 : State} (hW : Sub 3830733 W) (ha1 : Kept W r a1) :
    Kept W r (bootNext a0 a1) := by
  unfold Sys2Proof.Machine.bootNext
  extract_lets +onlyGivenNames l0
  clear_value l0
  refine Kept.ite ?_ ?_
  · exact pump_kept (hW.sub (by decide)) ha1
  · split
    · rename_i v1 v2
      exact rootsRead_kept (hW.sub (by decide)) ha1
    · rename_i v3 v4
      exact formatted_kept (hW.sub (by decide)) ha1
    · rename_i v5 v6
      exact finishBoot_kept (hW.sub (by decide)) ha1
    · rename_i v7 v8
      exact scanned_kept (hW.sub (by decide)) ha1
    · rename_i v9 v10 v11 v12 v13
      exact pump_kept (hW.sub (by decide)) ha1

end Sys2Proof.Laws
end

