-- ==== Sys2Proof/Laws/KeptHeathCmds.lean ====
section
/-! SUPPORT. What the operations of Sys2Proof/Machine/HeathCmds.lean keep: one lemma for each, which callers cite. -/

namespace Sys2Proof.Laws

open Sys2Proof Sys2Proof.Machine

theorem startRebuild_kept {W : Nat} {r : State} {a0} {a1} {a2 : State} (hW : Sub 20480 W) (ha2 : Kept W r a2) :
    Kept W r (startRebuild a0 a1 a2) := by
  unfold Sys2Proof.Machine.startRebuild
  split
  · rename_i v0 v1 v2
    refine pump_kept (hW.sub (by decide)) ?_
    exact setShelf_kept (hW.sub (by decide)) ha2
  · rename_i v3 v4
    exact ha2

theorem pageGone_kept {W : Nat} {r : State} {a0} {a1} {a2 : State} (hW : Sub 3830733 W) (ha2 : Kept W r a2) :
    Kept W r (pageGone a0 a1 a2) := by
  unfold Sys2Proof.Machine.pageGone
  split
  · rename_i v0 v1
    exact unitLost_kept (hW.sub (by decide)) ha2
  · rename_i v2 v3 v4
    exact unitLost_kept (hW.sub (by decide)) ha2
  · rename_i v5 v6
    exact unitLost_kept (hW.sub (by decide)) ha2
  · rename_i v7
    exact bootPage_kept (hW.sub (by decide)) ha2

theorem opOnDeadLun_kept {W : Nat} {r : State} {a0} {a1} {a2 : State} (hW : Sub 3830733 W) (ha2 : Kept W r a2) :
    Kept W r (opOnDeadLun a0 a1 a2) := by
  unfold Sys2Proof.Machine.opOnDeadLun
  extract_lets +onlyGivenNames l0
  clear_value l0
  split
  · rename_i v1 v2
    exact setShelf_kept (hW.sub (by decide)) ha2
  · rename_i v3 v4
    exact setShelf_kept (hW.sub (by decide)) ha2
  · rename_i v5 v6 v7
    exact eraseOver_kept (hW.sub (by decide)) ha2
  · rename_i v8 v9 v10 v11
    refine tend_kept (hW.sub (by decide)) ?_
    exact setShelf_kept (hW.sub (by decide)) ha2
  · rename_i v12 v13 v14 v15 v16 v17 v18 v19
    refine tend_kept (hW.sub (by decide)) ?_
    exact setShelf_kept (hW.sub (by decide)) ha2
  · rename_i v20 v21 v22 v23 v24 v25
    refine tend_kept (hW.sub (by decide)) ?_
    exact setShelf_kept (hW.sub (by decide)) ha2
  · rename_i v26 v27 v28 v29 v30
    refine tend_kept (hW.sub (by decide)) ?_
    exact setShelf_kept (hW.sub (by decide)) ha2
  · rename_i v31 v32 v33
    exact startRebuild_kept (hW.sub (by decide)) ha2
  · rename_i v34 v35 v36 v37 v38
    refine pageGone_kept (hW.sub (by decide)) ?_
    exact setShelf_kept (hW.sub (by decide)) ha2
  · rename_i v39 v40
    refine bootNext_kept (hW.sub (by decide)) ?_
    exact setShelf_kept (hW.sub (by decide)) ha2
  · rename_i v41 v42
    refine bootNext_kept (hW.sub (by decide)) ?_
    exact setShelf_kept (hW.sub (by decide)) ha2
  · rename_i v43 v44
    refine bootNext_kept (hW.sub (by decide)) ?_
    exact setShelf_kept (hW.sub (by decide)) ha2
  · rename_i v45 v46
    exact bootNext_kept (hW.sub (by decide)) ha2
  · rename_i v47 v48 v49 v50 v51 v52 v53 v54 v55 v56 v57 v58 v59 v60
    exact tend_kept (hW.sub (by decide)) ha2

theorem lunOut_kept {W : Nat} {r : State} {a0} {a1} {a2} {a3} {a4 : State} (hW : Sub 3830733 W) (ha4 : Kept W r a4) :
    Kept W r (lunOut a0 a1 a2 a3 a4) := by
  unfold Sys2Proof.Machine.lunOut
  extract_lets +onlyGivenNames l0
  clear_value l0
  extract_lets +onlyGivenNames l1
  clear_value l1
  extract_lets +onlyGivenNames l2
  clear_value l2
  extract_lets +onlyGivenNames l3
  clear_value l3
  extract_lets +onlyGivenNames l4
  clear_value l4
  extract_lets +onlyGivenNames l5
  clear_value l5
  extract_lets +onlyGivenNames l6
  clear_value l6
  extract_lets +onlyGivenNames l7
  clear_value l7
  extract_lets +onlyGivenNames l8
  have hl8 : Kept W r (l8) := by
    unfold l8
    exact setShelf_kept (hW.sub (by decide)) ha4
  clear_value l8
  extract_lets +onlyGivenNames l9
  have hl9 : Kept W r (l9) := by
    unfold l9
    exact faultEvent_kept (hW.sub (by decide)) hl8
  clear_value l9
  refine tend_kept (hW.sub (by decide)) ?_
  apply forEach_kept
  · intro x10 x11 h12
    exact opOnDeadLun_kept (hW.sub (by decide)) h12
  · exact hl9

theorem lunSilent_kept {W : Nat} {r : State} {a0} {a1} {a2 : State} (hW : Sub 3830733 W) (ha2 : Kept W r a2) :
    Kept W r (lunSilent a0 a1 a2) := by
  unfold Sys2Proof.Machine.lunSilent
  extract_lets +onlyGivenNames l0
  clear_value l0
  refine Kept.ite ?_ ?_
  · refine tend_kept (hW.sub (by decide)) ?_
    exact opOnDeadLun_kept (hW.sub (by decide)) ha2
  · refine Kept.ite ?_ ?_
    · exact lunOut_kept (hW.sub (by decide)) ha2
    · extract_lets +onlyGivenNames l1
      clear_value l1
      extract_lets +onlyGivenNames l2
      clear_value l2
      refine pump_kept (hW.sub (by decide)) ?_
      exact setShelf_kept (hW.sub (by decide)) ha2

theorem responseLate_kept {W : Nat} {r : State} {a0} {a1} {a2 : State} (hW : Sub 3830733 W) (ha2 : Kept W r a2) :
    Kept W r (responseLate a0 a1 a2) := by
  unfold Sys2Proof.Machine.responseLate
  extract_lets +onlyGivenNames l0
  clear_value l0
  split
  · rename_i v1 v2
    exact ha2
  · rename_i v3 v4 v5
    refine Kept.ite ?_ ?_
    · exact ha2
    · extract_lets +onlyGivenNames l6
      have hl6 : Kept W r (l6) := by
        unfold l6
        exact setShelf_kept (hW.sub (by decide)) ha2
      clear_value l6
      refine Kept.ite ?_ ?_
      · exact setShelf_kept (hW.sub (by decide)) hl6
      · exact lunSilent_kept (hW.sub (by decide)) hl6

theorem heathPortDown_kept {W : Nat} {r : State} {a0} {a1 : State} (hW : Sub 1708044 W) (ha1 : Kept W r a1) :
    Kept W r (heathPortDown a0 a1) := by
  unfold Sys2Proof.Machine.heathPortDown
  extract_lets +onlyGivenNames l0
  clear_value l0
  extract_lets +onlyGivenNames l1
  clear_value l1
  refine faultEvent_kept (hW.sub (by decide)) ?_
  exact setShelf_kept (hW.sub (by decide)) ha1

theorem flushTail_kept {W : Nat} {r : State} {a0} {a1 : State} (hW : Sub 20480 W) (ha1 : Kept W r a1) :
    Kept W r (flushTail a0 a1) := by
  unfold Sys2Proof.Machine.flushTail
  extract_lets +onlyGivenNames l0
  clear_value l0
  refine Kept.ite ?_ ?_
  · exact ha1
  · refine pump_kept (hW.sub (by decide)) ?_
    exact setShelf_kept (hW.sub (by decide)) ha1

theorem journalWritten_kept {W : Nat} {r : State} {a0} {a1} {a2} {a3 : State} (hW : Sub 2716621 W) (ha3 : Kept W r a3) :
    Kept W r (journalWritten a0 a1 a2 a3) := by
  unfold Sys2Proof.Machine.journalWritten
  extract_lets +onlyGivenNames l0
  have hl0 : Kept W r (l0) := by
    unfold l0
    refine drainAll_kept (hW.sub (by decide)) ?_
    refine tend_kept (hW.sub (by decide)) ?_
    exact setShelf_kept (hW.sub (by decide)) ha3
  clear_value l0
  refine Kept.ite ?_ ?_
  · exact flushTail_kept (hW.sub (by decide)) hl0
  · exact hl0

theorem journalHalf_kept {W : Nat} {r : State} {a0} {a1 : State} (hW : Sub 20480 W) (ha1 : Kept W r a1) :
    Kept W r (journalHalf a0 a1) := by
  unfold Sys2Proof.Machine.journalHalf
  extract_lets +onlyGivenNames l0
  clear_value l0
  refine Kept.ite ?_ ?_
  · exact ha1
  · refine pump_kept (hW.sub (by decide)) ?_
    exact setShelf_kept (hW.sub (by decide)) ha1

theorem programDone_kept {W : Nat} {r : State} {a0} {a1} {a2 : State} (hW : Sub 4192237 W) (ha2 : Kept W r a2) :
    Kept W r (programDone a0 a1 a2) := by
  unfold Sys2Proof.Machine.programDone
  extract_lets +onlyGivenNames l0
  clear_value l0
  extract_lets +onlyGivenNames l1
  clear_value l1
  split
  · rename_i v2 v3 v4 v5 v6 v7 v8 v9
    extract_lets +onlyGivenNames l10
    clear_value l10
    extract_lets +onlyGivenNames l11
    clear_value l11
    refine Kept.ite ?_ ?_
    · refine pump_kept (hW.sub (by decide)) ?_
      exact setShelf_kept (hW.sub (by decide)) ha2
    · extract_lets +onlyGivenNames l12
      clear_value l12
      extract_lets +onlyGivenNames l13
      clear_value l13
      extract_lets +onlyGivenNames l14
      clear_value l14
      extract_lets +onlyGivenNames l15
      have hl15 : Kept W r (l15) := by
        unfold l15
        refine odAdd_kept (hW.sub (by decide)) ?_
        exact setShelf_kept (hW.sub (by decide)) ha2
      clear_value l15
      refine ringDone_kept (hW.sub (by decide)) ?_
      refine tendPrefix_kept (hW.sub (by decide)) ?_
      refine drainAll_kept (hW.sub (by decide)) ?_
      exact tend_kept (hW.sub (by decide)) hl15
  · rename_i v16 v17 v18 v19 v20 v21 v22
    exact journalWritten_kept (hW.sub (by decide)) ha2
  · rename_i v23 v24 v25 v26 v27 v28
    refine tend_kept (hW.sub (by decide)) ?_
    exact setShelf_kept (hW.sub (by decide)) ha2
  · rename_i v29 v30 v31 v32 v33
    refine tend_kept (hW.sub (by decide)) ?_
    exact setShelf_kept (hW.sub (by decide)) ha2
  · rename_i v34 v35 v36 v37
    exact rootDone_kept (hW.sub (by decide)) ha2
  · rename_i v38 v39 v40 v41 v42 v43
    exact tend_kept (hW.sub (by decide)) ha2

theorem programFailed_kept {W : Nat} {r : State} {a0} {a1} {a2 : State} (hW : Sub 3830733 W) (ha2 : Kept W r a2) :
    Kept W r (programFailed a0 a1 a2) := by
  unfold Sys2Proof.Machine.programFailed
  extract_lets +onlyGivenNames l0
  clear_value l0
  extract_lets +onlyGivenNames l1
  have hl1 : Kept W r (l1) := by
    unfold l1
    refine fault_kept (hW.sub (by decide)) ?_
    exact retire_kept (hW.sub (by decide)) ha2
  clear_value l1
  extract_lets +onlyGivenNames l2
  clear_value l2
  split
  · rename_i v3 v4 v5 v6
    refine tend_kept (hW.sub (by decide)) ?_
    exact setShelf_kept (hW.sub (by decide)) hl1
  · rename_i v7 v8
    split
    · rename_i v9 v10 v11
      refine tend_kept (hW.sub (by decide)) ?_
      exact setShelf_kept (hW.sub (by decide)) hl1
    · rename_i v12 v13
      exact hl1

theorem programAnswer_kept {W : Nat} {r : State} {a0} {a1} {a2} {a3 : State} (hW : Sub 4192237 W) (ha3 : Kept W r a3) :
    Kept W r (programAnswer a0 a1 a2 a3) := by
  unfold Sys2Proof.Machine.programAnswer
  refine Kept.ite ?_ ?_
  · exact programDone_kept (hW.sub (by decide)) ha3
  · exact programFailed_kept (hW.sub (by decide)) ha3

theorem formatErased_kept {W : Nat} {r : State} {a0} {a1} {a2} {a3 : State} (hW : Sub 3830733 W) (ha3 : Kept W r a3) :
    Kept W r (formatErased a0 a1 a2 a3) := by
  unfold Sys2Proof.Machine.formatErased
  extract_lets +onlyGivenNames l0
  clear_value l0
  extract_lets +onlyGivenNames l1
  have hl1 : Kept W r (l1) := by
    unfold l1
    refine Kept.ite ?_ ?_
    · exact setShelf_kept (hW.sub (by decide)) ha3
    · refine fault_kept (hW.sub (by decide)) ?_
      exact retire_kept (hW.sub (by decide)) ha3
  clear_value l1
  refine bootNext_kept (hW.sub (by decide)) ?_
  exact setShelf_kept (hW.sub (by decide)) hl1

theorem discoverShelf_kept {W : Nat} {r : State} {a0} {a1 : State} (hW : Sub 20480 W) (ha1 : Kept W r a1) :
    Kept W r (discoverShelf a0 a1) := by
  unfold Sys2Proof.Machine.discoverShelf
  refine pump_kept (hW.sub (by decide)) ?_
  exact setShelf_kept (hW.sub (by decide)) ha1

theorem heathPortUp_kept {W : Nat} {r : State} {a0} {a1 : State} (hW : Sub 4126701 W) (ha1 : Kept W r a1) :
    Kept W r (heathPortUp a0 a1) := by
  unfold Sys2Proof.Machine.heathPortUp
  extract_lets +onlyGivenNames l0
  clear_value l0
  refine Kept.ite ?_ ?_
  · refine portReturns_kept (hW.sub (by decide)) ?_
    refine tend_kept (hW.sub (by decide)) ?_
    exact setShelf_kept (hW.sub (by decide)) ha1
  · exact discoverShelf_kept (hW.sub (by decide)) ha1

theorem rootErased_kept {W : Nat} {r : State} {a0} {a1} {a2} {a3 : State} (hW : Sub 3830733 W) (ha3 : Kept W r a3) :
    Kept W r (rootErased a0 a1 a2 a3) := by
  unfold Sys2Proof.Machine.rootErased
  extract_lets +onlyGivenNames l0
  clear_value l0
  refine tend_kept (hW.sub (by decide)) ?_
  refine Kept.ite ?_ ?_
  · exact setShelf_kept (hW.sub (by decide)) ha3
  · refine fault_kept (hW.sub (by decide)) ?_
    exact retire_kept (hW.sub (by decide)) ha3

theorem eraseAnswer_kept {W : Nat} {r : State} {a0} {a1} {a2} {a3 : State} (hW : Sub 3830733 W) (ha3 : Kept W r a3) :
    Kept W r (eraseAnswer a0 a1 a2 a3) := by
  unfold Sys2Proof.Machine.eraseAnswer
  split
  · rename_i v0 v1 v2
    refine Kept.ite ?_ ?_
    · exact eraseDone_kept (hW.sub (by decide)) ha3
    · exact eraseFailed_kept (hW.sub (by decide)) ha3
  · rename_i v3 v4
    exact formatErased_kept (hW.sub (by decide)) ha3
  · rename_i v5 v6
    exact rootErased_kept (hW.sub (by decide)) ha3
  · rename_i v7 v8 v9 v10
    exact ha3

theorem pageHere_kept {W : Nat} {r : State} {a0} {a1} {a2} {a3 : State} (hW : Sub 3830733 W) (ha3 : Kept W r a3) :
    Kept W r (pageHere a0 a1 a2 a3) := by
  unfold Sys2Proof.Machine.pageHere
  split
  · rename_i v0 v1
    refine Kept.ite ?_ ?_
    · exact serveUnit_kept (hW.sub (by decide)) ha3
    · refine tendPrefix_kept (hW.sub (by decide)) ?_
      exact poisonFlow_kept (hW.sub (by decide)) ha3
  · rename_i v2 v3 v4
    refine Kept.ite ?_ ?_
    · refine tend_kept (hW.sub (by decide)) ?_
      exact setShelf_kept (hW.sub (by decide)) ha3
    · exact unitLost_kept (hW.sub (by decide)) ha3
  · rename_i v5 v6
    refine Kept.ite ?_ ?_
    · refine tend_kept (hW.sub (by decide)) ?_
      exact setShelf_kept (hW.sub (by decide)) ha3
    · exact unitLost_kept (hW.sub (by decide)) ha3
  · rename_i v7
    exact bootPage_kept (hW.sub (by decide)) ha3

theorem stripePage_kept {W : Nat} {r : State} {a0} {a1} {a2} {a3} {a4} {a5 : State} (hW : Sub 3830733 W) (ha5 : Kept W r a5) :
    Kept W r (stripePage a0 a1 a2 a3 a4 a5) := by
  unfold Sys2Proof.Machine.stripePage
  extract_lets +onlyGivenNames l0
  clear_value l0
  refine Kept.ite ?_ ?_
  · refine pageGone_kept (hW.sub (by decide)) ?_
    exact setShelf_kept (hW.sub (by decide)) ha5
  · extract_lets +onlyGivenNames l1
    clear_value l1
    refine Kept.ite ?_ ?_
    · refine pump_kept (hW.sub (by decide)) ?_
      exact setShelf_kept (hW.sub (by decide)) ha5
    · extract_lets +onlyGivenNames l2
      clear_value l2
      extract_lets +onlyGivenNames l3
      have hl3 : Kept W r (l3) := by
        unfold l3
        exact setShelf_kept (hW.sub (by decide)) ha5
      clear_value l3
      refine Kept.ite ?_ ?_
      · refine pageHere_kept (hW.sub (by decide)) ?_
        exact bump64_kept (hW.sub (by decide)) hl3
      · exact pageGone_kept (hW.sub (by decide)) hl3

theorem pageRead_kept {W : Nat} {r : State} {a0} {a1} {a2} {a3} {a4 : State} (hW : Sub 3830733 W) (ha4 : Kept W r a4) :
    Kept W r (pageRead a0 a1 a2 a3 a4) := by
  unfold Sys2Proof.Machine.pageRead
  extract_lets +onlyGivenNames l0
  clear_value l0
  split
  · rename_i v1 v2 v3
    refine Kept.ite ?_ ?_
    · exact pageHere_kept (hW.sub (by decide)) ha4
    · refine Kept.ite ?_ ?_
      · exact bootPage_kept (hW.sub (by decide)) ha4
      · exact startRebuild_kept (hW.sub (by decide)) ha4
  · rename_i v4 v5 v6 v7 v8
    exact stripePage_kept (hW.sub (by decide)) ha4
  · rename_i v9 v10
    refine bootNext_kept (hW.sub (by decide)) ?_
    exact setShelf_kept (hW.sub (by decide)) ha4
  · rename_i v11 v12
    refine bootNext_kept (hW.sub (by decide)) ?_
    exact setShelf_kept (hW.sub (by decide)) ha4
  · rename_i v13 v14 v15 v16 v17
    exact ha4

theorem readDone_kept {W : Nat} {r : State} {a0} {a1} {a2} {a3} {a4 : State} (hW : Sub 3830733 W) (ha4 : Kept W r a4) :
    Kept W r (readDone a0 a1 a2 a3 a4) := by
  unfold Sys2Proof.Machine.readDone
  refine pageRead_kept (hW.sub (by decide)) ?_
  exact setShelf_kept (hW.sub (by decide)) ha4

theorem resetAnswer_kept {W : Nat} {r : State} {a0} {a1} {a2} {a3 : State} (hW : Sub 3830733 W) (ha3 : Kept W r a3) :
    Kept W r (resetAnswer a0 a1 a2 a3) := by
  unfold Sys2Proof.Machine.resetAnswer
  refine Kept.ite ?_ ?_
  · exact pump_kept (hW.sub (by decide)) ha3
  · exact lunOut_kept (hW.sub (by decide)) ha3

theorem startFormat_kept {W : Nat} {r : State} {a0} {a1 : State} (hW : Sub 20992 W) (ha1 : Kept W r a1) :
    Kept W r (startFormat a0 a1).2 := by
  unfold Sys2Proof.Machine.startFormat
  split
  · rename_i v0
    dsimp only
    exact ha1
  · rename_i v1
    dsimp only
    exact beginFormat_kept (hW.sub (by decide)) ha1

theorem paramSeen_kept {W : Nat} {r : State} {a0} {a1} {a2} {a3 : State} (hW : Sub 20480 W) (ha3 : Kept W r a3) :
    Kept W r (paramSeen a0 a1 a2 a3) := by
  unfold Sys2Proof.Machine.paramSeen
  refine pump_kept (hW.sub (by decide)) ?_
  exact setShelf_kept (hW.sub (by decide)) ha3

theorem metaDone_kept {W : Nat} {r : State} {a0} {a1} {a2} {a3} {a4 : State} (hW : Sub 3830733 W) (ha4 : Kept W r a4) :
    Kept W r (metaDone a0 a1 a2 a3 a4) := by
  unfold Sys2Proof.Machine.metaDone
  refine bootNext_kept (hW.sub (by decide)) ?_
  exact setShelf_kept (hW.sub (by decide)) ha4

theorem checkpointDue_kept {W : Nat} {r : State} {a0} {a1 : State} (hW : Sub 20480 W) (ha1 : Kept W r a1) :
    Kept W r (checkpointDue a0 a1) := by
  unfold Sys2Proof.Machine.checkpointDue
  extract_lets +onlyGivenNames l0
  clear_value l0
  refine Kept.ite ?_ ?_
  · exact ha1
  · refine pump_kept (hW.sub (by decide)) ?_
    exact setShelf_kept (hW.sub (by decide)) ha1

theorem identified_kept {W : Nat} {r : State} {a0} {a1} {a2} {a3 : State} (hW : Sub 20480 W) (ha3 : Kept W r a3) :
    Kept W r (identified a0 a1 a2 a3) := by
  unfold Sys2Proof.Machine.identified
  extract_lets +onlyGivenNames l0
  clear_value l0
  refine Kept.ite ?_ ?_
  · exact ha3
  · refine Kept.ite ?_ ?_
    · exact setShelf_kept (hW.sub (by decide)) ha3
    · refine pump_kept (hW.sub (by decide)) ?_
      exact setShelf_kept (hW.sub (by decide)) ha3

theorem shelfStartup_kept {W : Nat} {r : State} {a0} {a1} {a2 : State} (hW : Sub 20480 W) (ha2 : Kept W r a2) :
    Kept W r (shelfStartup a0 a1 a2) := by
  unfold Sys2Proof.Machine.shelfStartup
  extract_lets +onlyGivenNames l0
  clear_value l0
  split
  · rename_i v1 v2
    exact ha2
  · rename_i v3 v4 v5
    extract_lets +onlyGivenNames l6
    clear_value l6
    refine Kept.ite ?_ ?_
    · exact ha2
    · refine pump_kept (hW.sub (by decide)) ?_
      exact setShelf_kept (hW.sub (by decide)) ha2

theorem badmapSeen_kept {W : Nat} {r : State} {a0} {a1} {a2} {a3 : State} (hW : Sub 20480 W) (ha3 : Kept W r a3) :
    Kept W r (badmapSeen a0 a1 a2 a3) := by
  unfold Sys2Proof.Machine.badmapSeen
  extract_lets +onlyGivenNames l0
  clear_value l0
  extract_lets +onlyGivenNames l1
  clear_value l1
  extract_lets +onlyGivenNames l2
  clear_value l2
  extract_lets +onlyGivenNames l3
  clear_value l3
  refine pump_kept (hW.sub (by decide)) ?_
  exact setShelf_kept (hW.sub (by decide)) ha3

theorem answer_kept {W : Nat} {r : State} {a0} {a1} {a2} {a3} {a4} {a5 : State} (hW : Sub 3830733 W) (ha4 : ∀ (y0) (y1) (_ : Kept W r y1), Kept W r (a4 y0 y1)) (ha5 : Kept W r a5) :
    Kept W r (answer a0 a1 a2 a3 a4 a5) := by
  unfold Sys2Proof.Machine.answer
  extract_lets +onlyGivenNames l0
  clear_value l0
  split
  · rename_i v1 v2
    exact ha5
  · rename_i v3 v4 v5
    extract_lets +onlyGivenNames l6
    clear_value l6
    refine Kept.ite ?_ ?_
    · exact ha5
    · refine Kept.ite ?_ ?_
      · extract_lets +onlyGivenNames l7
        clear_value l7
        refine pump_kept (hW.sub (by decide)) ?_
        refine setShelf_kept (hW.sub (by decide)) ?_
        exact fault_kept (hW.sub (by decide)) ha5
      · refine Kept.ite ?_ ?_
        · refine lunSilent_kept (hW.sub (by decide)) ?_
          exact setShelf_kept (hW.sub (by decide)) ha5
        · apply ha4
          exact setShelf_kept (hW.sub (by decide)) ha5

theorem startFullScan_kept {W : Nat} {r : State} {a0} {a1 : State} (hW : Sub 1724416 W) (ha1 : Kept W r a1) :
    Kept W r (startFullScan a0 a1).2 := by
  unfold Sys2Proof.Machine.startFullScan
  split
  · rename_i v0
    dsimp only
    exact ha1
  · rename_i v1
    dsimp only
    apply forEach_kept
    · intro x2 x3 h4
      refine Kept.ite ?_ ?_
      · exact startScan_kept (hW.sub (by decide)) h4
      · exact h4
    · exact ha1

end Sys2Proof.Laws
end

