-- ==== Sys2Proof/Laws/KeptLinkOps.lean ====
section
/-! SUPPORT. What the operations of Sys2Proof/Machine/LinkOps.lean keep: one lemma for each, which callers cite. -/

namespace Sys2Proof.Laws

open Sys2Proof Sys2Proof.Machine

theorem retrain_kept {W : Nat} {r : State} {a0} {a1 : State} (hW : Sub 540672 W) (ha1 : Kept W r a1) :
    Kept W r (retrain a0 a1) := by
  unfold Sys2Proof.Machine.retrain
  refine bump32_kept (hW.sub (by decide)) ?_
  exact editPort_kept (hW.sub (by decide)) ha1

theorem portDown_kept {W : Nat} {r : State} {a0} {a1 : State} (hW : Sub 1724428 W) (ha1 : Kept W r a1) :
    Kept W r (portDown a0 a1) := by
  unfold Sys2Proof.Machine.portDown
  refine Kept.ite ?_ ?_
  · exact ha1
  · extract_lets +onlyGivenNames l0
    have hl0 : Kept W r (l0) := by
      unfold l0
      exact editPort_kept (hW.sub (by decide)) ha1
    clear_value l0
    extract_lets +onlyGivenNames l1
    have hl1 : Kept W r (l1) := by
      unfold l1
      exact retrain_kept (hW.sub (by decide)) hl0
    clear_value l1
    refine Kept.ite ?_ ?_
    · exact heathPortDown_kept (hW.sub (by decide)) hl1
    · exact hl1

theorem rekeyLink_kept {W : Nat} {r : State} {a0} {a1 : State} (hW : Sub 16384 W) (ha1 : Kept W r a1) :
    Kept W r (rekeyLink a0 a1) := by
  unfold Sys2Proof.Machine.rekeyLink
  refine Kept.ite ?_ ?_
  · exact editPort_kept (hW.sub (by decide)) ha1
  · exact ha1

theorem lanesChanged_kept {W : Nat} {r : State} {a0} {a1 : State} (hW : Sub 1724428 W) (ha1 : Kept W r a1) :
    Kept W r (lanesChanged a0 a1) := by
  unfold Sys2Proof.Machine.lanesChanged
  extract_lets +onlyGivenNames l0
  clear_value l0
  refine Kept.ite ?_ ?_
  · exact portDown_kept (hW.sub (by decide)) ha1
  · exact editPort_kept (hW.sub (by decide)) ha1

theorem frameOut_kept {W : Nat} {r : State} {a0} {a1} {a2} {a3} {a4} {a5 : State} (hW : Sub 1986572 W) (ha5 : Kept W r a5) :
    Kept W r (frameOut a0 a1 a2 a3 a4 a5) := by
  unfold Sys2Proof.Machine.frameOut
  extract_lets +onlyGivenNames l0
  have hl0 : Kept W r (l0) := by
    unfold l0
    exact rekeyLink_kept (hW.sub (by decide)) ha5
  clear_value l0
  extract_lets +onlyGivenNames l1
  clear_value l1
  extract_lets +onlyGivenNames l2
  clear_value l2
  extract_lets +onlyGivenNames l3
  clear_value l3
  extract_lets +onlyGivenNames l4
  clear_value l4
  extract_lets +onlyGivenNames l5
  clear_value l5
  extract_lets +onlyGivenNames l6
  clear_value l6
  extract_lets +onlyGivenNames l7
  have hl7 : Kept W r (l7) := by
    unfold l7
    exact editPort_kept (hW.sub (by decide)) hl0
  clear_value l7
  extract_lets +onlyGivenNames l8
  have hl8 : ∀ (z0) (z1) (_ : Kept W r z1), Kept W r (l8 z0 z1) := by
    intros
    rename_i v9 v10 v11
    unfold l8
    refine count_kept (hW.sub (by decide)) ?_
    refine count_kept (hW.sub (by decide)) ?_
    exact v11
  clear_value l8
  extract_lets +onlyGivenNames l12
  have hl12 : Kept W r (l12) := by
    unfold l12
    refine bump64_kept (hW.sub (by decide)) ?_
    refine send_kept (hW.sub (by decide)) ?_
    unfold Option.elim
    split
    · rename_i v13 v14 v15 v16 v17
      beta_reduce
      apply hl8
      exact hl7
    · rename_i v18 v19 v20 v21
      exact hl7
  clear_value l12
  refine Kept.ite ?_ ?_
  · exact lanesChanged_kept (hW.sub (by decide)) hl12
  · exact hl12

theorem controlOut_kept {W : Nat} {r : State} {a0} {a1} {a2} {a3 : State} (hW : Sub 1986572 W) (ha3 : Kept W r a3) :
    Kept W r (controlOut a0 a1 a2 a3) := by
  unfold Sys2Proof.Machine.controlOut
  exact frameOut_kept (hW.sub (by decide)) ha3

theorem dataOut_kept {W : Nat} {r : State} {a0} {a1} {a2} {a3} {a4 : State} (hW : Sub 1986572 W) (ha4 : Kept W r a4) :
    Kept W r (dataOut a0 a1 a2 a3 a4) := by
  unfold Sys2Proof.Machine.dataOut
  apply forEach_kept
  · intro x0 x1 h2
    exact frameOut_kept (hW.sub (by decide)) h2
  · exact ha4

end Sys2Proof.Laws
end

