-- ==== Sys2Proof/Laws/KeptLeases.lean ====
section
/-! SUPPORT. What the operations of Sys2Proof/Machine/Leases.lean keep: one lemma for each, which callers cite. -/

namespace Sys2Proof.Laws

open Sys2Proof Sys2Proof.Machine

theorem setLeases_kept {W : Nat} {r : State} {a0} {a1 : State} (hW : Sub 2048 W) (ha1 : Kept W r a1) :
    Kept W r (setLeases a0 a1) := by
  unfold Sys2Proof.Machine.setLeases
  refine Kept.upd 2048 ?_ ?_ rfl
  · exact hW.sub (by decide)
  · exact ha1

theorem recallLent_kept {W : Nat} {r : State} {a0} {a1} {a2 : State} (hW : Sub 1058816 W) (ha2 : Kept W r a2) :
    Kept W r (recallLent a0 a1 a2) := by
  unfold Sys2Proof.Machine.recallLent
  split
  · rename_i v0 v1
    exact ha2
  · rename_i v2 v3 v4
    refine Kept.ite ?_ ?_
    · exact ha2
    · extract_lets +onlyGivenNames l5
      clear_value l5
      extract_lets +onlyGivenNames l6
      clear_value l6
      refine sendLease_kept (hW.sub (by decide)) ?_
      exact setLeases_kept (hW.sub (by decide)) ha2

theorem recallExcess_kept {W : Nat} {r : State} {a0} {a1} {a2 : State} (hW : Sub 1058816 W) (ha2 : Kept W r a2) :
    Kept W r (recallExcess a0 a1 a2) := by
  induction a0 generalizing a1 a2 with
  | nil  =>
    unfold Sys2Proof.Machine.recallExcess
    exact ha2
  | cons k0 k1 ih =>
    unfold Sys2Proof.Machine.recallExcess
    extract_lets +onlyGivenNames l0
    clear_value l0
    refine Kept.ite ?_ ?_
    · exact ha2
    · apply ih
      exact recallLent_kept (hW.sub (by decide)) ha2

theorem applyLendLimit_kept {W : Nat} {r : State} {a0 : State} (hW : Sub 1058816 W) (ha0 : Kept W r a0) :
    Kept W r (applyLendLimit a0) := by
  unfold Sys2Proof.Machine.applyLendLimit
  extract_lets +onlyGivenNames l0
  clear_value l0
  exact recallExcess_kept (hW.sub (by decide)) ha0

theorem freeLent_kept {W : Nat} {r : State} {a0} {a1} {a2} {a3} {a4 : State} (hW : Sub 2048 W) (ha4 : Kept W r a4) :
    Kept W r (freeLent a0 a1 a2 a3 a4) := by
  unfold Sys2Proof.Machine.freeLent
  exact setLeases_kept (hW.sub (by decide)) ha4

theorem leaseDone_kept {W : Nat} {r : State} {a0} {a1} {a2 : State} (hW : Sub 2048 W) (ha2 : Kept W r a2) :
    Kept W r (leaseDone a0 a1 a2) := by
  unfold Sys2Proof.Machine.leaseDone
  exact freeLent_kept (hW.sub (by decide)) ha2

theorem dropImageOf_kept {W : Nat} {r : State} {a0} {a1 : State} (hW : Sub 4480 W) (ha1 : Kept W r a1) :
    Kept W r (dropImageOf a0 a1) := by
  unfold Sys2Proof.Machine.dropImageOf
  split
  · rename_i v0 v1
    exact dropColImage_kept (hW.sub (by decide)) ha1
  · rename_i v2 v3 v4
    exact dropExtImage_kept (hW.sub (by decide)) ha1
  · rename_i v5 v6
    exact ha1

theorem poisonHome_kept {W : Nat} {r : State} {a0} {a1} {a2 : State} (hW : Sub 1717133 W) (ha2 : Kept W r a2) :
    Kept W r (poisonHome a0 a1 a2) := by
  unfold Sys2Proof.Machine.poisonHome
  extract_lets +onlyGivenNames l0
  clear_value l0
  split
  · rename_i v1 v2 v3
    refine poisonCol_kept (hW.sub (by decide)) ?_
    exact poisonFault_kept (hW.sub (by decide)) ha2
  · rename_i v4 v5 v6 v7
    refine poisonObj_kept (hW.sub (by decide)) ?_
    exact poisonFault_kept (hW.sub (by decide)) ha2
  · rename_i v8 v9 v10
    exact ha2

theorem loseLease_kept {W : Nat} {r : State} {a0} {a1 : State} (hW : Sub 1719181 W) (ha1 : Kept W r a1) :
    Kept W r (loseLease a0 a1) := by
  unfold Sys2Proof.Machine.loseLease
  extract_lets +onlyGivenNames l0
  have hl0 : Kept W r (l0) := by
    unfold l0
    apply forEach_kept
    · intro x1 x2 h3
      apply onlyIf_kept
      · intro x4 h5
        exact failMove_kept (hW.sub (by decide)) h5
      · exact h3
    · exact ha1
  clear_value l0
  extract_lets +onlyGivenNames l6
  have hl6 : Kept W r (l6) := by
    unfold l6
    apply forEach_kept
    · intro x7 x8 h9
      exact dropImageOf_kept (hW.sub (by decide)) h9
    · exact hl0
  clear_value l6
  extract_lets +onlyGivenNames l10
  clear_value l10
  extract_lets +onlyGivenNames l11
  have hl11 : Kept W r (l11) := by
    unfold l11
    apply forEach_kept
    · intro x12 x13 h14
      exact poisonHome_kept (hW.sub (by decide)) h14
    · exact hl6
  clear_value l11
  exact setLeases_kept (hW.sub (by decide)) hl11

theorem leaseReturn_kept {W : Nat} {r : State} {a0} {a1} {a2 : State} (hW : Sub 2048 W) (ha2 : Kept W r a2) :
    Kept W r (leaseReturn a0 a1 a2) := by
  unfold Sys2Proof.Machine.leaseReturn
  exact freeLent_kept (hW.sub (by decide)) ha2

theorem recallMove_kept {W : Nat} {r : State} {a0} {a1} {a2 : State} (hW : Sub 2118080 W) (ha2 : Kept W r a2) :
    Kept W r (recallMove a0 a1 a2) := by
  unfold Sys2Proof.Machine.recallMove
  extract_lets +onlyGivenNames l0
  have hl0 : ∀ (z0), KeptV W r (l0 z0) := by
    intros
    rename_i v1
    unfold l0
    split
    · rename_i v2 v3
      split
      · rename_i v4 v5 v6
        exact moveCol_kept (hW.sub (by decide)) ha2
      · rename_i v7 v8
        exact KeptV.error
    · rename_i v9 v10 v11
      exact moveExt_kept (hW.sub (by decide)) ha2
    · rename_i v12 v13
      exact KeptV.error
  clear_value l0
  refine Kept.ite ?_ ?_
  · exact ha2
  · split
    · rename_i v14 v15 v16
      refine KeptV.use2 ?_ v16
      apply hl0
    · rename_i v18 v19 v20
      split
      · rename_i v21 v22 v23
        refine KeptV.use2 ?_ v23
        apply hl0
      · rename_i v25 v26 v27
        exact ha2

theorem recallAll_kept {W : Nat} {r : State} {a0 : State} (hW : Sub 1058816 W) (ha0 : Kept W r a0) :
    Kept W r (recallAll a0) := by
  unfold Sys2Proof.Machine.recallAll
  apply forEach_kept
  · intro x0 x1 h2
    apply onlyIf_kept
    · intro x3 h4
      exact recallLent_kept (hW.sub (by decide)) h4
    · exact h2
  · exact ha0

theorem leaseRequest_kept {W : Nat} {r : State} {a0} {a1} {a2 : State} (hW : Sub 3155968 W) (ha2 : Kept W r a2) :
    Kept W r (leaseRequest a0 a1 a2) := by
  unfold Sys2Proof.Machine.leaseRequest
  extract_lets +onlyGivenNames l0
  clear_value l0
  refine Kept.ite ?_ ?_
  · exact sendLease_kept (hW.sub (by decide)) ha2
  · extract_lets +onlyGivenNames l1
    clear_value l1
    extract_lets +onlyGivenNames l2
    clear_value l2
    extract_lets +onlyGivenNames l3
    clear_value l3
    extract_lets +onlyGivenNames l4
    clear_value l4
    refine sendLease_kept (hW.sub (by decide)) ?_
    refine drawn_kept (hW.sub (by decide)) ?_
    refine Kept.upd 2048 ?_ ?_ rfl
    · exact hW.sub (by decide)
    · exact ha2

theorem loseNeighbour_kept {W : Nat} {r : State} {a0} {a1 : State} (hW : Sub 1719181 W) (ha1 : Kept W r a1) :
    Kept W r (loseNeighbour a0 a1) := by
  unfold Sys2Proof.Machine.loseNeighbour
  extract_lets +onlyGivenNames l0
  have hl0 : Kept W r (l0) := by
    unfold l0
    apply forEach_kept
    · intro x1 x2 h3
      apply onlyIf_kept
      · intro x4 h5
        exact loseLease_kept (hW.sub (by decide)) h5
      · exact h3
    · exact ha1
  clear_value l0
  exact setLeases_kept (hW.sub (by decide)) hl0

theorem tendRecall_kept {W : Nat} {r : State} {a0} {a1 : State} (hW : Sub 3176896 W) (ha1 : Kept W r a1) :
    Kept W r (tendRecall a0 a1) := by
  unfold Sys2Proof.Machine.tendRecall
  split
  · rename_i v0 v1
    exact ha1
  · rename_i v2 v3 v4
    refine recallSettle_kept (hW.sub (by decide)) ?_
    apply forEach_kept
    · intro x5 x6 h7
      exact recallMove_kept (hW.sub (by decide)) h7
    · exact ha1

theorem leaseRecall_kept {W : Nat} {r : State} {a0} {a1} {a2 : State} (hW : Sub 3176908 W) (ha2 : Kept W r a2) :
    Kept W r (leaseRecall a0 a1 a2) := by
  unfold Sys2Proof.Machine.leaseRecall
  extract_lets +onlyGivenNames l0
  clear_value l0
  split
  · rename_i v1 v2
    exact ha2
  · rename_i v3 v4 v5
    extract_lets +onlyGivenNames l6
    clear_value l6
    extract_lets +onlyGivenNames l7
    clear_value l7
    extract_lets +onlyGivenNames l8
    have hl8 : Kept W r (l8) := by
      unfold l8
      exact setLeases_kept (hW.sub (by decide)) ha2
    clear_value l8
    extract_lets +onlyGivenNames l9
    have hl9 : Kept W r (l9) := by
      unfold l9
      apply forEach_kept
      · intro x10 x11 h12
        exact dropImageOf_kept (hW.sub (by decide)) h12
      · exact hl8
    clear_value l9
    extract_lets +onlyGivenNames l13
    clear_value l13
    extract_lets +onlyGivenNames l14
    clear_value l14
    extract_lets +onlyGivenNames l15
    clear_value l15
    extract_lets +onlyGivenNames l16
    have hl16 : Kept W r (l16) := by
      unfold l16
      apply forEach_kept
      · intro x17 x18 h19
        exact event_kept (hW.sub (by decide)) h19
      · exact hl9
    clear_value l16
    exact tendRecall_kept (hW.sub (by decide)) hl16

theorem leaseGrant_kept {W : Nat} {r : State} {a0} {a1} {a2 : State} (hW : Sub 2099200 W) (ha2 : Kept W r a2) :
    Kept W r (leaseGrant a0 a1 a2) := by
  unfold Sys2Proof.Machine.leaseGrant
  extract_lets +onlyGivenNames l0
  clear_value l0
  refine drawn_kept (hW.sub (by decide)) ?_
  exact setLeases_kept (hW.sub (by decide)) ha2

theorem tendRecalls_kept {W : Nat} {r : State} {a0 : State} (hW : Sub 3176896 W) (ha0 : Kept W r a0) :
    Kept W r (tendRecalls a0) := by
  unfold Sys2Proof.Machine.tendRecalls
  apply forEach_kept
  · intro x0 x1 h2
    apply onlyIf_kept
    · intro x3 h4
      exact tendRecall_kept (hW.sub (by decide)) h4
    · exact h2
  · exact ha0

theorem leaseAct_kept {W : Nat} {r : State} {a0} {a1} {a2} {a3 : State} (hW : Sub 3176908 W) (ha3 : Kept W r a3) :
    Kept W r (leaseAct a0 a1 a2 a3) := by
  unfold Sys2Proof.Machine.leaseAct
  split
  · rename_i v0
    exact leaseRequest_kept (hW.sub (by decide)) ha3
  · rename_i v1
    exact leaseGrant_kept (hW.sub (by decide)) ha3
  · rename_i v2
    exact leaseReturn_kept (hW.sub (by decide)) ha3
  · rename_i v3
    exact leaseRecall_kept (hW.sub (by decide)) ha3
  · rename_i v4
    exact leaseDone_kept (hW.sub (by decide)) ha3
  · rename_i v5 v6 v7 v8 v9 v10
    exact ha3

theorem borrow_kept {W : Nat} {r : State} {a0} {a1} {a2 : State} (hW : Sub 1056768 W) (ha2 : Kept W r a2) :
    Kept W r (borrow a0 a1 a2) := by
  unfold Sys2Proof.Machine.borrow
  refine Kept.ite ?_ ?_
  · exact ha2
  · extract_lets +onlyGivenNames l0
    clear_value l0
    exact sendLease_kept (hW.sub (by decide)) ha2

theorem holdExpiry_kept {W : Nat} {r : State} {a0} {a1 : State} (hW : Sub 2048 W) (ha1 : Kept W r a1) :
    Kept W r (holdExpiry a0 a1) := by
  unfold Sys2Proof.Machine.holdExpiry
  exact setLeases_kept (hW.sub (by decide)) ha1

theorem recallsDue_kept {W : Nat} {r : State} {a0} {a1 : State} (hW : Sub 3832256 W) (ha1 : Kept W r a1) :
    Kept W r (recallsDue a0 a1) := by
  unfold Sys2Proof.Machine.recallsDue
  apply forEach_kept
  · intro x0 x1 h2
    extract_lets +onlyGivenNames l3
    clear_value l3
    refine Kept.ite ?_ ?_
    · exact h2
    · apply forEach_kept
      · intro x4 x5 h6
        exact fault_kept (hW.sub (by decide)) h6
      · exact setLeases_kept (hW.sub (by decide)) h2
  · exact tendRecalls_kept (hW.sub (by decide)) ha1

end Sys2Proof.Laws
end

