-- ==== Sys2Proof/Laws/KeptPeerOut.lean ====
section
/-! SUPPORT. What the operations of Sys2Proof/Machine/PeerOut.lean keep: one lemma for each, which callers cite. -/

namespace Sys2Proof.Laws

open Sys2Proof Sys2Proof.Machine

theorem dropHeld_kept {W : Nat} {r : State} {a0} {a1 : State} (hW : Sub 8192 W) (ha1 : Kept W r a1) :
    Kept W r (dropHeld a0 a1) := by
  unfold Sys2Proof.Machine.dropHeld
  refine Kept.upd 8192 ?_ ?_ rfl
  · exact hW.sub (by decide)
  · exact ha1

theorem beginWr_kept {W : Nat} {r : State} {a0} {a1 : State} (hW : Sub 8192 W) (ha1 : Kept W r a1) :
    Kept W r (beginWr a0 a1) := by
  unfold Sys2Proof.Machine.beginWr
  split
  · rename_i v0 v1
    exact ha1
  · rename_i v2 v3 v4
    split
    · rename_i v5 v6
      exact ha1
    · rename_i v7 v8 v9 v10
      refine Kept.ite ?_ ?_
      · exact ha1
      · extract_lets +onlyGivenNames l11
        clear_value l11
        extract_lets +onlyGivenNames l12
        clear_value l12
        exact setQp_kept (hW.sub (by decide)) ha1

theorem failUnknown_kept {W : Nat} {r : State} {a0} {a1} {a2 : State} (hW : Sub 8192 W) (ha2 : Kept W r a2) :
    Kept W r (failUnknown a0 a1 a2) := by
  induction a1 generalizing a0 a2 with
  | zero  =>
    unfold Sys2Proof.Machine.failUnknown
    exact ha2
  | succ k0 ih =>
    unfold Sys2Proof.Machine.failUnknown
    split
    · rename_i v0 v1
      exact ha2
    · rename_i v2 v3 v4
      split
      · rename_i v5 v6
        exact ha2
      · rename_i v7 v8 v9 v10
        refine Kept.ite ?_ ?_
        · exact ha2
        · apply ih
          exact beginWr_kept (hW.sub (by decide)) ha2

theorem abortWaiting_kept {W : Nat} {r : State} {a0} {a1} {a2 : State} (hW : Sub 8204 W) (ha2 : Kept W r a2) :
    Kept W r (abortWaiting a0 a1 a2) := by
  induction a1 generalizing a0 a2 with
  | zero  =>
    unfold Sys2Proof.Machine.abortWaiting
    exact ha2
  | succ k0 ih =>
    unfold Sys2Proof.Machine.abortWaiting
    split
    · rename_i v0 v1
      exact ha2
    · rename_i v2 v3 v4
      split
      · rename_i v5 v6
        exact ha2
      · rename_i v7 v8 v9 v10
        refine Kept.ite ?_ ?_
        · exact ha2
        · extract_lets +onlyGivenNames l11
          clear_value l11
          apply ih
          refine flushWrs_kept (hW.sub (by decide)) ?_
          exact setQp_kept (hW.sub (by decide)) ha2

theorem qpError_kept {W : Nat} {r : State} {a0} {a1} {a2} {a3 : State} (hW : Sub 1719181 W) (ha3 : Kept W r a3) :
    Kept W r (qpError a0 a1 a2 a3) := by
  unfold Sys2Proof.Machine.qpError
  split
  · rename_i v0 v1
    exact ha3
  · rename_i v2 v3 v4
    extract_lets +onlyGivenNames l5
    clear_value l5
    extract_lets +onlyGivenNames l6
    clear_value l6
    extract_lets +onlyGivenNames l7
    clear_value l7
    extract_lets +onlyGivenNames l8
    have hl8 : Kept W r (l8) := by
      unfold l8
      refine flushWrs_kept (hW.sub (by decide)) ?_
      exact setQp_kept (hW.sub (by decide)) ha3
    clear_value l8
    extract_lets +onlyGivenNames l9
    have hl9 : Kept W r (l9) := by
      unfold l9
      refine faultEvent_kept (hW.sub (by decide)) ?_
      exact bump32_kept (hW.sub (by decide)) hl8
    clear_value l9
    extract_lets +onlyGivenNames l10
    have hl10 : Kept W r (l10) := by
      unfold l10
      refine settleAll_kept (hW.sub (by decide)) ?_
      refine abortWaiting_kept (hW.sub (by decide)) ?_
      exact dropHeld_kept (hW.sub (by decide)) hl9
    clear_value l10
    refine Kept.ite ?_ ?_
    · refine loseNeighbour_kept (hW.sub (by decide)) ?_
      refine Kept.upd 8192 ?_ ?_ rfl
      · exact hW.sub (by decide)
      · exact hl10
    · exact hl10

theorem nextEpoch_kept {W : Nat} {r : State} {a0} {a1 : State} (hW : Sub 1719181 W) (ha1 : Kept W r a1) :
    Kept W r (nextEpoch a0 a1) := by
  unfold Sys2Proof.Machine.nextEpoch
  split
  · rename_i v0 v1
    exact ha1
  · rename_i v2 v3 v4
    refine Kept.ite ?_ ?_
    · refine Kept.ite ?_ ?_
      · exact ha1
      · exact qpError_kept (hW.sub (by decide)) ha1
    · refine bump64_kept (hW.sub (by decide)) ?_
      exact setQp_kept (hW.sub (by decide)) ha1

theorem putPkt_kept {W : Nat} {r : State} {a0} {a1} {a2} {a3 : State} (hW : Sub 540672 W) (ha3 : Kept W r a3) :
    Kept W r (putPkt a0 a1 a2 a3) := by
  unfold Sys2Proof.Machine.putPkt
  refine Kept.ite ?_ ?_
  · exact ha3
  · split
    · rename_i v0
      exact bump64_kept (hW.sub (by decide)) ha3
    · rename_i v1 v2
      exact enqueue_kept (hW.sub (by decide)) ha3

theorem emit_kept {W : Nat} {r : State} {a0} {a1} {a2} {a3} {a4} {a5} {a6 : State} (hW : Sub 1735565 W) (ha6 : Kept W r a6) :
    Kept W r (emit a0 a1 a2 a3 a4 a5 a6) := by
  unfold Sys2Proof.Machine.emit
  extract_lets +onlyGivenNames l0
  have hl0 : Kept W r (l0) := by
    unfold l0
    refine Kept.ite ?_ ?_
    · exact nextEpoch_kept (hW.sub (by decide)) ha6
    · exact ha6
  clear_value l0
  split
  · rename_i v1 v2
    exact hl0
  · rename_i v3 v4 v5
    refine Kept.ite ?_ ?_
    · exact hl0
    · extract_lets +onlyGivenNames l6
      clear_value l6
      extract_lets +onlyGivenNames l7
      clear_value l7
      refine putPkt_kept (hW.sub (by decide)) ?_
      exact setQp_kept (hW.sub (by decide)) hl0

theorem endDrain_kept {W : Nat} {r : State} {a0} {a1 : State} (hW : Sub 1735565 W) (ha1 : Kept W r a1) :
    Kept W r (endDrain a0 a1) := by
  unfold Sys2Proof.Machine.endDrain
  split
  · rename_i v0 v1
    exact ha1
  · rename_i v2 v3 v4
    refine Kept.ite ?_ ?_
    · exact ha1
    · extract_lets +onlyGivenNames l5
      have hl5 : Kept W r (l5) := by
        unfold l5
        refine Kept.ite ?_ ?_
        · exact emit_kept (hW.sub (by decide)) ha1
        · exact ha1
      clear_value l5
      split
      · rename_i v6 v7 v8
        exact setQp_kept (hW.sub (by decide)) hl5
      · rename_i v9 v10
        exact hl5

theorem pumpLeases_kept {W : Nat} {r : State} {a0} {a1} {a2 : State} (hW : Sub 1735565 W) (ha2 : Kept W r a2) :
    Kept W r (pumpLeases a0 a1 a2) := by
  induction a1 generalizing a0 a2 with
  | zero  =>
    unfold Sys2Proof.Machine.pumpLeases
    exact ha2
  | succ k0 ih =>
    unfold Sys2Proof.Machine.pumpLeases
    split
    · rename_i v0 v1 v2 v3 v4 v5
      refine Kept.ite ?_ ?_
      · exact ha2
      · extract_lets +onlyGivenNames l6
        clear_value l6
        extract_lets +onlyGivenNames l7
        have hl7 : Kept W r (l7) := by
          unfold l7
          refine setQp_kept (hW.sub (by decide)) ?_
          refine Kept.upd 8192 ?_ ?_ rfl
          · exact hW.sub (by decide)
          · exact ha2
        clear_value l7
        apply ih
        exact emit_kept (hW.sub (by decide)) hl7
    · rename_i v8 v9 v10
      exact ha2

theorem emitWr_kept {W : Nat} {r : State} {a0} {a1} {a2} {a3} {a4 : State} (hW : Sub 1735565 W) (ha4 : Kept W r a4) :
    Kept W r (emitWr a0 a1 a2 a3 a4) := by
  unfold Sys2Proof.Machine.emitWr
  extract_lets +onlyGivenNames l0
  clear_value l0
  extract_lets +onlyGivenNames l1
  clear_value l1
  refine Kept.ite ?_ ?_
  · exact emit_kept (hW.sub (by decide)) ha4
  · extract_lets +onlyGivenNames l2
    clear_value l2
    extract_lets +onlyGivenNames l3
    clear_value l3
    extract_lets +onlyGivenNames l4
    clear_value l4
    exact emit_kept (hW.sub (by decide)) ha4

theorem pumpQp_kept {W : Nat} {r : State} {a0} {a1} {a2 : State} (hW : Sub 1735565 W) (ha2 : Kept W r a2) :
    Kept W r (pumpQp a0 a1 a2) := by
  induction a1 generalizing a0 a2 with
  | zero  =>
    unfold Sys2Proof.Machine.pumpQp
    exact ha2
  | succ k0 ih =>
    unfold Sys2Proof.Machine.pumpQp
    split
    · rename_i v0 v1
      exact ha2
    · rename_i v2 v3 v4
      split
      · rename_i v5 v6
        exact ha2
      · rename_i v7 v8 v9
        refine Kept.ite ?_ ?_
        · exact ha2
        · extract_lets +onlyGivenNames l10
          clear_value l10
          apply ih
          refine emitWr_kept (hW.sub (by decide)) ?_
          exact setQp_kept (hW.sub (by decide)) ha2

theorem tendQp_kept {W : Nat} {r : State} {a0} {a1 : State} (hW : Sub 1735565 W) (ha1 : Kept W r a1) :
    Kept W r (tendQp a0 a1) := by
  unfold Sys2Proof.Machine.tendQp
  split
  · rename_i v0 v1
    exact ha1
  · rename_i v2 v3 v4
    extract_lets +onlyGivenNames l5
    have hl5 : Kept W r (l5) := by
      unfold l5
      exact failUnknown_kept (hW.sub (by decide)) ha1
    clear_value l5
    extract_lets +onlyGivenNames l6
    have hl6 : Kept W r (l6) := by
      unfold l6
      exact flushWrs_kept (hW.sub (by decide)) hl5
    clear_value l6
    refine settleAll_kept (hW.sub (by decide)) ?_
    refine endDrain_kept (hW.sub (by decide)) ?_
    refine pumpLeases_kept (hW.sub (by decide)) ?_
    exact pumpQp_kept (hW.sub (by decide)) hl6

theorem startWr_kept {W : Nat} {r : State} {a0} {a1} {a2 : State} (hW : Sub 1735565 W) (ha2 : Kept W r a2) :
    Kept W r (startWr a0 a1 a2) := by
  unfold Sys2Proof.Machine.startWr
  split
  · rename_i v0 v1
    exact ha2
  · rename_i v2 v3 v4
    split
    · rename_i v5 v6
      exact ha2
    · rename_i v7 v8 v9 v10
      refine Kept.ite ?_ ?_
      · refine tendQp_kept (hW.sub (by decide)) ?_
        exact beginWr_kept (hW.sub (by decide)) ha2
      · exact ha2

theorem bringOn_kept {W : Nat} {r : State} {a0} {a1 : State} (hW : Sub 532480 W) (ha1 : Kept W r a1) :
    Kept W r (bringOn a0 a1) := by
  unfold Sys2Proof.Machine.bringOn
  refine Kept.ite ?_ ?_
  · refine Kept.upd 8192 ?_ ?_ rfl
    · exact hW.sub (by decide)
    · exact ha1
  · refine Kept.ite ?_ ?_
    · refine bump64_kept (hW.sub (by decide)) ?_
      refine Kept.upd 8192 ?_ ?_ rfl
      · exact hW.sub (by decide)
      · exact ha1
    · split
      · rename_i v0 v1 v2
        refine bump64_kept (hW.sub (by decide)) ?_
        refine Kept.upd 8192 ?_ ?_ rfl
        · exact hW.sub (by decide)
        · exact ha1
      · rename_i v3 v4
        exact ha1

theorem peerRekey_kept {W : Nat} {r : State} {a0} {a1 : State} (hW : Sub 1719181 W) (ha1 : Kept W r a1) :
    Kept W r (peerRekey a0 a1) := by
  unfold Sys2Proof.Machine.peerRekey
  refine Kept.ite ?_ ?_
  · refine nextEpoch_kept (hW.sub (by decide)) ?_
    exact bringOn_kept (hW.sub (by decide)) ha1
  · exact ha1

theorem resendFrom_kept {W : Nat} {r : State} {a0} {a1} {a2 : State} (hW : Sub 1735565 W) (ha2 : Kept W r a2) :
    Kept W r (resendFrom a0 a1 a2) := by
  unfold Sys2Proof.Machine.resendFrom
  split
  · rename_i v0 v1
    exact ha2
  · rename_i v2 v3 v4
    extract_lets +onlyGivenNames l5
    clear_value l5
    extract_lets +onlyGivenNames l6
    clear_value l6
    extract_lets +onlyGivenNames l7
    have hl7 : Kept W r (l7) := by
      unfold l7
      apply forEach_kept
      · intro x8 x9 h10
        exact emit_kept (hW.sub (by decide)) h10
      · exact setQp_kept (hW.sub (by decide)) ha2
    clear_value l7
    exact odAdd_kept (hW.sub (by decide)) hl7

theorem qpUnanswered_kept {W : Nat} {r : State} {a0} {a1 : State} (hW : Sub 1719181 W) (ha1 : Kept W r a1) :
    Kept W r (qpUnanswered a0 a1) := by
  unfold Sys2Proof.Machine.qpUnanswered
  extract_lets +onlyGivenNames l0
  have hl0 : Kept W r (l0) := by
    unfold l0
    exact qpError_kept (hW.sub (by decide)) ha1
  clear_value l0
  split
  · rename_i v1 v2 v3
    refine Kept.ite ?_ ?_
    · exact hl0
    · apply forEach_kept
      · intro x4 x5 h6
        exact loseNeighbour_kept (hW.sub (by decide)) h6
      · exact hl0
  · rename_i v7 v8
    exact hl0

theorem timerOut_kept {W : Nat} {r : State} {a0} {a1 : State} (hW : Sub 1735565 W) (ha1 : Kept W r a1) :
    Kept W r (timerOut a0 a1) := by
  unfold Sys2Proof.Machine.timerOut
  split
  · rename_i v0 v1
    exact ha1
  · rename_i v2 v3 v4
    split
    · rename_i v5 v6
      exact ha1
    · rename_i v7 v8 v9
      refine Kept.ite ?_ ?_
      · exact ha1
      · extract_lets +onlyGivenNames l10
        have hl10 : Kept W r (l10) := by
          unfold l10
          exact bringOn_kept (hW.sub (by decide)) ha1
        clear_value l10
        refine Kept.ite ?_ ?_
        · exact qpUnanswered_kept (hW.sub (by decide)) hl10
        · extract_lets +onlyGivenNames l11
          clear_value l11
          refine resendFrom_kept (hW.sub (by decide)) ?_
          exact setQp_kept (hW.sub (by decide)) hl10

theorem doorbellIgnored_kept {W : Nat} {r : State} {a0} {a1 : State} (hW : Sub 524300 W) (ha1 : Kept W r a1) :
    Kept W r (doorbellIgnored a0 a1) := by
  unfold Sys2Proof.Machine.doorbellIgnored
  refine event_kept (hW.sub (by decide)) ?_
  exact bump64_kept (hW.sub (by decide)) ha1

theorem busyOver_kept {W : Nat} {r : State} {a0} {a1 : State} (hW : Sub 1735565 W) (ha1 : Kept W r a1) :
    Kept W r (busyOver a0 a1) := by
  unfold Sys2Proof.Machine.busyOver
  split
  · rename_i v0 v1
    exact ha1
  · rename_i v2 v3 v4
    split
    · rename_i v5 v6
      exact ha1
    · rename_i v7 v8 v9 v10 v11
      refine Kept.ite ?_ ?_
      · exact ha1
      · refine resendFrom_kept (hW.sub (by decide)) ?_
        refine setQp_kept (hW.sub (by decide)) ?_
        exact bringOn_kept (hW.sub (by decide)) ha1

theorem peerHead_kept {W : Nat} {r : State} {a0} {a1} {a2 : State} (hW : Sub 1735597 W) (ha2 : Kept W r a2) :
    Kept W r (peerHead a0 a1 a2) := by
  unfold Sys2Proof.Machine.peerHead
  refine Kept.ite ?_ ?_
  · exact ha2
  · refine Kept.ite ?_ ?_
    · exact refuseOnce_kept (hW.sub (by decide)) ha2
    · split
      · rename_i v0 v1
        exact doorbellIgnored_kept (hW.sub (by decide)) ha2
      · rename_i v2 v3 v4
        extract_lets +onlyGivenNames l5
        have hl5 : Kept W r (l5) := by
          unfold l5
          refine setQp_kept (hW.sub (by decide)) ?_
          exact bringOn_kept (hW.sub (by decide)) ha2
        clear_value l5
        refine Kept.ite ?_ ?_
        · refine settleAll_kept (hW.sub (by decide)) ?_
          exact abortWaiting_kept (hW.sub (by decide)) hl5
        · exact tendQp_kept (hW.sub (by decide)) hl5

theorem sendTail_kept {W : Nat} {r : State} {a0} {a1} {a2 : State} (hW : Sub 1735597 W) (ha2 : Kept W r a2) :
    Kept W r (sendTail a0 a1 a2) := by
  unfold Sys2Proof.Machine.sendTail
  refine Kept.ite ?_ ?_
  · exact ha2
  · refine Kept.ite ?_ ?_
    · exact refuseOnce_kept (hW.sub (by decide)) ha2
    · split
      · rename_i v0 v1
        exact doorbellIgnored_kept (hW.sub (by decide)) ha2
      · rename_i v2 v3 v4
        extract_lets +onlyGivenNames l5
        clear_value l5
        extract_lets +onlyGivenNames l6
        clear_value l6
        extract_lets +onlyGivenNames l7
        have hl7 : Kept W r (l7) := by
          unfold l7
          exact bringOn_kept (hW.sub (by decide)) ha2
        clear_value l7
        refine Kept.ite ?_ ?_
        · refine Kept.ite ?_ ?_
          · exact hl7
          · exact qpError_kept (hW.sub (by decide)) hl7
        · extract_lets +onlyGivenNames l8
          clear_value l8
          extract_lets +onlyGivenNames l9
          have hl9 : Kept W r (l9) := by
            unfold l9
            exact setQp_kept (hW.sub (by decide)) hl7
          clear_value l9
          refine Kept.ite ?_ ?_
          · refine settleAll_kept (hW.sub (by decide)) ?_
            exact abortWaiting_kept (hW.sub (by decide)) hl9
          · exact tendQp_kept (hW.sub (by decide)) hl9

theorem tendPairs_kept {W : Nat} {r : State} {a0 : State} (hW : Sub 1735565 W) (ha0 : Kept W r a0) :
    Kept W r (tendPairs a0) := by
  unfold Sys2Proof.Machine.tendPairs
  apply forEach_kept
  · intro x0 x1 h2
    apply onlyIf_kept
    · intro x3 h4
      exact tendQp_kept (hW.sub (by decide)) h4
    · exact h2
  · exact ha0

theorem tendLeases_kept {W : Nat} {r : State} {a0 : State} (hW : Sub 1735565 W) (ha0 : Kept W r a0) :
    Kept W r (tendLeases a0) := by
  unfold Sys2Proof.Machine.tendLeases
  refine Kept.ite ?_ ?_
  · exact ha0
  · apply forEach_kept
    · intro x0 x1 h2
      exact pumpLeases_kept (hW.sub (by decide)) h2
    · exact ha0

end Sys2Proof.Laws
end

