-- ==== Sys2Proof/Laws/KeptPeerIn.lean ====
section
/-! SUPPORT. What the operations of Sys2Proof/Machine/PeerIn.lean keep: one lemma for each, which callers cite. -/

namespace Sys2Proof.Laws

open Sys2Proof Sys2Proof.Machine

theorem sendConnect_kept {W : Nat} {r : State} {a0} {a1} {a2 : State} (hW : Sub 3832717 W) (ha2 : Kept W r a2) :
    Kept W r (sendConnect a0 a1 a2) := by
  unfold Sys2Proof.Machine.sendConnect
  split
  · rename_i v0 v1 v2
    refine drawn_kept (hW.sub (by decide)) ?_
    refine emit_kept (hW.sub (by decide)) ?_
    exact setQp_kept (hW.sub (by decide)) ha2
  · rename_i v3 v4
    exact ha2

theorem qpResult_kept {W : Nat} {r : State} {a0} {a1} {a2} {a3 : State} (hW : Sub 524288 W) (ha3 : Kept W r a3) :
    Kept W r (qpResult a0 a1 a2 a3) := by
  unfold Sys2Proof.Machine.qpResult
  extract_lets +onlyGivenNames l0
  clear_value l0
  refine Kept.ite ?_ ?_
  · exact ha3
  · exact odSet_kept (hW.sub (by decide)) ha3

theorem connectIn_kept {W : Nat} {r : State} {a0} {a1 : State} (hW : Sub 3832717 W) (ha1 : Kept W r a1) :
    Kept W r (connectIn a0 a1) := by
  unfold Sys2Proof.Machine.connectIn
  split
  · rename_i v0 v1
    refine Kept.ite ?_ ?_
    · exact ha1
    · exact bump64_kept (hW.sub (by decide)) ha1
  · rename_i v2 v3 v4
    extract_lets +onlyGivenNames l5
    clear_value l5
    refine Kept.ite ?_ ?_
    · exact bump64_kept (hW.sub (by decide)) ha1
    · refine Kept.ite ?_ ?_
      · exact ha1
      · extract_lets +onlyGivenNames l6
        have hl6 : Kept W r (l6) := by
          unfold l6
          refine sendConnect_kept (hW.sub (by decide)) ?_
          exact setQp_kept (hW.sub (by decide)) ha1
        clear_value l6
        split
        · rename_i v7 v8 v9
          refine tendQp_kept (hW.sub (by decide)) ?_
          apply onlyIf_kept
          · intro x10 h11
            exact qpResult_kept (hW.sub (by decide)) h11
          · refine drawn_kept (hW.sub (by decide)) ?_
            refine setQp_kept (hW.sub (by decide)) ?_
            exact dropHeld_kept (hW.sub (by decide)) hl6
        · rename_i v12 v13
          exact hl6

theorem connectFails_kept {W : Nat} {r : State} {a0} {a1 : State} (hW : Sub 532480 W) (ha1 : Kept W r a1) :
    Kept W r (connectFails a0 a1) := by
  unfold Sys2Proof.Machine.connectFails
  split
  · rename_i v0 v1 v2
    refine qpResult_kept (hW.sub (by decide)) ?_
    exact setQp_kept (hW.sub (by decide)) ha1
  · rename_i v3 v4
    exact ha1

theorem connectAckIn_kept {W : Nat} {r : State} {a0} {a1 : State} (hW : Sub 3832717 W) (ha1 : Kept W r a1) :
    Kept W r (connectAckIn a0 a1) := by
  unfold Sys2Proof.Machine.connectAckIn
  split
  · rename_i v0 v1
    refine Kept.ite ?_ ?_
    · exact ha1
    · exact bump64_kept (hW.sub (by decide)) ha1
  · rename_i v2 v3 v4
    refine Kept.ite ?_ ?_
    · exact bump64_kept (hW.sub (by decide)) ha1
    · refine Kept.ite ?_ ?_
      · exact ha1
      · refine Kept.ite ?_ ?_
        · exact connectFails_kept (hW.sub (by decide)) ha1
        · refine tendQp_kept (hW.sub (by decide)) ?_
          refine qpResult_kept (hW.sub (by decide)) ?_
          refine drawn_kept (hW.sub (by decide)) ?_
          refine setQp_kept (hW.sub (by decide)) ?_
          exact dropHeld_kept (hW.sub (by decide)) ha1

theorem sendResponses_kept {W : Nat} {r : State} {a0} {a1} {a2} {a3} {a4} {a5 : State} (hW : Sub 1735565 W) (ha5 : Kept W r a5) :
    Kept W r (sendResponses a0 a1 a2 a3 a4 a5) := by
  unfold Sys2Proof.Machine.sendResponses
  extract_lets +onlyGivenNames l0
  clear_value l0
  apply forEach_kept
  · intro x1 x2 h3
    extract_lets +onlyGivenNames l4
    clear_value l4
    exact emit_kept (hW.sub (by decide)) h3
  · exact ha5

theorem sendAck_kept {W : Nat} {r : State} {a0} {a1 : State} (hW : Sub 1735565 W) (ha1 : Kept W r a1) :
    Kept W r (sendAck a0 a1) := by
  unfold Sys2Proof.Machine.sendAck
  split
  · rename_i v0 v1 v2
    exact emit_kept (hW.sub (by decide)) ha1
  · rename_i v3 v4
    exact ha1

theorem placeRequest_kept {W : Nat} {r : State} {a0} {a1} {a2 : State} (hW : Sub 3832781 W) (ha2 : Kept W r a2) :
    Kept W r (placeRequest a0 a1 a2) := by
  unfold Sys2Proof.Machine.placeRequest
  extract_lets +onlyGivenNames l0
  clear_value l0
  extract_lets +onlyGivenNames l1
  clear_value l1
  extract_lets +onlyGivenNames l2
  clear_value l2
  refine Kept.ite ?_ ?_
  · refine sendResponses_kept (hW.sub (by decide)) ?_
    exact setQp_kept (hW.sub (by decide)) ha2
  · extract_lets +onlyGivenNames l3
    clear_value l3
    extract_lets +onlyGivenNames l4
    clear_value l4
    extract_lets +onlyGivenNames l5
    clear_value l5
    extract_lets +onlyGivenNames l6
    clear_value l6
    extract_lets +onlyGivenNames l7
    clear_value l7
    extract_lets +onlyGivenNames l8
    have hl8 : Kept W r (l8) := by
      unfold l8
      refine Kept.ite ?_ ?_
      · refine leaseAct_kept (hW.sub (by decide)) ?_
        exact setQp_kept (hW.sub (by decide)) ha2
      · apply onlyIf_kept
        · intro x9 h10
          exact event_kept (hW.sub (by decide)) h10
        · refine placeBytes_kept (hW.sub (by decide)) ?_
          exact setQp_kept (hW.sub (by decide)) ha2
    clear_value l8
    refine settleAll_kept (hW.sub (by decide)) ?_
    apply onlyIf_kept
    · intro x11 h12
      exact sendAck_kept (hW.sub (by decide)) h12
    · exact hl8

theorem park_kept {W : Nat} {r : State} {a0} {a1} {a2 : State} (hW : Sub 811008 W) (ha2 : Kept W r a2) :
    Kept W r (park a0 a1 a2) := by
  unfold Sys2Proof.Machine.park
  refine Kept.ite ?_ ?_
  · refine count_kept (hW.sub (by decide)) ?_
    refine bump64_kept (hW.sub (by decide)) ?_
    refine Kept.upd 8192 ?_ ?_ rfl
    · exact hW.sub (by decide)
    · exact ha2
  · extract_lets +onlyGivenNames l0
    clear_value l0
    refine bump64_kept (hW.sub (by decide)) ?_
    exact putPkt_kept (hW.sub (by decide)) ha2

theorem deviceConnect_kept {W : Nat} {r : State} {a0} {a1 : State} (hW : Sub 3832717 W) (ha1 : Kept W r a1) :
    Kept W r (deviceConnect a0 a1) := by
  unfold Sys2Proof.Machine.deviceConnect
  extract_lets +onlyGivenNames l0
  clear_value l0
  refine Kept.ite ?_ ?_
  · exact ha1
  · extract_lets +onlyGivenNames l1
    clear_value l1
    refine sendConnect_kept (hW.sub (by decide)) ?_
    refine drawn_kept (hW.sub (by decide)) ?_
    exact setQp_kept (hW.sub (by decide)) ha1

theorem authentic_kept {W : Nat} {r : State} {a0} {a1} {a2 : State} (hW : Sub 532480 W) (ha1 : ∀ (y0) (y1) (_ : Kept W r y1), Kept W r (a1 y0 y1)) (ha2 : Kept W r a2) :
    Kept W r (authentic a0 a1 a2) := by
  unfold Sys2Proof.Machine.authentic
  split
  · rename_i v0 v1
    exact ha2
  · rename_i v2 v3 v4
    refine Kept.ite ?_ ?_
    · exact bump64_kept (hW.sub (by decide)) ha2
    · extract_lets +onlyGivenNames l5
      clear_value l5
      apply ha1
      exact setQp_kept (hW.sub (by decide)) ha2

theorem ackIn_kept {W : Nat} {r : State} {a0} {a1 : State} (hW : Sub 1735565 W) (ha1 : Kept W r a1) :
    Kept W r (ackIn a0 a1) := by
  unfold Sys2Proof.Machine.ackIn
  apply authentic_kept
  · exact hW.sub (by decide)
  · intro x0 x1 h2
    extract_lets +onlyGivenNames l3
    clear_value l3
    extract_lets +onlyGivenNames l4
    clear_value l4
    extract_lets +onlyGivenNames l5
    clear_value l5
    extract_lets +onlyGivenNames l6
    clear_value l6
    refine Kept.ite ?_ ?_
    · exact h2
    · refine tendQp_kept (hW.sub (by decide)) ?_
      exact setQp_kept (hW.sub (by decide)) h2
  · exact ha1

theorem nakIn_kept {W : Nat} {r : State} {a0} {a1 : State} (hW : Sub 1735565 W) (ha1 : Kept W r a1) :
    Kept W r (nakIn a0 a1) := by
  unfold Sys2Proof.Machine.nakIn
  apply authentic_kept
  · exact hW.sub (by decide)
  · intro x0 x1 h2
    extract_lets +onlyGivenNames l3
    clear_value l3
    extract_lets +onlyGivenNames l4
    clear_value l4
    refine Kept.ite ?_ ?_
    · exact h2
    · refine Kept.ite ?_ ?_
      · exact resendFrom_kept (hW.sub (by decide)) h2
      · refine Kept.ite ?_ ?_
        · extract_lets +onlyGivenNames l5
          clear_value l5
          extract_lets +onlyGivenNames l6
          clear_value l6
          extract_lets +onlyGivenNames l7
          clear_value l7
          extract_lets +onlyGivenNames l8
          clear_value l8
          extract_lets +onlyGivenNames l9
          clear_value l9
          refine qpError_kept (hW.sub (by decide)) ?_
          exact setQp_kept (hW.sub (by decide)) h2
        · exact h2
  · exact ha1

theorem relay_kept {W : Nat} {r : State} {a0} {a1} {a2 : State} (hW : Sub 540672 W) (ha2 : Kept W r a2) :
    Kept W r (relay a0 a1 a2) := by
  unfold Sys2Proof.Machine.relay
  refine Kept.ite ?_ ?_
  · exact bump64_kept (hW.sub (by decide)) ha2
  · split
    · rename_i v0 v1
      exact bump64_kept (hW.sub (by decide)) ha2
    · rename_i v2 v3 v4
      extract_lets +onlyGivenNames l5
      clear_value l5
      refine bump64_kept (hW.sub (by decide)) ?_
      exact enqueue_kept (hW.sub (by decide)) ha2

theorem holdPkt_kept {W : Nat} {r : State} {a0} {a1 : State} (hW : Sub 8192 W) (ha1 : Kept W r a1) :
    Kept W r (holdPkt a0 a1) := by
  unfold Sys2Proof.Machine.holdPkt
  refine Kept.upd 8192 ?_ ?_ rfl
  · exact hW.sub (by decide)
  · exact ha1

theorem requestAt_kept {W : Nat} {r : State} {a0} {a1} {a2 : State} (hW : Sub 3832781 W) (ha2 : Kept W r a2) :
    Kept W r (requestAt a0 a1 a2) := by
  unfold Sys2Proof.Machine.requestAt
  extract_lets +onlyGivenNames l0
  clear_value l0
  extract_lets +onlyGivenNames l1
  extract_lets +onlyGivenNames l2
  clear_value l2
  extract_lets +onlyGivenNames l3
  clear_value l3
  extract_lets +onlyGivenNames l4
  have hl4 : ∀ (z0) (_ : Kept W r z0), Kept W r (l4 z0) := by
    intros
    rename_i v5 v6
    unfold l4
    refine emit_kept (hW.sub (by decide)) ?_
    exact v6
  clear_value l4
  refine Kept.ite ?_ ?_
  · refine Kept.ite ?_ ?_
    · apply hl4
      exact ha2
    · refine Kept.ite ?_ ?_
      · exact holdPkt_kept (hW.sub (by decide)) ha2
      · exact placeRequest_kept (hW.sub (by decide)) ha2
  · refine Kept.ite ?_ ?_
    · extract_lets +onlyGivenNames l7
      have hl7 : Kept W r (l7) := by
        unfold l7
        refine sendAck_kept (hW.sub (by decide)) ?_
        exact bump64_kept (hW.sub (by decide)) ha2
      clear_value l7
      refine Kept.ite ?_ ?_
      · exact hl7
      · refine Kept.ite ?_ ?_
        · exact sendResponses_kept (hW.sub (by decide)) hl7
        · apply hl4
          exact hl7
    · refine Kept.ite ?_ ?_
      · exact ha2
      · refine emit_kept (hW.sub (by decide)) ?_
        exact setQp_kept (hW.sub (by decide)) ha2

theorem nakState_kept {W : Nat} {r : State} {a0} {a1 : State} (hW : Sub 1735565 W) (ha1 : Kept W r a1) :
    Kept W r (nakState a0 a1) := by
  unfold Sys2Proof.Machine.nakState
  extract_lets +onlyGivenNames l0
  clear_value l0
  extract_lets +onlyGivenNames l1
  clear_value l1
  extract_lets +onlyGivenNames l2
  clear_value l2
  extract_lets +onlyGivenNames l3
  clear_value l3
  refine Kept.ite ?_ ?_
  · exact emit_kept (hW.sub (by decide)) ha1
  · extract_lets +onlyGivenNames l4
    clear_value l4
    exact putPkt_kept (hW.sub (by decide)) ha1

theorem requestIn_kept {W : Nat} {r : State} {a0} {a1 : State} (hW : Sub 3832781 W) (ha1 : Kept W r a1) :
    Kept W r (requestIn a0 a1) := by
  unfold Sys2Proof.Machine.requestIn
  split
  · rename_i v0 v1
    apply authentic_kept
    · exact hW.sub (by decide)
    · intro x2 x3 h4
      exact requestAt_kept (hW.sub (by decide)) h4
    · exact ha1
  · rename_i v5 v6
    apply authentic_kept
    · exact hW.sub (by decide)
    · intro x7 x8 h9
      exact requestAt_kept (hW.sub (by decide)) h9
    · exact ha1
  · rename_i v10 v11
    apply authentic_kept
    · exact hW.sub (by decide)
    · intro x12 x13 h14
      exact nakState_kept (hW.sub (by decide)) h14
    · exact ha1
  · rename_i v15 v16 v17 v18
    exact nakState_kept (hW.sub (by decide)) ha1

theorem respIn_kept {W : Nat} {r : State} {a0} {a1 : State} (hW : Sub 1735629 W) (ha1 : Kept W r a1) :
    Kept W r (respIn a0 a1) := by
  unfold Sys2Proof.Machine.respIn
  apply authentic_kept
  · exact hW.sub (by decide)
  · intro x0 x1 h2
    split
    · rename_i v3 v4
      exact h2
    · rename_i v5 v6 v7
      extract_lets +onlyGivenNames l8
      clear_value l8
      extract_lets +onlyGivenNames l9
      clear_value l9
      extract_lets +onlyGivenNames l10
      clear_value l10
      refine Kept.ite ?_ ?_
      · exact h2
      · refine Kept.ite ?_ ?_
        · exact holdPkt_kept (hW.sub (by decide)) h2
        · extract_lets +onlyGivenNames l11
          clear_value l11
          extract_lets +onlyGivenNames l12
          clear_value l12
          extract_lets +onlyGivenNames l13
          clear_value l13
          extract_lets +onlyGivenNames l14
          clear_value l14
          extract_lets +onlyGivenNames l15
          clear_value l15
          extract_lets +onlyGivenNames l16
          have hl16 : Kept W r (l16) := by
            unfold l16
            exact setQp_kept (hW.sub (by decide)) h2
          clear_value l16
          refine tendQp_kept (hW.sub (by decide)) ?_
          exact placeBytes_kept (hW.sub (by decide)) hl16
  · exact ha1

theorem disconnectIn_kept {W : Nat} {r : State} {a0} {a1 : State} (hW : Sub 1735565 W) (ha1 : Kept W r a1) :
    Kept W r (disconnectIn a0 a1) := by
  unfold Sys2Proof.Machine.disconnectIn
  apply authentic_kept
  · exact hW.sub (by decide)
  · intro x0 x1 h2
    refine Kept.ite ?_ ?_
    · refine tendQp_kept (hW.sub (by decide)) ?_
      exact setQp_kept (hW.sub (by decide)) h2
    · exact h2
  · exact ha1

theorem busyIn_kept {W : Nat} {r : State} {a0} {a1 : State} (hW : Sub 8192 W) (ha1 : Kept W r a1) :
    Kept W r (busyIn a0 a1) := by
  unfold Sys2Proof.Machine.busyIn
  split
  · rename_i v0 v1 v2
    refine Kept.ite ?_ ?_
    · exact ha1
    · exact setQp_kept (hW.sub (by decide)) ha1
  · rename_i v3 v4
    exact ha1

theorem packetHere_kept {W : Nat} {r : State} {a0} {a1 : State} (hW : Sub 3832781 W) (ha1 : Kept W r a1) :
    Kept W r (packetHere a0 a1) := by
  unfold Sys2Proof.Machine.packetHere
  extract_lets +onlyGivenNames l0
  have hl0 : Kept W r (l0) := by
    unfold l0
    exact bringOn_kept (hW.sub (by decide)) ha1
  clear_value l0
  refine Kept.ite ?_ ?_
  · exact holdPkt_kept (hW.sub (by decide)) hl0
  · split
    · rename_i v1 v2
      exact requestIn_kept (hW.sub (by decide)) hl0
    · rename_i v3 v4
      exact requestIn_kept (hW.sub (by decide)) hl0
    · rename_i v5 v6
      exact requestIn_kept (hW.sub (by decide)) hl0
    · rename_i v7 v8
      exact respIn_kept (hW.sub (by decide)) hl0
    · rename_i v9 v10
      exact ackIn_kept (hW.sub (by decide)) hl0
    · rename_i v11 v12
      exact nakIn_kept (hW.sub (by decide)) hl0
    · rename_i v13 v14
      exact connectIn_kept (hW.sub (by decide)) hl0
    · rename_i v15 v16
      exact connectAckIn_kept (hW.sub (by decide)) hl0
    · rename_i v17 v18
      exact disconnectIn_kept (hW.sub (by decide)) hl0
    · rename_i v19 v20
      exact busyIn_kept (hW.sub (by decide)) hl0
    · rename_i v21 v22 v23 v24 v25 v26 v27 v28 v29 v30 v31
      exact hl0

theorem contextFetch_kept {W : Nat} {r : State} {a0} {a1 : State} (hW : Sub 3832781 W) (ha1 : Kept W r a1) :
    Kept W r (contextFetch a0 a1) := by
  unfold Sys2Proof.Machine.contextFetch
  extract_lets +onlyGivenNames l0
  clear_value l0
  refine Kept.ite ?_ ?_
  · exact ha1
  · extract_lets +onlyGivenNames l1
    clear_value l1
    apply forEach_kept
    · intro x2 x3 h4
      exact packetHere_kept (hW.sub (by decide)) h4
    · refine bringOn_kept (hW.sub (by decide)) ?_
      refine Kept.upd 8192 ?_ ?_ rfl
      · exact hW.sub (by decide)
      · exact ha1

theorem packetIn_kept {W : Nat} {r : State} {a0} {a1} {a2 : State} (hW : Sub 4094925 W) (ha2 : Kept W r a2) :
    Kept W r (packetIn a0 a1 a2) := by
  unfold Sys2Proof.Machine.packetIn
  extract_lets +onlyGivenNames l0
  clear_value l0
  refine Kept.ite ?_ ?_
  · exact ha2
  · refine Kept.ite ?_ ?_
    · exact relay_kept (hW.sub (by decide)) ha2
    · refine Kept.ite ?_ ?_
      · refine packetHere_kept (hW.sub (by decide)) ?_
        exact contextFetch_kept (hW.sub (by decide)) ha2
      · exact park_kept (hW.sub (by decide)) ha2

theorem kindIn_kept {W : Nat} {r : State} {a0} {a1} {a2} {a3 : State} (hW : Sub 4094925 W) (ha3 : Kept W r a3) :
    Kept W r (kindIn a0 a1 a2 a3) := by
  unfold Sys2Proof.Machine.kindIn
  refine Kept.ite ?_ ?_
  · exact packetIn_kept (hW.sub (by decide)) ha3
  · exact ha3

theorem devicePairsUp_kept {W : Nat} {r : State} {a0} {a1 : State} (hW : Sub 3832717 W) (ha1 : Kept W r a1) :
    Kept W r (devicePairsUp a0 a1) := by
  unfold Sys2Proof.Machine.devicePairsUp
  refine deviceConnect_kept (hW.sub (by decide)) ?_
  exact deviceConnect_kept (hW.sub (by decide)) ha1

theorem configurePair_kept {W : Nat} {r : State} {a0} {a1 : State} (hW : Sub 2629632 W) (ha1 : Kept W r a1) :
    Kept W r (configurePair a0 a1) := by
  unfold Sys2Proof.Machine.configurePair
  extract_lets +onlyGivenNames l0
  clear_value l0
  extract_lets +onlyGivenNames l1
  clear_value l1
  extract_lets +onlyGivenNames l2
  clear_value l2
  extract_lets +onlyGivenNames l3
  have hl3 : Kept W r (l3) := by
    unfold l3
    refine drawn_kept (hW.sub (by decide)) ?_
    exact setQp_kept (hW.sub (by decide)) ha1
  clear_value l3
  refine Kept.ite ?_ ?_
  · exact bringOn_kept (hW.sub (by decide)) hl3
  · exact hl3

theorem resetPartPairs_kept {W : Nat} {r : State} {a0} {a1 : State} (hW : Sub 1719181 W) (ha1 : Kept W r a1) :
    Kept W r (resetPartPairs a0 a1) := by
  unfold Sys2Proof.Machine.resetPartPairs
  apply forEach_kept
  · intro x0 x1 h2
    apply onlyIf_kept
    · intro x3 h4
      exact qpError_kept (hW.sub (by decide)) h4
    · exact h2
  · exact ha1

theorem freePair_kept {W : Nat} {r : State} {a0} {a1 : State} (hW : Sub 8192 W) (ha1 : Kept W r a1) :
    Kept W r (freePair a0 a1) := by
  unfold Sys2Proof.Machine.freePair
  extract_lets +onlyGivenNames l0
  have hl0 : Kept W r (l0) := by
    unfold l0
    exact dropHeld_kept (hW.sub (by decide)) ha1
  clear_value l0
  refine Kept.upd 8192 ?_ ?_ rfl
  · exact hW.sub (by decide)
  · exact hl0

theorem resetPair_kept {W : Nat} {r : State} {a0} {a1 : State} (hW : Sub 1735565 W) (ha1 : Kept W r a1) :
    Kept W r (resetPair a0 a1) := by
  unfold Sys2Proof.Machine.resetPair
  split
  · rename_i v0 v1
    exact ha1
  · rename_i v2 v3 v4
    extract_lets +onlyGivenNames l5
    clear_value l5
    extract_lets +onlyGivenNames l6
    have hl6 : Kept W r (l6) := by
      unfold l6
      apply onlyIf_kept
      · intro x7 h8
        exact emit_kept (hW.sub (by decide)) h8
      · exact ha1
    clear_value l6
    split
    · rename_i v9 v10
      exact hl6
    · rename_i v11 v12 v13
      extract_lets +onlyGivenNames l14
      clear_value l14
      refine settleAll_kept (hW.sub (by decide)) ?_
      refine flushWrs_kept (hW.sub (by decide)) ?_
      refine setQp_kept (hW.sub (by decide)) ?_
      exact dropHeld_kept (hW.sub (by decide)) hl6

theorem releasePairs_kept {W : Nat} {r : State} {a0 : State} (hW : Sub 1735565 W) (ha0 : Kept W r a0) :
    Kept W r (releasePairs a0) := by
  unfold Sys2Proof.Machine.releasePairs
  extract_lets +onlyGivenNames l0
  clear_value l0
  extract_lets +onlyGivenNames l1
  have hl1 : Kept W r (l1) := by
    unfold l1
    apply forEach_kept
    · intro x2 x3 h4
      refine freePair_kept (hW.sub (by decide)) ?_
      exact resetPair_kept (hW.sub (by decide)) h4
    · exact ha0
  clear_value l1
  apply forEach_kept
  · intro x5 x6 h7
    exact odSet_kept (hW.sub (by decide)) h7
  · refine Kept.upd 8192 ?_ ?_ rfl
    · exact hW.sub (by decide)
    · exact hl1

theorem relayedIn_kept {W : Nat} {r : State} {a0} {a1} {a2 : State} (hW : Sub 540672 W) (ha2 : Kept W r a2) :
    Kept W r (relayedIn a0 a1 a2) := by
  unfold Sys2Proof.Machine.relayedIn
  refine Kept.ite ?_ ?_
  · exact ha2
  · exact relay_kept (hW.sub (by decide)) ha2

theorem pairRequest_kept {W : Nat} {r : State} {a0} {a1} {a2} {a3 : State} (hW : Sub 3832717 W) (ha3 : Kept W r a3) :
    Kept W r (pairRequest a0 a1 a2 a3).2 := by
  unfold Sys2Proof.Machine.pairRequest
  split
  · rename_i v0
    split
    · rename_i v1
      dsimp only
      exact ha3
    · rename_i v2
      split
      · rename_i v3
        dsimp only
        exact ha3
      · rename_i v4
        dsimp only
        refine sendConnect_kept (hW.sub (by decide)) ?_
        exact setQp_kept (hW.sub (by decide)) ha3
  · rename_i v5
    split
    · rename_i v6
      dsimp only
      exact ha3
    · rename_i v7
      dsimp only
      refine tendQp_kept (hW.sub (by decide)) ?_
      exact setQp_kept (hW.sub (by decide)) ha3
  · rename_i v8
    dsimp only
    exact resetPair_kept (hW.sub (by decide)) ha3
  · rename_i v9
    split
    · rename_i v10
      dsimp only
      exact ha3
    · rename_i v11
      dsimp only
      exact freePair_kept (hW.sub (by decide)) ha3
  · rename_i v12 v13 v14 v15 v16
    dsimp only
    exact ha3

theorem resumePkts_kept {W : Nat} {r : State} {a0 : State} (hW : Sub 3832781 W) (ha0 : Kept W r a0) :
    Kept W r (resumePkts a0) := by
  unfold Sys2Proof.Machine.resumePkts
  refine Kept.ite ?_ ?_
  · exact ha0
  · apply forEach_kept
    · intro x0 x1 h2
      exact packetHere_kept (hW.sub (by decide)) h2
    · refine Kept.upd 8192 ?_ ?_ rfl
      · exact hW.sub (by decide)
      · exact ha0

theorem tendPeer_kept {W : Nat} {r : State} {a0 : State} (hW : Sub 3832781 W) (ha0 : Kept W r a0) :
    Kept W r (tendPeer a0) := by
  unfold Sys2Proof.Machine.tendPeer
  refine tendPairs_kept (hW.sub (by decide)) ?_
  refine tendLeases_kept (hW.sub (by decide)) ?_
  exact resumePkts_kept (hW.sub (by decide)) ha0

theorem leaseIn_kept {W : Nat} {r : State} {a0} {a1} {a2} {a3 : State} (hW : Sub 3832781 W) (ha3 : Kept W r a3) :
    Kept W r (leaseIn a0 a1 a2 a3) := by
  unfold Sys2Proof.Machine.leaseIn
  refine Kept.ite ?_ ?_
  · exact ha3
  · split
    · rename_i v0 v1
      exact ha3
    · rename_i v2 v3 v4
      refine tendLeases_kept (hW.sub (by decide)) ?_
      refine settleAll_kept (hW.sub (by decide)) ?_
      refine sendAck_kept (hW.sub (by decide)) ?_
      refine leaseAct_kept (hW.sub (by decide)) ?_
      exact setQp_kept (hW.sub (by decide)) ha3

theorem qpRequest_kept {W : Nat} {r : State} {a0} {a1 : State} (hW : Sub 3832717 W) (ha1 : Kept W r a1) :
    Kept W r (qpRequest a0 a1).2 := by
  unfold Sys2Proof.Machine.qpRequest
  extract_lets +onlyGivenNames l0
  clear_value l0
  extract_lets +onlyGivenNames l1
  clear_value l1
  extract_lets +onlyGivenNames l2
  have hl2 : Kept W r (l2).2 := by
    unfold l2
    split
    · rename_i v3
      split
      · rename_i v4 v5
        dsimp only
        exact configurePair_kept (hW.sub (by decide)) ha1
      · rename_i v6 v7
        dsimp only
        exact ha1
    · rename_i v8
      split
      · rename_i v9
        dsimp only
        exact ha1
      · rename_i v10
        split
        · rename_i v11 v12
          dsimp only
          exact ha1
        · rename_i v13 v14 v15
          split
          · rename_i v16
            dsimp only
            exact ha1
          · rename_i v17
            exact pairRequest_kept (hW.sub (by decide)) ha1
  clear_value l2
  dsimp only
  exact qpResult_kept (hW.sub (by decide)) hl2

theorem connectTimeout_kept {W : Nat} {r : State} {a0} {a1 : State} (hW : Sub 3832717 W) (ha1 : Kept W r a1) :
    Kept W r (connectTimeout a0 a1) := by
  unfold Sys2Proof.Machine.connectTimeout
  split
  · rename_i v0 v1
    exact ha1
  · rename_i v2 v3 v4
    refine Kept.ite ?_ ?_
    · refine Kept.ite ?_ ?_
      · refine sendConnect_kept (hW.sub (by decide)) ?_
        refine setQp_kept (hW.sub (by decide)) ?_
        exact bringOn_kept (hW.sub (by decide)) ha1
      · refine connectFails_kept (hW.sub (by decide)) ?_
        exact bringOn_kept (hW.sub (by decide)) ha1
    · exact ha1

end Sys2Proof.Laws
end

