-- ==== Sys2Proof/Laws/KeptCommit.lean ====
section
/-! SUPPORT. What the operations of Sys2Proof/Machine/Commit.lean keep: one lemma for each, which callers cite. -/

namespace Sys2Proof.Laws

open Sys2Proof Sys2Proof.Machine

theorem resetRings_kept {W : Nat} {r : State} {a0} {a1 : State} (hW : Sub 12 W) (ha1 : Kept W r a1) :
    Kept W r (resetRings a0 a1) := by
  unfold Sys2Proof.Machine.resetRings
  apply forEach_kept
  · intro x0 x1 h2
    refine flushEvents_kept (hW.sub (by decide)) ?_
    exact setEvRing_kept (hW.sub (by decide)) h2
  · exact ha1

theorem regroup_kept {W : Nat} {r : State} {a0} {a1 : State} (hW : Sub 4 W) (ha1 : Kept W r a1) :
    Kept W r (regroup a0 a1) := by
  unfold Sys2Proof.Machine.regroup
  refine Kept.ite ?_ ?_
  · exact ha1
  · refine resendLost_kept (hW.sub (by decide)) ?_
    refine Kept.upd 4 ?_ ?_ rfl
    · exact hW.sub (by decide)
    · exact ha1

theorem revertModules_kept {W : Nat} {r : State} {a0 : State} {a1} {a2} {a3 : State} (hW : Sub 4 W) (ha0 : Kept W r a0) (ha3 : Kept W r a3) :
    Kept W r (revertModules a0 a1 a2 a3) := by
  unfold Sys2Proof.Machine.revertModules
  refine Kept.ite ?_ ?_
  · exact ha3
  · refine regroup_kept (hW.sub (by decide)) ?_
    refine Kept.upd 4 ?_ ?_ rfl
    · exact hW.sub (by decide)
    · exact ha3

theorem bindAll_kept {W : Nat} {r : State} {a0} {a1 : State} (hW : Sub 524288 W) (ha1 : Kept W r a1) :
    Kept W r (bindAll a0 a1) := by
  unfold Sys2Proof.Machine.bindAll
  apply forEach_kept
  · intro x0 x1 h2
    exact odPut_kept (hW.sub (by decide)) h2
  · exact ha1

theorem commitBase_kept {W : Nat} {r : State} {a0 : State} (hW : Sub 524288 W) (ha0 : Kept W r a0) :
    Kept W r (commitBase a0) := by
  unfold Sys2Proof.Machine.commitBase
  apply forEach_kept
  · intro x0 x1 h2
    exact bindAll_kept (hW.sub (by decide)) h2
  · exact ha0

theorem ackCheck_kept {W : Nat} {r : State} {a0} {a1} {a2 : State} (hW : Sub 1703964 W) (ha2 : Kept W r a2) :
    Kept W r (ackCheck a0 a1 a2) := by
  unfold Sys2Proof.Machine.ackCheck
  refine Kept.ite ?_ ?_
  · exact ha2
  · extract_lets +onlyGivenNames l0
    clear_value l0
    extract_lets +onlyGivenNames l1
    have hl1 : ∀ (z0), Kept W r (l1 z0) := by
      intros
      rename_i v2
      unfold l1
      refine Kept.upd 16 ?_ ?_ rfl
      · exact hW.sub (by decide)
      · exact ha2
    clear_value l1
    split
    · rename_i v3 v4
      apply hl1
    · rename_i v5 v6 v7 v8
      extract_lets +onlyGivenNames l9
      clear_value l9
      extract_lets +onlyGivenNames l10
      clear_value l10
      extract_lets +onlyGivenNames l11
      have hl11 : Kept W r (l11) := by
        unfold l11
        apply hl1
      clear_value l11
      extract_lets +onlyGivenNames l12
      have hl12 : Kept W r (l12) := by
        unfold l12
        apply forEach_kept
        · intro x13 x14 h15
          exact fault_kept (hW.sub (by decide)) h15
        · exact hl11
      clear_value l12
      exact event_kept (hW.sub (by decide)) hl12

theorem announceCommit_kept {W : Nat} {r : State} {a0} {a1 : State} (hW : Sub 1048588 W) (ha1 : Kept W r a1) :
    Kept W r (announceCommit a0 a1) := by
  unfold Sys2Proof.Machine.announceCommit
  refine event_kept (hW.sub (by decide)) ?_
  exact notify_kept (hW.sub (by decide)) ha1

theorem setResult_kept {W : Nat} {r : State} {a0} {a1} {a2} {a3 : State} (hW : Sub 2 W) (ha3 : Kept W r a3) :
    Kept W r (setResult a0 a1 a2 a3) := by
  unfold Sys2Proof.Machine.setResult
  exact setRole_kept (hW.sub (by decide)) ha3

theorem resetQueues_kept {W : Nat} {r : State} {a0} {a1 : State} (hW : Sub 12 W) (ha1 : Kept W r a1) :
    Kept W r (resetQueues a0 a1) := by
  unfold Sys2Proof.Machine.resetQueues
  apply forEach_kept
  · intro x0 x1 h2
    exact abortQueue_kept (hW.sub (by decide)) h2
  · exact ha1

theorem enterNext_kept {W : Nat} {r : State} {a0} {a1 : State} (hW : Sub 16 W) (ha1 : Kept W r a1) :
    Kept W r (enterNext a0 a1) := by
  unfold Sys2Proof.Machine.enterNext
  split
  · rename_i v0
    exact ha1
  · rename_i v1 v2 v3
    refine Kept.upd 16 ?_ ?_ rfl
    · exact hW.sub (by decide)
    · exact ha1

theorem takeGates_kept {W : Nat} {r : State} {a0} {a1} {a2} {a3 : State} (hW : Sub 16384 W) (ha3 : Kept W r a3) :
    Kept W r (takeGates a0 a1 a2 a3) := by
  unfold Sys2Proof.Machine.takeGates
  refine setMask_kept (hW.sub (by decide)) ?_
  exact editPort_kept (hW.sub (by decide)) ha3

theorem recordGates_kept {W : Nat} {r : State} {a0} {a1} {a2 : State} (hW : Sub 16384 W) (ha2 : Kept W r a2) :
    Kept W r (recordGates a0 a1 a2) := by
  unfold Sys2Proof.Machine.recordGates
  split
  · rename_i v0 v1 v2
    exact ha2
  · rename_i v3 v4 v5
    refine Kept.ite ?_ ?_
    · exact ha2
    · exact takeGates_kept (hW.sub (by decide)) ha2

theorem markStored_kept {W : Nat} {r : State} {a0} {a1 : State} (hW : Sub 65536 W) (ha1 : Kept W r a1) :
    Kept W r (markStored a0 a1) := by
  unfold Sys2Proof.Machine.markStored
  refine Kept.ite ?_ ?_
  · refine Kept.upd 65536 ?_ ?_ rfl
    · exact hW.sub (by decide)
    · exact ha1
  · exact ha1

theorem actOn_kept {W : Nat} {r : State} {a0} {a1 : State} (hW : Sub 1140740 W) (ha1 : Kept W r a1) :
    Kept W r (actOn a0 a1) := by
  unfold Sys2Proof.Machine.actOn
  extract_lets +onlyGivenNames l0
  have hl0 : Kept W r (l0) := by
    unfold l0
    apply forEach_kept
    · intro x1 x2 h3
      apply onlyIf_kept
      · intro x4 h5
        exact recordGates_kept (hW.sub (by decide)) h5
      · exact h3
    · exact ha1
  clear_value l0
  extract_lets +onlyGivenNames l6
  have hl6 : Kept W r (l6) := by
    unfold l6
    apply onlyIf_kept
    · intro x7 h8
      exact flushVectors_kept (hW.sub (by decide)) h8
    · apply onlyIf_kept
      · intro x9 h10
        exact applyLendLimit_kept (hW.sub (by decide)) h10
      · exact hl0
  clear_value l6
  exact markStored_kept (hW.sub (by decide)) hl6

theorem putInForce_kept {W : Nat} {r : State} {a0} {a1} {a2} {a3} {a4 : State} (hW : Sub 1665052 W) (ha4 : Kept W r a4) :
    Kept W r (putInForce a0 a1 a2 a3 a4) := by
  unfold Sys2Proof.Machine.putInForce
  extract_lets +onlyGivenNames l0
  have hl0 : Kept W r (l0) := by
    unfold l0
    refine bindAll_kept (hW.sub (by decide)) ?_
    exact resetQueues_kept (hW.sub (by decide)) ha4
  clear_value l0
  extract_lets +onlyGivenNames l1
  clear_value l1
  extract_lets +onlyGivenNames l2
  clear_value l2
  extract_lets +onlyGivenNames l3
  clear_value l3
  extract_lets +onlyGivenNames l4
  clear_value l4
  extract_lets +onlyGivenNames l5
  clear_value l5
  extract_lets +onlyGivenNames l6
  have hl6 : Kept W r (l6) := by
    unfold l6
    refine Kept.ite ?_ ?_
    · exact hl0
    · refine Kept.upd 16 ?_ ?_ rfl
      · exact hW.sub (by decide)
      · exact hl0
  clear_value l6
  refine enterNext_kept (hW.sub (by decide)) ?_
  refine actOn_kept (hW.sub (by decide)) ?_
  refine regroup_kept (hW.sub (by decide)) ?_
  exact resetRings_kept (hW.sub (by decide)) hl6

theorem applyCommit_kept {W : Nat} {r : State} {a0} {a1} {a2} {a3} {a4 : State} (hW : Sub 3766751 W) (ha4 : Kept W r a4) :
    Kept W r (applyCommit a0 a1 a2 a3 a4) := by
  unfold Sys2Proof.Machine.applyCommit
  refine settleAll_kept (hW.sub (by decide)) ?_
  refine announceCommit_kept (hW.sub (by decide)) ?_
  refine setResult_kept (hW.sub (by decide)) ?_
  refine flushHeld_kept (hW.sub (by decide)) ?_
  refine abandonSweeps_kept (hW.sub (by decide)) ?_
  exact putInForce_kept (hW.sub (by decide)) ha4

theorem applyDue_kept {W : Nat} {r : State} {a0} {a1} {a2 : State} (hW : Sub 3766751 W) (ha2 : Kept W r a2) :
    Kept W r (applyDue a0 a1 a2) := by
  unfold Sys2Proof.Machine.applyDue
  split
  · rename_i v0 v1
    exact ha2
  · rename_i v2 v3 v4
    refine Kept.ite ?_ ?_
    · refine applyCommit_kept (hW.sub (by decide)) ?_
      exact setRole_kept (hW.sub (by decide)) ha2
    · exact ha2

theorem cancelCommit_kept {W : Nat} {r : State} {a0} {a1 : State} (hW : Sub 1048590 W) (ha1 : Kept W r a1) :
    Kept W r (cancelCommit a0 a1).2 := by
  unfold Sys2Proof.Machine.cancelCommit
  split
  · rename_i v0 v1
    dsimp only
    exact ha1
  · rename_i v2 v3 v4
    dsimp only
    refine announceCommit_kept (hW.sub (by decide)) ?_
    exact setRole_kept (hW.sub (by decide)) ha1

theorem commitWrite_kept {W : Nat} {r : State} {a0} {a1} {a2 : State} (hW : Sub 3766751 W) (ha2 : Kept W r a2) :
    Kept W r (commitWrite a0 a1 a2).2 := by
  unfold Sys2Proof.Machine.commitWrite
  extract_lets +onlyGivenNames l0
  clear_value l0
  split
  · rename_i v1
    dsimp only
    exact ha2
  · rename_i v2
    extract_lets +onlyGivenNames l3
    have hl3 : Kept W r (l3) := by
      unfold l3
      exact setRole_kept (hW.sub (by decide)) ha2
    clear_value l3
    split
    · rename_i v4 v5 v6
      extract_lets +onlyGivenNames l7
      have hl7 : Kept W r (l7) := by
        unfold l7
        split
        · rename_i v8 v9 v10
          exact odSet_kept (hW.sub (by decide)) hl3
        · rename_i v11 v12
          exact hl3
      clear_value l7
      dsimp only
      exact setRole_kept (hW.sub (by decide)) hl7
    · rename_i v13 v14 v15
      extract_lets +onlyGivenNames l16
      have hl16 : Kept W r (l16) := by
        unfold l16
        exact setRole_kept (hW.sub (by decide)) hl3
      clear_value l16
      split
      · rename_i v17
        dsimp only
        exact applyCommit_kept (hW.sub (by decide)) hl16
      · rename_i v18
        extract_lets +onlyGivenNames l19
        clear_value l19
        dsimp only
        exact setRole_kept (hW.sub (by decide)) hl16

theorem revertJobs_kept {W : Nat} {r : State} {a0} {a1 : State} (hW : Sub 64 W) (ha1 : Kept W r a1) :
    Kept W r (revertJobs a0 a1) := by
  unfold Sys2Proof.Machine.revertJobs
  refine Kept.upd 64 ?_ ?_ rfl
  · exact hW.sub (by decide)
  · exact ha1

theorem revertMode_kept {W : Nat} {r : State} {a0} {a1} {a2 : State} (hW : Sub 4029439 W) (ha2 : Kept W r a2) :
    Kept W r (revertMode a0 a1 a2) := by
  unfold Sys2Proof.Machine.revertMode
  refine Kept.ite ?_ ?_
  · exact ha2
  · extract_lets +onlyGivenNames l0
    clear_value l0
    extract_lets +onlyGivenNames l1
    have hl1 : Kept W r (l1) := by
      unfold l1
      refine bindAll_kept (hW.sub (by decide)) ?_
      refine Kept.upd 16 ?_ ?_ rfl
      · exact hW.sub (by decide)
      · exact ha2
    clear_value l1
    extract_lets +onlyGivenNames l2
    have hl2 : Kept W r (l2) := by
      unfold l2
      refine revertJobs_kept (hW.sub (by decide)) ?_
      apply revertModules_kept
      · exact hW.sub (by decide)
      · exact ha2
      · exact hl1
    clear_value l2
    extract_lets +onlyGivenNames l3
    clear_value l3
    extract_lets +onlyGivenNames l4
    have hl4 : Kept W r (l4) := by
      unfold l4
      refine Kept.ite ?_ ?_
      · refine Kept.upd 16 ?_ ?_ rfl
        · exact hW.sub (by decide)
        · exact hl2
      · exact hl2
    clear_value l4
    extract_lets +onlyGivenNames l5
    have hl5 : Kept W r (l5) := by
      unfold l5
      refine actOn_kept (hW.sub (by decide)) ?_
      exact bump32_kept (hW.sub (by decide)) hl4
    clear_value l5
    extract_lets +onlyGivenNames l6
    have hl6 : Kept W r (l6) := by
      unfold l6
      refine Kept.ite ?_ ?_
      · exact setResult_kept (hW.sub (by decide)) hl5
      · refine Kept.ite ?_ ?_
        · exact setResult_kept (hW.sub (by decide)) hl5
        · exact hl5
    clear_value l6
    refine runCores_kept (hW.sub (by decide)) ?_
    exact announceCommit_kept (hW.sub (by decide)) hl6

theorem discardStaged_kept {W : Nat} {r : State} {a0} {a1 : State} (hW : Sub 2 W) (ha1 : Kept W r a1) :
    Kept W r (discardStaged a0 a1).2 := by
  unfold Sys2Proof.Machine.discardStaged
  dsimp only
  exact setRole_kept (hW.sub (by decide)) ha1

theorem modesDue_kept {W : Nat} {r : State} {a0} {a1 : State} (hW : Sub 4160511 W) (ha1 : Kept W r a1) :
    Kept W r (modesDue a0 a1) := by
  unfold Sys2Proof.Machine.modesDue
  extract_lets +onlyGivenNames l0
  have hl0 : Kept W r (l0) := by
    unfold l0
    apply forEach_kept
    · intro x1 x2 h3
      exact revertMode_kept (hW.sub (by decide)) h3
    · exact ha1
  clear_value l0
  apply forEach_kept
  · intro x4 x5 h6
    exact ackCheck_kept (hW.sub (by decide)) h6
  · exact hl0

theorem armMode_kept {W : Nat} {r : State} {a0} {a1 : State} (hW : Sub 1665052 W) (ha1 : Kept W r a1) :
    Kept W r (armMode a0 a1) := by
  unfold Sys2Proof.Machine.armMode
  extract_lets +onlyGivenNames l0
  clear_value l0
  extract_lets +onlyGivenNames l1
  clear_value l1
  refine Kept.ite ?_ ?_
  · exact ha1
  · refine announceCommit_kept (hW.sub (by decide)) ?_
    exact putInForce_kept (hW.sub (by decide)) ha1

end Sys2Proof.Laws
end

