-- ==== Sys2Proof/Laws/KeptSecurity.lean ====
section
/-! SUPPORT. What the operations of Sys2Proof/Machine/Security.lean keep: one lemma for each, which callers cite. -/

namespace Sys2Proof.Laws

open Sys2Proof Sys2Proof.Machine

theorem releaseFour_kept {W : Nat} {r : State} {a0 : State} (hW : Sub 385 W) (ha0 : Kept W r a0) :
    Kept W r (releaseFour a0) := by
  unfold Sys2Proof.Machine.releaseFour
  refine memClear_kept (hW.sub (by decide)) ?_
  refine Kept.upd 128 ?_ ?_ rfl
  · exact hW.sub (by decide)
  · exact ha0

theorem vendor_kept {W : Nat} {r : State} {a0} {a1} {a2} {a3 : State} (hW : Sub 1048576 W) (ha3 : Kept W r a3) :
    Kept W r (vendor a0 a1 a2 a3) := by
  unfold Sys2Proof.Machine.vendor
  exact send_kept (hW.sub (by decide)) ha3

theorem own_kept {W : Nat} {r : State} {a0} {a1 : State} (hW : Sub 1736704 W) (ha1 : Kept W r a1) :
    Kept W r (own a0 a1) := by
  unfold Sys2Proof.Machine.own
  refine Kept.ite ?_ ?_
  · extract_lets +onlyGivenNames l0
    clear_value l0
    extract_lets +onlyGivenNames l1
    clear_value l1
    extract_lets +onlyGivenNames l2
    clear_value l2
    extract_lets +onlyGivenNames l3
    have hl3 : Kept W r (l3) := by
      unfold l3
      refine Kept.upd 163840 ?_ ?_ rfl
      · exact hW.sub (by decide)
      · exact ha1
    clear_value l3
    refine vendor_kept (hW.sub (by decide)) ?_
    exact bump32_kept (hW.sub (by decide)) hl3
  · exact vendor_kept (hW.sub (by decide)) ha1

theorem giveBack_kept {W : Nat} {r : State} {a0} {a1 : State} (hW : Sub 1063296 W) (ha1 : Kept W r a1) :
    Kept W r (giveBack a0 a1) := by
  unfold Sys2Proof.Machine.giveBack
  extract_lets +onlyGivenNames l0
  have hl0 : Kept W r (l0) := by
    unfold l0
    apply forEach_kept
    · intro x1 x2 h3
      exact dropImageOf_kept (hW.sub (by decide)) h3
    · exact ha1
  clear_value l0
  extract_lets +onlyGivenNames l4
  clear_value l4
  extract_lets +onlyGivenNames l5
  clear_value l5
  extract_lets +onlyGivenNames l6
  have hl6 : Kept W r (l6) := by
    unfold l6
    refine Kept.upd 384 ?_ ?_ rfl
    · exact hW.sub (by decide)
    · exact hl0
  clear_value l6
  extract_lets +onlyGivenNames l7
  clear_value l7
  refine sendLease_kept (hW.sub (by decide)) ?_
  exact setLeases_kept (hW.sub (by decide)) hl6

theorem releaseTwo_kept {W : Nat} {r : State} {a0 : State} (hW : Sub 1735565 W) (ha0 : Kept W r a0) :
    Kept W r (releaseTwo a0) := by
  unfold Sys2Proof.Machine.releaseTwo
  refine tendLeases_kept (hW.sub (by decide)) ?_
  apply forEach_kept
  · intro x0 x1 h2
    exact giveBack_kept (hW.sub (by decide)) h2
  · exact recallAll_kept (hW.sub (by decide)) ha0

theorem released_kept {W : Nat} {r : State} {a0 : State} (hW : Sub 1081344 W) (ha0 : Kept W r a0) :
    Kept W r (released a0) := by
  unfold Sys2Proof.Machine.released
  refine notify_kept (hW.sub (by decide)) ?_
  refine Kept.upd 32768 ?_ ?_ rfl
  · exact hW.sub (by decide)
  · exact ha0

theorem refuseField_kept {W : Nat} {r : State} {a0 : State} (hW : Sub 524288 W) (ha0 : Kept W r a0) :
    Kept W r (refuseField a0) := by
  unfold Sys2Proof.Machine.refuseField
  exact bump32_kept (hW.sub (by decide)) ha0

theorem hello_kept {W : Nat} {r : State} {a0 : State} (hW : Sub 3670018 W) (ha0 : Kept W r a0) :
    Kept W r (hello a0) := by
  unfold Sys2Proof.Machine.hello
  refine Kept.ite ?_ ?_
  · exact ha0
  · refine Kept.ite ?_ ?_
    · exact refuseField_kept (hW.sub (by decide)) ha0
    · extract_lets +onlyGivenNames l0
      clear_value l0
      extract_lets +onlyGivenNames l1
      clear_value l1
      extract_lets +onlyGivenNames l2
      clear_value l2
      refine send_kept (hW.sub (by decide)) ?_
      refine drawn_kept (hW.sub (by decide)) ?_
      refine drawn_kept (hW.sub (by decide)) ?_
      refine Kept.upd 2 ?_ ?_ rfl
      · exact hW.sub (by decide)
      · exact ha0

theorem dropSecrets_kept {W : Nat} {r : State} {a0 : State} (hW : Sub 32768 W) (ha0 : Kept W r a0) :
    Kept W r (dropSecrets a0) := by
  unfold Sys2Proof.Machine.dropSecrets
  refine Kept.upd 32768 ?_ ?_ rfl
  · exact hW.sub (by decide)
  · exact ha0

theorem trimShelf_kept {W : Nat} {r : State} {a0} {a1} {a2 : State} (hW : Sub 20992 W) (ha2 : Kept W r a2) :
    Kept W r (trimShelf a0 a1 a2) := by
  unfold Sys2Proof.Machine.trimShelf
  extract_lets +onlyGivenNames l0
  clear_value l0
  refine Kept.ite ?_ ?_
  · refine Kept.ite ?_ ?_
    · refine flushTail_kept (hW.sub (by decide)) ?_
      exact trimKey_kept (hW.sub (by decide)) ha2
    · exact ha2
  · exact setShelf_kept (hW.sub (by decide)) ha2

theorem releaseThree_kept {W : Nat} {r : State} {a0 : State} (hW : Sub 53760 W) (ha0 : Kept W r a0) :
    Kept W r (releaseThree a0) := by
  unfold Sys2Proof.Machine.releaseThree
  extract_lets +onlyGivenNames l0
  clear_value l0
  extract_lets +onlyGivenNames l1
  clear_value l1
  extract_lets +onlyGivenNames l2
  have hl2 : Kept W r (l2) := by
    unfold l2
    refine Kept.upd 512 ?_ ?_ rfl
    · exact hW.sub (by decide)
    · exact ha0
  clear_value l2
  refine dropSecrets_kept (hW.sub (by decide)) ?_
  refine Kept.ite ?_ ?_
  · exact hl2
  · apply forEach_kept
    · intro x3 x4 h5
      exact trimShelf_kept (hW.sub (by decide)) h5
    · exact hl2

theorem certAnswer_kept {W : Nat} {r : State} {a0} {a1} {a2} {a3 : State} (hW : Sub 1048576 W) (ha3 : Kept W r a3) :
    Kept W r (certAnswer a0 a1 a2 a3) := by
  unfold Sys2Proof.Machine.certAnswer
  extract_lets +onlyGivenNames l0
  clear_value l0
  refine Kept.ite ?_ ?_
  · exact send_kept (hW.sub (by decide)) ha3
  · exact send_kept (hW.sub (by decide)) ha3

theorem spdmRequest_kept {W : Nat} {r : State} {a0} {a1 : State} (hW : Sub 3178496 W) (ha1 : Kept W r a1) :
    Kept W r (spdmRequest a0 a1) := by
  unfold Sys2Proof.Machine.spdmRequest
  extract_lets +onlyGivenNames l0
  have hl0 : ∀ (z0) (z1) (_ : Kept W r z1), Kept W r (l0 z0 z1) := by
    intros
    rename_i v1 v2 v3
    unfold l0
    refine send_kept (hW.sub (by decide)) ?_
    exact v3
  clear_value l0
  refine Kept.ite ?_ ?_
  · exact ha1
  · refine Kept.ite ?_ ?_
    · apply hl0
      exact ha1
    · split
      · rename_i v4 v5
        refine Kept.ite ?_ ?_
        · apply hl0
          exact ha1
        · refine send_kept (hW.sub (by decide)) ?_
          refine drawn_kept (hW.sub (by decide)) ?_
          refine Kept.upd 32768 ?_ ?_ rfl
          · exact hW.sub (by decide)
          · exact ha1
      · rename_i v6
        exact send_kept (hW.sub (by decide)) ha1
      · rename_i v7
        exact send_kept (hW.sub (by decide)) ha1
      · rename_i v8 v9 v10 v11
        exact certAnswer_kept (hW.sub (by decide)) ha1
      · rename_i v12 v13 v14
        exact send_kept (hW.sub (by decide)) ha1
      · rename_i v15
        apply hl0
        exact ha1
      · rename_i v16 v17 v18 v19 v20 v21 v22
        apply hl0
        exact ha1

theorem abortWork_kept {W : Nat} {r : State} {a0 : State} (hW : Sub 1716716 W) (ha0 : Kept W r a0) :
    Kept W r (abortWork a0) := by
  unfold Sys2Proof.Machine.abortWork
  extract_lets +onlyGivenNames l0
  clear_value l0
  extract_lets +onlyGivenNames l1
  have hl1 : Kept W r (l1) := by
    unfold l1
    apply forEach_kept
    · intro x2 x3 h4
      exact finishCmd_kept (hW.sub (by decide)) h4
    · exact ha0
  clear_value l1
  extract_lets +onlyGivenNames l5
  have hl5 : Kept W r (l5) := by
    unfold l5
    exact abandonMoves_kept (hW.sub (by decide)) hl1
  clear_value l5
  apply forEach_kept
  · intro x6 x7 h8
    split
    · rename_i v9 v10 v11
      exact endJobError_kept (hW.sub (by decide)) h8
    · rename_i v12 v13
      exact h8
  · exact hl5

theorem standWheel_kept {W : Nat} {r : State} {a0 : State} (hW : Sub 48 W) (ha0 : Kept W r a0) :
    Kept W r (standWheel a0) := by
  unfold Sys2Proof.Machine.standWheel
  refine Kept.upd 48 ?_ ?_ rfl
  · exact hW.sub (by decide)
  · exact ha0

theorem releaseOne_kept {W : Nat} {r : State} {a0 : State} (hW : Sub 1768445 W) (ha0 : Kept W r a0) :
    Kept W r (releaseOne a0) := by
  unfold Sys2Proof.Machine.releaseOne
  extract_lets +onlyGivenNames l0
  have hl0 : Kept W r (l0) := by
    unfold l0
    refine releasePairs_kept (hW.sub (by decide)) ?_
    refine abortWork_kept (hW.sub (by decide)) ?_
    exact standWheel_kept (hW.sub (by decide)) ha0
  clear_value l0
  refine Kept.upd 32768 ?_ ?_ rfl
  · exact hW.sub (by decide)
  · exact hl0

theorem releaseFive_kept {W : Nat} {r : State} {a0 : State} (hW : Sub 12358 W) (ha0 : Kept W r a0) :
    Kept W r (releaseFive a0) := by
  unfold Sys2Proof.Machine.releaseFive
  refine Kept.upd 12358 ?_ ?_ rfl
  · exact hW.sub (by decide)
  · exact ha0

theorem resetTenantQueues_kept {W : Nat} {r : State} {a0 : State} (hW : Sub 12 W) (ha0 : Kept W r a0) :
    Kept W r (resetTenantQueues a0) := by
  unfold Sys2Proof.Machine.resetTenantQueues
  extract_lets +onlyGivenNames l0
  clear_value l0
  extract_lets +onlyGivenNames l1
  have hl1 : Kept W r (l1) := by
    unfold l1
    apply forEach_kept
    · intro x2 x3 h4
      refine setQueue_kept (hW.sub (by decide)) ?_
      apply forEach_kept
      · intro x5 x6 h7
        exact writeCompletion_kept (hW.sub (by decide)) h7
      · exact h4
    · exact ha0
  clear_value l1
  refine Kept.upd 8 ?_ ?_ rfl
  · exact hW.sub (by decide)
  · exact hl1

theorem releaseSix_kept {W : Nat} {r : State} {a0 : State} (hW : Sub 840974 W) (ha0 : Kept W r a0) :
    Kept W r (releaseSix a0) := by
  unfold Sys2Proof.Machine.releaseSix
  extract_lets +onlyGivenNames l0
  have hl0 : Kept W r (l0) := by
    unfold l0
    exact resetTenantQueues_kept (hW.sub (by decide)) ha0
  clear_value l0
  extract_lets +onlyGivenNames l1
  clear_value l1
  extract_lets +onlyGivenNames l2
  clear_value l2
  extract_lets +onlyGivenNames l3
  clear_value l3
  extract_lets +onlyGivenNames l4
  have hl4 : Kept W r (l4) := by
    unfold l4
    refine Kept.upd 300290 ?_ ?_ rfl
    · exact hW.sub (by decide)
    · exact hl0
  clear_value l4
  extract_lets +onlyGivenNames l5
  have hl5 : Kept W r (l5) := by
    unfold l5
    apply forEach_kept
    · intro x6 x7 h8
      exact editPort_kept (hW.sub (by decide)) h8
    · exact hl4
  clear_value l5
  refine odKeep_kept (hW.sub (by decide)) ?_
  apply forEach_kept
  · intro x9 x10 h11
    exact setMask_kept (hW.sub (by decide)) h11
  · exact hl5

theorem newMeadowKeys_kept {W : Nat} {r : State} {a0 : State} (hW : Sub 2129920 W) (ha0 : Kept W r a0) :
    Kept W r (newMeadowKeys a0) := by
  unfold Sys2Proof.Machine.newMeadowKeys
  refine drawn_kept (hW.sub (by decide)) ?_
  refine Kept.upd 32768 ?_ ?_ rfl
  · exact hW.sub (by decide)
  · exact ha0

theorem releaseSeven_kept {W : Nat} {r : State} {a0 : State} (hW : Sub 2130624 W) (ha0 : Kept W r a0) :
    Kept W r (releaseSeven a0) := by
  unfold Sys2Proof.Machine.releaseSeven
  extract_lets +onlyGivenNames l0
  have hl0 : Kept W r (l0) := by
    unfold l0
    exact newMeadowKeys_kept (hW.sub (by decide)) ha0
  clear_value l0
  refine Kept.upd 704 ?_ ?_ rfl
  · exact hW.sub (by decide)
  · exact hl0

theorem releaseStep_kept {W : Nat} {r : State} {a0} {a1 : State} (hW : Sub 4128767 W) (ha1 : Kept W r a1) :
    Kept W r (releaseStep a0 a1) := by
  unfold Sys2Proof.Machine.releaseStep
  extract_lets +onlyGivenNames l0
  clear_value l0
  extract_lets +onlyGivenNames l1
  have hl1 : Kept W r (l1) := by
    unfold l1
    refine Kept.upd 32768 ?_ ?_ rfl
    · exact hW.sub (by decide)
    · exact ha1
  clear_value l1
  split
  · rename_i v2
    exact releaseOne_kept (hW.sub (by decide)) hl1
  · rename_i v3
    exact releaseTwo_kept (hW.sub (by decide)) hl1
  · rename_i v4
    exact releaseThree_kept (hW.sub (by decide)) hl1
  · rename_i v5
    exact releaseFour_kept (hW.sub (by decide)) hl1
  · rename_i v6
    exact releaseFive_kept (hW.sub (by decide)) hl1
  · rename_i v7
    exact releaseSix_kept (hW.sub (by decide)) hl1
  · rename_i v8 v9 v10 v11 v12 v13 v14
    exact releaseSeven_kept (hW.sub (by decide)) hl1

theorem startRelease_kept {W : Nat} {r : State} {a0 : State} (hW : Sub 4128767 W) (ha0 : Kept W r a0) :
    Kept W r (startRelease a0) := by
  unfold Sys2Proof.Machine.startRelease
  refine releaseStep_kept (hW.sub (by decide)) ?_
  refine Kept.upd 32768 ?_ ?_ rfl
  · exact hW.sub (by decide)
  · exact ha0

theorem releaseWrite_kept {W : Nat} {r : State} {a0 : State} (hW : Sub 4128767 W) (ha0 : Kept W r a0) :
    Kept W r (releaseWrite a0).2 := by
  unfold Sys2Proof.Machine.releaseWrite
  split
  · rename_i v0
    dsimp only
    exact startRelease_kept (hW.sub (by decide)) ha0
  · rename_i v1
    dsimp only
    exact ha0

theorem eraseSecrets_kept {W : Nat} {r : State} {a0 : State} (hW : Sub 59394 W) (ha0 : Kept W r a0) :
    Kept W r (eraseSecrets a0) := by
  unfold Sys2Proof.Machine.eraseSecrets
  extract_lets +onlyGivenNames l0
  have hl0 : Kept W r (l0) := by
    unfold l0
    exact dropSecrets_kept (hW.sub (by decide)) ha0
  clear_value l0
  refine Kept.upd 59394 ?_ ?_ rfl
  · exact hW.sub (by decide)
  · exact hl0

theorem scanWrite_kept {W : Nat} {r : State} {a0 : State} (hW : Sub 125442 W) (ha0 : Kept W r a0) :
    Kept W r (scanWrite a0).2 := by
  unfold Sys2Proof.Machine.scanWrite
  split
  · rename_i v0
    dsimp only
    exact ha0
  · rename_i v1
    extract_lets +onlyGivenNames l2
    have hl2 : Kept W r (l2) := by
      unfold l2
      exact eraseSecrets_kept (hW.sub (by decide)) ha0
    clear_value l2
    dsimp only
    refine Kept.upd 98816 ?_ ?_ rfl
    · exact hW.sub (by decide)
    · exact hl2

theorem unattest_kept {W : Nat} {r : State} {a0 : State} (hW : Sub 32768 W) (ha0 : Kept W r a0) :
    Kept W r (unattest a0) := by
  unfold Sys2Proof.Machine.unattest
  refine Kept.ite ?_ ?_
  · refine Kept.upd 32768 ?_ ?_ rfl
    · exact hW.sub (by decide)
    · exact ha0
  · exact ha0

theorem spdmEnd_kept {W : Nat} {r : State} {a0} {a1 : State} (hW : Sub 32768 W) (ha1 : Kept W r a1) :
    Kept W r (spdmEnd a0 a1) := by
  unfold Sys2Proof.Machine.spdmEnd
  extract_lets +onlyGivenNames l0
  clear_value l0
  extract_lets +onlyGivenNames l1
  have hl1 : Kept W r (l1) := by
    unfold l1
    refine Kept.upd 32768 ?_ ?_ rfl
    · exact hW.sub (by decide)
    · exact ha1
  clear_value l1
  refine Kept.ite ?_ ?_
  · exact unattest_kept (hW.sub (by decide)) hl1
  · exact hl1

theorem endSession_kept {W : Nat} {r : State} {a0} {a1 : State} (hW : Sub 2 W) (ha1 : Kept W r a1) :
    Kept W r (endSession a0 a1) := by
  unfold Sys2Proof.Machine.endSession
  refine Kept.upd 2 ?_ ?_ rfl
  · exact hW.sub (by decide)
  · exact ha1

theorem setSecret_kept {W : Nat} {r : State} {a0} {a1} {a2} {a3 : State} (hW : Sub 1081344 W) (ha3 : Kept W r a3) :
    Kept W r (setSecret a0 a1 a2 a3) := by
  unfold Sys2Proof.Machine.setSecret
  refine Kept.ite ?_ ?_
  · exact vendor_kept (hW.sub (by decide)) ha3
  · refine Kept.ite ?_ ?_
    · exact vendor_kept (hW.sub (by decide)) ha3
    · extract_lets +onlyGivenNames l0
      clear_value l0
      refine vendor_kept (hW.sub (by decide)) ?_
      refine Kept.ite ?_ ?_
      · refine Kept.upd 32768 ?_ ?_ rfl
        · exact hW.sub (by decide)
        · exact ha3
      · exact ha3

theorem spdmFinish_kept {W : Nat} {r : State} {a0} {a1} {a2} {a3 : State} (hW : Sub 1605632 W) (ha3 : Kept W r a3) :
    Kept W r (spdmFinish a0 a1 a2 a3) := by
  unfold Sys2Proof.Machine.spdmFinish
  refine Kept.ite ?_ ?_
  · exact ha3
  · refine Kept.ite ?_ ?_
    · exact send_kept (hW.sub (by decide)) ha3
    · extract_lets +onlyGivenNames l0
      clear_value l0
      extract_lets +onlyGivenNames l1
      clear_value l1
      extract_lets +onlyGivenNames l2
      have hl2 : Kept W r (l2) := by
        unfold l2
        refine bump64_kept (hW.sub (by decide)) ?_
        refine Kept.upd 32768 ?_ ?_ rfl
        · exact hW.sub (by decide)
        · exact ha3
      clear_value l2
      extract_lets +onlyGivenNames l3
      clear_value l3
      extract_lets +onlyGivenNames l4
      have hl4 : Kept W r (l4) := by
        unfold l4
        refine Kept.ite ?_ ?_
        · refine Kept.upd 32768 ?_ ?_ rfl
          · exact hW.sub (by decide)
          · exact hl2
        · exact hl2
      clear_value l4
      exact send_kept (hW.sub (by decide)) hl4

theorem enterSafe_kept {W : Nat} {r : State} {a0 : State} (hW : Sub 124930 W) (ha0 : Kept W r a0) :
    Kept W r (enterSafe a0) := by
  unfold Sys2Proof.Machine.enterSafe
  extract_lets +onlyGivenNames l0
  have hl0 : Kept W r (l0) := by
    unfold l0
    exact eraseSecrets_kept (hW.sub (by decide)) ha0
  clear_value l0
  refine Kept.upd 98304 ?_ ?_ rfl
  · exact hW.sub (by decide)
  · exact hl0

theorem rtpFailure_kept {W : Nat} {r : State} {a0 : State} (hW : Sub 124930 W) (ha0 : Kept W r a0) :
    Kept W r (rtpFailure a0) := by
  unfold Sys2Proof.Machine.rtpFailure
  refine Kept.ite ?_ ?_
  · exact enterSafe_kept (hW.sub (by decide)) ha0
  · exact ha0

theorem ownershipWait_kept {W : Nat} {r : State} {a0 : State} (hW : Sub 32768 W) (ha0 : Kept W r a0) :
    Kept W r (ownershipWait a0) := by
  unfold Sys2Proof.Machine.ownershipWait
  refine Kept.ite ?_ ?_
  · exact unattest_kept (hW.sub (by decide)) ha0
  · exact ha0

theorem idleTimeout_kept {W : Nat} {r : State} {a0} {a1 : State} (hW : Sub 2 W) (ha1 : Kept W r a1) :
    Kept W r (idleTimeout a0 a1) := by
  unfold Sys2Proof.Machine.idleTimeout
  refine Kept.ite ?_ ?_
  · exact endSession_kept (hW.sub (by decide)) ha1
  · exact ha1

theorem auth_kept {W : Nat} {r : State} {a0} {a1} {a2} {a3 : State} (hW : Sub 3670018 W) (ha3 : Kept W r a3) :
    Kept W r (auth a0 a1 a2 a3) := by
  unfold Sys2Proof.Machine.auth
  refine Kept.ite ?_ ?_
  · exact ha3
  · split
    · rename_i v0 v1
      exact refuseField_kept (hW.sub (by decide)) ha3
    · rename_i v2 v3 v4
      refine Kept.ite ?_ ?_
      · refine refuseField_kept (hW.sub (by decide)) ?_
        exact endSession_kept (hW.sub (by decide)) ha3
      · refine Kept.ite ?_ ?_
        · extract_lets +onlyGivenNames l5
          clear_value l5
          refine send_kept (hW.sub (by decide)) ?_
          refine drawn_kept (hW.sub (by decide)) ?_
          refine Kept.upd 2 ?_ ?_ rfl
          · exact hW.sub (by decide)
          · exact ha3
        · refine send_kept (hW.sub (by decide)) ?_
          refine refuseField_kept (hW.sub (by decide)) ?_
          exact endSession_kept (hW.sub (by decide)) ha3

theorem tenancySecret_kept {W : Nat} {r : State} {a0} {a1} {a2 : State} (hW : Sub 1085952 W) (ha2 : Kept W r a2) :
    Kept W r (tenancySecret a0 a1 a2) := by
  unfold Sys2Proof.Machine.tenancySecret
  refine Kept.ite ?_ ?_
  · exact vendor_kept (hW.sub (by decide)) ha2
  · extract_lets +onlyGivenNames l0
    clear_value l0
    refine Kept.ite ?_ ?_
    · exact vendor_kept (hW.sub (by decide)) ha2
    · extract_lets +onlyGivenNames l1
      clear_value l1
      extract_lets +onlyGivenNames l2
      clear_value l2
      extract_lets +onlyGivenNames l3
      have hl3 : Kept W r (l3) := by
        unfold l3
        refine Kept.upd 32768 ?_ ?_ rfl
        · exact hW.sub (by decide)
        · exact ha2
      clear_value l3
      extract_lets +onlyGivenNames l4
      clear_value l4
      refine vendor_kept (hW.sub (by decide)) ?_
      apply forEach_kept
      · intro x5 x6 h7
        refine Kept.ite ?_ ?_
        · exact trimStale_kept (hW.sub (by decide)) h7
        · exact h7
      · exact hl3

theorem writeWeightKey_kept {W : Nat} {r : State} {a0} {a1} {a2 : State} (hW : Sub 32768 W) (ha2 : Kept W r a2) :
    Kept W r (writeWeightKey a0 a1 a2).2 := by
  unfold Sys2Proof.Machine.writeWeightKey
  extract_lets +onlyGivenNames l0
  clear_value l0
  extract_lets +onlyGivenNames l1
  have hl1 : Kept W r (l1) := by
    unfold l1
    refine Kept.upd 32768 ?_ ?_ rfl
    · exact hW.sub (by decide)
    · exact ha2
  clear_value l1
  split
  · rename_i v2
    dsimp only
    exact hl1
  · rename_i v3
    split
    · rename_i v4 v5
      dsimp only
      exact hl1
    · rename_i v6 v7 v8
      split
      · rename_i v9
        dsimp only
        exact hl1
      · rename_i v10
        split
        · rename_i v11
          dsimp only
          exact ha2
        · rename_i v12
          split
          · rename_i v13 v14
            dsimp only
            exact hl1
          · rename_i v15 v16 v17
            extract_lets +onlyGivenNames l18
            clear_value l18
            dsimp only
            refine Kept.upd 32768 ?_ ?_ rfl
            · exact hW.sub (by decide)
            · exact hl1

theorem tenancyStatus_kept {W : Nat} {r : State} {a0} {a1 : State} (hW : Sub 1048576 W) (ha1 : Kept W r a1) :
    Kept W r (tenancyStatus a0 a1) := by
  unfold Sys2Proof.Machine.tenancyStatus
  refine Kept.ite ?_ ?_
  · exact vendor_kept (hW.sub (by decide)) ha1
  · exact vendor_kept (hW.sub (by decide)) ha1

theorem setupTimeout_kept {W : Nat} {r : State} {a0} {a1 : State} (hW : Sub 2 W) (ha1 : Kept W r a1) :
    Kept W r (setupTimeout a0 a1) := by
  unfold Sys2Proof.Machine.setupTimeout
  refine Kept.ite ?_ ?_
  · exact endSession_kept (hW.sub (by decide)) ha1
  · exact ha1

end Sys2Proof.Laws
end

