-- ==== Sys2Proof/Laws/KeptLinks.lean ====
section
/-! SUPPORT. What the operations of Sys2Proof/Machine/Links.lean keep: one lemma for each, which callers cite. -/

namespace Sys2Proof.Laws

open Sys2Proof Sys2Proof.Machine

theorem laneReached_kept {W : Nat} {r : State} {a0} {a1} {a2 : State} (hW : Sub 1724428 W) (ha2 : Kept W r a2) :
    Kept W r (laneReached a0 a1 a2) := by
  unfold Sys2Proof.Machine.laneReached
  split
  · rename_i v0 v1
    exact ha2
  · rename_i v2 v3 v4
    refine Kept.ite ?_ ?_
    · refine lanesChanged_kept (hW.sub (by decide)) ?_
      exact editPort_kept (hW.sub (by decide)) ha2
    · exact ha2

theorem laneFaultRec_kept {W : Nat} {r : State} {a0} {a1} {a2} {a3} {a4 : State} (hW : Sub 1703936 W) (ha4 : Kept W r a4) :
    Kept W r (laneFaultRec a0 a1 a2 a3 a4) := by
  unfold Sys2Proof.Machine.laneFaultRec
  exact fault_kept (hW.sub (by decide)) ha4

theorem askReplay_kept {W : Nat} {r : State} {a0} {a1 : State} (hW : Sub 1986572 W) (ha1 : Kept W r a1) :
    Kept W r (askReplay a0 a1) := by
  unfold Sys2Proof.Machine.askReplay
  extract_lets +onlyGivenNames l0
  clear_value l0
  refine Kept.ite ?_ ?_
  · exact ha1
  · refine controlOut_kept (hW.sub (by decide)) ?_
    exact editPort_kept (hW.sub (by decide)) ha1

theorem badFrame_kept {W : Nat} {r : State} {a0} {a1} {a2} {a3} {a4 : State} (hW : Sub 1986572 W) (ha4 : Kept W r a4) :
    Kept W r (badFrame a0 a1 a2 a3 a4) := by
  unfold Sys2Proof.Machine.badFrame
  extract_lets +onlyGivenNames l0
  clear_value l0
  extract_lets +onlyGivenNames l1
  have hl1 : Kept W r (l1) := by
    unfold l1
    refine count_kept (hW.sub (by decide)) ?_
    refine bump64_kept (hW.sub (by decide)) ?_
    exact editPort_kept (hW.sub (by decide)) ha4
  clear_value l1
  refine Kept.ite ?_ ?_
  · refine portDown_kept (hW.sub (by decide)) ?_
    refine Kept.ite ?_ ?_
    · exact fault_kept (hW.sub (by decide)) hl1
    · exact hl1
  · exact askReplay_kept (hW.sub (by decide)) hl1

theorem frameIn_kept {W : Nat} {r : State} {a0} {a1} {a2} {a3} {a4 : State} (hW : Sub 1986572 W) (ha3 : ∀ (y0) (y1) (_ : Kept W r y1), Kept W r (a3 y0 y1)) (ha4 : Kept W r a4) :
    Kept W r (frameIn a0 a1 a2 a3 a4) := by
  unfold Sys2Proof.Machine.frameIn
  extract_lets +onlyGivenNames l0
  clear_value l0
  refine Kept.ite ?_ ?_
  · exact ha4
  · refine Kept.ite ?_ ?_
    · exact badFrame_kept (hW.sub (by decide)) ha4
    · extract_lets +onlyGivenNames l1
      clear_value l1
      extract_lets +onlyGivenNames l2
      have hl2 : Kept W r (l2) := by
        unfold l2
        exact odAdd_kept (hW.sub (by decide)) ha4
      clear_value l2
      refine Kept.ite ?_ ?_
      · exact badFrame_kept (hW.sub (by decide)) hl2
      · refine Kept.ite ?_ ?_
        · refine askReplay_kept (hW.sub (by decide)) ?_
          exact editPort_kept (hW.sub (by decide)) hl2
        · extract_lets +onlyGivenNames l3
          clear_value l3
          extract_lets +onlyGivenNames l4
          have hl4 : Kept W r (l4) := by
            unfold l4
            refine count_kept (hW.sub (by decide)) ?_
            refine bump64_kept (hW.sub (by decide)) ?_
            exact editPort_kept (hW.sub (by decide)) hl2
          clear_value l4
          apply ha3
          exact laneReached_kept (hW.sub (by decide)) hl4

theorem laserLane_kept {W : Nat} {r : State} {a0} {a1} {a2 : State} (hW : Sub 1724428 W) (ha2 : Kept W r a2) :
    Kept W r (laserLane a0 a1 a2) := by
  unfold Sys2Proof.Machine.laserLane
  extract_lets +onlyGivenNames l0
  clear_value l0
  extract_lets +onlyGivenNames l1
  clear_value l1
  refine Kept.ite ?_ ?_
  · exact ha2
  · extract_lets +onlyGivenNames l2
    clear_value l2
    extract_lets +onlyGivenNames l3
    have hl3 : Kept W r (l3) := by
      unfold l3
      refine laneFaultRec_kept (hW.sub (by decide)) ?_
      exact editPort_kept (hW.sub (by decide)) ha2
    clear_value l3
    refine Kept.ite ?_ ?_
    · exact retrain_kept (hW.sub (by decide)) hl3
    · exact lanesChanged_kept (hW.sub (by decide)) hl3

theorem laserInput_kept {W : Nat} {r : State} {a0} {a1} {a2 : State} (hW : Sub 1724428 W) (ha2 : Kept W r a2) :
    Kept W r (laserInput a0 a1 a2) := by
  unfold Sys2Proof.Machine.laserInput
  extract_lets +onlyGivenNames l0
  clear_value l0
  extract_lets +onlyGivenNames l1
  clear_value l1
  extract_lets +onlyGivenNames l2
  clear_value l2
  extract_lets +onlyGivenNames l3
  clear_value l3
  extract_lets +onlyGivenNames l4
  clear_value l4
  extract_lets +onlyGivenNames l5
  clear_value l5
  extract_lets +onlyGivenNames l6
  clear_value l6
  extract_lets +onlyGivenNames l7
  clear_value l7
  extract_lets +onlyGivenNames l8
  clear_value l8
  extract_lets +onlyGivenNames l9
  have hl9 : Kept W r (l9) := by
    unfold l9
    refine Kept.upd 16384 ?_ ?_ rfl
    · exact hW.sub (by decide)
    · exact ha2
  clear_value l9
  extract_lets +onlyGivenNames l10
  clear_value l10
  extract_lets +onlyGivenNames l11
  clear_value l11
  extract_lets +onlyGivenNames l12
  have hl12 : Kept W r (l12) := by
    unfold l12
    refine Kept.ite ?_ ?_
    · exact hl9
    · exact faultEvent_kept (hW.sub (by decide)) hl9
  clear_value l12
  apply forEach_kept
  · intro x13 x14 h15
    apply forEach_kept
    · intro x16 x17 h18
      exact laserLane_kept (hW.sub (by decide)) h18
    · exact h15
  · exact hl12

theorem laserCheck_kept {W : Nat} {r : State} {a0} {a1 : State} (hW : Sub 1724428 W) (ha1 : Kept W r a1) :
    Kept W r (laserCheck a0 a1) := by
  unfold Sys2Proof.Machine.laserCheck
  apply forEach_kept
  · intro x0 x1 h2
    exact laserInput_kept (hW.sub (by decide)) h2
  · exact ha1

theorem laneAgree_kept {W : Nat} {r : State} {a0} {a1} {a2 : State} (hW : Sub 1986572 W) (ha2 : Kept W r a2) :
    Kept W r (laneAgree a0 a1 a2) := by
  unfold Sys2Proof.Machine.laneAgree
  extract_lets +onlyGivenNames l0
  clear_value l0
  extract_lets +onlyGivenNames l1
  clear_value l1
  refine controlOut_kept (hW.sub (by decide)) ?_
  exact editPort_kept (hW.sub (by decide)) ha2

theorem laneFault_kept {W : Nat} {r : State} {a0} {a1} {a2 : State} (hW : Sub 1986572 W) (ha2 : Kept W r a2) :
    Kept W r (laneFault a0 a1 a2) := by
  unfold Sys2Proof.Machine.laneFault
  extract_lets +onlyGivenNames l0
  clear_value l0
  refine Kept.ite ?_ ?_
  · exact ha2
  · extract_lets +onlyGivenNames l1
    clear_value l1
    extract_lets +onlyGivenNames l2
    have hl2 : Kept W r (l2) := by
      unfold l2
      exact laneFaultRec_kept (hW.sub (by decide)) ha2
    clear_value l2
    refine Kept.ite ?_ ?_
    · exact portDown_kept (hW.sub (by decide)) hl2
    · refine laneAgree_kept (hW.sub (by decide)) ?_
      exact editPort_kept (hW.sub (by decide)) hl2

theorem linkUp_kept {W : Nat} {r : State} {a0} {a1 : State} (hW : Sub 4128749 W) (ha1 : Kept W r a1) :
    Kept W r (linkUp a0 a1) := by
  unfold Sys2Proof.Machine.linkUp
  extract_lets +onlyGivenNames l0
  have hl0 : Kept W r (l0) := by
    unfold l0
    exact editPort_kept (hW.sub (by decide)) ha1
  clear_value l0
  extract_lets +onlyGivenNames l1
  have hl1 : Kept W r (l1) := by
    unfold l1
    apply forEach_kept
    · intro x2 x3 h4
      exact editPort_kept (hW.sub (by decide)) h4
    · exact hl0
  clear_value l1
  refine Kept.ite ?_ ?_
  · exact heathPortUp_kept (hW.sub (by decide)) hl1
  · exact devicePairsUp_kept (hW.sub (by decide)) hl1

theorem idleIn_kept {W : Nat} {r : State} {a0} {a1} {a2 : State} (hW : Sub 1986572 W) (ha2 : Kept W r a2) :
    Kept W r (idleIn a0 a1 a2) := by
  unfold Sys2Proof.Machine.idleIn
  apply frameIn_kept
  · exact hW.sub (by decide)
  · intro x0 x1 h2
    exact h2
  · exact ha2

theorem laneIn_kept {W : Nat} {r : State} {a0} {a1} {a2 : State} (hW : Sub 1986572 W) (ha2 : Kept W r a2) :
    Kept W r (laneIn a0 a1 a2) := by
  unfold Sys2Proof.Machine.laneIn
  apply frameIn_kept
  · exact hW.sub (by decide)
  · intro x0 x1 h2
    extract_lets +onlyGivenNames l3
    clear_value l3
    extract_lets +onlyGivenNames l4
    clear_value l4
    refine Kept.ite ?_ ?_
    · exact editPort_kept (hW.sub (by decide)) h2
    · refine lanesChanged_kept (hW.sub (by decide)) ?_
      exact editPort_kept (hW.sub (by decide)) h2
  · exact ha2

theorem requestLeft_kept {W : Nat} {r : State} {a0} {a1} {a2 : State} (hW : Sub 1839104 W) (ha2 : Kept W r a2) :
    Kept W r (requestLeft a0 a1 a2) := by
  unfold Sys2Proof.Machine.requestLeft
  extract_lets +onlyGivenNames l0
  clear_value l0
  split
  · rename_i v1 v2
    exact ha2
  · rename_i v3 v4 v5
    refine count_kept (hW.sub (by decide)) ?_
    refine send_kept (hW.sub (by decide)) ?_
    exact setShelf_kept (hW.sub (by decide)) ha2

theorem packetBoundary_kept {W : Nat} {r : State} {a0} {a1 : State} (hW : Sub 1986572 W) (ha1 : Kept W r a1) :
    Kept W r (packetBoundary a0 a1) := by
  unfold Sys2Proof.Machine.packetBoundary
  refine Kept.ite ?_ ?_
  · exact ha1
  · split
    · rename_i v0 v1
      exact controlOut_kept (hW.sub (by decide)) ha1
    · rename_i v2 v3 v4 v5
      extract_lets +onlyGivenNames l6
      have hl6 : Kept W r (l6) := by
        unfold l6
        exact editPort_kept (hW.sub (by decide)) ha1
      clear_value l6
      split
      · rename_i v7 v8 v9
        refine send_kept (hW.sub (by decide)) ?_
        exact dataOut_kept (hW.sub (by decide)) hl6
      · rename_i v10 v11
        refine requestLeft_kept (hW.sub (by decide)) ?_
        exact dataOut_kept (hW.sub (by decide)) hl6

theorem laneLate_kept {W : Nat} {r : State} {a0} {a1 : State} (hW : Sub 1724428 W) (ha1 : Kept W r a1) :
    Kept W r (laneLate a0 a1) := by
  unfold Sys2Proof.Machine.laneLate
  split
  · rename_i v0 v1
    exact ha1
  · rename_i v2 v3 v4
    refine Kept.ite ?_ ?_
    · exact portDown_kept (hW.sub (by decide)) ha1
    · exact ha1

theorem atStep_kept {W : Nat} {r : State} {a0} {a1} {a2 : State} (hW : Sub 16384 W) (ha2 : Kept W r a2) :
    Kept W r (atStep a0 a1 a2) := by
  unfold Sys2Proof.Machine.atStep
  exact editPort_kept (hW.sub (by decide)) ha2

theorem laneRetrain_kept {W : Nat} {r : State} {a0} {a1} {a2} {a3 : State} (hW : Sub 1986572 W) (ha3 : Kept W r a3) :
    Kept W r (laneRetrain a0 a1 a2 a3) := by
  unfold Sys2Proof.Machine.laneRetrain
  extract_lets +onlyGivenNames l0
  clear_value l0
  refine Kept.ite ?_ ?_
  · exact ha3
  · refine Kept.ite ?_ ?_
    · refine laneAgree_kept (hW.sub (by decide)) ?_
      exact editPort_kept (hW.sub (by decide)) ha3
    · exact editPort_kept (hW.sub (by decide)) ha3

theorem linkProofIn_kept {W : Nat} {r : State} {a0} {a1} {a2 : State} (hW : Sub 4128749 W) (ha2 : Kept W r a2) :
    Kept W r (linkProofIn a0 a1 a2) := by
  unfold Sys2Proof.Machine.linkProofIn
  extract_lets +onlyGivenNames l0
  clear_value l0
  refine Kept.ite ?_ ?_
  · exact ha2
  · refine Kept.ite ?_ ?_
    · exact linkUp_kept (hW.sub (by decide)) ha2
    · refine retrain_kept (hW.sub (by decide)) ?_
      exact fault_kept (hW.sub (by decide)) ha2

theorem nakRepeat_kept {W : Nat} {r : State} {a0} {a1 : State} (hW : Sub 1986572 W) (ha1 : Kept W r a1) :
    Kept W r (nakRepeat a0 a1) := by
  unfold Sys2Proof.Machine.nakRepeat
  extract_lets +onlyGivenNames l0
  clear_value l0
  refine Kept.ite ?_ ?_
  · refine controlOut_kept (hW.sub (by decide)) ?_
    exact editPort_kept (hW.sub (by decide)) ha1
  · exact ha1

theorem creditTimer_kept {W : Nat} {r : State} {a0} {a1 : State} (hW : Sub 1986572 W) (ha1 : Kept W r a1) :
    Kept W r (creditTimer a0 a1) := by
  unfold Sys2Proof.Machine.creditTimer
  extract_lets +onlyGivenNames l0
  clear_value l0
  refine Kept.ite ?_ ?_
  · exact ha1
  · extract_lets +onlyGivenNames l1
    clear_value l1
    refine controlOut_kept (hW.sub (by decide)) ?_
    exact editPort_kept (hW.sub (by decide)) ha1

theorem nakInAny_kept {W : Nat} {r : State} {a0} {a1} {a2 : State} (hW : Sub 1986572 W) (ha2 : Kept W r a2) :
    Kept W r (nakIn_ a0 a1 a2) := by
  unfold Sys2Proof.Machine.nakIn_
  apply frameIn_kept
  · exact hW.sub (by decide)
  · intro x0 x1 h2
    refine Kept.ite ?_ ?_
    · exact h2
    · extract_lets +onlyGivenNames l3
      clear_value l3
      refine odAdd_kept (hW.sub (by decide)) ?_
      apply forEach_kept
      · intro x4 x5 h6
        exact send_kept (hW.sub (by decide)) h6
      · exact h2
  · exact ha2

theorem replayTimeout_kept {W : Nat} {r : State} {a0} {a1 : State} (hW : Sub 1724428 W) (ha1 : Kept W r a1) :
    Kept W r (replayTimeout a0 a1) := by
  unfold Sys2Proof.Machine.replayTimeout
  extract_lets +onlyGivenNames l0
  clear_value l0
  refine Kept.ite ?_ ?_
  · exact portDown_kept (hW.sub (by decide)) ha1
  · exact ha1

theorem linkRekey_kept {W : Nat} {r : State} {a0} {a1 : State} (hW : Sub 16384 W) (ha1 : Kept W r a1) :
    Kept W r (linkRekey a0 a1) := by
  unfold Sys2Proof.Machine.linkRekey
  refine Kept.ite ?_ ?_
  · exact rekeyLink_kept (hW.sub (by decide)) ha1
  · exact ha1

theorem linkKeyIn_kept {W : Nat} {r : State} {a0} {a1} {a2} {a3 : State} (hW : Sub 3162112 W) (ha3 : Kept W r a3) :
    Kept W r (linkKeyIn a0 a1 a2 a3) := by
  unfold Sys2Proof.Machine.linkKeyIn
  extract_lets +onlyGivenNames l0
  clear_value l0
  refine Kept.ite ?_ ?_
  · exact ha3
  · refine Kept.ite ?_ ?_
    · exact editPort_kept (hW.sub (by decide)) ha3
    · refine Kept.ite ?_ ?_
      · exact ha3
      · refine drawn_kept (hW.sub (by decide)) ?_
        refine send_kept (hW.sub (by decide)) ?_
        refine send_kept (hW.sub (by decide)) ?_
        exact editPort_kept (hW.sub (by decide)) ha3

theorem bringUp_kept {W : Nat} {r : State} {a0} {a1} {a2 : State} (hW : Sub 3162112 W) (ha2 : Kept W r a2) :
    Kept W r (bringUp a0 a1 a2) := by
  unfold Sys2Proof.Machine.bringUp
  extract_lets +onlyGivenNames l0
  clear_value l0
  refine Kept.ite ?_ ?_
  · exact ha2
  · split
    · rename_i v1 v2
      exact atStep_kept (hW.sub (by decide)) ha2
    · rename_i v3 v4
      refine Kept.ite ?_ ?_
      · exact atStep_kept (hW.sub (by decide)) ha2
      · exact ha2
    · rename_i v5 v6
      exact atStep_kept (hW.sub (by decide)) ha2
    · rename_i v7 v8
      refine send_kept (hW.sub (by decide)) ?_
      exact atStep_kept (hW.sub (by decide)) ha2
    · rename_i v9 v10
      refine Kept.ite ?_ ?_
      · exact ha2
      · extract_lets +onlyGivenNames l11
        clear_value l11
        extract_lets +onlyGivenNames l12
        clear_value l12
        extract_lets +onlyGivenNames l13
        have hl13 : Kept W r (l13) := by
          unfold l13
          exact editPort_kept (hW.sub (by decide)) ha2
        clear_value l13
        extract_lets +onlyGivenNames l14
        have hl14 : Kept W r (l14) := by
          unfold l14
          apply onlyIf_kept
          · intro x14 h15
            exact send_kept (hW.sub (by decide)) h15
          · exact hl13
        clear_value l14
        split
        · exact linkKeyIn_kept (hW.sub (by decide)) hl14
        · exact hl14
    · rename_i v16 v17 v18 v19 v20 v21
      exact ha2

theorem creditFrameIn_kept {W : Nat} {r : State} {a0} {a1} {a2 : State} (hW : Sub 1986572 W) (ha2 : Kept W r a2) :
    Kept W r (creditFrameIn a0 a1 a2) := by
  unfold Sys2Proof.Machine.creditFrameIn
  apply frameIn_kept
  · exact hW.sub (by decide)
  · intro x0 x1 h2
    exact editPort_kept (hW.sub (by decide)) h2
  · exact ha2

theorem dataFrame_kept {W : Nat} {r : State} {a0} {a1} {a2 : State} (hW : Sub 1986572 W) (ha2 : Kept W r a2) :
    Kept W r (dataFrame a0 a1 a2) := by
  unfold Sys2Proof.Machine.dataFrame
  extract_lets +onlyGivenNames l0
  clear_value l0
  apply frameIn_kept
  · exact hW.sub (by decide)
  · intro x1 x2 h3
    exact editPort_kept (hW.sub (by decide)) h3
  · exact ha2

theorem stepTimeout_kept {W : Nat} {r : State} {a0} {a1 : State} (hW : Sub 1720320 W) (ha1 : Kept W r a1) :
    Kept W r (stepTimeout a0 a1) := by
  unfold Sys2Proof.Machine.stepTimeout
  extract_lets +onlyGivenNames l0
  clear_value l0
  refine Kept.ite ?_ ?_
  · exact ha1
  · refine retrain_kept (hW.sub (by decide)) ?_
    exact fault_kept (hW.sub (by decide)) ha1

theorem linkCtIn_kept {W : Nat} {r : State} {a0} {a1} {a2} {a3 : State} (hW : Sub 3162112 W) (ha3 : Kept W r a3) :
    Kept W r (linkCtIn a0 a1 a2 a3) := by
  unfold Sys2Proof.Machine.linkCtIn
  extract_lets +onlyGivenNames l0
  clear_value l0
  refine Kept.ite ?_ ?_
  · exact ha3
  · refine drawn_kept (hW.sub (by decide)) ?_
    refine send_kept (hW.sub (by decide)) ?_
    exact editPort_kept (hW.sub (by decide)) ha3

theorem laneRepeat_kept {W : Nat} {r : State} {a0} {a1 : State} (hW : Sub 1986572 W) (ha1 : Kept W r a1) :
    Kept W r (laneRepeat a0 a1) := by
  unfold Sys2Proof.Machine.laneRepeat
  split
  · rename_i v0 v1
    exact ha1
  · rename_i v2 v3 v4
    refine Kept.ite ?_ ?_
    · refine controlOut_kept (hW.sub (by decide)) ?_
      exact editPort_kept (hW.sub (by decide)) ha1
    · exact ha1

end Sys2Proof.Laws
end

