-- ==== Sys2Proof/Laws/KeptFirings.lean ====
section
/-! SUPPORT. What the operations of Sys2Proof/Machine/Firings.lean keep: one lemma for each, which callers cite. -/

namespace Sys2Proof.Laws

open Sys2Proof Sys2Proof.Machine

theorem markLate_kept {W : Nat} {r : State} {a0} {a1} {a2 : State} (hW : Sub 524364 W) (ha2 : Kept W r a2) :
    Kept W r (markLate a0 a1 a2) := by
  unfold Sys2Proof.Machine.markLate
  split
  · rename_i v0 v1
    exact ha2
  · rename_i v2 v3 v4
    refine Kept.ite ?_ ?_
    · exact ha2
    · refine lateEvent_kept (hW.sub (by decide)) ?_
      exact setJob_kept (hW.sub (by decide)) ha2

theorem releaseEntry_kept {W : Nat} {r : State} {a0} {a1} {a2} {a3} {a4} {a5} {a6} {a7 : State} (hW : Sub 4092908 W) (ha7 : Kept W r a7) :
    Kept W r (releaseEntry a0 a1 a2 a3 a4 a5 a6 a7) := by
  unfold Sys2Proof.Machine.releaseEntry
  extract_lets +onlyGivenNames l0
  clear_value l0
  extract_lets +onlyGivenNames l1
  clear_value l1
  extract_lets +onlyGivenNames l2
  have hl2 : Kept W r (l2) := by
    unfold l2
    refine Kept.ite ?_ ?_
    · exact claimStep_kept (hW.sub (by decide)) ha7
    · exact ha7
  clear_value l2
  extract_lets +onlyGivenNames l3
  clear_value l3
  split
  · rename_i v4 v5 v6
    exact refuseOutput_kept (hW.sub (by decide)) hl2
  · rename_i v7 v8
    split
    · rename_i v9 v10
      exact refuseOutput_kept (hW.sub (by decide)) hl2
    · rename_i v11 v12 v13
      split
      · rename_i v14 v15
        exact refuseOutput_kept (hW.sub (by decide)) hl2
      · rename_i v16 v17 v18
        extract_lets +onlyGivenNames l19
        clear_value l19
        extract_lets +onlyGivenNames l20
        clear_value l20
        extract_lets +onlyGivenNames l21
        have hl21 : Kept W r (l21) := by
          unfold l21
          refine reportMissing_kept (hW.sub (by decide)) ?_
          refine fetchCols_kept (hW.sub (by decide)) ?_
          exact addJob_kept (hW.sub (by decide)) hl2
        clear_value l21
        refine Kept.ite ?_ ?_
        · exact markLate_kept (hW.sub (by decide)) hl21
        · exact hl21

theorem fireRelease_kept {W : Nat} {r : State} {a0} {a1} {a2} {a3} {a4 : State} (hW : Sub 4092908 W) (ha4 : Kept W r a4) :
    Kept W r (fireRelease a0 a1 a2 a3 a4) := by
  unfold Sys2Proof.Machine.fireRelease
  split
  · rename_i v0 v1
    exact ha4
  · rename_i v2 v3 v4
    extract_lets +onlyGivenNames l5
    clear_value l5
    extract_lets +onlyGivenNames l6
    clear_value l6
    apply forEach_kept
    · intro x7 x8 h9
      exact releaseEntry_kept (hW.sub (by decide)) h9
    · refine Kept.upd 32 ?_ ?_ rfl
      · exact hW.sub (by decide)
      · exact ha4

theorem sweepOne_kept {W : Nat} {r : State} {a0} {a1 : State} (hW : Sub 2642368 W) (ha1 : Kept W r a1) :
    Kept W r (sweepOne a0 a1) := by
  unfold Sys2Proof.Machine.sweepOne
  refine Kept.ite ?_ ?_
  · refine bump64_kept (hW.sub (by decide)) ?_
    exact dropImageOf_kept (hW.sub (by decide)) ha1
  · extract_lets +onlyGivenNames l0
    clear_value l0
    extract_lets +onlyGivenNames l1
    have hl1 : ∀ (z0), KeptV W r (l1 z0) := by
      intros
      rename_i v2
      unfold l1
      split
      · rename_i v3 v4 v5
        split
        · rename_i v6 v7 v8
          exact moveCol_kept (hW.sub (by decide)) ha1
        · rename_i v9 v10
          exact KeptV.error
      · rename_i v11 v12 v13 v14
        exact moveExt_kept (hW.sub (by decide)) ha1
      · rename_i v15 v16 v17
        exact KeptV.error
    clear_value l1
    extract_lets +onlyGivenNames l18
    clear_value l18
    extract_lets +onlyGivenNames l19
    have hl19 : KeptV W r (l19) := by
      unfold l19
      refine KeptV.ite ?_ ?_
      · apply hl1
      · exact KeptV.error
    clear_value l19
    split
    · rename_i v20 v21
      exact hl19 _ rfl
    · rename_i v22 v23
      split
      · rename_i v24 v25 v26
        refine KeptV.use2 ?_ v26
        apply hl1
      · rename_i v28 v29 v30
        exact bump64_kept (hW.sub (by decide)) ha1

theorem sweepPart_kept {W : Nat} {r : State} {a0} {a1} {a2 : State} (hW : Sub 2642380 W) (ha2 : Kept W r a2) :
    Kept W r (sweepPart a0 a1 a2) := by
  unfold Sys2Proof.Machine.sweepPart
  extract_lets +onlyGivenNames l0
  clear_value l0
  refine Kept.ite ?_ ?_
  · exact ha2
  · extract_lets +onlyGivenNames l1
    clear_value l1
    refine event_kept (hW.sub (by decide)) ?_
    apply forEach_kept
    · intro x2 x3 h4
      exact sweepOne_kept (hW.sub (by decide)) h4
    · exact ha2

theorem pushTile_kept {W : Nat} {r : State} {a0} {a1} {a2} {a3} {a4} {a5} {a6 : State} (hW : Sub 1724428 W) (ha6 : Kept W r a6) :
    Kept W r (pushTile a0 a1 a2 a3 a4 a5 a6) := by
  unfold Sys2Proof.Machine.pushTile
  extract_lets +onlyGivenNames l0
  clear_value l0
  extract_lets +onlyGivenNames l1
  clear_value l1
  extract_lets +onlyGivenNames l2
  clear_value l2
  extract_lets +onlyGivenNames l3
  have hl3 : Kept W r (l3) := by
    unfold l3
    apply forEach_kept
    · intro x4 x5 h6
      exact heathRead_kept (hW.sub (by decide)) h6
    · apply onlyIf_kept
      · intro x7 h8
        exact bump64_kept (hW.sub (by decide)) h8
      · exact ha6
  clear_value l3
  split
  · rename_i v9 v10 v11
    refine sendTile_kept (hW.sub (by decide)) ?_
    exact sherdsExpanded_kept (hW.sub (by decide)) hl3
  · rename_i v12 v13 v14
    refine sendTile_kept (hW.sub (by decide)) ?_
    apply onlyIf_kept
    · intro x15 h16
      exact sherdFailed_kept (hW.sub (by decide)) h16
    · exact hl3

theorem fireSweep_kept {W : Nat} {r : State} {a0} {a1} {a2 : State} (hW : Sub 2642380 W) (ha2 : Kept W r a2) :
    Kept W r (fireSweep a0 a1 a2) := by
  unfold Sys2Proof.Machine.fireSweep
  apply forEach_kept
  · intro x0 x1 h2
    exact sweepPart_kept (hW.sub (by decide)) h2
  · apply onlyIf_kept
    · intro x3 h4
      exact bump64_kept (hW.sub (by decide)) h4
    · exact ha2

theorem landSlice_kept {W : Nat} {r : State} {a0} {a1} {a2 : State} (hW : Sub 786496 W) (ha2 : Kept W r a2) :
    Kept W r (landSlice a0 a1 a2) := by
  unfold Sys2Proof.Machine.landSlice
  refine Kept.ite ?_ ?_
  · exact ha2
  · refine Kept.ite ?_ ?_
    · refine Kept.upd 64 ?_ ?_ rfl
      · exact hW.sub (by decide)
      · exact ha2
    · exact count_kept (hW.sub (by decide)) ha2

theorem fireTiles_kept {W : Nat} {r : State} {a0} {a1} {a2} {a3} {a4 : State} (hW : Sub 806976 W) (ha4 : Kept W r a4) :
    Kept W r (fireTiles a0 a1 a2 a3 a4) := by
  unfold Sys2Proof.Machine.fireTiles
  split
  · rename_i v0 v1
    exact ha4
  · rename_i v2 v3 v4
    extract_lets +onlyGivenNames l5
    clear_value l5
    apply forEach_kept
    · intro x6 x7 h8
      split
      · rename_i v9 v10
        exact h8
      · rename_i v11 v12 v13
        apply forEach_kept
        · intro x14 x15 h16
          split
          · rename_i v17 v18
            exact h16
          · rename_i v19 v20 v21
            extract_lets +onlyGivenNames l22
            clear_value l22
            extract_lets +onlyGivenNames l23
            clear_value l23
            apply forEach_kept
            · intro x24 x25 h26
              exact landSlice_kept (hW.sub (by decide)) h26
            · exact fetchCols_kept (hW.sub (by decide)) h16
        · exact h8
    · exact ha4

theorem fireCols_kept {W : Nat} {r : State} {a0} {a1} {a2} {a3 : State} (hW : Sub 2642368 W) (ha3 : Kept W r a3) :
    Kept W r (fireCols a0 a1 a2 a3) := by
  unfold Sys2Proof.Machine.fireCols
  split
  · rename_i v0 v1
    exact ha3
  · rename_i v2 v3 v4
    apply forEach_kept
    · intro x5 x6 h7
      apply forEach_kept
      · intro x8 x9 h10
        exact bringCol_kept (hW.sub (by decide)) h10
      · exact h7
    · exact ha3

theorem fireObject_kept {W : Nat} {r : State} {a0} {a1} {a2 : State} (hW : Sub 2642304 W) (ha2 : Kept W r a2) :
    Kept W r (fireObject a0 a1 a2) := by
  unfold Sys2Proof.Machine.fireObject
  split
  · rename_i v0 v1
    exact ha2
  · rename_i v2 v3 v4
    extract_lets +onlyGivenNames l5
    clear_value l5
    refine Kept.ite ?_ ?_
    · exact ha2
    · split
      · rename_i v6 v7 v8
        split
        · rename_i v9 v10 v11
          refine KeptV.use2 ?_ v11
          exact startPlain_kept (hW.sub (by decide)) ha2
        · rename_i v13 v14 v15
          exact bump64_kept (hW.sub (by decide)) ha2
      · rename_i v16 v17
        apply forEach_kept
        · intro x18 x19 h20
          exact bringExt_kept (hW.sub (by decide)) h20
        · exact ha2

theorem fireWpush_kept {W : Nat} {r : State} {a0} {a1} {a2} {a3 : State} (hW : Sub 1724684 W) (ha3 : Kept W r a3) :
    Kept W r (fireWpush a0 a1 a2 a3) := by
  unfold Sys2Proof.Machine.fireWpush
  split
  · rename_i v0 v1
    exact ha3
  · rename_i v2 v3 v4
    extract_lets +onlyGivenNames l5
    clear_value l5
    extract_lets +onlyGivenNames l6
    clear_value l6
    extract_lets +onlyGivenNames l7
    clear_value l7
    extract_lets +onlyGivenNames l8
    clear_value l8
    refine Kept.ite ?_ ?_
    · apply forEach_kept
      · intro x9 x10 h11
        exact sendTile_kept (hW.sub (by decide)) h11
      · exact ha3
    · split
      · rename_i v12
        exact ha3
      · rename_i v13 v14
        extract_lets +onlyGivenNames l15
        clear_value l15
        extract_lets +onlyGivenNames l16
        have hl16 : Kept W r (l16) := by
          unfold l16
          apply forEach_kept
          · intro x17 x18 h19
            exact touchReadAt_kept (hW.sub (by decide)) h19
          · exact ha3
        clear_value l16
        apply forEach_kept
        · intro x20 x21 h22
          exact pushTile_kept (hW.sub (by decide)) h22
        · exact hl16

theorem fireGates_kept {W : Nat} {r : State} {a0} {a1} {a2 : State} (hW : Sub 16384 W) (ha2 : Kept W r a2) :
    Kept W r (fireGates a0 a1 a2) := by
  unfold Sys2Proof.Machine.fireGates
  exact takeGates_kept (hW.sub (by decide)) ha2

theorem fire_kept {W : Nat} {r : State} {a0} {a1} {a2} {a3 : State} (hW : Sub 4160509 W) (ha3 : Kept W r a3) :
    Kept W r (fire a0 a1 a2 a3) := by
  unfold Sys2Proof.Machine.fire
  extract_lets +onlyGivenNames l0
  clear_value l0
  split
  · rename_i v1 v2
    refine runCores_kept (hW.sub (by decide)) ?_
    refine abandonSweeps_kept (hW.sub (by decide)) ?_
    apply forEach_kept
    · intro x3 x4 h5
      exact fireRelease_kept (hW.sub (by decide)) h5
    · exact ha3
  · rename_i v6 v7
    split
    · rename_i v8 v9
      apply forEach_kept
      · intro x10 x11 h12
        exact fireTiles_kept (hW.sub (by decide)) h12
      · exact ha3
    · rename_i v13 v14
      apply forEach_kept
      · intro x15 x16 h17
        exact fireCols_kept (hW.sub (by decide)) h17
      · exact ha3
    · rename_i v18 v19 v20
      exact fireObject_kept (hW.sub (by decide)) ha3
  · rename_i v21 v22
    exact fireWpush_kept (hW.sub (by decide)) ha3
  · rename_i v23 v24
    refine Kept.ite ?_ ?_
    · exact ha3
    · exact fireGates_kept (hW.sub (by decide)) ha3
  · rename_i v25 v26
    refine Kept.ite ?_ ?_
    · exact ha3
    · exact armMode_kept (hW.sub (by decide)) ha3
  · rename_i v27 v28
    exact fireSweep_kept (hW.sub (by decide)) ha3
  · rename_i v29 v30 v31 v32 v33 v34 v35
    exact ha3

end Sys2Proof.Laws
end

