-- ==== Sys2Proof/Laws/KeptBeat.lean ====
section
/-! SUPPORT. What the operations of Sys2Proof/Machine/Beat.lean keep: one lemma for each, which callers cite. -/

namespace Sys2Proof.Laws

open Sys2Proof Sys2Proof.Machine

theorem checkStep_kept {W : Nat} {r : State} {a0} {a1 : State} (hW : Sub 44 W) (ha1 : Kept W r a1) :
    Kept W r (checkStep a0 a1) := by
  unfold Sys2Proof.Machine.checkStep
  apply forEach_kept
  · intro x0 x1 h2
    refine Kept.ite ?_ ?_
    · apply forEach_kept
      · intro x3 x4 h5
        exact checkEntry_kept (hW.sub (by decide)) h5
      · exact h2
    · exact h2
  · exact ha1

theorem asideExpires_kept {W : Nat} {r : State} {a0} {a1 : State} (hW : Sub 32 W) (ha1 : Kept W r a1) :
    Kept W r (asideExpires a0 a1) := by
  unfold Sys2Proof.Machine.asideExpires
  apply forEach_kept
  · intro x0 x1 h2
    refine Kept.ite ?_ ?_
    · exact h2
    · apply forEach_kept
      · intro x3 x4 h5
        refine Kept.ite ?_ ?_
        · exact h5
        · exact editEntry_kept (hW.sub (by decide)) h5
      · exact h2
  · exact ha1

theorem expireTails_kept {W : Nat} {r : State} {a0} {a1 : State} (hW : Sub 524524 W) (ha1 : Kept W r a1) :
    Kept W r (expireTails a0 a1) := by
  unfold Sys2Proof.Machine.expireTails
  refine asideExpires_kept (hW.sub (by decide)) ?_
  apply forEach_kept
  · intro x0 x1 h2
    split
    · rename_i v3 v4
      exact h2
    · rename_i v5 v6 v7
      extract_lets +onlyGivenNames l8
      clear_value l8
      refine Kept.ite ?_ ?_
      · exact h2
      · refine bump64_kept (hW.sub (by decide)) ?_
        refine event_kept (hW.sub (by decide)) ?_
        refine settleVerify_kept (hW.sub (by decide)) ?_
        exact dropTail_kept (hW.sub (by decide)) h2
  · exact ha1

theorem beatBackward_kept {W : Nat} {r : State} {a0} {a1 : State} (hW : Sub 1703948 W) (ha1 : Kept W r a1) :
    Kept W r (beatBackward a0 a1) := by
  unfold Sys2Proof.Machine.beatBackward
  refine faultEvent_kept (hW.sub (by decide)) ?_
  exact bump64_kept (hW.sub (by decide)) ha1

theorem holdBeat_kept {W : Nat} {r : State} {a0} {a1} {a2 : State} (hW : Sub 1703952 W) (ha2 : Kept W r a2) :
    Kept W r (holdBeat a0 a1 a2) := by
  unfold Sys2Proof.Machine.holdBeat
  refine fault_kept (hW.sub (by decide)) ?_
  refine bump64_kept (hW.sub (by decide)) ?_
  refine Kept.upd 16 ?_ ?_ rfl
  · exact hW.sub (by decide)
  · exact ha2

theorem noteDue_kept {W : Nat} {r : State} {a0} {a1 : State} (hW : Sub 16 W) (ha1 : Kept W r a1) :
    Kept W r (noteDue a0 a1) := by
  unfold Sys2Proof.Machine.noteDue
  refine Kept.upd 16 ?_ ?_ rfl
  · exact hW.sub (by decide)
  · exact ha1

theorem deadlines_kept {W : Nat} {r : State} {a0} {a1 : State} (hW : Sub 524380 W) (ha1 : Kept W r a1) :
    Kept W r (deadlines a0 a1) := by
  unfold Sys2Proof.Machine.deadlines
  refine Kept.ite ?_ ?_
  · exact ha1
  · apply forEach_kept
    · intro x0 x1 h2
      apply onlyIf_kept
      · intro x3 h4
        exact leavingLate_kept (hW.sub (by decide)) h4
      · exact h2
    · apply forEach_kept
      · intro x5 x6 h7
        apply onlyIf_kept
        · intro x8 h9
          exact markLate_kept (hW.sub (by decide)) h9
        · exact h7
      · exact noteDue_kept (hW.sub (by decide)) ha1

theorem keepComparators_kept {W : Nat} {r : State} {a0 : State} (hW : Sub 2 W) (ha0 : Kept W r a0) :
    Kept W r (keepComparators a0) := by
  unfold Sys2Proof.Machine.keepComparators
  extract_lets +onlyGivenNames l0
  clear_value l0
  refine Kept.upd 2 ?_ ?_ rfl
  · exact hW.sub (by decide)
  · exact ha0

theorem regionsChange_kept {W : Nat} {r : State} {a0} {a1} {a2 : State} (hW : Sub 200 W) (ha2 : Kept W r a2) :
    Kept W r (regionsChange a0 a1 a2) := by
  unfold Sys2Proof.Machine.regionsChange
  extract_lets +onlyGivenNames l0
  clear_value l0
  extract_lets +onlyGivenNames l1
  have hl1 : Kept W r (l1) := by
    unfold l1
    apply forEach_kept
    · intro x2 x3 h4
      exact abandonBlock_kept (hW.sub (by decide)) h4
    · exact ha2
  clear_value l1
  refine Kept.upd 192 ?_ ?_ rfl
  · exact hW.sub (by decide)
  · exact hl1

theorem switchOver_kept {W : Nat} {r : State} {a0} {a1 : State} (hW : Sub 218 W) (ha1 : Kept W r a1) :
    Kept W r (switchOver a0 a1) := by
  unfold Sys2Proof.Machine.switchOver
  split
  · rename_i v0 v1
    exact ha1
  · rename_i v2 v3 v4
    refine Kept.ite ?_ ?_
    · refine keepComparators_kept (hW.sub (by decide)) ?_
      refine regionsChange_kept (hW.sub (by decide)) ?_
      refine Kept.upd 16 ?_ ?_ rfl
      · exact hW.sub (by decide)
      · exact ha1
    · exact ha1

theorem block_kept {W : Nat} {r : State} {a0} {a1 : State} (hW : Sub 16 W) (ha1 : Kept W r a1) :
    Kept W r (block a0 a1) := by
  unfold Sys2Proof.Machine.block
  refine Kept.upd 16 ?_ ?_ rfl
  · exact hW.sub (by decide)
  · exact ha1

theorem firingsAt_kept {W : Nat} {r : State} {a0} {a1} {a2} {a3 : State} (hW : Sub 4160509 W) (ha3 : Kept W r a3) :
    Kept W r (firingsAt a0 a1 a2 a3) := by
  unfold Sys2Proof.Machine.firingsAt
  apply forEach_kept
  · intro x0 x1 h2
    refine Kept.ite ?_ ?_
    · exact block_kept (hW.sub (by decide)) h2
    · exact fire_kept (hW.sub (by decide)) h2
  · exact ha3

theorem masksAt_kept {W : Nat} {r : State} {a0} {a1 : State} (hW : Sub 16384 W) (ha1 : Kept W r a1) :
    Kept W r (masksAt a0 a1) := by
  unfold Sys2Proof.Machine.masksAt
  apply forEach_kept
  · intro x0 x1 h2
    exact setMask_kept (hW.sub (by decide)) h2
  · exact ha1

theorem stepStarts_kept {W : Nat} {r : State} {a0} {a1 : State} (hW : Sub 524524 W) (ha1 : Kept W r a1) :
    Kept W r (stepStarts a0 a1) := by
  unfold Sys2Proof.Machine.stepStarts
  refine Kept.ite ?_ ?_
  · refine pruneSheets_kept (hW.sub (by decide)) ?_
    refine checkStep_kept (hW.sub (by decide)) ?_
    exact expireTails_kept (hW.sub (by decide)) ha1
  · exact ha1

theorem dueAt_kept {W : Nat} {r : State} {a0} {a1} {a2 : State} (hW : Sub 16 W) (ha2 : Kept W r a2) :
    Kept W r (dueAt a0 a1 a2) := by
  unfold Sys2Proof.Machine.dueAt
  refine Kept.ite ?_ ?_
  · exact ha2
  · exact block_kept (hW.sub (by decide)) ha2

theorem atPosition_kept {W : Nat} {r : State} {a0} {a1} {a2 : State} (hW : Sub 4194303 W) (ha2 : Kept W r a2) :
    Kept W r (atPosition a0 a1 a2) := by
  unfold Sys2Proof.Machine.atPosition
  extract_lets +onlyGivenNames l0
  clear_value l0
  extract_lets +onlyGivenNames l1
  have hl1 : Kept W r (l1) := by
    unfold l1
    refine Kept.upd 16 ?_ ?_ rfl
    · exact hW.sub (by decide)
    · exact ha2
  clear_value l1
  extract_lets +onlyGivenNames l2
  have hl2 : Kept W r (l2) := by
    unfold l2
    refine modesDue_kept (hW.sub (by decide)) ?_
    refine recallsDue_kept (hW.sub (by decide)) ?_
    exact deadlines_kept (hW.sub (by decide)) hl1
  clear_value l2
  extract_lets +onlyGivenNames l3
  have hl3 : Kept W r (l3) := by
    unfold l3
    exact switchOver_kept (hW.sub (by decide)) hl2
  clear_value l3
  extract_lets +onlyGivenNames l4
  have hl4 : Kept W r (l4) := by
    unfold l4
    refine applyDue_kept (hW.sub (by decide)) ?_
    exact applyDue_kept (hW.sub (by decide)) hl3
  clear_value l4
  extract_lets +onlyGivenNames l5
  have hl5 : Kept W r (l5) := by
    unfold l5
    exact firingsAt_kept (hW.sub (by decide)) hl4
  clear_value l5
  extract_lets +onlyGivenNames l6
  have hl6 : Kept W r (l6) := by
    unfold l6
    refine masksAt_kept (hW.sub (by decide)) ?_
    exact firingsAt_kept (hW.sub (by decide)) hl5
  clear_value l6
  extract_lets +onlyGivenNames l7
  have hl7 : Kept W r (l7) := by
    unfold l7
    refine firingsAt_kept (hW.sub (by decide)) ?_
    refine commandsAt_kept (hW.sub (by decide)) ?_
    exact stepStarts_kept (hW.sub (by decide)) hl6
  clear_value l7
  exact dueAt_kept (hW.sub (by decide)) hl7

theorem sweepTo_kept {W : Nat} {r : State} {a0} {a1} {a2} {a3} {a4 : State} (hW : Sub 4194303 W) (ha4 : Kept W r a4) :
    Kept W r (sweepTo a0 a1 a2 a3 a4) := by
  induction a2 generalizing a0 a1 a3 a4 with
  | zero  =>
    unfold Sys2Proof.Machine.sweepTo
    exact ha4
  | succ k0 ih =>
    unfold Sys2Proof.Machine.sweepTo
    refine Kept.ite ?_ ?_
    · exact ha4
    · extract_lets +onlyGivenNames l0
      have hl0 : Kept W r (l0) := by
        unfold l0
        exact atPosition_kept (hW.sub (by decide)) ha4
      clear_value l0
      apply ih
      exact hl0

theorem takeEffect_kept {W : Nat} {r : State} {a0} {a1} {a2 : State} (hW : Sub 4194303 W) (ha2 : Kept W r a2) :
    Kept W r (takeEffect a0 a1 a2) := by
  unfold Sys2Proof.Machine.takeEffect
  extract_lets +onlyGivenNames l0
  clear_value l0
  extract_lets +onlyGivenNames l1
  extract_lets +onlyGivenNames l2
  clear_value l2
  extract_lets +onlyGivenNames l3
  have hl3 : Kept W r (l3) := by
    unfold l3
    refine bump64_kept (hW.sub (by decide)) ?_
    refine Kept.upd 16 ?_ ?_ rfl
    · exact hW.sub (by decide)
    · exact ha2
  clear_value l3
  refine runCores_kept (hW.sub (by decide)) ?_
  refine settleAll_kept (hW.sub (by decide)) ?_
  exact sweepTo_kept (hW.sub (by decide)) hl3

theorem judgeBeat_kept {W : Nat} {r : State} {a0} {a1} {a2 : State} (hW : Sub 4194303 W) (ha2 : Kept W r a2) :
    Kept W r (judgeBeat a0 a1 a2) := by
  unfold Sys2Proof.Machine.judgeBeat
  refine Kept.ite ?_ ?_
  · refine event_kept (hW.sub (by decide)) ?_
    exact bump64_kept (hW.sub (by decide)) ha2
  · refine Kept.ite ?_ ?_
    · refine Kept.ite ?_ ?_
      · exact beatBackward_kept (hW.sub (by decide)) ha2
      · refine Kept.ite ?_ ?_
        · exact holdBeat_kept (hW.sub (by decide)) ha2
        · exact takeEffect_kept (hW.sub (by decide)) ha2
    · refine Kept.ite ?_ ?_
      · exact bump64_kept (hW.sub (by decide)) ha2
      · refine Kept.ite ?_ ?_
        · exact beatBackward_kept (hW.sub (by decide)) ha2
        · refine Kept.ite ?_ ?_
          · exact holdBeat_kept (hW.sub (by decide)) ha2
          · exact takeEffect_kept (hW.sub (by decide)) ha2

theorem releaseBeats_kept {W : Nat} {r : State} {a0} {a1 : State} (hW : Sub 4194303 W) (ha1 : Kept W r a1) :
    Kept W r (releaseBeats a0 a1) := by
  induction a0 generalizing a1 with
  | zero  =>
    unfold Sys2Proof.Machine.releaseBeats
    exact ha1
  | succ k0 ih =>
    unfold Sys2Proof.Machine.releaseBeats
    split
    · rename_i v0 v1
      exact ha1
    · rename_i v2 v3 v4 v5
      extract_lets +onlyGivenNames l6
      clear_value l6
      extract_lets +onlyGivenNames l7
      have hl7 : Kept W r (l7) := by
        unfold l7
        refine Kept.upd 16 ?_ ?_ rfl
        · exact hW.sub (by decide)
        · exact ha1
      clear_value l7
      refine Kept.ite ?_ ?_
      · exact ha1
      · apply ih
        exact judgeBeat_kept (hW.sub (by decide)) hl7

theorem unblock_kept {W : Nat} {r : State} {a0} {a1 : State} (hW : Sub 4160509 W) (ha1 : Kept W r a1) :
    Kept W r (unblock a0 a1) := by
  induction a0 generalizing a1 with
  | zero  =>
    unfold Sys2Proof.Machine.unblock
    exact ha1
  | succ k0 ih =>
    unfold Sys2Proof.Machine.unblock
    split
    · rename_i v0 v1
      exact ha1
    · rename_i v2 v3 v4 v5
      refine Kept.ite ?_ ?_
      · exact ha1
      · extract_lets +onlyGivenNames l6
        clear_value l6
        extract_lets +onlyGivenNames l7
        have hl7 : Kept W r (l7) := by
          unfold l7
          refine Kept.upd 16 ?_ ?_ rfl
          · exact hW.sub (by decide)
          · exact ha1
        clear_value l7
        split
        · rename_i v8 v9 v10 v11 v12 v13
          apply ih
          exact fire_kept (hW.sub (by decide)) hl7
        · rename_i v14 v15 v16
          apply ih
          exact hl7

theorem beatIn_kept {W : Nat} {r : State} {a0} {a1} {a2 : State} (hW : Sub 4194303 W) (ha2 : Kept W r a2) :
    Kept W r (beatIn a0 a1 a2) := by
  unfold Sys2Proof.Machine.beatIn
  refine Kept.ite ?_ ?_
  · exact judgeBeat_kept (hW.sub (by decide)) ha2
  · exact holdBeat_kept (hW.sub (by decide)) ha2

theorem beatSilence_kept {W : Nat} {r : State} {a0 : State} (hW : Sub 16400 W) (ha0 : Kept W r a0) :
    Kept W r (beatSilence a0) := by
  unfold Sys2Proof.Machine.beatSilence
  refine Kept.ite ?_ ?_
  · exact ha0
  · apply forEach_kept
    · intro x0 x1 h2
      exact setMask_kept (hW.sub (by decide)) h2
    · refine Kept.upd 16 ?_ ?_ rfl
      · exact hW.sub (by decide)
      · exact ha0

end Sys2Proof.Laws
end

