-- ==== Sys2Proof/Laws/KeptTpp.lean ====
section
/-! SUPPORT. What the operations of Sys2Proof/Machine/Tpp.lean keep: one lemma for each, which callers cite. -/

namespace Sys2Proof.Laws

open Sys2Proof Sys2Proof.Machine

theorem moduleDown_kept {W : Nat} {r : State} {a0} {a1} {a2 : State} (hW : Sub 1703940 W) (ha2 : Kept W r a2) :
    Kept W r (moduleDown a0 a1 a2) := by
  unfold Sys2Proof.Machine.moduleDown
  refine Kept.ite ?_ ?_
  · exact ha2
  · extract_lets +onlyGivenNames l0
    clear_value l0
    extract_lets +onlyGivenNames l1
    have hl1 : Kept W r (l1) := by
      unfold l1
      refine Kept.upd 4 ?_ ?_ rfl
      · exact hW.sub (by decide)
      · exact ha2
    clear_value l1
    extract_lets +onlyGivenNames l2
    clear_value l2
    extract_lets +onlyGivenNames l3
    have hl3 : Kept W r (l3) := by
      unfold l3
      refine fault_kept (hW.sub (by decide)) ?_
      exact bump32_kept (hW.sub (by decide)) hl1
    clear_value l3
    refine resendLost_kept (hW.sub (by decide)) ?_
    exact sendVector_kept (hW.sub (by decide)) hl3

theorem discard_kept {W : Nat} {r : State} {a0} {a1 : State} (hW : Sub 12 W) (ha1 : Kept W r a1) :
    Kept W r (discard a0 a1) := by
  unfold Sys2Proof.Machine.discard
  extract_lets +onlyGivenNames l0
  clear_value l0
  refine event_kept (hW.sub (by decide)) ?_
  refine Kept.upd 4 ?_ ?_ rfl
  · exact hW.sub (by decide)
  · exact ha1

theorem sheetEvent_kept {W : Nat} {r : State} {a0} {a1} {a2} {a3} {a4} {a5 : State} (hW : Sub 12 W) (ha5 : Kept W r a5) :
    Kept W r (sheetEvent a0 a1 a2 a3 a4 a5) := by
  unfold Sys2Proof.Machine.sheetEvent
  exact event_kept (hW.sub (by decide)) ha5

theorem placeAside_kept {W : Nat} {r : State} {a0} {a1} {a2 : State} (hW : Sub 2097184 W) (ha2 : Kept W r a2) :
    Kept W r (placeAside a0 a1 a2) := by
  unfold Sys2Proof.Machine.placeAside
  split
  · rename_i v0 v1
    exact ha2
  · rename_i v2 v3 v4
    extract_lets +onlyGivenNames l5
    clear_value l5
    extract_lets +onlyGivenNames l6
    clear_value l6
    refine editEntry_kept (hW.sub (by decide)) ?_
    exact draws_kept (hW.sub (by decide)) ha2

theorem admitSheet_kept {W : Nat} {r : State} {a0} {a1 : State} (hW : Sub 2650605 W) (ha1 : Kept W r a1) :
    Kept W r (admitSheet a0 a1) := by
  unfold Sys2Proof.Machine.admitSheet
  extract_lets +onlyGivenNames l0
  clear_value l0
  extract_lets +onlyGivenNames l1
  have hl1 : Kept W r (l1) := by
    unfold l1
    refine bump64_kept (hW.sub (by decide)) ?_
    refine sheetEvent_kept (hW.sub (by decide)) ?_
    refine Kept.upd 32 ?_ ?_ rfl
    · exact hW.sub (by decide)
    · exact ha1
  clear_value l1
  extract_lets +onlyGivenNames l2
  have hl2 : Kept W r (l2) := by
    unfold l2
    refine flushHeld_kept (hW.sub (by decide)) ?_
    refine abandonSweeps_kept (hW.sub (by decide)) ?_
    apply forEach_kept
    · intro x3 x4 h5
      exact placeAside_kept (hW.sub (by decide)) h5
    · exact hl1
  clear_value l2
  refine Kept.ite ?_ ?_
  · apply forEach_kept
    · intro x6 x7 h8
      exact checkEntry_kept (hW.sub (by decide)) h8
    · exact hl2
  · exact hl2

theorem judgeSheet_kept {W : Nat} {r : State} {a0} {a1} {a2 : State} (hW : Sub 2650605 W) (ha2 : Kept W r a2) :
    Kept W r (judgeSheet a0 a1 a2) := by
  unfold Sys2Proof.Machine.judgeSheet
  extract_lets +onlyGivenNames l0
  have hl0 : ∀ (z0) (z1), Kept W r (l0 z0 z1) := by
    intros
    rename_i v1 v2
    unfold l0
    refine bump64_kept (hW.sub (by decide)) ?_
    exact sheetEvent_kept (hW.sub (by decide)) ha2
  clear_value l0
  refine Kept.ite ?_ ?_
  · exact refuseOnce_kept (hW.sub (by decide)) ha2
  · split
    · rename_i v3 v4 v5
      apply hl0
    · rename_i v6 v7
      extract_lets +onlyGivenNames l8
      clear_value l8
      split
      · rename_i v9 v10 v11 v12
        apply hl0
      · rename_i v13 v14
        exact admitSheet_kept (hW.sub (by decide)) ha2

theorem sheetIn_kept {W : Nat} {r : State} {a0} {a1 : State} (hW : Sub 2650605 W) (ha1 : Kept W r a1) :
    Kept W r (sheetIn a0 a1) := by
  unfold Sys2Proof.Machine.sheetIn
  extract_lets +onlyGivenNames l0
  clear_value l0
  extract_lets +onlyGivenNames l1
  clear_value l1
  extract_lets +onlyGivenNames l2
  clear_value l2
  extract_lets +onlyGivenNames l3
  clear_value l3
  extract_lets +onlyGivenNames l4
  clear_value l4
  extract_lets +onlyGivenNames l5
  clear_value l5
  refine Kept.ite ?_ ?_
  · exact discard_kept (hW.sub (by decide)) ha1
  · extract_lets +onlyGivenNames l6
    clear_value l6
    extract_lets +onlyGivenNames l7
    clear_value l7
    refine Kept.ite ?_ ?_
    · refine Kept.upd 32 ?_ ?_ rfl
      · exact hW.sub (by decide)
      · exact ha1
    · refine judgeSheet_kept (hW.sub (by decide)) ?_
      refine Kept.upd 32 ?_ ?_ rfl
      · exact hW.sub (by decide)
      · exact ha1

theorem setWindow_kept {W : Nat} {r : State} {a0} {a1 : State} (hW : Sub 4 W) (ha1 : Kept W r a1) :
    Kept W r (setWindow a0 a1) := by
  unfold Sys2Proof.Machine.setWindow
  refine Kept.upd 4 ?_ ?_ rfl
  · exact hW.sub (by decide)
  · exact ha1

theorem submitIn_kept {W : Nat} {r : State} {a0} {a1 : State} (hW : Sub 44 W) (ha1 : Kept W r a1) :
    Kept W r (submitIn a0 a1) := by
  unfold Sys2Proof.Machine.submitIn
  refine Kept.ite ?_ ?_
  · exact refuseOnce_kept (hW.sub (by decide)) ha1
  · split
    · rename_i v0 v1
      exact discard_kept (hW.sub (by decide)) ha1
    · rename_i v2 v3 v4
      extract_lets +onlyGivenNames l5
      clear_value l5
      extract_lets +onlyGivenNames l6
      clear_value l6
      refine Kept.ite ?_ ?_
      · exact discard_kept (hW.sub (by decide)) ha1
      · refine Kept.ite ?_ ?_
        · refine Kept.upd 4 ?_ ?_ rfl
          · exact hW.sub (by decide)
          · exact ha1
        · exact putSub_kept (hW.sub (by decide)) ha1

theorem windowIn_kept {W : Nat} {r : State} {a0} {a1 : State} (hW : Sub 44 W) (ha1 : Kept W r a1) :
    Kept W r (windowIn a0 a1) := by
  unfold Sys2Proof.Machine.windowIn
  extract_lets +onlyGivenNames l0
  clear_value l0
  extract_lets +onlyGivenNames l1
  clear_value l1
  refine Kept.ite ?_ ?_
  · exact refuseOnce_kept (hW.sub (by decide)) ha1
  · refine Kept.ite ?_ ?_
    · exact discard_kept (hW.sub (by decide)) ha1
    · refine Kept.ite ?_ ?_
      · refine Kept.upd 4 ?_ ?_ rfl
        · exact hW.sub (by decide)
        · exact ha1
      · exact setWindow_kept (hW.sub (by decide)) ha1

theorem handOn_kept {W : Nat} {r : State} {a0} {a1 : State} (hW : Sub 4194303 W) (ha1 : Kept W r a1) :
    Kept W r (handOn a0 a1) := by
  unfold Sys2Proof.Machine.handOn
  split
  · rename_i v0 v1
    extract_lets +onlyGivenNames l2
    clear_value l2
    refine Kept.ite ?_ ?_
    · exact discard_kept (hW.sub (by decide)) ha1
    · refine Kept.ite ?_ ?_
      · exact refuseOnce_kept (hW.sub (by decide)) ha1
      · exact beatIn_kept (hW.sub (by decide)) ha1
  · rename_i v3 v4
    exact sheetIn_kept (hW.sub (by decide)) ha1
  · rename_i v5 v6
    exact submitIn_kept (hW.sub (by decide)) ha1
  · rename_i v7 v8
    exact windowIn_kept (hW.sub (by decide)) ha1
  · rename_i v9 v10 v11 v12 v13
    exact discard_kept (hW.sub (by decide)) ha1

theorem freeCredit_kept {W : Nat} {r : State} {a0} {a1} {a2 : State} (hW : Sub 4 W) (ha2 : Kept W r a2) :
    Kept W r (freeCredit a0 a1 a2) := by
  unfold Sys2Proof.Machine.freeCredit
  refine Kept.ite ?_ ?_
  · refine Kept.upd 4 ?_ ?_ rfl
    · exact hW.sub (by decide)
    · exact ha2
  · refine Kept.upd 4 ?_ ?_ rfl
    · exact hW.sub (by decide)
    · exact ha2

theorem giveCredit_kept {W : Nat} {r : State} {a0} {a1} {a2 : State} (hW : Sub 1048580 W) (ha2 : Kept W r a2) :
    Kept W r (giveCredit a0 a1 a2) := by
  unfold Sys2Proof.Machine.giveCredit
  extract_lets +onlyGivenNames l0
  have hl0 : Kept W r (l0) := by
    unfold l0
    exact freeCredit_kept (hW.sub (by decide)) ha2
  clear_value l0
  exact send_kept (hW.sub (by decide)) hl0

theorem pump1_kept {W : Nat} {r : State} {a0} {a1 : State} (hW : Sub 4194303 W) (ha1 : Kept W r a1) :
    Kept W r (pump1 a0 a1) := by
  induction a0 generalizing a1 with
  | zero  =>
    unfold Sys2Proof.Machine.pump1
    exact ha1
  | succ k0 ih =>
    unfold Sys2Proof.Machine.pump1
    split
    · rename_i v0 v1
      exact ha1
    · rename_i v2 v3 v4
      extract_lets +onlyGivenNames l5
      clear_value l5
      extract_lets +onlyGivenNames l6
      have hl6 : Kept W r (l6) := by
        unfold l6
        refine Kept.upd 4 ?_ ?_ rfl
        · exact hW.sub (by decide)
        · exact ha1
      clear_value l6
      extract_lets +onlyGivenNames l7
      have hl7 : Kept W r (l7) := by
        unfold l7
        refine handOn_kept (hW.sub (by decide)) ?_
        exact giveCredit_kept (hW.sub (by decide)) hl6
      clear_value l7
      apply ih
      exact unblock_kept (hW.sub (by decide)) hl7

theorem moduleUp_kept {W : Nat} {r : State} {a0} {a1} {a2 : State} (hW : Sub 4092909 W) (ha2 : Kept W r a2) :
    Kept W r (moduleUp a0 a1 a2) := by
  unfold Sys2Proof.Machine.moduleUp
  extract_lets +onlyGivenNames l0
  clear_value l0
  refine Kept.ite ?_ ?_
  · exact ha2
  · extract_lets +onlyGivenNames l1
    clear_value l1
    extract_lets +onlyGivenNames l2
    have hl2 : Kept W r (l2) := by
      unfold l2
      refine Kept.upd 4 ?_ ?_ rfl
      · exact hW.sub (by decide)
      · exact ha2
    clear_value l2
    extract_lets +onlyGivenNames l3
    have hl3 : Kept W r (l3) := by
      unfold l3
      refine Kept.ite ?_ ?_
      · exact flushVectors_kept (hW.sub (by decide)) hl2
      · exact sendVector_kept (hW.sub (by decide)) hl2
    clear_value l3
    refine runCores_kept (hW.sub (by decide)) ?_
    refine settleAll_kept (hW.sub (by decide)) ?_
    refine outputsLeft_kept (hW.sub (by decide)) ?_
    refine pumpTx_kept (hW.sub (by decide)) ?_
    exact resendLost_kept (hW.sub (by decide)) hl3

theorem sidebandFails_kept {W : Nat} {r : State} {a0} {a1 : State} (hW : Sub 4 W) (ha1 : Kept W r a1) :
    Kept W r (sidebandFails a0 a1) := by
  unfold Sys2Proof.Machine.sidebandFails
  extract_lets +onlyGivenNames l0
  clear_value l0
  extract_lets +onlyGivenNames l1
  clear_value l1
  refine Kept.upd 4 ?_ ?_ rfl
  · exact hW.sub (by decide)
  · exact ha1

theorem applyWindows_kept {W : Nat} {r : State} {a0 : State} (hW : Sub 4 W) (ha0 : Kept W r a0) :
    Kept W r (applyWindows a0) := by
  unfold Sys2Proof.Machine.applyWindows
  apply forEach_kept
  · intro x0 x1 h2
    refine Kept.ite ?_ ?_
    · exact h2
    · refine setWindow_kept (hW.sub (by decide)) ?_
      refine Kept.upd 4 ?_ ?_ rfl
      · exact hW.sub (by decide)
      · exact h2
  · exact ha0

theorem useCredit_kept {W : Nat} {r : State} {a0} {a1} {a2 : State} (hW : Sub 4 W) (ha2 : Kept W r a2) :
    Kept W r (useCredit a0 a1 a2) := by
  unfold Sys2Proof.Machine.useCredit
  refine Kept.ite ?_ ?_
  · refine Kept.upd 4 ?_ ?_ rfl
    · exact hW.sub (by decide)
    · exact ha2
  · refine Kept.upd 4 ?_ ?_ rfl
    · exact hW.sub (by decide)
    · exact ha2

theorem arrive1_kept {W : Nat} {r : State} {a0} {a1 : State} (hW : Sub 4194303 W) (ha1 : Kept W r a1) :
    Kept W r (arrive1 a0 a1) := by
  unfold Sys2Proof.Machine.arrive1
  extract_lets +onlyGivenNames l0
  have hl0 : Kept W r (l0) := by
    unfold l0
    exact useCredit_kept (hW.sub (by decide)) ha1
  clear_value l0
  refine Kept.ite ?_ ?_
  · exact ha1
  · refine Kept.ite ?_ ?_
    · exact giveCredit_kept (hW.sub (by decide)) hl0
    · extract_lets +onlyGivenNames l1
      clear_value l1
      refine runCores_kept (hW.sub (by decide)) ?_
      refine pump1_kept (hW.sub (by decide)) ?_
      refine Kept.upd 4 ?_ ?_ rfl
      · exact hW.sub (by decide)
      · exact hl0

theorem creditIn_kept {W : Nat} {r : State} {a0} {a1 : State} (hW : Sub 1712204 W) (ha1 : Kept W r a1) :
    Kept W r (creditIn a0 a1) := by
  unfold creditIn
  extract_lets +onlyGivenNames fine
  refine Kept.ite ha1 (Kept.ite (discard_kept (hW.sub (by decide)) ha1) ?_)
  extract_lets +onlyGivenNames f acked gone s1
  refine settleAll_kept (hW.sub (by decide)) (outputsLeft_kept (hW.sub (by decide)) (pumpTx_kept (hW.sub (by decide)) (applyWindows_kept (hW.sub (by decide)) ?_)))
  refine forEach_kept (fun x t h => ?_) (Kept.upd 4 (hW.sub (by decide)) ha1 rfl)
  cases x.vector with
  | none => exact h
  | some v => exact sendVector_kept (hW.sub (by decide)) h

theorem syncIn_kept {W : Nat} {r : State} {a0} {a1 : State} (hW : Sub 4160509 W) (ha1 : Kept W r a1) :
    Kept W r (syncIn a0 a1) := by
  unfold Sys2Proof.Machine.syncIn
  refine Kept.ite ?_ ?_
  · exact ha1
  · refine Kept.ite ?_ ?_
    · exact discard_kept (hW.sub (by decide)) ha1
    · extract_lets +onlyGivenNames l0
      clear_value l0
      extract_lets +onlyGivenNames l1
      clear_value l1
      extract_lets +onlyGivenNames l2
      clear_value l2
      extract_lets +onlyGivenNames l3
      clear_value l3
      extract_lets +onlyGivenNames l4
      have hl4 : Kept W r (l4) := by
        unfold l4
        refine Kept.upd 52 ?_ ?_ rfl
        · exact hW.sub (by decide)
        · exact ha1
      clear_value l4
      refine settleAll_kept (hW.sub (by decide)) ?_
      refine event_kept (hW.sub (by decide)) ?_
      refine unblock_kept (hW.sub (by decide)) ?_
      refine applyWindows_kept (hW.sub (by decide)) ?_
      exact outputsLeft_kept (hW.sub (by decide)) hl4

theorem pump0_kept {W : Nat} {r : State} {a0} {a1 : State} (hW : Sub 4194303 W) (ha1 : Kept W r a1) :
    Kept W r (pump0 a0 a1) := by
  induction a0 generalizing a1 with
  | zero  =>
    unfold Sys2Proof.Machine.pump0
    exact ha1
  | succ k0 ih =>
    unfold Sys2Proof.Machine.pump0
    split
    · rename_i v0 v1
      exact ha1
    · rename_i v2 v3 v4
      extract_lets +onlyGivenNames l5
      clear_value l5
      extract_lets +onlyGivenNames l6
      have hl6 : Kept W r (l6) := by
        unfold l6
        refine Kept.upd 4 ?_ ?_ rfl
        · exact hW.sub (by decide)
        · exact ha1
      clear_value l6
      apply ih
      refine handOn_kept (hW.sub (by decide)) ?_
      exact giveCredit_kept (hW.sub (by decide)) hl6

theorem arrive0_kept {W : Nat} {r : State} {a0} {a1 : State} (hW : Sub 4194303 W) (ha1 : Kept W r a1) :
    Kept W r (arrive0 a0 a1) := by
  unfold Sys2Proof.Machine.arrive0
  extract_lets +onlyGivenNames l0
  have hl0 : Kept W r (l0) := by
    unfold l0
    exact useCredit_kept (hW.sub (by decide)) ha1
  clear_value l0
  refine Kept.ite ?_ ?_
  · exact ha1
  · refine Kept.ite ?_ ?_
    · exact giveCredit_kept (hW.sub (by decide)) hl0
    · extract_lets +onlyGivenNames l1
      clear_value l1
      refine runCores_kept (hW.sub (by decide)) ?_
      refine pump0_kept (hW.sub (by decide)) ?_
      refine Kept.upd 4 ?_ ?_ rfl
      · exact hW.sub (by decide)
      · exact hl0

end Sys2Proof.Laws
end

