-- ==== Sys2Proof/Laws/KeptReset.lean ====
section
/-! SUPPORT. What the operations of Sys2Proof/Machine/Reset.lean keep: one lemma for each, which callers cite. -/

namespace Sys2Proof.Laws

open Sys2Proof Sys2Proof.Machine

theorem sagEarly_kept {W : Nat} {r : State} {a0} {a1} {a2 : State} (hW : Sub 1769472 W) (ha2 : Kept W r a2) :
    Kept W r (sagEarly a0 a1 a2) := by
  unfold Sys2Proof.Machine.sagEarly
  extract_lets +onlyGivenNames l0
  have hl0 : Kept W r (l0) := by
    unfold l0
    exact fault_kept (hW.sub (by decide)) ha2
  clear_value l0
  refine Kept.upd 65536 ?_ ?_ rfl
  · exact hW.sub (by decide)
  · exact hl0

theorem resetState_kept {W : Nat} {r : State} {a0} {a1 : State} (hW : Sub 4194303 W) (ho : OdStore.wf a1.od → OdStore.wf a0)
    (ha1 : Kept W r a1) : Kept W r (resetState a0 a1) := by
  have b : ∀ {i : Nat}, Nat.testBit 4194303 i = true → W.testBit i = true := fun h => hW.bit h
  refine ha1.trans ⟨rfl, rfl, List.prefix_refl _, Nat.le_refl _, ho, fun _ => ⟨List.Pairwise.nil, fun _ h => nomatch h⟩,
    fun e => ?_, fun e => ?_, fun e => ?_, fun e => ?_, fun e => ?_, fun e => ?_, fun e => ?_, fun e => ?_, fun e => ?_,
    fun e => ?_, fun e => ?_, fun e => ?_, fun e => ?_, fun e => ?_, fun e => ?_, fun e => ?_, fun e => ?_, fun e => ?_,
    fun e => ?_, fun e => ?_, fun e => ?_, fun e => ?_⟩ <;>
  · rw [b (by decide)] at e
    cases e

theorem keptOd_wf {s : State} (h : OdStore.wf s.od) : OdStore.wf (keptOd s) :=
  ⟨h.1.filter _, fun e he => h.2 e (List.mem_filter.1 he).1⟩

theorem doCold_kept {W : Nat} {r : State} {a0} {a1 : State} (hW : Sub 4194303 W) (ha1 : Kept W r a1) :
    Kept W r (doCold a0 a1) := by
  unfold Sys2Proof.Machine.doCold
  extract_lets +onlyGivenNames l0
  have hl0 : Kept W r (l0) := by
    unfold l0
    exact resetState_kept (hW.sub (by decide)) (fun _ => ⟨List.Pairwise.nil, fun _ h => nomatch h⟩) ha1
  clear_value l0
  extract_lets +onlyGivenNames l1
  clear_value l1
  refine Kept.upd 196608 ?_ ?_ rfl
  · exact hW.sub (by decide)
  · exact hl0

theorem saveEnd_kept {W : Nat} {r : State} {a0} {a1 : State} (hW : Sub 4194303 W) (ha1 : Kept W r a1) :
    Kept W r (saveEnd a0 a1) := by
  unfold Sys2Proof.Machine.saveEnd
  split
  · rename_i v0 v1
    exact ha1
  · rename_i v2 v3 v4
    refine Kept.ite ?_ ?_
    · exact ha1
    · extract_lets +onlyGivenNames l5
      clear_value l5
      extract_lets +onlyGivenNames l6
      clear_value l6
      extract_lets +onlyGivenNames l7
      clear_value l7
      extract_lets +onlyGivenNames l8
      have hl8 : Kept W r (l8) := by
        unfold l8
        refine Kept.upd 65536 ?_ ?_ rfl
        · exact hW.sub (by decide)
        · exact ha1
      clear_value l8
      refine Kept.ite ?_ ?_
      · exact doCold_kept (hW.sub (by decide)) hl8
      · exact hl8

theorem appendLog_kept {W : Nat} {r : State} {a0} {a1 : State} (hW : Sub 131072 W) (ha1 : Kept W r a1) :
    Kept W r (appendLog a0 a1) := by
  unfold Sys2Proof.Machine.appendLog
  apply forEach_kept
  · intro x0 x1 h2
    extract_lets +onlyGivenNames l3
    clear_value l3
    refine Kept.upd 131072 ?_ ?_ rfl
    · exact hW.sub (by decide)
    · exact h2
  · exact ha1

theorem bootKiln_kept {W : Nat} {r : State} {a0} {a1 : State} (hW : Sub 1774108 W) (ha1 : Kept W r a1) :
    Kept W r (bootKiln a0 a1) := by
  unfold Sys2Proof.Machine.bootKiln
  extract_lets +onlyGivenNames l0
  clear_value l0
  extract_lets +onlyGivenNames l1
  have hl1 : Kept W r (l1) := by
    unfold l1
    exact appendLog_kept (hW.sub (by decide)) ha1
  clear_value l1
  extract_lets +onlyGivenNames l2
  clear_value l2
  extract_lets +onlyGivenNames l3
  have hl3 : Kept W r (l3) := by
    unfold l3
    refine Kept.upd 65536 ?_ ?_ rfl
    · exact hW.sub (by decide)
    · exact hl1
  clear_value l3
  split
  · rename_i v4 v5
    refine Kept.ite ?_ ?_
    · exact faultEvent_kept (hW.sub (by decide)) hl3
    · exact hl3
  · rename_i v6 v7 v8
    extract_lets +onlyGivenNames l9
    have hl9 : Kept W r (l9) := by
      unfold l9
      exact appendLog_kept (hW.sub (by decide)) hl3
    clear_value l9
    extract_lets +onlyGivenNames l10
    clear_value l10
    extract_lets +onlyGivenNames l11
    clear_value l11
    extract_lets +onlyGivenNames l12
    clear_value l12
    refine consumeSave_kept (hW.sub (by decide)) ?_
    refine Kept.upd 70160 ?_ ?_ rfl
    · exact hW.sub (by decide)
    · exact hl9

theorem bootValues_kept {W : Nat} {r : State} {a0 : State} (hW : Sub 1703936 W) (ha0 : Kept W r a0) :
    Kept W r (bootValues a0) := by
  unfold Sys2Proof.Machine.bootValues
  split
  · rename_i v0 v1 v2
    exact bindAll_kept (hW.sub (by decide)) ha0
  · rename_i v3 v4
    split
    · rename_i v5 v6 v7
      exact bindAll_kept (hW.sub (by decide)) ha0
    · rename_i v8 v9
      exact fault_kept (hW.sub (by decide)) ha0

theorem warmReset_kept {W : Nat} {r : State} {a0 : State} (hW : Sub 4194303 W) (ha0 : Kept W r a0) :
    Kept W r (warmReset a0) := by
  unfold Sys2Proof.Machine.warmReset
  extract_lets +onlyGivenNames l0
  have hl0 : Kept W r (l0) := by
    unfold l0
    exact resetState_kept (hW.sub (by decide)) keptOd_wf ha0
  clear_value l0
  refine Kept.upd 246020 ?_ ?_ rfl
  · exact hW.sub (by decide)
  · exact hl0

theorem abortActing_kept {W : Nat} {r : State} {a0} {a1 : State} (hW : Sub 12 W) (ha1 : Kept W r a1) :
    Kept W r (abortActing a0 a1) := by
  unfold Sys2Proof.Machine.abortActing
  extract_lets +onlyGivenNames l0
  clear_value l0
  apply forEach_kept
  · intro x1 x2 h3
    exact finishCmd_kept (hW.sub (by decide)) h3
  · exact ha1

theorem updateWhole_kept {W : Nat} {r : State} {a0} {a1} {a2 : State} (hW : Sub 589824 W) (ha2 : Kept W r a2) :
    Kept W r (updateWhole a0 a1 a2) := by
  unfold Sys2Proof.Machine.updateWhole
  refine Kept.ite ?_ ?_
  · extract_lets +onlyGivenNames l0
    have hl0 : Kept W r (l0) := by
      unfold l0
      refine odSet_kept (hW.sub (by decide)) ?_
      exact odSet_kept (hW.sub (by decide)) ha2
    clear_value l0
    refine Kept.upd 65536 ?_ ?_ rfl
    · exact hW.sub (by decide)
    · exact hl0
  · refine odSet_kept (hW.sub (by decide)) ?_
    exact odSet_kept (hW.sub (by decide)) ha2

theorem sagStart_kept {W : Nat} {r : State} {a0} {a1} {a2 : State} (hW : Sub 1794428 W) (ha2 : Kept W r a2) :
    Kept W r (sagStart a0 a1 a2) := by
  unfold Sys2Proof.Machine.sagStart
  extract_lets +onlyGivenNames l0
  clear_value l0
  extract_lets +onlyGivenNames l1
  clear_value l1
  extract_lets +onlyGivenNames l2
  have hl2 : Kept W r (l2) := by
    unfold l2
    exact fault_kept (hW.sub (by decide)) ha2
  clear_value l2
  extract_lets +onlyGivenNames l3
  have hl3 : Kept W r (l3) := by
    unfold l3
    apply forEach_kept
    · intro x4 x5 h6
      exact setMask_kept (hW.sub (by decide)) h6
    · exact hl2
  clear_value l3
  extract_lets +onlyGivenNames l7
  have hl7 : Kept W r (l7) := by
    unfold l7
    refine Kept.ite ?_ ?_
    · exact odSet_kept (hW.sub (by decide)) hl3
    · exact hl3
  clear_value l7
  extract_lets +onlyGivenNames l8
  clear_value l8
  extract_lets +onlyGivenNames l9
  clear_value l9
  extract_lets +onlyGivenNames l10
  clear_value l10
  extract_lets +onlyGivenNames l11
  clear_value l11
  extract_lets +onlyGivenNames l12
  clear_value l12
  extract_lets +onlyGivenNames l13
  clear_value l13
  extract_lets +onlyGivenNames l14
  clear_value l14
  extract_lets +onlyGivenNames l15
  have hl15 : Kept W r (l15) := by
    unfold l15
    refine Kept.upd 74108 ?_ ?_ rfl
    · exact hW.sub (by decide)
    · exact hl7
  clear_value l15
  refine Kept.ite ?_ ?_
  · exact hl15
  · exact event_kept (hW.sub (by decide)) hl15

theorem discardSave_kept {W : Nat} {r : State} {a0 : State} (hW : Sub 70156 W) (ha0 : Kept W r a0) :
    Kept W r (discardSave a0) := by
  unfold Sys2Proof.Machine.discardSave
  refine Kept.ite ?_ ?_
  · exact ha0
  · refine event_kept (hW.sub (by decide)) ?_
    refine Kept.upd 70144 ?_ ?_ rfl
    · exact hW.sub (by decide)
    · exact ha0

theorem releaseStepEnd_kept {W : Nat} {r : State} {a0 : State} (hW : Sub 4194303 W) (ha0 : Kept W r a0) :
    Kept W r (releaseStepEnd a0) := by
  unfold Sys2Proof.Machine.releaseStepEnd
  refine Kept.ite ?_ ?_
  · exact ha0
  · refine Kept.ite ?_ ?_
    · exact released_kept (hW.sub (by decide)) ha0
    · refine Kept.ite ?_ ?_
      · exact warmReset_kept (hW.sub (by decide)) ha0
      · exact releaseStep_kept (hW.sub (by decide)) ha0

theorem bootIdentity_kept {W : Nat} {r : State} {a0} {a1 : State} (hW : Sub 1736704 W) (ha1 : Kept W r a1) :
    Kept W r (bootIdentity a0 a1) := by
  unfold Sys2Proof.Machine.bootIdentity
  refine Kept.ite ?_ ?_
  · refine Kept.upd 32768 ?_ ?_ rfl
    · exact hW.sub (by decide)
    · exact ha1
  · exact fault_kept (hW.sub (by decide)) ha1

theorem checkArmed_kept {W : Nat} {r : State} {a0 : State} (hW : Sub 1703948 W) (ha0 : Kept W r a0) :
    Kept W r (checkArmed a0) := by
  unfold Sys2Proof.Machine.checkArmed
  refine Kept.ite ?_ ?_
  · exact ha0
  · exact faultEvent_kept (hW.sub (by decide)) ha0

theorem bootRun_kept {W : Nat} {r : State} {a0} {a1 : State} (hW : Sub 3920412 W) (ha1 : Kept W r a1) :
    Kept W r (bootRun a0 a1) := by
  unfold Sys2Proof.Machine.bootRun
  extract_lets +onlyGivenNames l0
  have hl0 : Kept W r (l0) := by
    unfold l0
    refine bootValues_kept (hW.sub (by decide)) ?_
    refine odSet_kept (hW.sub (by decide)) ?_
    exact odSet_kept (hW.sub (by decide)) ha1
  clear_value l0
  extract_lets +onlyGivenNames l1
  clear_value l1
  extract_lets +onlyGivenNames l2
  clear_value l2
  extract_lets +onlyGivenNames l3
  have hl3 : Kept W r (l3) := by
    unfold l3
    refine Kept.upd 98304 ?_ ?_ rfl
    · exact hW.sub (by decide)
    · exact hl0
  clear_value l3
  extract_lets +onlyGivenNames l4
  have hl4 : Kept W r (l4) := by
    unfold l4
    refine bootKiln_kept (hW.sub (by decide)) ?_
    exact newMeadowKeys_kept (hW.sub (by decide)) hl3
  clear_value l4
  extract_lets +onlyGivenNames l5
  have hl5 : Kept W r (l5) := by
    unfold l5
    exact odSet_kept (hW.sub (by decide)) hl4
  clear_value l5
  extract_lets +onlyGivenNames l6
  clear_value l6
  extract_lets +onlyGivenNames l7
  have hl7 : Kept W r (l7) := by
    unfold l7
    apply forEach_kept
    · intro x8 x9 h10
      exact editPort_kept (hW.sub (by decide)) h10
    · refine Kept.upd 65536 ?_ ?_ rfl
      · exact hW.sub (by decide)
      · exact hl5
  clear_value l7
  extract_lets +onlyGivenNames l11
  have hl11 : Kept W r (l11) := by
    unfold l11
    refine event_kept (hW.sub (by decide)) ?_
    exact laserCheck_kept (hW.sub (by decide)) hl7
  clear_value l11
  extract_lets +onlyGivenNames l12
  clear_value l12
  extract_lets +onlyGivenNames l13
  have hl13 : Kept W r (l13) := by
    unfold l13
    refine Kept.ite ?_ ?_
    · exact event_kept (hW.sub (by decide)) hl11
    · exact hl11
  clear_value l13
  exact checkArmed_kept (hW.sub (by decide)) hl13

theorem bootModules_kept {W : Nat} {r : State} {a0} {a1 : State} (hW : Sub 4 W) (ha1 : Kept W r a1) :
    Kept W r (bootModules a0 a1) := by
  unfold Sys2Proof.Machine.bootModules
  refine Kept.upd 4 ?_ ?_ rfl
  · exact hW.sub (by decide)
  · exact ha1

theorem bootRepair_kept {W : Nat} {r : State} {a0} {a1 : State} (hW : Sub 1769476 W) (ha1 : Kept W r a1) :
    Kept W r (bootRepair a0 a1) := by
  unfold Sys2Proof.Machine.bootRepair
  extract_lets +onlyGivenNames l0
  have hl0 : Kept W r (l0) := by
    unfold l0
    exact bootModules_kept (hW.sub (by decide)) ha1
  clear_value l0
  extract_lets +onlyGivenNames l1
  clear_value l1
  extract_lets +onlyGivenNames l2
  have hl2 : Kept W r (l2) := by
    unfold l2
    refine Kept.upd 65536 ?_ ?_ rfl
    · exact hW.sub (by decide)
    · exact hl0
  clear_value l2
  split
  · rename_i v3 v4
    extract_lets +onlyGivenNames l5
    have hl5 : Kept W r (l5) := by
      unfold l5
      exact odSet_kept (hW.sub (by decide)) hl2
    clear_value l5
    refine Kept.upd 65536 ?_ ?_ rfl
    · exact hW.sub (by decide)
    · exact hl5
  · rename_i v6 v7 v8
    extract_lets +onlyGivenNames l9
    clear_value l9
    extract_lets +onlyGivenNames l10
    clear_value l10
    extract_lets +onlyGivenNames l11
    have hl11 : Kept W r (l11) := by
      unfold l11
      refine fault_kept (hW.sub (by decide)) ?_
      exact odSet_kept (hW.sub (by decide)) hl2
    clear_value l11
    refine Kept.upd 65536 ?_ ?_ rfl
    · exact hW.sub (by decide)
    · exact hl11

theorem boot_kept {W : Nat} {r : State} {a0} {a1 : State} (hW : Sub 3920412 W) (ha1 : Kept W r a1) :
    Kept W r (boot a0 a1) := by
  unfold Sys2Proof.Machine.boot
  refine Kept.ite ?_ ?_
  · exact ha1
  · extract_lets +onlyGivenNames l0
    have hl0 : Kept W r (l0) := by
      unfold l0
      refine Kept.ite ?_ ?_
      · exact ha1
      · exact bootIdentity_kept (hW.sub (by decide)) ha1
    clear_value l0
    extract_lets +onlyGivenNames l1
    clear_value l1
    extract_lets +onlyGivenNames l2
    have hl2 : Kept W r (l2) := by
      unfold l2
      refine Kept.upd 4 ?_ ?_ rfl
      · exact hW.sub (by decide)
      · exact hl0
    clear_value l2
    extract_lets +onlyGivenNames l3
    have hl3 : Kept W r (l3) := by
      unfold l3
      refine Kept.ite ?_ ?_
      · exact hl2
      · exact odSet_kept (hW.sub (by decide)) hl2
    clear_value l3
    extract_lets +onlyGivenNames l4
    clear_value l4
    extract_lets +onlyGivenNames l5
    clear_value l5
    extract_lets +onlyGivenNames l6
    clear_value l6
    extract_lets +onlyGivenNames l7
    have hl7 : Kept W r (l7) := by
      unfold l7
      refine Kept.upd 65536 ?_ ?_ rfl
      · exact hW.sub (by decide)
      · exact hl3
    clear_value l7
    refine Kept.ite ?_ ?_
    · extract_lets +onlyGivenNames l8
      have hl8 : Kept W r (l8) := by
        unfold l8
        exact bootValues_kept (hW.sub (by decide)) hl7
      clear_value l8
      refine Kept.upd 98304 ?_ ?_ rfl
      · exact hW.sub (by decide)
      · exact hl8
    · refine bootRun_kept (hW.sub (by decide)) ?_
      refine Kept.ite ?_ ?_
      · exact hl7
      · exact bootRepair_kept (hW.sub (by decide)) hl7

theorem recoveryWhole_kept {W : Nat} {r : State} {a0} {a1} {a2 : State} (hW : Sub 4194303 W) (ha2 : Kept W r a2) :
    Kept W r (recoveryWhole a0 a1 a2) := by
  unfold Sys2Proof.Machine.recoveryWhole
  refine Kept.ite ?_ ?_
  · refine doCold_kept (hW.sub (by decide)) ?_
    refine Kept.upd 65536 ?_ ?_ rfl
    · exact hW.sub (by decide)
    · exact ha2
  · exact ha2

theorem coldReset_kept {W : Nat} {r : State} {a0} {a1 : State} (hW : Sub 4194303 W) (ha1 : Kept W r a1) :
    Kept W r (coldReset a0 a1) := by
  unfold Sys2Proof.Machine.coldReset
  split
  · rename_i v0
    refine Kept.ite ?_ ?_
    · refine Kept.upd 65536 ?_ ?_ rfl
      · exact hW.sub (by decide)
      · exact ha1
    · exact doCold_kept (hW.sub (by decide)) ha1
  · rename_i v1
    exact doCold_kept (hW.sub (by decide)) ha1
  · rename_i v2
    refine Kept.ite ?_ ?_
    · exact doCold_kept (hW.sub (by decide)) ha1
    · exact ha1

theorem requestWarm_kept {W : Nat} {r : State} {a0 : State} (hW : Sub 4194303 W) (ha0 : Kept W r a0) :
    Kept W r (requestWarm a0) := by
  unfold Sys2Proof.Machine.requestWarm
  extract_lets +onlyGivenNames l0
  clear_value l0
  extract_lets +onlyGivenNames l1
  have hl1 : Kept W r (l1) := by
    unfold l1
    refine Kept.upd 32768 ?_ ?_ rfl
    · exact hW.sub (by decide)
    · exact ha0
  clear_value l1
  split
  · rename_i v2 v3
    exact startRelease_kept (hW.sub (by decide)) hl1
  · rename_i v4 v5
    exact hl1
  · rename_i v6 v7 v8
    exact warmReset_kept (hW.sub (by decide)) ha0

theorem mgpFault_kept {W : Nat} {r : State} {a0} {a1 : State} (hW : Sub 4194303 W) (ha1 : Kept W r a1) :
    Kept W r (mgpFault a0 a1) := by
  unfold Sys2Proof.Machine.mgpFault
  refine Kept.ite ?_ ?_
  · exact ha1
  · refine requestWarm_kept (hW.sub (by decide)) ?_
    exact fault_kept (hW.sub (by decide)) ha1

theorem partitionReset_kept {W : Nat} {r : State} {a0} {a1 : State} (hW : Sub 4094957 W) (ha1 : Kept W r a1) :
    Kept W r (partitionReset a0 a1) := by
  unfold Sys2Proof.Machine.partitionReset
  extract_lets +onlyGivenNames l0
  clear_value l0
  extract_lets +onlyGivenNames l1
  have hl1 : Kept W r (l1) := by
    unfold l1
    refine Kept.upd 32 ?_ ?_ rfl
    · exact hW.sub (by decide)
    · exact ha1
  clear_value l1
  extract_lets +onlyGivenNames l2
  have hl2 : Kept W r (l2) := by
    unfold l2
    apply forEach_kept
    · intro x3 x4 h5
      refine Kept.ite ?_ ?_
      · exact h5
      · split
        · rename_i v6 v7 v8
          exact endJobError_kept (hW.sub (by decide)) h5
        · rename_i v9 v10
          exact h5
    · exact hl1
  clear_value l2
  extract_lets +onlyGivenNames l11
  have hl11 : Kept W r (l11) := by
    unfold l11
    apply forEach_kept
    · intro x12 x13 h14
      exact abortQueue_kept (hW.sub (by decide)) h14
    · exact abortActing_kept (hW.sub (by decide)) hl2
  clear_value l11
  extract_lets +onlyGivenNames l15
  clear_value l15
  extract_lets +onlyGivenNames l16
  have hl16 : Kept W r (l16) := by
    unfold l16
    refine flushEvents_kept (hW.sub (by decide)) ?_
    exact setEvRing_kept (hW.sub (by decide)) hl11
  clear_value l16
  refine runCores_kept (hW.sub (by decide)) ?_
  refine settleAll_kept (hW.sub (by decide)) ?_
  exact resetPartPairs_kept (hW.sub (by decide)) hl16

theorem isolate_kept {W : Nat} {r : State} {a0 : State} (hW : Sub 94208 W) (ha0 : Kept W r a0) :
    Kept W r (isolate a0) := by
  unfold Sys2Proof.Machine.isolate
  split
  · rename_i v0 v1
    exact ha0
  · rename_i v2 v3 v4
    refine Kept.ite ?_ ?_
    · exact ha0
    · extract_lets +onlyGivenNames l5
      clear_value l5
      extract_lets +onlyGivenNames l6
      clear_value l6
      extract_lets +onlyGivenNames l7
      clear_value l7
      extract_lets +onlyGivenNames l8
      clear_value l8
      extract_lets +onlyGivenNames l9
      clear_value l9
      refine Kept.upd 94208 ?_ ?_ rfl
      · exact hW.sub (by decide)
      · exact ha0

theorem slotProgrammed_kept {W : Nat} {r : State} {a0} {a1 : State} (hW : Sub 589824 W) (ha1 : Kept W r a1) :
    Kept W r (slotProgrammed a0 a1) := by
  unfold Sys2Proof.Machine.slotProgrammed
  refine Kept.ite ?_ ?_
  · exact ha1
  · refine Kept.ite ?_ ?_
    · extract_lets +onlyGivenNames l0
      clear_value l0
      extract_lets +onlyGivenNames l1
      have hl1 : Kept W r (l1) := by
        unfold l1
        refine odSet_kept (hW.sub (by decide)) ?_
        exact odSet_kept (hW.sub (by decide)) ha1
      clear_value l1
      refine Kept.upd 65536 ?_ ?_ rfl
      · exact hW.sub (by decide)
      · exact hl1
    · extract_lets +onlyGivenNames l2
      have hl2 : Kept W r (l2) := by
        unfold l2
        refine odSet_kept (hW.sub (by decide)) ?_
        exact odSet_kept (hW.sub (by decide)) ha1
      clear_value l2
      refine Kept.upd 65536 ?_ ?_ rfl
      · exact hW.sub (by decide)
      · exact hl2

theorem supplySag_kept {W : Nat} {r : State} {a0} {a1} {a2 : State} (hW : Sub 1794428 W) (ha2 : Kept W r a2) :
    Kept W r (supplySag a0 a1 a2) := by
  unfold Sys2Proof.Machine.supplySag
  refine Kept.ite ?_ ?_
  · exact ha2
  · split
    · rename_i v0 v1
      exact sagStart_kept (hW.sub (by decide)) ha2
    · rename_i v2 v3
      exact sagEarly_kept (hW.sub (by decide)) ha2
    · rename_i v4 v5
      exact sagEarly_kept (hW.sub (by decide)) ha2
    · rename_i v6 v7
      exact sagEarly_kept (hW.sub (by decide)) ha2
    · exact ha2

end Sys2Proof.Laws
end

