-- ==== Sys2Proof/Laws/KeptSelfTest.lean ====
section
/-! SUPPORT. What the operations of Sys2Proof/Machine/SelfTest.lean keep: one lemma for each, which callers cite. -/

namespace Sys2Proof.Laws

open Sys2Proof Sys2Proof.Machine

theorem loseCore_kept {W : Nat} {r : State} {a0} {a1 : State} (hW : Sub 1712620 W) (ha1 : Kept W r a1) :
    Kept W r (loseCore a0 a1) := by
  unfold Sys2Proof.Machine.loseCore
  extract_lets +onlyGivenNames l0
  clear_value l0
  extract_lets +onlyGivenNames l1
  have hl1 : Kept W r (l1) := by
    unfold l1
    apply forEach_kept
    · intro x2 x3 h4
      exact complete_kept (hW.sub (by decide)) h4
    · exact ha1
  clear_value l1
  extract_lets +onlyGivenNames l5
  clear_value l5
  apply forEach_kept
  · intro x6 x7 h8
    split
    · rename_i v9 v10 v11
      exact endJobError_kept (hW.sub (by decide)) h8
    · rename_i v12 v13
      exact h8
  · exact hl1

theorem holdPort_kept {W : Nat} {r : State} {a0} {a1 : State} (hW : Sub 1724428 W) (ha1 : Kept W r a1) :
    Kept W r (holdPort a0 a1) := by
  unfold Sys2Proof.Machine.holdPort
  refine editPort_kept (hW.sub (by decide)) ?_
  exact portDown_kept (hW.sub (by decide)) ha1

theorem takeOut_kept {W : Nat} {r : State} {a0} {a1} {a2 : State} (hW : Sub 4092909 W) (ha2 : Kept W r a2) :
    Kept W r (takeOut a0 a1 a2) := by
  unfold Sys2Proof.Machine.takeOut
  split
  · rename_i v0
    refine runCores_kept (hW.sub (by decide)) ?_
    apply forEach_kept
    · intro x1 x2 h3
      exact loseCore_kept (hW.sub (by decide)) h3
    · exact ha2
  · rename_i v4
    exact holdPort_kept (hW.sub (by decide)) ha2
  · rename_i v5
    exact holdPort_kept (hW.sub (by decide)) ha2
  · rename_i v6
    exact moduleDown_kept (hW.sub (by decide)) ha2
  · rename_i v7 v8 v9 v10 v11
    exact ha2

theorem startTest_kept {W : Nat} {r : State} {a0} {a1 : State} (hW : Sub 4158445 W) (ha1 : Kept W r a1) :
    Kept W r (startTest a0 a1).2 := by
  unfold Sys2Proof.Machine.startTest
  extract_lets +onlyGivenNames l0
  clear_value l0
  extract_lets +onlyGivenNames l1
  clear_value l1
  split
  · rename_i v2
    dsimp only
    exact ha1
  · rename_i v3
    split
    · rename_i v4
      dsimp only
      exact ha1
    · rename_i v5
      extract_lets +onlyGivenNames l6
      clear_value l6
      extract_lets +onlyGivenNames l7
      have hl7 : Kept W r (l7) := by
        unfold l7
        refine takeOut_kept (hW.sub (by decide)) ?_
        refine Kept.upd 65536 ?_ ?_ rfl
        · exact hW.sub (by decide)
        · exact ha1
      clear_value l7
      dsimp only
      refine bump32_kept (hW.sub (by decide)) ?_
      exact odSet_kept (hW.sub (by decide)) hl7

theorem reMap_kept {W : Nat} {r : State} {a0} {a1 : State} (hW : Sub 20480 W) (ha1 : Kept W r a1) :
    Kept W r (reMap a0 a1) := by
  unfold Sys2Proof.Machine.reMap
  split
  · rename_i v0 v1
    exact ha1
  · rename_i v2 v3
    exact ha1
  · rename_i v4 v5
    exact setShelf_kept (hW.sub (by decide)) ha1
  · rename_i v6 v7 v8 v9
    exact discoverShelf_kept (hW.sub (by decide)) ha1

theorem loseCluster_kept {W : Nat} {r : State} {a0} {a1 : State} (hW : Sub 2216193 W) (ha1 : Kept W r a1) :
    Kept W r (loseCluster a0 a1) := by
  unfold Sys2Proof.Machine.loseCluster
  extract_lets +onlyGivenNames l0
  clear_value l0
  extract_lets +onlyGivenNames l1
  clear_value l1
  extract_lets +onlyGivenNames l2
  have hl2 : Kept W r (l2) := by
    unfold l2
    refine newMeadowKeys_kept (hW.sub (by decide)) ?_
    refine memClear_kept (hW.sub (by decide)) ?_
    refine Kept.upd 65792 ?_ ?_ rfl
    · exact hW.sub (by decide)
    · exact ha1
  clear_value l2
  apply forEach_kept
  · intro x3 x4 h5
    exact reMap_kept (hW.sub (by decide)) h5
  · exact hl2

theorem testFailed_kept {W : Nat} {r : State} {a0} {a1} {a2 : State} (hW : Sub 4194303 W) (ha2 : Kept W r a2) :
    Kept W r (testFailed a0 a1 a2) := by
  unfold Sys2Proof.Machine.testFailed
  split
  · rename_i v0
    refine Kept.upd 65536 ?_ ?_ rfl
    · exact hW.sub (by decide)
    · exact ha2
  · rename_i v1
    refine loseCluster_kept (hW.sub (by decide)) ?_
    refine Kept.upd 65536 ?_ ?_ rfl
    · exact hW.sub (by decide)
    · exact ha2
  · rename_i v2
    refine loseCluster_kept (hW.sub (by decide)) ?_
    refine Kept.upd 65536 ?_ ?_ rfl
    · exact hW.sub (by decide)
    · exact ha2
  · rename_i v3
    exact editPort_kept (hW.sub (by decide)) ha2
  · rename_i v4
    exact editPort_kept (hW.sub (by decide)) ha2
  · rename_i v5
    refine Kept.upd 65536 ?_ ?_ rfl
    · exact hW.sub (by decide)
    · exact ha2
  · rename_i v6
    refine requestWarm_kept (hW.sub (by decide)) ?_
    refine drawn_kept (hW.sub (by decide)) ?_
    exact fault_kept (hW.sub (by decide)) ha2
  · rename_i v7 v8 v9 v10 v11 v12 v13 v14
    exact enterSafe_kept (hW.sub (by decide)) ha2

theorem emptyCore_kept {W : Nat} {r : State} {a0} {a1 : State} (hW : Sub 192 W) (ha1 : Kept W r a1) :
    Kept W r (emptyCore a0 a1) := by
  unfold Sys2Proof.Machine.emptyCore
  refine Kept.upd 192 ?_ ?_ rfl
  · exact hW.sub (by decide)
  · exact ha1

theorem startPort_kept {W : Nat} {r : State} {a0} {a1 : State} (hW : Sub 16384 W) (ha1 : Kept W r a1) :
    Kept W r (startPort a0 a1) := by
  unfold Sys2Proof.Machine.startPort
  exact editPort_kept (hW.sub (by decide)) ha1

theorem emptyPort_kept {W : Nat} {r : State} {a0} {a1 : State} (hW : Sub 24576 W) (ha1 : Kept W r a1) :
    Kept W r (emptyPort a0 a1) := by
  unfold Sys2Proof.Machine.emptyPort
  refine editPort_kept (hW.sub (by decide)) ?_
  refine Kept.upd 8192 ?_ ?_ rfl
  · exact hW.sub (by decide)
  · exact ha1

theorem testPassed_kept {W : Nat} {r : State} {a0} {a1} {a2 : State} (hW : Sub 4092909 W) (ha2 : Kept W r a2) :
    Kept W r (testPassed a0 a1 a2) := by
  unfold Sys2Proof.Machine.testPassed
  split
  · rename_i v0
    exact emptyCore_kept (hW.sub (by decide)) ha2
  · rename_i v1
    refine Kept.upd 64 ?_ ?_ rfl
    · exact hW.sub (by decide)
    · exact ha2
  · rename_i v2
    refine startPort_kept (hW.sub (by decide)) ?_
    exact emptyPort_kept (hW.sub (by decide)) ha2
  · rename_i v3
    refine startPort_kept (hW.sub (by decide)) ?_
    exact emptyPort_kept (hW.sub (by decide)) ha2
  · rename_i v4
    exact moduleUp_kept (hW.sub (by decide)) ha2
  · rename_i v5
    refine Kept.upd 4608 ?_ ?_ rfl
    · exact hW.sub (by decide)
    · exact ha2
  · rename_i v6 v7 v8 v9 v10 v11 v12
    exact ha2

theorem editChecker_kept {W : Nat} {r : State} {a0} {a1} {a2 : State} (hW : Sub 65536 W) (ha2 : Kept W r a2) :
    Kept W r (editChecker a0 a1 a2) := by
  unfold Sys2Proof.Machine.editChecker
  refine Kept.upd 65536 ?_ ?_ rfl
  · exact hW.sub (by decide)
  · exact ha2

theorem checkerError_kept {W : Nat} {r : State} {a0} {a1} {a2 : State} (hW : Sub 1114112 W) (ha2 : Kept W r a2) :
    Kept W r (checkerError a0 a1 a2) := by
  unfold Sys2Proof.Machine.checkerError
  refine Kept.ite ?_ ?_
  · exact ha2
  · extract_lets +onlyGivenNames l0
    have hl0 : Kept W r (l0) := by
      unfold l0
      exact editChecker_kept (hW.sub (by decide)) ha2
    clear_value l0
    refine Kept.ite ?_ ?_
    · refine send_kept (hW.sub (by decide)) ?_
      refine Kept.upd 65536 ?_ ?_ rfl
      · exact hW.sub (by decide)
      · exact hl0
    · exact hl0

theorem checkerLock_kept {W : Nat} {r : State} {a0} {a1 : State} (hW : Sub 65536 W) (ha1 : Kept W r a1) :
    Kept W r (checkerLock a0 a1) := by
  unfold Sys2Proof.Machine.checkerLock
  refine Kept.ite ?_ ?_
  · exact editChecker_kept (hW.sub (by decide)) ha1
  · exact ha1

theorem checkerLost_kept {W : Nat} {r : State} {a0} {a1 : State} (hW : Sub 65536 W) (ha1 : Kept W r a1) :
    Kept W r (checkerLost a0 a1) := by
  unfold Sys2Proof.Machine.checkerLost
  refine Kept.ite ?_ ?_
  · exact editChecker_kept (hW.sub (by decide)) ha1
  · exact ha1

theorem linkTestWrite_kept {W : Nat} {r : State} {a0} {a1 : State} (hW : Sub 1789964 W) (ha1 : Kept W r a1) :
    Kept W r (linkTestWrite a0 a1).2 := by
  unfold Sys2Proof.Machine.linkTestWrite
  split
  · rename_i v0
    split
    · rename_i v1 v2
      dsimp only
      exact odSet_kept (hW.sub (by decide)) ha1
    · rename_i v3 v4 v5
      dsimp only
      refine startPort_kept (hW.sub (by decide)) ?_
      refine odSet_kept (hW.sub (by decide)) ?_
      refine Kept.upd 65536 ?_ ?_ rfl
      · exact hW.sub (by decide)
      · exact ha1
  · rename_i v6
    split
    · rename_i v7 v8
      dsimp only
      exact ha1
    · rename_i v9 v10 v11
      extract_lets +onlyGivenNames l12
      clear_value l12
      extract_lets +onlyGivenNames l13
      clear_value l13
      split
      · rename_i v14
        dsimp only
        exact ha1
      · rename_i v15
        extract_lets +onlyGivenNames l16
        have hl16 : Kept W r (l16) := by
          unfold l16
          exact holdPort_kept (hW.sub (by decide)) ha1
        clear_value l16
        dsimp only
        refine odSet_kept (hW.sub (by decide)) ?_
        refine Kept.upd 65536 ?_ ?_ rfl
        · exact hW.sub (by decide)
        · exact hl16

theorem testComplete_kept {W : Nat} {r : State} {a0} {a1} {a2 : State} (hW : Sub 4194303 W) (ha2 : Kept W r a2) :
    Kept W r (testComplete a0 a1 a2) := by
  unfold Sys2Proof.Machine.testComplete
  split
  · rename_i v0 v1
    exact ha2
  · rename_i v2 v3 v4
    extract_lets +onlyGivenNames l5
    clear_value l5
    extract_lets +onlyGivenNames l6
    clear_value l6
    extract_lets +onlyGivenNames l7
    have hl7 : Kept W r (l7) := by
      unfold l7
      refine odSet_kept (hW.sub (by decide)) ?_
      refine odSet_kept (hW.sub (by decide)) ?_
      refine odSet_kept (hW.sub (by decide)) ?_
      exact odSet_kept (hW.sub (by decide)) ha2
    clear_value l7
    extract_lets +onlyGivenNames l8
    clear_value l8
    extract_lets +onlyGivenNames l9
    have hl9 : Kept W r (l9) := by
      unfold l9
      refine Kept.upd 65536 ?_ ?_ rfl
      · exact hW.sub (by decide)
      · exact hl7
    clear_value l9
    refine Kept.ite ?_ ?_
    · refine runCores_kept (hW.sub (by decide)) ?_
      exact testPassed_kept (hW.sub (by decide)) hl9
    · extract_lets +onlyGivenNames l10
      clear_value l10
      extract_lets +onlyGivenNames l11
      have hl11 : Kept W r (l11) := by
        unfold l11
        refine faultEvent_kept (hW.sub (by decide)) ?_
        exact bump32_kept (hW.sub (by decide)) hl9
      clear_value l11
      exact testFailed_kept (hW.sub (by decide)) hl11

theorem coreFails_kept {W : Nat} {r : State} {a0} {a1 : State} (hW : Sub 4158445 W) (ha1 : Kept W r a1) :
    Kept W r (coreFails a0 a1) := by
  unfold Sys2Proof.Machine.coreFails
  refine Kept.ite ?_ ?_
  · exact ha1
  · extract_lets +onlyGivenNames l0
    clear_value l0
    extract_lets +onlyGivenNames l1
    have hl1 : Kept W r (l1) := by
      unfold l1
      refine Kept.upd 65536 ?_ ?_ rfl
      · exact hW.sub (by decide)
      · exact ha1
    clear_value l1
    refine runCores_kept (hW.sub (by decide)) ?_
    exact loseCore_kept (hW.sub (by decide)) hl1

theorem trigEdge_kept {W : Nat} {r : State} {a0 : State} (hW : Sub 4158445 W) (ha0 : Kept W r a0) :
    Kept W r (trigEdge a0) := by
  unfold Sys2Proof.Machine.trigEdge
  refine Kept.ite ?_ ?_
  · exact ha0
  · split
    · rename_i v0 v1 v2
      refine Kept.of_pair v2 ?_
      exact startTest_kept (hW.sub (by decide)) ha0
    · rename_i v4 v5
      exact bump32_kept (hW.sub (by decide)) ha0

end Sys2Proof.Laws
end

