-- ==== Sys2Proof/Laws/KeptManage.lean ====
section
/-! SUPPORT. What the operations of Sys2Proof/Machine/Manage.lean keep: one lemma for each, which callers cite. -/

namespace Sys2Proof.Laws

open Sys2Proof Sys2Proof.Machine

theorem regPoll_kept {W : Nat} {r : State} {a0} {a1} {a2 : State} (hW : Sub 589824 W) (ha2 : Kept W r a2) :
    Kept W r (regPoll a0 a1 a2) := by
  unfold Sys2Proof.Machine.regPoll
  extract_lets +onlyGivenNames l0
  clear_value l0
  refine Kept.ite ?_ ?_
  · refine Kept.upd 65536 ?_ ?_ rfl
    · exact hW.sub (by decide)
    · exact ha2
  · refine Kept.ite ?_ ?_
    · exact ha2
    · extract_lets +onlyGivenNames l1
      clear_value l1
      extract_lets +onlyGivenNames l2
      have hl2 : Kept W r (l2) := by
        unfold l2
        exact odSet_kept (hW.sub (by decide)) ha2
      clear_value l2
      refine Kept.upd 65536 ?_ ?_ rfl
      · exact hW.sub (by decide)
      · exact hl2

theorem pmbusPoll_kept {W : Nat} {r : State} {a0} {a1} {a2 : State} (hW : Sub 589824 W) (ha2 : Kept W r a2) :
    Kept W r (pmbusPoll a0 a1 a2) := by
  unfold Sys2Proof.Machine.pmbusPoll
  refine Kept.ite ?_ ?_
  · exact ha2
  · extract_lets +onlyGivenNames l0
    have hl0 : Kept W r (l0) := by
      unfold l0
      apply forEach_kept
      · intro x1 x2 h3
        exact regPoll_kept (hW.sub (by decide)) h3
      · exact ha2
    clear_value l0
    extract_lets +onlyGivenNames l4
    clear_value l4
    extract_lets +onlyGivenNames l5
    clear_value l5
    extract_lets +onlyGivenNames l6
    clear_value l6
    refine Kept.ite ?_ ?_
    · refine Kept.upd 65536 ?_ ?_ rfl
      · exact hW.sub (by decide)
      · exact hl0
    · exact hl0

theorem clearLog_kept {W : Nat} {r : State} {a0 : State} (hW : Sub 1703936 W) (ha0 : Kept W r a0) :
    Kept W r (clearLog a0) := by
  unfold Sys2Proof.Machine.clearLog
  extract_lets +onlyGivenNames l0
  clear_value l0
  refine fault_kept (hW.sub (by decide)) ?_
  refine Kept.upd 131072 ?_ ?_ rfl
  · exact hW.sub (by decide)
  · exact ha0

theorem thermalSample_kept {W : Nat} {r : State} {a0} {a1 : State} (hW : Sub 1794428 W) (ha1 : Kept W r a1) :
    Kept W r (thermalSample a0 a1) := by
  unfold Sys2Proof.Machine.thermalSample
  refine Kept.ite ?_ ?_
  · exact ha1
  · extract_lets +onlyGivenNames l0
    clear_value l0
    extract_lets +onlyGivenNames l1
    clear_value l1
    extract_lets +onlyGivenNames l2
    clear_value l2
    extract_lets +onlyGivenNames l3
    have hl3 : Kept W r (l3) := by
      unfold l3
      refine Kept.upd 65536 ?_ ?_ rfl
      · exact hW.sub (by decide)
      · exact ha1
    clear_value l3
    extract_lets +onlyGivenNames l4
    clear_value l4
    extract_lets +onlyGivenNames l5
    have hl5 : Kept W r (l5) := by
      unfold l5
      refine Kept.ite ?_ ?_
      · refine faultEvent_kept (hW.sub (by decide)) ?_
        refine Kept.upd 65536 ?_ ?_ rfl
        · exact hW.sub (by decide)
        · exact hl3
      · exact hl3
    clear_value l5
    refine Kept.ite ?_ ?_
    · extract_lets +onlyGivenNames l6
      have hl6 : Kept W r (l6) := by
        unfold l6
        refine send_kept (hW.sub (by decide)) ?_
        exact fault_kept (hW.sub (by decide)) hl5
      clear_value l6
      refine sagStart_kept (hW.sub (by decide)) ?_
      refine Kept.upd 65536 ?_ ?_ rfl
      · exact hW.sub (by decide)
      · exact hl6
    · exact hl5

theorem windowAdd_kept {W : Nat} {r : State} {a0} {a1 : State} (hW : Sub 65536 W) (ha1 : Kept W r a1) :
    Kept W r (windowAdd a0 a1) := by
  unfold Sys2Proof.Machine.windowAdd
  extract_lets +onlyGivenNames l0
  clear_value l0
  extract_lets +onlyGivenNames l1
  clear_value l1
  extract_lets +onlyGivenNames l2
  clear_value l2
  refine Kept.ite ?_ ?_
  · refine Kept.upd 65536 ?_ ?_ rfl
    · exact hW.sub (by decide)
    · exact ha1
  · refine Kept.upd 65536 ?_ ?_ rfl
    · exact hW.sub (by decide)
    · exact ha1

theorem counterSample_kept {W : Nat} {r : State} {a0} {a1} {a2} {a3} {a4 : State} (hW : Sub 786444 W) (ha4 : Kept W r a4) :
    Kept W r (counterSample a0 a1 a2 a3 a4) := by
  unfold Sys2Proof.Machine.counterSample
  split
  · rename_i v0 v1
    exact ha4
  · rename_i v2 v3 v4
    extract_lets +onlyGivenNames l5
    clear_value l5
    refine Kept.ite ?_ ?_
    · exact ha4
    · refine Kept.ite ?_ ?_
      · refine bump64_kept (hW.sub (by decide)) ?_
        refine Kept.upd 262144 ?_ ?_ rfl
        · exact hW.sub (by decide)
        · exact ha4
      · extract_lets +onlyGivenNames l6
        have hl6 : Kept W r (l6) := by
          unfold l6
          refine Kept.upd 262144 ?_ ?_ rfl
          · exact hW.sub (by decide)
          · exact ha4
        clear_value l6
        extract_lets +onlyGivenNames l7
        clear_value l7
        split
        · rename_i v8 v9 v10
          exact event_kept (hW.sub (by decide)) hl6
        · rename_i v11
          exact event_kept (hW.sub (by decide)) hl6

theorem pmbusTimeout_kept {W : Nat} {r : State} {a0} {a1 : State} (hW : Sub 1769472 W) (ha1 : Kept W r a1) :
    Kept W r (pmbusTimeout a0 a1) := by
  unfold Sys2Proof.Machine.pmbusTimeout
  refine Kept.ite ?_ ?_
  · exact ha1
  · refine fault_kept (hW.sub (by decide)) ?_
    refine Kept.upd 65536 ?_ ?_ rfl
    · exact hW.sub (by decide)
    · exact ha1

theorem escalate_kept {W : Nat} {r : State} {a0} {a1} {a2 : State} (hW : Sub 1703948 W) (ha2 : Kept W r a2) :
    Kept W r (escalate a0 a1 a2) := by
  unfold Sys2Proof.Machine.escalate
  split
  · rename_i v0 v1
    exact ha2
  · rename_i v2 v3 v4
    extract_lets +onlyGivenNames l5
    clear_value l5
    refine Kept.ite ?_ ?_
    · exact ha2
    · extract_lets +onlyGivenNames l6
      clear_value l6
      extract_lets +onlyGivenNames l7
      have hl7 : Kept W r (l7) := by
        unfold l7
        refine Kept.upd 131072 ?_ ?_ rfl
        · exact hW.sub (by decide)
        · exact ha2
      clear_value l7
      extract_lets +onlyGivenNames l8
      have hl8 : Kept W r (l8) := by
        unfold l8
        refine recordFault_kept (hW.sub (by decide)) ?_
        exact bump32_kept (hW.sub (by decide)) hl7
      clear_value l8
      exact event_kept (hW.sub (by decide)) hl8

theorem storedWritten_kept {W : Nat} {r : State} {a0 : State} (hW : Sub 65536 W) (ha0 : Kept W r a0) :
    Kept W r (storedWritten a0) := by
  unfold Sys2Proof.Machine.storedWritten
  extract_lets +onlyGivenNames l0
  clear_value l0
  split
  · rename_i v1 v2
    exact ha0
  · rename_i v3 v4 v5
    refine Kept.ite ?_ ?_
    · exact ha0
    · extract_lets +onlyGivenNames l6
      clear_value l6
      extract_lets +onlyGivenNames l7
      clear_value l7
      extract_lets +onlyGivenNames l8
      clear_value l8
      refine Kept.upd 65536 ?_ ?_ rfl
      · exact hW.sub (by decide)
      · exact ha0

theorem powerCheck_kept {W : Nat} {r : State} {a0 : State} (hW : Sub 1769484 W) (ha0 : Kept W r a0) :
    Kept W r (powerCheck a0) := by
  unfold Sys2Proof.Machine.powerCheck
  refine Kept.ite ?_ ?_
  · exact ha0
  · extract_lets +onlyGivenNames l0
    clear_value l0
    extract_lets +onlyGivenNames l1
    clear_value l1
    extract_lets +onlyGivenNames l2
    have hl2 : Kept W r (l2) := by
      unfold l2
      refine windowAdd_kept (hW.sub (by decide)) ?_
      refine Kept.upd 65536 ?_ ?_ rfl
      · exact hW.sub (by decide)
      · exact ha0
    clear_value l2
    extract_lets +onlyGivenNames l3
    clear_value l3
    extract_lets +onlyGivenNames l4
    clear_value l4
    extract_lets +onlyGivenNames l5
    have hl5 : Kept W r (l5) := by
      unfold l5
      refine Kept.upd 65536 ?_ ?_ rfl
      · exact hW.sub (by decide)
      · exact hl2
    clear_value l5
    refine Kept.ite ?_ ?_
    · exact faultEvent_kept (hW.sub (by decide)) hl5
    · exact hl5

theorem logFlush_kept {W : Nat} {r : State} {a0 : State} (hW : Sub 1703936 W) (ha0 : Kept W r a0) :
    Kept W r (logFlush a0) := by
  unfold Sys2Proof.Machine.logFlush
  refine Kept.ite ?_ ?_
  · exact ha0
  · extract_lets +onlyGivenNames l0
    clear_value l0
    extract_lets +onlyGivenNames l1
    have hl1 : Kept W r (l1) := by
      unfold l1
      refine Kept.upd 131072 ?_ ?_ rfl
      · exact hW.sub (by decide)
      · exact ha0
    clear_value l1
    refine Kept.ite ?_ ?_
    · exact hl1
    · exact fault_kept (hW.sub (by decide)) hl1

end Sys2Proof.Laws
end

