-- ==== Sys2Proof/Laws/KeptDict.lean ====
section
/-! SUPPORT. What the operations of Sys2Proof/Machine/Dict.lean keep: one lemma for each, which callers cite. -/

namespace Sys2Proof.Laws

open Sys2Proof Sys2Proof.Machine

/-- What an answer keeps: in its state, and in what the device does after it. -/
def KeptA (W : Nat) (r : State) (a : Answer) : Prop := Kept W r a.state ∧ ∀ t, Kept W r t → Kept W r (a.after t)

theorem KeptA.plain {W : Nat} {r t : State} {st : Status} {typ : Nat} {value : Bytes} (h : Kept W r t) :
    KeptA W r { st := st, typ := typ, value := value, state := t } := ⟨h, fun _ k => k⟩

theorem KeptA.later {W : Nat} {r t : State} {st : Status} {typ : Nat} {value : Bytes} {f : State → State} (h : Kept W r t)
    (k : ∀ u, Kept W r u → Kept W r (f u)) : KeptA W r { st := st, typ := typ, value := value, state := t, after := f } := ⟨h, k⟩

theorem KeptA.ite {W : Nat} {r : State} {c : Prop} [Decidable c] {a b : Answer} (h : KeptA W r a) (k : KeptA W r b) :
    KeptA W r (if c then a else b) := by
  split
  · exact h
  · exact k

theorem deliver_kept {W : Nat} {r : State} {a0} {a1} {a2 : State} (hW : Sub 1048582 W) (ha2 : Kept W r a2) :
    Kept W r (deliver a0 a1 a2) := by
  unfold Sys2Proof.Machine.deliver
  split
  · rename_i v0 v1
    refine sendVector_kept (hW.sub (by decide)) ?_
    refine Kept.upd 2 ?_ ?_ rfl
    · exact hW.sub (by decide)
    · exact ha2
  · rename_i v2 v3
    refine send_kept (hW.sub (by decide)) ?_
    refine Kept.upd 2 ?_ ?_ rfl
    · exact hW.sub (by decide)
    · exact ha2
  · rename_i v4 v5 v6
    exact send_kept (hW.sub (by decide)) ha2

theorem refuseA_kept {W : Nat} {r : State} {a0} {a1 : State} (hW : Sub 0 W) (ha1 : Kept W r a1) :
    KeptA W r (refuseA a0 a1) := by
  unfold Sys2Proof.Machine.refuseA
  refine KeptA.plain ?_
  exact ha1

theorem readObject_kept {W : Nat} {r : State} {a0} {a1} {a2} {a3} {a4 : State} (hW : Sub 0 W) (ha4 : Kept W r a4) :
    KeptA W r (readObject a0 a1 a2 a3 a4) := by
  unfold Sys2Proof.Machine.readObject
  split
  · rename_i v0 v1 v2
    exact refuseA_kept (hW.sub (by decide)) ha4
  · rename_i v3 v4 v5
    refine KeptA.ite ?_ ?_
    · exact refuseA_kept (hW.sub (by decide)) ha4
    · refine KeptA.plain ?_
      exact ha4

theorem ofPair_kept {W : Nat} {r : State} {a0} (hW : Sub 0 W) (ha0 : Kept W r (a0).2) :
    KeptA W r (ofPair a0) := by
  unfold Sys2Proof.Machine.ofPair
  refine KeptA.plain ?_
  exact ha0

theorem stage_kept {W : Nat} {r : State} {a0} {a1} {a2} {a3} {a4 : State} (hW : Sub 2 W) (ha4 : Kept W r a4) :
    Kept W r (stage a0 a1 a2 a3 a4).2 := by
  unfold Sys2Proof.Machine.stage
  extract_lets +onlyGivenNames l0
  clear_value l0
  split
  · rename_i v1
    dsimp only
    exact ha4
  · rename_i v2
    extract_lets +onlyGivenNames l3
    clear_value l3
    split
    · rename_i v4
      dsimp only
      exact ha4
    · rename_i v5
      dsimp only
      exact setRole_kept (hW.sub (by decide)) ha4

theorem rebuildWrite_kept {W : Nat} {r : State} {a0 : State} (hW : Sub 512 W) (ha0 : Kept W r a0) :
    Kept W r (rebuildWrite a0).2 := by
  unfold Sys2Proof.Machine.rebuildWrite
  split
  · rename_i v0
    dsimp only
    exact ha0
  · rename_i v1
    exact rebuildStart_kept (hW.sub (by decide)) ha0

theorem writeWo_kept {W : Nat} {r : State} {a0} {a1} {a2} {a3} {a4} {a5 : State} (hW : Sub 4194303 W) (ha5 : Kept W r a5) :
    KeptA W r (writeWo a0 a1 a2 a3 a4 a5) := by
  unfold Sys2Proof.Machine.writeWo
  split
  · rename_i v0 v1
    refine ofPair_kept (hW.sub (by decide)) ?_
    exact commitWrite_kept (hW.sub (by decide)) ha5
  · rename_i v2 v3
    refine ofPair_kept (hW.sub (by decide)) ?_
    exact cancelCommit_kept (hW.sub (by decide)) ha5
  · rename_i v4 v5
    refine ofPair_kept (hW.sub (by decide)) ?_
    exact discardStaged_kept (hW.sub (by decide)) ha5
  · rename_i v6 v7
    refine ofPair_kept (hW.sub (by decide)) ?_
    exact rebuildWrite_kept (hW.sub (by decide)) ha5
  · rename_i v8 v9
    refine ofPair_kept (hW.sub (by decide)) ?_
    exact startFullScan_kept (hW.sub (by decide)) ha5
  · rename_i v10 v11
    refine ofPair_kept (hW.sub (by decide)) ?_
    exact qpRequest_kept (hW.sub (by decide)) ha5
  · rename_i v12 v13
    refine ofPair_kept (hW.sub (by decide)) ?_
    exact releaseWrite_kept (hW.sub (by decide)) ha5
  · rename_i v14 v15
    refine ofPair_kept (hW.sub (by decide)) ?_
    exact writeWeightKey_kept (hW.sub (by decide)) ha5
  · rename_i v16 v17
    refine ofPair_kept (hW.sub (by decide)) ?_
    exact startTest_kept (hW.sub (by decide)) ha5
  · rename_i v18 v19
    refine KeptA.later ?_ ?_
    · exact ha5
    · intro x20 h21
      exact scanWrite_kept (hW.sub (by decide)) h21
  · rename_i v22 v23
    refine KeptA.plain ?_
    exact discardSave_kept (hW.sub (by decide)) ha5
  · rename_i v24 v25
    refine KeptA.ite ?_ ?_
    · refine KeptA.later ?_ ?_
      · exact ha5
      · intro x26 h27
        exact requestWarm_kept (hW.sub (by decide)) h27
    · exact refuseA_kept (hW.sub (by decide)) ha5
  · rename_i v28 v29
    refine KeptA.plain ?_
    exact partitionReset_kept (hW.sub (by decide)) ha5
  · rename_i v30 v31
    refine KeptA.plain ?_
    exact clearLog_kept (hW.sub (by decide)) ha5
  · rename_i v32 v33 v34
    refine KeptA.ite ?_ ?_
    · refine ofPair_kept (hW.sub (by decide)) ?_
      exact startFormat_kept (hW.sub (by decide)) ha5
    · exact refuseA_kept (hW.sub (by decide)) ha5
  · rename_i v35 v36 v37 v38 v39 v40 v41 v42 v43 v44 v45 v46 v47 v48 v49 v50 v51
    exact refuseA_kept (hW.sub (by decide)) ha5

theorem restartWheel_kept {W : Nat} {r : State} {a0} {a1 : State} (hW : Sub 16 W) (ha1 : Kept W r a1) :
    Kept W r (restartWheel a0 a1).2 := by
  unfold Sys2Proof.Machine.restartWheel
  split
  · rename_i v0
    dsimp only
    exact ha1
  · rename_i v1
    extract_lets +onlyGivenNames l2
    clear_value l2
    dsimp only
    refine Kept.upd 16 ?_ ?_ rfl
    · exact hW.sub (by decide)
    · exact ha1

theorem putRw_kept {W : Nat} {r : State} {a0} {a1} {a2} {a3 : State} (hW : Sub 589824 W) (ha3 : Kept W r a3) :
    Kept W r (putRw a0 a1 a2 a3) := by
  unfold Sys2Proof.Machine.putRw
  refine markStored_kept (hW.sub (by decide)) ?_
  exact odSet_kept (hW.sub (by decide)) ha3

theorem keepOpen_kept {W : Nat} {r : State} {a0} {a1} {a2 : State} (hW : Sub 524288 W) (ha2 : Kept W r a2) :
    Kept W r (keepOpen a0 a1 a2) := by
  unfold Sys2Proof.Machine.keepOpen
  apply onlyIf_kept
  · intro x0 h1
    exact odSet_kept (hW.sub (by decide)) h1
  · exact ha2

theorem writeCtrConfig_kept {W : Nat} {r : State} {a0} {a1} {a2} {a3 : State} (hW : Sub 786432 W) (ha3 : Kept W r a3) :
    Kept W r (writeCtrConfig a0 a1 a2 a3).2 := by
  unfold Sys2Proof.Machine.writeCtrConfig
  split
  · rename_i v0
    dsimp only
    exact ha3
  · rename_i v1
    dsimp only
    refine odSet_kept (hW.sub (by decide)) ?_
    refine keepOpen_kept (hW.sub (by decide)) ?_
    refine keepOpen_kept (hW.sub (by decide)) ?_
    refine Kept.upd 262144 ?_ ?_ rfl
    · exact hW.sub (by decide)
    · exact ha3

theorem clearCounter_kept {W : Nat} {r : State} {a0} {a1} {a2 : State} (hW : Sub 524288 W) (ha2 : Kept W r a2) :
    Kept W r (clearCounter a0 a1 a2) := by
  unfold Sys2Proof.Machine.clearCounter
  extract_lets +onlyGivenNames l0
  have hl0 : Kept W r (l0) := by
    unfold l0
    exact odSet_kept (hW.sub (by decide)) ha2
  clear_value l0
  refine Kept.ite ?_ ?_
  · exact odSet_kept (hW.sub (by decide)) hl0
  · exact hl0

theorem writeRw_kept {W : Nat} {r : State} {a0} {a1} {a2} {a3} {a4 : State} (hW : Sub 2052126 W) (ha4 : Kept W r a4) :
    Kept W r (writeRw a0 a1 a2 a3 a4).2 := by
  unfold Sys2Proof.Machine.writeRw
  split
  · rename_i v0 v1
    exact restartWheel_kept (hW.sub (by decide)) ha4
  · rename_i v2 v3
    exact linkTestWrite_kept (hW.sub (by decide)) ha4
  · rename_i v4 v5
    dsimp only
    exact setRole_kept (hW.sub (by decide)) ha4
  · rename_i v6 v7
    dsimp only
    apply forEach_kept
    · intro x8 x9 h10
      exact lanesChanged_kept (hW.sub (by decide)) h10
    · exact putRw_kept (hW.sub (by decide)) ha4
  · rename_i v11 v12
    dsimp only
    apply forEach_kept
    · intro x13 x14 h15
      exact lanesChanged_kept (hW.sub (by decide)) h15
    · exact putRw_kept (hW.sub (by decide)) ha4
  · rename_i v16 v17
    dsimp only
    exact putRw_kept (hW.sub (by decide)) ha4
  · rename_i v18 v19 v20 v21 v22 v23 v24 v25
    split
    · rename_i v26 v27 v28
      split
      · rename_i v29
        exact writeCtrConfig_kept (hW.sub (by decide)) ha4
      · rename_i v30
        split
        · rename_i v31
          dsimp only
          exact clearCounter_kept (hW.sub (by decide)) ha4
        · rename_i v32
          dsimp only
          exact putRw_kept (hW.sub (by decide)) ha4
    · rename_i v33 v34
      dsimp only
      exact putRw_kept (hW.sub (by decide)) ha4

theorem writeObject_kept {W : Nat} {r : State} {a0} {a1} {a2} {a3} {a4} {a5 : State} (hW : Sub 4194303 W) (ha5 : Kept W r a5) :
    KeptA W r (writeObject a0 a1 a2 a3 a4 a5) := by
  unfold Sys2Proof.Machine.writeObject
  split
  · rename_i v0 v1 v2
    exact refuseA_kept (hW.sub (by decide)) ha5
  · rename_i v3 v4 v5
    extract_lets +onlyGivenNames l6
    clear_value l6
    refine KeptA.ite ?_ ?_
    · exact refuseA_kept (hW.sub (by decide)) ha5
    · split
      · rename_i v7 v8
        refine ofPair_kept (hW.sub (by decide)) ?_
        exact stage_kept (hW.sub (by decide)) ha5
      · rename_i v9 v10
        exact writeWo_kept (hW.sub (by decide)) ha5
      · rename_i v11 v12 v13
        refine ofPair_kept (hW.sub (by decide)) ?_
        exact writeRw_kept (hW.sub (by decide)) ha5

theorem readBlockObject_kept {W : Nat} {r : State} {a0} {a1} {a2} {a3} {a4} {a5 : State} (hW : Sub 0 W) (ha5 : Kept W r a5) :
    KeptA W r (readBlockObject a0 a1 a2 a3 a4 a5) := by
  unfold Sys2Proof.Machine.readBlockObject
  split
  · rename_i v0 v1 v2
    exact refuseA_kept (hW.sub (by decide)) ha5
  · rename_i v3 v4 v5
    refine KeptA.ite ?_ ?_
    · refine KeptA.ite ?_ ?_
      · refine KeptA.plain ?_
        exact ha5
      · exact refuseA_kept (hW.sub (by decide)) ha5
    · refine KeptA.ite ?_ ?_
      · exact refuseA_kept (hW.sub (by decide)) ha5
      · refine KeptA.plain ?_
        exact ha5

theorem dropWrite_kept {W : Nat} {r : State} {a0} {a1} {a2} {a3 : State} (hW : Sub 2 W) (ha3 : Kept W r a3) :
    Kept W r (dropWrite a0 a1 a2 a3) := by
  unfold Sys2Proof.Machine.dropWrite
  refine Kept.upd 2 ?_ ?_ rfl
  · exact hW.sub (by decide)
  · exact ha3

theorem keepBlocks_kept {W : Nat} {r : State} {a0} {a1} {a2} {a3} {a4} {a5 : State} (hW : Sub 2 W) (ha5 : Kept W r a5) :
    Kept W r (keepBlocks a0 a1 a2 a3 a4 a5) := by
  unfold Sys2Proof.Machine.keepBlocks
  extract_lets +onlyGivenNames l0
  have hl0 : Kept W r (l0) := by
    unfold l0
    exact dropWrite_kept (hW.sub (by decide)) ha5
  clear_value l0
  extract_lets +onlyGivenNames l1
  clear_value l1
  refine Kept.upd 2 ?_ ?_ rfl
  · exact hW.sub (by decide)
  · exact hl0

theorem imageBlock_kept {W : Nat} {r : State} {a0} {a1} {a2} {a3} {a4 : State} (hW : Sub 4194303 W) (ha4 : Kept W r a4) :
    KeptA W r (imageBlock a0 a1 a2 a3 a4) := by
  unfold Sys2Proof.Machine.imageBlock
  extract_lets +onlyGivenNames l0
  clear_value l0
  refine KeptA.ite ?_ ?_
  · exact refuseA_kept (hW.sub (by decide)) ha4
  · split
    · rename_i v1 v2
      exact refuseA_kept (hW.sub (by decide)) ha4
    · rename_i v3 v4 v5
      refine KeptA.plain ?_
      refine odSet_kept (hW.sub (by decide)) ?_
      exact keepBlocks_kept (hW.sub (by decide)) ha4
    · rename_i v6 v7 v8
      extract_lets +onlyGivenNames l9
      clear_value l9
      extract_lets +onlyGivenNames l10
      have hl10 : Kept W r (l10) := by
        unfold l10
        exact dropWrite_kept (hW.sub (by decide)) ha4
      clear_value l10
      refine KeptA.ite ?_ ?_
      · refine KeptA.later ?_ ?_
        · exact hl10
        · intro x11 h12
          exact recoveryWhole_kept (hW.sub (by decide)) h12
      · refine KeptA.plain ?_
        exact updateWhole_kept (hW.sub (by decide)) hl10

theorem writeBlockObject_kept {W : Nat} {r : State} {a0} {a1} {a2} {a3} {a4} {a5} {a6} {a7 : State} (hW : Sub 4194303 W) (ha7 : Kept W r a7) :
    KeptA W r (writeBlockObject a0 a1 a2 a3 a4 a5 a6 a7) := by
  unfold Sys2Proof.Machine.writeBlockObject
  split
  · rename_i v0 v1 v2
    exact refuseA_kept (hW.sub (by decide)) ha7
  · rename_i v3 v4 v5
    refine KeptA.ite ?_ ?_
    · exact refuseA_kept (hW.sub (by decide)) ha7
    · refine KeptA.ite ?_ ?_
      · exact imageBlock_kept (hW.sub (by decide)) ha7
      · refine KeptA.ite ?_ ?_
        · exact refuseA_kept (hW.sub (by decide)) ha7
        · split
          · rename_i v6 v7
            exact refuseA_kept (hW.sub (by decide)) ha7
          · rename_i v8 v9 v10
            refine KeptA.plain ?_
            exact keepBlocks_kept (hW.sub (by decide)) ha7
          · rename_i v11 v12 v13
            extract_lets +onlyGivenNames l14
            have hl14 : Kept W r (l14) := by
              unfold l14
              exact dropWrite_kept (hW.sub (by decide)) ha7
            clear_value l14
            refine KeptA.ite ?_ ?_
            · exact refuseA_kept (hW.sub (by decide)) hl14
            · refine ofPair_kept (hW.sub (by decide)) ?_
              exact stage_kept (hW.sub (by decide)) hl14

theorem perform_kept {W : Nat} {r : State} {a0} {a1} {a2} {a3 : State} (hW : Sub 4194303 W) (ha3 : Kept W r a3) :
    KeptA W r (perform a0 a1 a2 a3) := by
  unfold Sys2Proof.Machine.perform
  extract_lets +onlyGivenNames l0
  clear_value l0
  extract_lets +onlyGivenNames l1
  clear_value l1
  extract_lets +onlyGivenNames l2
  clear_value l2
  extract_lets +onlyGivenNames l3
  clear_value l3
  refine KeptA.ite ?_ ?_
  · exact refuseA_kept (hW.sub (by decide)) ha3
  · refine KeptA.ite ?_ ?_
    · exact refuseA_kept (hW.sub (by decide)) ha3
    · split
      · rename_i v4 v5
        exact readObject_kept (hW.sub (by decide)) ha3
      · rename_i v6 v7
        exact writeObject_kept (hW.sub (by decide)) ha3
      · rename_i v8 v9
        exact readBlockObject_kept (hW.sub (by decide)) ha3
      · rename_i v10 v11
        exact writeBlockObject_kept (hW.sub (by decide)) ha3
      · rename_i v12 v13
        exact writeObject_kept (hW.sub (by decide)) ha3
      · rename_i v14 v15 v16 v17 v18 v19
        exact refuseA_kept (hW.sub (by decide)) ha3

theorem keepTag_kept {W : Nat} {r : State} {a0} {a1} {a2} {a3 : State} (hW : Sub 2 W) (ha3 : Kept W r a3) :
    Kept W r (keepTag a0 a1 a2 a3) := by
  unfold Sys2Proof.Machine.keepTag
  extract_lets +onlyGivenNames l0
  clear_value l0
  extract_lets +onlyGivenNames l1
  clear_value l1
  refine Kept.upd 2 ?_ ?_ rfl
  · exact hW.sub (by decide)
  · exact ha3

theorem serveNew_kept {W : Nat} {r : State} {a0} {a1} {a2} {a3 : State} (hW : Sub 4194303 W) (ha3 : Kept W r a3) :
    Kept W r (serveNew a0 a1 a2 a3) := by
  have h := perform_kept (a0 := a0) (a1 := a1) (a2 := a2) hW ha3
  unfold serveNew
  exact h.2 _ (deliver_kept (hW.sub (by decide)) (keepTag_kept (hW.sub (by decide)) h.1))

theorem serveDelivered_kept {W : Nat} {r : State} {a0} {a1} {a2} {a3 : State} (hW : Sub 4194303 W) (ha3 : Kept W r a3) :
    Kept W r (serveDelivered a0 a1 a2 a3) := by
  unfold Sys2Proof.Machine.serveDelivered
  split
  · rename_i v0 v1 v2
    exact deliver_kept (hW.sub (by decide)) ha3
  · rename_i v3 v4
    exact serveNew_kept (hW.sub (by decide)) ha3

theorem serve_kept {W : Nat} {r : State} {a0} {a1} {a2} {a3 : State} (hW : Sub 4194303 W) (ha3 : Kept W r a3) :
    Kept W r (serve a0 a1 a2 a3) := by
  unfold Sys2Proof.Machine.serve
  refine Kept.ite ?_ ?_
  · exact ha3
  · refine Kept.ite ?_ ?_
    · split
      · rename_i v0 v1
        exact refuseField_kept (hW.sub (by decide)) ha3
      · rename_i v2 v3
        exact ha3
    · exact serveDelivered_kept (hW.sub (by decide)) ha3

theorem serveIf_kept {W : Nat} {r : State} {a0} {a1} {a2} {a3 : State} (hW : Sub 4194303 W) (ha3 : Kept W r a3) :
    Kept W r (serveIf a0 a1 a2 a3) := by
  unfold Sys2Proof.Machine.serveIf
  refine Kept.ite ?_ ?_
  · exact serve_kept (hW.sub (by decide)) ha3
  · exact ha3

theorem mbxSubmit_kept {W : Nat} {r : State} {a0} {a1} {a2 : State} (hW : Sub 2 W) (ha2 : Kept W r a2) :
    Kept W r (mbxSubmit a0 a1 a2) := by
  unfold Sys2Proof.Machine.mbxSubmit
  refine Kept.ite ?_ ?_
  · exact ha2
  · refine Kept.ite ?_ ?_
    · refine Kept.upd 2 ?_ ?_ rfl
      · exact hW.sub (by decide)
      · exact ha2
    · refine Kept.upd 2 ?_ ?_ rfl
      · exact hW.sub (by decide)
      · exact ha2

theorem record_kept {W : Nat} {r : State} {a0} {a1} {a2} {a3} {a4 : State} (hW : Sub 4194303 W) (ha4 : Kept W r a4) :
    Kept W r (record a0 a1 a2 a3 a4) := by
  unfold Sys2Proof.Machine.record
  refine Kept.ite ?_ ?_
  · exact ha4
  · split
    · rename_i v0 v1
      exact refuseField_kept (hW.sub (by decide)) ha4
    · rename_i v2 v3 v4
      refine Kept.ite ?_ ?_
      · exact ha4
      · extract_lets +onlyGivenNames l5
        clear_value l5
        extract_lets +onlyGivenNames l6
        clear_value l6
        extract_lets +onlyGivenNames l7
        have hl7 : Kept W r (l7) := by
          unfold l7
          refine Kept.upd 2 ?_ ?_ rfl
          · exact hW.sub (by decide)
          · exact ha4
        clear_value l7
        split
        · rename_i v8
          exact endSession_kept (hW.sub (by decide)) hl7
        · rename_i v9 v10
          exact serve_kept (hW.sub (by decide)) hl7

theorem blockTimeout_kept {W : Nat} {r : State} {a0} {a1 : State} (hW : Sub 524290 W) (ha1 : Kept W r a1) :
    Kept W r (blockTimeout a0 a1) := by
  unfold Sys2Proof.Machine.blockTimeout
  extract_lets +onlyGivenNames l0
  clear_value l0
  extract_lets +onlyGivenNames l1
  clear_value l1
  extract_lets +onlyGivenNames l2
  clear_value l2
  extract_lets +onlyGivenNames l3
  have hl3 : Kept W r (l3) := by
    unfold l3
    refine Kept.upd 2 ?_ ?_ rfl
    · exact hW.sub (by decide)
    · exact ha1
  clear_value l3
  refine Kept.ite ?_ ?_
  · refine odSet_kept (hW.sub (by decide)) ?_
    exact odSet_kept (hW.sub (by decide)) hl3
  · exact hl3

theorem mbxDone_kept {W : Nat} {r : State} {a0} {a1 : State} (hW : Sub 2 W) (ha1 : Kept W r a1) :
    Kept W r (mbxDone a0 a1) := by
  unfold Sys2Proof.Machine.mbxDone
  refine Kept.ite ?_ ?_
  · exact ha1
  · refine Kept.upd 2 ?_ ?_ rfl
    · exact hW.sub (by decide)
    · exact ha1

theorem getMeasurements_kept {W : Nat} {r : State} {a0} {a1} {a2} {a3 : State} (hW : Sub 1048576 W) (ha3 : Kept W r a3) :
    Kept W r (getMeasurements a0 a1 a2 a3) := by
  unfold Sys2Proof.Machine.getMeasurements
  refine Kept.ite ?_ ?_
  · exact ha3
  · refine Kept.ite ?_ ?_
    · exact send_kept (hW.sub (by decide)) ha3
    · split
      · rename_i v0 v1
        exact send_kept (hW.sub (by decide)) ha3
      · rename_i v2 v3 v4
        exact send_kept (hW.sub (by decide)) ha3

end Sys2Proof.Laws
end

