-- ==== Sys2Proof/Laws/KeptExec.lean ====
section
/-! SUPPORT. What each command keeps. -/

namespace Sys2Proof.Laws

open Sys2Proof Sys2Proof.Machine

theorem execCompletionHeadDoorbell_kept {s t : State} {a0} {a1} (h : execCompletionHeadDoorbell a0 a1 s = .next t) :
    Kept 8204 s t := by
  have hW : Sub 8204 8204 := Sub.refl _
  have hs : Kept 8204 s s := Kept.refl _ _
  unfold execCompletionHeadDoorbell at h
  cases h
  refine completionHead_kept (hW.sub (by decide)) ?_
  exact rang_kept (hW.sub (by decide)) hs

theorem execCommandTailDoorbell_kept {s t : State} {a0} {a1} {a2} (h : execCommandTailDoorbell a0 a1 a2 s = .next t) :
    Kept 8204 s t := by
  have hW : Sub 8204 8204 := Sub.refl _
  have hs : Kept 8204 s s := Kept.refl _ _
  unfold execCommandTailDoorbell at h
  cases h
  refine commandTail_kept (hW.sub (by decide)) ?_
  exact rang_kept (hW.sub (by decide)) hs

theorem execFence_kept {s t : State} {a0} (h : execFence a0 s = .next t) :
    Kept 532492 s t := by
  have hW : Sub 532492 532492 := Sub.refl _
  have hs : Kept 532492 s s := Kept.refl _ _
  unfold execFence at h
  cases h
  apply startCmd_kept
  · exact hW.sub (by decide)
  · intro x0 x1 h2
    exact runFence_kept (hW.sub (by decide)) h2
  · exact hs

theorem execEventHeadDoorbell_kept {s t : State} {a0} {a1} (h : execEventHeadDoorbell a0 a1 s = .next t) :
    Kept 12 s t := by
  have hW : Sub 12 12 := Sub.refl _
  have hs : Kept 12 s s := Kept.refl _ _
  unfold execEventHeadDoorbell at h
  cases h
  refine eventHead_kept (hW.sub (by decide)) ?_
  exact rang_kept (hW.sub (by decide)) hs

theorem execWaitCount_kept {s t : State} {a0} (h : execWaitCount a0 s = .next t) :
    Kept 532492 s t := by
  have hW : Sub 532492 532492 := Sub.refl _
  have hs : Kept 532492 s s := Kept.refl _ _
  unfold execWaitCount at h
  cases h
  apply startCmd_kept
  · exact hW.sub (by decide)
  · intro x0 x1 h2
    exact runWaitCount_kept (hW.sub (by decide)) h2
  · exact hs

theorem execSeqClose_kept {s t : State} {a0} (h : execSeqClose a0 s = .next t) :
    Kept 537580 s t := by
  have hW : Sub 537580 537580 := Sub.refl _
  have hs : Kept 537580 s s := Kept.refl _ _
  unfold execSeqClose at h
  cases h
  apply startCmd_kept
  · exact hW.sub (by decide)
  · intro x0 x1 h2
    exact runSeqClose_kept (hW.sub (by decide)) h2
  · exact hs

theorem execColSeal_kept {s t : State} {a0} (h : execColSeal a0 s = .next t) :
    Kept 532620 s t := by
  have hW : Sub 532620 532620 := Sub.refl _
  have hs : Kept 532620 s s := Kept.refl _ _
  unfold execColSeal at h
  cases h
  apply startCmd_kept
  · exact hW.sub (by decide)
  · intro x0 x1 h2
    exact runColSeal_kept (hW.sub (by decide)) h2
  · exact hs

theorem execKvAppend_kept {s t : State} {a0} (h : execKvAppend a0 s = .next t) :
    Kept 2651084 s t := by
  have hW : Sub 2651084 2651084 := Sub.refl _
  have hs : Kept 2651084 s s := Kept.refl _ _
  unfold execKvAppend at h
  cases h
  apply startCmd_kept
  · exact hW.sub (by decide)
  · intro x0 x1 h2
    exact runKvAppend_kept (hW.sub (by decide)) h2
  · exact hs

theorem execColDiscard_kept {s t : State} {a0} (h : execColDiscard a0 s = .next t) :
    Kept 2634700 s t := by
  have hW : Sub 2634700 2634700 := Sub.refl _
  have hs : Kept 2634700 s s := Kept.refl _ _
  unfold execColDiscard at h
  cases h
  apply startCmd_kept
  · exact hW.sub (by decide)
  · intro x0 x1 h2
    exact runColDiscard_kept (hW.sub (by decide)) h2
  · exact hs

theorem execColUnpin_kept {s t : State} {a0} (h : execColUnpin a0 s = .next t) :
    Kept 536972 s t := by
  have hW : Sub 536972 536972 := Sub.refl _
  have hs : Kept 536972 s s := Kept.refl _ _
  unfold execColUnpin at h
  cases h
  apply startCmd_kept
  · exact hW.sub (by decide)
  · intro x0 x1 h2
    exact runColUnpin_kept (hW.sub (by decide)) h2
  · exact hs

theorem execSeqOpen_kept {s t : State} {a0} (h : execSeqOpen a0 s = .next t) :
    Kept 2629772 s t := by
  have hW : Sub 2629772 2629772 := Sub.refl _
  have hs : Kept 2629772 s s := Kept.refl _ _
  unfold execSeqOpen at h
  cases h
  apply startCmd_kept
  · exact hW.sub (by decide)
  · intro x0 x1 h2
    exact runSeqOpen_kept (hW.sub (by decide)) h2
  · exact hs

theorem execSeqTruncate_kept {s t : State} {a0} (h : execSeqTruncate a0 s = .next t) :
    Kept 2634700 s t := by
  have hW : Sub 2634700 2634700 := Sub.refl _
  have hs : Kept 2634700 s s := Kept.refl _ _
  unfold execSeqTruncate at h
  cases h
  apply startCmd_kept
  · exact hW.sub (by decide)
  · intro x0 x1 h2
    exact runSeqTruncate_kept (hW.sub (by decide)) h2
  · exact hs

theorem execColPin_kept {s t : State} {a0} (h : execColPin a0 s = .next t) :
    Kept 536972 s t := by
  have hW : Sub 536972 536972 := Sub.refl _
  have hs : Kept 536972 s s := Kept.refl _ _
  unfold execColPin at h
  cases h
  apply startCmd_kept
  · exact hW.sub (by decide)
  · intro x0 x1 h2
    exact runColPin_kept (hW.sub (by decide)) h2
  · exact hs

theorem execSeqFork_kept {s t : State} {a0} (h : execSeqFork a0 s = .next t) :
    Kept 2634732 s t := by
  have hW : Sub 2634732 2634732 := Sub.refl _
  have hs : Kept 2634732 s s := Kept.refl _ _
  unfold execSeqFork at h
  cases h
  apply startCmd_kept
  · exact hW.sub (by decide)
  · intro x0 x1 h2
    exact runSeqFork_kept (hW.sub (by decide)) h2
  · exact hs

theorem execColMove_kept {s t : State} {a0} (h : execColMove a0 s = .next t) :
    Kept 2650572 s t := by
  have hW : Sub 2650572 2650572 := Sub.refl _
  have hs : Kept 2650572 s s := Kept.refl _ _
  unfold execColMove at h
  cases h
  apply startCmd_kept
  · exact hW.sub (by decide)
  · intro x0 x1 h2
    exact runColMove_kept (hW.sub (by decide)) h2
  · exact hs

theorem execObjRead_kept {s t : State} {a0} (h : execObjRead a0 s = .next t) :
    Kept 1732876 s t := by
  have hW : Sub 1732876 1732876 := Sub.refl _
  have hs : Kept 1732876 s s := Kept.refl _ _
  unfold execObjRead at h
  cases h
  apply startCmd_kept
  · exact hW.sub (by decide)
  · intro x0 x1 h2
    exact runObjRead_kept (hW.sub (by decide)) h2
  · exact hs

theorem execObjMove_kept {s t : State} {a0} (h : execObjMove a0 s = .next t) :
    Kept 2683277 s t := by
  have hW : Sub 2683277 2683277 := Sub.refl _
  have hs : Kept 2683277 s s := Kept.refl _ _
  unfold execObjMove at h
  cases h
  apply startCmd_kept
  · exact hW.sub (by decide)
  · intro x0 x1 h2
    exact runObjMove_kept (hW.sub (by decide)) h2
  · exact hs

theorem execCxlMemWrite_kept {s t : State} {a0} {a1} {a2} (h : execCxlMemWrite a0 a1 a2 s = .next t) :
    Kept 2117997 s t := by
  have hW : Sub 2117997 2117997 := Sub.refl _
  have hs : Kept 2117997 s s := Kept.refl _ _
  unfold execCxlMemWrite at h
  cases h
  exact cxlWrite_kept (hW.sub (by decide)) hs

theorem execObjPolicy_kept {s t : State} {a0} (h : execObjPolicy a0 s = .next t) :
    Kept 2650573 s t := by
  have hW : Sub 2650573 2650573 := Sub.refl _
  have hs : Kept 2650573 s s := Kept.refl _ _
  unfold execObjPolicy at h
  cases h
  apply startCmd_kept
  · exact hW.sub (by decide)
  · intro x0 x1 h2
    exact runObjPolicy_kept (hW.sub (by decide)) h2
  · exact hs

theorem execObjCreate_kept {s t : State} {a0} (h : execObjCreate a0 s = .next t) :
    Kept 2633997 s t := by
  have hW : Sub 2633997 2633997 := Sub.refl _
  have hs : Kept 2633997 s s := Kept.refl _ _
  unfold execObjCreate at h
  cases h
  apply startCmd_kept
  · exact hW.sub (by decide)
  · intro x0 x1 h2
    exact runObjCreate_kept (hW.sub (by decide)) h2
  · exact hs

theorem execPortDownWaitExpiry_kept {s t : State} {a0} (h : execPortDownWaitExpiry a0 s = .next t) :
    Kept 3699149 s t := by
  have hW : Sub 3699149 3699149 := Sub.refl _
  have hs : Kept 3699149 s s := Kept.refl _ _
  unfold execPortDownWaitExpiry at h
  cases h
  exact portDownWait_kept (hW.sub (by decide)) hs

theorem execCxlMemRead_kept {s t : State} {a0} {a1} {a2} (h : execCxlMemRead a0 a1 a2 s = .next t) :
    Kept 1995757 s t := by
  have hW : Sub 1995757 1995757 := Sub.refl _
  have hs : Kept 1995757 s s := Kept.refl _ _
  unfold execCxlMemRead at h
  cases h
  exact cxlRead_kept (hW.sub (by decide)) hs

theorem execObjWrite_kept {s t : State} {a0} (h : execObjWrite a0 s = .next t) :
    Kept 2683213 s t := by
  have hW : Sub 2683213 2683213 := Sub.refl _
  have hs : Kept 2683213 s s := Kept.refl _ _
  unfold execObjWrite at h
  cases h
  apply startCmd_kept
  · exact hW.sub (by decide)
  · intro x0 x1 h2
    exact runObjWrite_kept (hW.sub (by decide)) h2
  · exact hs

theorem execSaveRingCopyEnd_kept {s t : State} (h : execSaveRingCopyEnd s = .next t) :
    Kept 2716621 s t := by
  have hW : Sub 2716621 2716621 := Sub.refl _
  have hs : Kept 2716621 s s := Kept.refl _ _
  unfold execSaveRingCopyEnd at h
  cases h
  refine tendPrefix_kept (hW.sub (by decide)) ?_
  exact saveRingCopyEnd_kept (hW.sub (by decide)) hs

theorem execPfxEvict_kept {s t : State} {a0} (h : execPfxEvict a0 s = .next t) :
    Kept 2651085 s t := by
  have hW : Sub 2651085 2651085 := Sub.refl _
  have hs : Kept 2651085 s s := Kept.refl _ _
  unfold execPfxEvict at h
  cases h
  refine tendPrefix_kept (hW.sub (by decide)) ?_
  apply startCmd_kept
  · exact hW.sub (by decide)
  · intro x0 x1 h2
    exact runPfxEvict_kept (hW.sub (by decide)) h2
  · exact hs

theorem execPfxCommit_kept {s t : State} {a0} (h : execPfxCommit a0 s = .next t) :
    Kept 553933 s t := by
  have hW : Sub 553933 553933 := Sub.refl _
  have hs : Kept 553933 s s := Kept.refl _ _
  unfold execPfxCommit at h
  cases h
  apply startCmd_kept
  · exact hW.sub (by decide)
  · intro x0 x1 h2
    exact runPfxCommit_kept (hW.sub (by decide)) h2
  · exact hs

theorem execPfxLookup_kept {s t : State} {a0} (h : execPfxLookup a0 s = .next t) :
    Kept 2630540 s t := by
  have hW : Sub 2630540 2630540 := Sub.refl _
  have hs : Kept 2630540 s s := Kept.refl _ _
  unfold execPfxLookup at h
  cases h
  apply startCmd_kept
  · exact hW.sub (by decide)
  · intro x0 x1 h2
    exact runPfxLookup_kept (hW.sub (by decide)) h2
  · exact hs

theorem execBlockEncoded_kept {s t : State} {a0} {a1} {a2} (h : execBlockEncoded a0 a1 a2 s = .next t) :
    Kept 553293 s t := by
  have hW : Sub 553293 553293 := Sub.refl _
  have hs : Kept 553293 s s := Kept.refl _ _
  unfold execBlockEncoded at h
  cases h
  exact blockEncoded_kept (hW.sub (by decide)) hs

theorem execCompress_kept {s t : State} {a0} (h : execCompress a0 s = .next t) :
    Kept 532492 s t := by
  have hW : Sub 532492 532492 := Sub.refl _
  have hs : Kept 532492 s s := Kept.refl _ _
  unfold execCompress at h
  cases h
  apply startCmd_kept
  · exact hW.sub (by decide)
  · intro x0 x1 h2
    exact runCompress_kept (hW.sub (by decide)) h2
  · exact hs

theorem execTableLoad_kept {s t : State} {a0} (h : execTableLoad a0 s = .next t) :
    Kept 533772 s t := by
  have hW : Sub 533772 533772 := Sub.refl _
  have hs : Kept 533772 s s := Kept.refl _ _
  unfold execTableLoad at h
  cases h
  apply startCmd_kept
  · exact hW.sub (by decide)
  · intro x0 x1 h2
    exact runTableLoad_kept (hW.sub (by decide)) h2
  · exact hs

theorem execTableBuild_kept {s t : State} {a0} (h : execTableBuild a0 s = .next t) :
    Kept 532492 s t := by
  have hW : Sub 532492 532492 := Sub.refl _
  have hs : Kept 532492 s s := Kept.refl _ _
  unfold execTableBuild at h
  cases h
  apply startCmd_kept
  · exact hW.sub (by decide)
  · intro x0 x1 h2
    exact runTableBuild_kept (hW.sub (by decide)) h2
  · exact hs

theorem execSpecConfirm_kept {s t : State} {a0} (h : execSpecConfirm a0 s = .next t) :
    Kept 4092909 s t := by
  have hW : Sub 4092909 4092909 := Sub.refl _
  have hs : Kept 4092909 s s := Kept.refl _ _
  unfold execSpecConfirm at h
  cases h
  apply startCmd_kept
  · exact hW.sub (by decide)
  · intro x0 x1 h2
    exact runSpecConfirm_kept (hW.sub (by decide)) h2
  · exact hs

theorem execJobComplete_kept {s t : State} {a0} (h : execJobComplete a0 s = .next t) :
    Kept 4092909 s t := by
  have hW : Sub 4092909 4092909 := Sub.refl _
  have hs : Kept 4092909 s s := Kept.refl _ _
  unfold execJobComplete at h
  cases h
  exact jobComplete_kept (hW.sub (by decide)) hs

theorem execItemComplete_kept {s t : State} {a0} {a1} (h : execItemComplete a0 a1 s = .next t) :
    Kept 4092909 s t := by
  have hW : Sub 4092909 4092909 := Sub.refl _
  have hs : Kept 4092909 s s := Kept.refl _ _
  unfold execItemComplete at h
  cases h
  exact itemComplete_kept (hW.sub (by decide)) hs

theorem execAttn_kept {s t : State} {a0} (h : execAttn a0 s = .next t) :
    Kept 2913261 s t := by
  have hW : Sub 2913261 2913261 := Sub.refl _
  have hs : Kept 2913261 s s := Kept.refl _ _
  unfold execAttn at h
  cases h
  apply startCmd_kept
  · exact hW.sub (by decide)
  · intro x0 x1 h2
    exact runAttn_kept (hW.sub (by decide)) h2
  · exact hs

theorem execAttnBwd_kept {s t : State} {a0} (h : execAttnBwd a0 s = .next t) :
    Kept 2913261 s t := by
  have hW : Sub 2913261 2913261 := Sub.refl _
  have hs : Kept 2913261 s s := Kept.refl _ _
  unfold execAttnBwd at h
  cases h
  apply startCmd_kept
  · exact hW.sub (by decide)
  · intro x0 x1 h2
    exact runAttnBwd_kept (hW.sub (by decide)) h2
  · exact hs

theorem execCompaction_kept {s t : State} {a0} (h : execCompaction a0 s = .next t) :
    Kept 4092909 s t := by
  have hW : Sub 4092909 4092909 := Sub.refl _
  have hs : Kept 4092909 s s := Kept.refl _ _
  unfold execCompaction at h
  cases h
  exact compaction_kept (hW.sub (by decide)) hs

theorem execTileLanded_kept {s t : State} {a0} {a1} {a2} {a3} (h : execTileLanded a0 a1 a2 a3 s = .next t) :
    Kept 4092909 s t := by
  have hW : Sub 4092909 4092909 := Sub.refl _
  have hs : Kept 4092909 s s := Kept.refl _ _
  unfold execTileLanded at h
  cases h
  exact tileLanded_kept (hW.sub (by decide)) hs

theorem execDeferredCommandStart_kept {s t : State} {a0} (h : execDeferredCommandStart a0 s = .next t) :
    Kept 4126701 s t := by
  have hW : Sub 4126701 4126701 := Sub.refl _
  have hs : Kept 4126701 s s := Kept.refl _ _
  unfold execDeferredCommandStart at h
  cases h
  exact deferredStart_kept (hW.sub (by decide)) hs

theorem execBridgeReset_kept {s t : State} {a0} {a1} (h : execBridgeReset a0 a1 s = .next t) :
    Kept 3830733 s t := by
  have hW : Sub 3830733 3830733 := Sub.refl _
  have hs : Kept 3830733 s s := Kept.refl _ _
  unfold execBridgeReset at h
  cases h
  apply answer_kept
  · exact hW.sub (by decide)
  · intro x0 x1 h2
    exact resetAnswer_kept (hW.sub (by decide)) h2
  · exact hs

theorem execBridgeRead_kept {s t : State} {a0} {a1} {a2} (h : execBridgeRead a0 a1 a2 s = .next t) :
    Kept 3830733 s t := by
  have hW : Sub 3830733 3830733 := Sub.refl _
  have hs : Kept 3830733 s s := Kept.refl _ _
  unfold execBridgeRead at h
  cases h
  apply answer_kept
  · exact hW.sub (by decide)
  · intro x0 x1 h2
    exact readDone_kept (hW.sub (by decide)) h2
  · exact hs

theorem execJournalHalfFull_kept {s t : State} {a0} (h : execJournalHalfFull a0 s = .next t) :
    Kept 20480 s t := by
  have hW : Sub 20480 20480 := Sub.refl _
  have hs : Kept 20480 s s := Kept.refl _ _
  unfold execJournalHalfFull at h
  cases h
  exact journalHalf_kept (hW.sub (by decide)) hs

theorem execCheckpoint_kept {s t : State} {a0} (h : execCheckpoint a0 s = .next t) :
    Kept 20480 s t := by
  have hW : Sub 20480 20480 := Sub.refl _
  have hs : Kept 20480 s s := Kept.refl _ _
  unfold execCheckpoint at h
  cases h
  exact checkpointDue_kept (hW.sub (by decide)) hs

theorem execShelfStartup_kept {s t : State} {a0} {a1} (h : execShelfStartup a0 a1 s = .next t) :
    Kept 20480 s t := by
  have hW : Sub 20480 20480 := Sub.refl _
  have hs : Kept 20480 s s := Kept.refl _ _
  unfold execShelfStartup at h
  cases h
  exact shelfStartup_kept (hW.sub (by decide)) hs

theorem execParam_kept {s t : State} {a0} {a1} (h : execParam a0 a1 s = .next t) :
    Kept 3830733 s t := by
  have hW : Sub 3830733 3830733 := Sub.refl _
  have hs : Kept 3830733 s s := Kept.refl _ _
  unfold execParam at h
  cases h
  apply answer_kept
  · exact hW.sub (by decide)
  · intro x0 x1 h2
    exact paramSeen_kept (hW.sub (by decide)) h2
  · exact hs

theorem execBadmap_kept {s t : State} {a0} {a1} {a2} (h : execBadmap a0 a1 a2 s = .next t) :
    Kept 3830733 s t := by
  have hW : Sub 3830733 3830733 := Sub.refl _
  have hs : Kept 3830733 s s := Kept.refl _ _
  unfold execBadmap at h
  cases h
  apply answer_kept
  · exact hW.sub (by decide)
  · intro x0 x1 h2
    exact badmapSeen_kept (hW.sub (by decide)) h2
  · exact hs

theorem execProgram_kept {s t : State} {a0} {a1} (h : execProgram a0 a1 s = .next t) :
    Kept 4192237 s t := by
  have hW : Sub 4192237 4192237 := Sub.refl _
  have hs : Kept 4192237 s s := Kept.refl _ _
  unfold execProgram at h
  cases h
  apply answer_kept
  · exact hW.sub (by decide)
  · intro x0 x1 h2
    exact programAnswer_kept (hW.sub (by decide)) h2
  · exact hs

theorem execReadMeta_kept {s t : State} {a0} {a1} {a2} (h : execReadMeta a0 a1 a2 s = .next t) :
    Kept 3830733 s t := by
  have hW : Sub 3830733 3830733 := Sub.refl _
  have hs : Kept 3830733 s s := Kept.refl _ _
  unfold execReadMeta at h
  cases h
  apply answer_kept
  · exact hW.sub (by decide)
  · intro x0 x1 h2
    exact metaDone_kept (hW.sub (by decide)) h2
  · exact hs

theorem execErase_kept {s t : State} {a0} {a1} (h : execErase a0 a1 s = .next t) :
    Kept 3830733 s t := by
  have hW : Sub 3830733 3830733 := Sub.refl _
  have hs : Kept 3830733 s s := Kept.refl _ _
  unfold execErase at h
  cases h
  apply answer_kept
  · exact hW.sub (by decide)
  · intro x0 x1 h2
    exact eraseAnswer_kept (hW.sub (by decide)) h2
  · exact hs

theorem execBridgeResponseTimeout_kept {s t : State} {a0} {a1} (h : execBridgeResponseTimeout a0 a1 s = .next t) :
    Kept 3830733 s t := by
  have hW : Sub 3830733 3830733 := Sub.refl _
  have hs : Kept 3830733 s s := Kept.refl _ _
  unfold execBridgeResponseTimeout at h
  cases h
  exact responseLate_kept (hW.sub (by decide)) hs

theorem execGarbageCollection_kept {s t : State} {a0} (h : execGarbageCollection a0 s = .next t) :
    Kept 2651085 s t := by
  have hW : Sub 2651085 2651085 := Sub.refl _
  have hs : Kept 2651085 s s := Kept.refl _ _
  unfold execGarbageCollection at h
  cases h
  exact gcStart_kept (hW.sub (by decide)) hs

theorem execIdentify_kept {s t : State} {a0} {a1} {a2} (h : execIdentify a0 a1 a2 s = .next t) :
    Kept 3830733 s t := by
  have hW : Sub 3830733 3830733 := Sub.refl _
  have hs : Kept 3830733 s s := Kept.refl _ _
  unfold execIdentify at h
  cases h
  apply answer_kept
  · exact hW.sub (by decide)
  · intro x0 x1 h2
    exact identified_kept (hW.sub (by decide)) h2
  · exact hs

theorem execBorrowerHoldExpiry_kept {s t : State} {a0} (h : execBorrowerHoldExpiry a0 s = .next t) :
    Kept 2048 s t := by
  have hW : Sub 2048 2048 := Sub.refl _
  have hs : Kept 2048 s s := Kept.refl _ _
  unfold execBorrowerHoldExpiry at h
  cases h
  exact holdExpiry_kept (hW.sub (by decide)) hs

theorem execWrWaitCount_kept {s t : State} {a0} (h : execWrWaitCount a0 s = .next t) :
    Kept 1735565 s t := by
  have hW : Sub 1735565 1735565 := Sub.refl _
  have hs : Kept 1735565 s s := Kept.refl _ _
  unfold execWrWaitCount at h
  cases h
  exact startWr_kept (hW.sub (by decide)) hs

theorem execWrWrite_kept {s t : State} {a0} (h : execWrWrite a0 s = .next t) :
    Kept 1735565 s t := by
  have hW : Sub 1735565 1735565 := Sub.refl _
  have hs : Kept 1735565 s s := Kept.refl _ _
  unfold execWrWrite at h
  cases h
  exact startWr_kept (hW.sub (by decide)) hs

theorem execPeerCompletionHeadDoorbell_kept {s t : State} {a0} {a1} (h : execPeerCompletionHeadDoorbell a0 a1 s = .next t) :
    Kept 1735597 s t := by
  have hW : Sub 1735597 1735597 := Sub.refl _
  have hs : Kept 1735597 s s := Kept.refl _ _
  unfold execPeerCompletionHeadDoorbell at h
  cases h
  refine peerHead_kept (hW.sub (by decide)) ?_
  exact rang_kept (hW.sub (by decide)) hs

theorem execWrWriteImm_kept {s t : State} {a0} (h : execWrWriteImm a0 s = .next t) :
    Kept 1735565 s t := by
  have hW : Sub 1735565 1735565 := Sub.refl _
  have hs : Kept 1735565 s s := Kept.refl _ _
  unfold execWrWriteImm at h
  cases h
  exact startWr_kept (hW.sub (by decide)) hs

theorem execBusyResend_kept {s t : State} {a0} (h : execBusyResend a0 s = .next t) :
    Kept 1735565 s t := by
  have hW : Sub 1735565 1735565 := Sub.refl _
  have hs : Kept 1735565 s s := Kept.refl _ _
  unfold execBusyResend at h
  cases h
  exact busyOver_kept (hW.sub (by decide)) hs

theorem execPeerRekey_kept {s t : State} {a0} (h : execPeerRekey a0 s = .next t) :
    Kept 1719181 s t := by
  have hW : Sub 1719181 1719181 := Sub.refl _
  have hs : Kept 1719181 s s := Kept.refl _ _
  unfold execPeerRekey at h
  cases h
  exact peerRekey_kept (hW.sub (by decide)) hs

theorem execWrRead_kept {s t : State} {a0} (h : execWrRead a0 s = .next t) :
    Kept 1735565 s t := by
  have hW : Sub 1735565 1735565 := Sub.refl _
  have hs : Kept 1735565 s s := Kept.refl _ _
  unfold execWrRead at h
  cases h
  exact startWr_kept (hW.sub (by decide)) hs

theorem execRetransmissionTimeout_kept {s t : State} {a0} (h : execRetransmissionTimeout a0 s = .next t) :
    Kept 1735565 s t := by
  have hW : Sub 1735565 1735565 := Sub.refl _
  have hs : Kept 1735565 s s := Kept.refl _ _
  unfold execRetransmissionTimeout at h
  cases h
  exact timerOut_kept (hW.sub (by decide)) hs

theorem execPeerSendTailDoorbell_kept {s t : State} {a0} {a1} (h : execPeerSendTailDoorbell a0 a1 s = .next t) :
    Kept 1735597 s t := by
  have hW : Sub 1735597 1735597 := Sub.refl _
  have hs : Kept 1735597 s s := Kept.refl _ _
  unfold execPeerSendTailDoorbell at h
  cases h
  refine sendTail_kept (hW.sub (by decide)) ?_
  exact rang_kept (hW.sub (by decide)) hs

theorem execAck_kept {s t : State} {a0} {a1} (h : execAck a0 a1 s = .next t) :
    Kept 4094925 s t := by
  have hW : Sub 4094925 4094925 := Sub.refl _
  have hs : Kept 4094925 s s := Kept.refl _ _
  unfold execAck at h
  cases h
  exact kindIn_kept (hW.sub (by decide)) hs

theorem execLeaseRefuse_kept {s t : State} {a0} {a1} (h : execLeaseRefuse a0 a1 s = .next t) :
    Kept 3832781 s t := by
  have hW : Sub 3832781 3832781 := Sub.refl _
  have hs : Kept 3832781 s s := Kept.refl _ _
  unfold execLeaseRefuse at h
  cases h
  exact leaseIn_kept (hW.sub (by decide)) hs

theorem execConnectAck_kept {s t : State} {a0} {a1} (h : execConnectAck a0 a1 s = .next t) :
    Kept 4094925 s t := by
  have hW : Sub 4094925 4094925 := Sub.refl _
  have hs : Kept 4094925 s s := Kept.refl _ _
  unfold execConnectAck at h
  cases h
  exact kindIn_kept (hW.sub (by decide)) hs

theorem execRelayedPacket_kept {s t : State} {a0} {a1} (h : execRelayedPacket a0 a1 s = .next t) :
    Kept 540672 s t := by
  have hW : Sub 540672 540672 := Sub.refl _
  have hs : Kept 540672 s s := Kept.refl _ _
  unfold execRelayedPacket at h
  cases h
  exact relayedIn_kept (hW.sub (by decide)) hs

theorem execPeerWrite_kept {s t : State} {a0} {a1} (h : execPeerWrite a0 a1 s = .next t) :
    Kept 4094925 s t := by
  have hW : Sub 4094925 4094925 := Sub.refl _
  have hs : Kept 4094925 s s := Kept.refl _ _
  unfold execPeerWrite at h
  cases h
  exact kindIn_kept (hW.sub (by decide)) hs

theorem execContextFetch_kept {s t : State} {a0} (h : execContextFetch a0 s = .next t) :
    Kept 3832781 s t := by
  have hW : Sub 3832781 3832781 := Sub.refl _
  have hs : Kept 3832781 s s := Kept.refl _ _
  unfold execContextFetch at h
  cases h
  exact contextFetch_kept (hW.sub (by decide)) hs

theorem execBusy_kept {s t : State} {a0} {a1} (h : execBusy a0 a1 s = .next t) :
    Kept 4094925 s t := by
  have hW : Sub 4094925 4094925 := Sub.refl _
  have hs : Kept 4094925 s s := Kept.refl _ _
  unfold execBusy at h
  cases h
  exact kindIn_kept (hW.sub (by decide)) hs

theorem execDisconnect_kept {s t : State} {a0} {a1} (h : execDisconnect a0 a1 s = .next t) :
    Kept 4094925 s t := by
  have hW : Sub 4094925 4094925 := Sub.refl _
  have hs : Kept 4094925 s s := Kept.refl _ _
  unfold execDisconnect at h
  cases h
  exact kindIn_kept (hW.sub (by decide)) hs

theorem execLeaseDone_kept {s t : State} {a0} {a1} (h : execLeaseDone a0 a1 s = .next t) :
    Kept 3832781 s t := by
  have hW : Sub 3832781 3832781 := Sub.refl _
  have hs : Kept 3832781 s s := Kept.refl _ _
  unfold execLeaseDone at h
  cases h
  exact leaseIn_kept (hW.sub (by decide)) hs

theorem execLeaseRequest_kept {s t : State} {a0} {a1} (h : execLeaseRequest a0 a1 s = .next t) :
    Kept 3832781 s t := by
  have hW : Sub 3832781 3832781 := Sub.refl _
  have hs : Kept 3832781 s s := Kept.refl _ _
  unfold execLeaseRequest at h
  cases h
  exact leaseIn_kept (hW.sub (by decide)) hs

theorem execPeerWriteImm_kept {s t : State} {a0} {a1} (h : execPeerWriteImm a0 a1 s = .next t) :
    Kept 4094925 s t := by
  have hW : Sub 4094925 4094925 := Sub.refl _
  have hs : Kept 4094925 s s := Kept.refl _ _
  unfold execPeerWriteImm at h
  cases h
  exact kindIn_kept (hW.sub (by decide)) hs

theorem execLeaseReturn_kept {s t : State} {a0} {a1} (h : execLeaseReturn a0 a1 s = .next t) :
    Kept 3832781 s t := by
  have hW : Sub 3832781 3832781 := Sub.refl _
  have hs : Kept 3832781 s s := Kept.refl _ _
  unfold execLeaseReturn at h
  cases h
  exact leaseIn_kept (hW.sub (by decide)) hs

theorem execLeaseRecall_kept {s t : State} {a0} {a1} (h : execLeaseRecall a0 a1 s = .next t) :
    Kept 3832781 s t := by
  have hW : Sub 3832781 3832781 := Sub.refl _
  have hs : Kept 3832781 s s := Kept.refl _ _
  unfold execLeaseRecall at h
  cases h
  exact leaseIn_kept (hW.sub (by decide)) hs

theorem execBorrowerLeaseRequest_kept {s t : State} {a0} {a1} (h : execBorrowerLeaseRequest a0 a1 s = .next t) :
    Kept 1735565 s t := by
  have hW : Sub 1735565 1735565 := Sub.refl _
  have hs : Kept 1735565 s s := Kept.refl _ _
  unfold execBorrowerLeaseRequest at h
  cases h
  refine tendLeases_kept (hW.sub (by decide)) ?_
  exact borrow_kept (hW.sub (by decide)) hs

theorem execNak_kept {s t : State} {a0} {a1} (h : execNak a0 a1 s = .next t) :
    Kept 4094925 s t := by
  have hW : Sub 4094925 4094925 := Sub.refl _
  have hs : Kept 4094925 s s := Kept.refl _ _
  unfold execNak at h
  cases h
  exact kindIn_kept (hW.sub (by decide)) hs

theorem execLeaseGrant_kept {s t : State} {a0} {a1} (h : execLeaseGrant a0 a1 s = .next t) :
    Kept 3832781 s t := by
  have hW : Sub 3832781 3832781 := Sub.refl _
  have hs : Kept 3832781 s s := Kept.refl _ _
  unfold execLeaseGrant at h
  cases h
  exact leaseIn_kept (hW.sub (by decide)) hs

theorem execConnect_kept {s t : State} {a0} {a1} (h : execConnect a0 a1 s = .next t) :
    Kept 4094925 s t := by
  have hW : Sub 4094925 4094925 := Sub.refl _
  have hs : Kept 4094925 s s := Kept.refl _ _
  unfold execConnect at h
  cases h
  exact kindIn_kept (hW.sub (by decide)) hs

theorem execConnectTimeout_kept {s t : State} {a0} (h : execConnectTimeout a0 s = .next t) :
    Kept 3832717 s t := by
  have hW : Sub 3832717 3832717 := Sub.refl _
  have hs : Kept 3832717 s s := Kept.refl _ _
  unfold execConnectTimeout at h
  cases h
  exact connectTimeout_kept (hW.sub (by decide)) hs

theorem execReadResp_kept {s t : State} {a0} {a1} (h : execReadResp a0 a1 s = .next t) :
    Kept 4094925 s t := by
  have hW : Sub 4094925 4094925 := Sub.refl _
  have hs : Kept 4094925 s s := Kept.refl _ _
  unfold execReadResp at h
  cases h
  exact kindIn_kept (hW.sub (by decide)) hs

theorem execReadReq_kept {s t : State} {a0} {a1} (h : execReadReq a0 a1 s = .next t) :
    Kept 4094925 s t := by
  have hW : Sub 4094925 4094925 := Sub.refl _
  have hs : Kept 4094925 s s := Kept.refl _ _
  unfold execReadReq at h
  cases h
  exact kindIn_kept (hW.sub (by decide)) hs

theorem execOwnershipWaitExpiry_kept {s t : State} (h : execOwnershipWaitExpiry s = .next t) :
    Kept 32768 s t := by
  have hW : Sub 32768 32768 := Sub.refl _
  have hs : Kept 32768 s s := Kept.refl _ _
  unfold execOwnershipWaitExpiry at h
  cases h
  exact ownershipWait_kept (hW.sub (by decide)) hs

theorem execSessionSetupTimeout_kept {s t : State} {a0} (h : execSessionSetupTimeout a0 s = .next t) :
    Kept 2 s t := by
  have hW : Sub 2 2 := Sub.refl _
  have hs : Kept 2 s s := Kept.refl _ _
  unfold execSessionSetupTimeout at h
  cases h
  exact setupTimeout_kept (hW.sub (by decide)) hs

theorem execSpdmRequest_kept {s t : State} {a0} (h : execSpdmRequest a0 s = .next t) :
    Kept 3178496 s t := by
  have hW : Sub 3178496 3178496 := Sub.refl _
  have hs : Kept 3178496 s s := Kept.refl _ _
  unfold execSpdmRequest at h
  cases h
  exact spdmRequest_kept (hW.sub (by decide)) hs

theorem execStatus_kept {s t : State} {a0} (h : execStatus a0 s = .next t) :
    Kept 1048576 s t := by
  have hW : Sub 1048576 1048576 := Sub.refl _
  have hs : Kept 1048576 s s := Kept.refl _ _
  unfold execStatus at h
  cases h
  refine Kept.ite ?_ ?_
  · exact tenancyStatus_kept (hW.sub (by decide)) hs
  · exact hs

theorem execSessionIdleTimeout_kept {s t : State} {a0} (h : execSessionIdleTimeout a0 s = .next t) :
    Kept 2 s t := by
  have hW : Sub 2 2 := Sub.refl _
  have hs : Kept 2 s s := Kept.refl _ _
  unfold execSessionIdleTimeout at h
  cases h
  exact idleTimeout_kept (hW.sub (by decide)) hs

theorem execFinish_kept {s t : State} {a0} {a1} {a2} (h : execFinish a0 a1 a2 s = .next t) :
    Kept 1605632 s t := by
  have hW : Sub 1605632 1605632 := Sub.refl _
  have hs : Kept 1605632 s s := Kept.refl _ _
  unfold execFinish at h
  cases h
  exact spdmFinish_kept (hW.sub (by decide)) hs

theorem execTenancySecret_kept {s t : State} {a0} {a1} (h : execTenancySecret a0 a1 s = .next t) :
    Kept 1085952 s t := by
  have hW : Sub 1085952 1085952 := Sub.refl _
  have hs : Kept 1085952 s s := Kept.refl _ _
  unfold execTenancySecret at h
  cases h
  refine Kept.ite ?_ ?_
  · exact tenancySecret_kept (hW.sub (by decide)) hs
  · exact hs

theorem execHello_kept {s t : State} {a0} {a1} (h : execHello a0 a1 s = .next t) :
    Kept 3670018 s t := by
  have hW : Sub 3670018 3670018 := Sub.refl _
  have hs : Kept 3670018 s s := Kept.refl _ _
  unfold execHello at h
  cases h
  exact hello_kept (hW.sub (by decide)) hs

theorem execSpdmSessionEnd_kept {s t : State} {a0} (h : execSpdmSessionEnd a0 s = .next t) :
    Kept 32768 s t := by
  have hW : Sub 32768 32768 := Sub.refl _
  have hs : Kept 32768 s s := Kept.refl _ _
  unfold execSpdmSessionEnd at h
  cases h
  refine Kept.ite ?_ ?_
  · exact spdmEnd_kept (hW.sub (by decide)) hs
  · exact hs

theorem execSetSecret_kept {s t : State} {a0} {a1} {a2} (h : execSetSecret a0 a1 a2 s = .next t) :
    Kept 1081344 s t := by
  have hW : Sub 1081344 1081344 := Sub.refl _
  have hs : Kept 1081344 s s := Kept.refl _ _
  unfold execSetSecret at h
  cases h
  refine Kept.ite ?_ ?_
  · exact setSecret_kept (hW.sub (by decide)) hs
  · exact hs

theorem execRtpDomainFailure_kept {s t : State} {a0} (h : execRtpDomainFailure a0 s = .next t) :
    Kept 124930 s t := by
  have hW : Sub 124930 124930 := Sub.refl _
  have hs : Kept 124930 s s := Kept.refl _ _
  unfold execRtpDomainFailure at h
  cases h
  exact rtpFailure_kept (hW.sub (by decide)) hs

theorem execAuth_kept {s t : State} {a0} {a1} {a2} (h : execAuth a0 a1 a2 s = .next t) :
    Kept 3670018 s t := by
  have hW : Sub 3670018 3670018 := Sub.refl _
  have hs : Kept 3670018 s s := Kept.refl _ _
  unfold execAuth at h
  cases h
  exact auth_kept (hW.sub (by decide)) hs

theorem execOwn_kept {s t : State} {a0} (h : execOwn a0 s = .next t) :
    Kept 1736704 s t := by
  have hW : Sub 1736704 1736704 := Sub.refl _
  have hs : Kept 1736704 s s := Kept.refl _ _
  unfold execOwn at h
  cases h
  refine Kept.ite ?_ ?_
  · exact own_kept (hW.sub (by decide)) hs
  · exact hs

theorem execCreditFrameTimer_kept {s t : State} {a0} (h : execCreditFrameTimer a0 s = .next t) :
    Kept 1986572 s t := by
  have hW : Sub 1986572 1986572 := Sub.refl _
  have hs : Kept 1986572 s s := Kept.refl _ _
  unfold execCreditFrameTimer at h
  cases h
  exact creditTimer_kept (hW.sub (by decide)) hs

theorem execLinkCt_kept {s t : State} {a0} {a1} {a2} {a3} (h : execLinkCt a0 a1 a2 a3 s = .next t) :
    Kept 3162112 s t := by
  have hW : Sub 3162112 3162112 := Sub.refl _
  have hs : Kept 3162112 s s := Kept.refl _ _
  unfold execLinkCt at h
  cases h
  exact linkCtIn_kept (hW.sub (by decide)) hs

theorem execLinkRekey_kept {s t : State} {a0} (h : execLinkRekey a0 s = .next t) :
    Kept 16384 s t := by
  have hW : Sub 16384 16384 := Sub.refl _
  have hs : Kept 16384 s s := Kept.refl _ _
  unfold execLinkRekey at h
  cases h
  exact linkRekey_kept (hW.sub (by decide)) hs

theorem execPortBringUp_kept {s t : State} {a0} {a1} (h : execPortBringUp a0 a1 s = .next t) :
    Kept 3162112 s t := by
  have hW : Sub 3162112 3162112 := Sub.refl _
  have hs : Kept 3162112 s s := Kept.refl _ _
  unfold execPortBringUp at h
  cases h
  exact bringUp_kept (hW.sub (by decide)) hs

theorem execDataFrame_kept {s t : State} {a0} {a1} (h : execDataFrame a0 a1 s = .next t) :
    Kept 1986572 s t := by
  have hW : Sub 1986572 1986572 := Sub.refl _
  have hs : Kept 1986572 s s := Kept.refl _ _
  unfold execDataFrame at h
  cases h
  exact dataFrame_kept (hW.sub (by decide)) hs

theorem execLaneAgreementTimeout_kept {s t : State} {a0} (h : execLaneAgreementTimeout a0 s = .next t) :
    Kept 1724428 s t := by
  have hW : Sub 1724428 1724428 := Sub.refl _
  have hs : Kept 1724428 s s := Kept.refl _ _
  unfold execLaneAgreementTimeout at h
  cases h
  exact laneLate_kept (hW.sub (by decide)) hs

theorem execLaneRetrain_kept {s t : State} {a0} {a1} {a2} (h : execLaneRetrain a0 a1 a2 s = .next t) :
    Kept 1986572 s t := by
  have hW : Sub 1986572 1986572 := Sub.refl _
  have hs : Kept 1986572 s s := Kept.refl _ _
  unfold execLaneRetrain at h
  cases h
  exact laneRetrain_kept (hW.sub (by decide)) hs

theorem execCreditFrame_kept {s t : State} {a0} {a1} (h : execCreditFrame a0 a1 s = .next t) :
    Kept 1986572 s t := by
  have hW : Sub 1986572 1986572 := Sub.refl _
  have hs : Kept 1986572 s s := Kept.refl _ _
  unfold execCreditFrame at h
  cases h
  exact creditFrameIn_kept (hW.sub (by decide)) hs

theorem execLinkKey_kept {s t : State} {a0} {a1} {a2} {a3} (h : execLinkKey a0 a1 a2 a3 s = .next t) :
    Kept 3162112 s t := by
  have hW : Sub 3162112 3162112 := Sub.refl _
  have hs : Kept 3162112 s s := Kept.refl _ _
  unfold execLinkKey at h
  cases h
  exact linkKeyIn_kept (hW.sub (by decide)) hs

theorem execLane_kept {s t : State} {a0} {a1} (h : execLane a0 a1 s = .next t) :
    Kept 1986572 s t := by
  have hW : Sub 1986572 1986572 := Sub.refl _
  have hs : Kept 1986572 s s := Kept.refl _ _
  unfold execLane at h
  cases h
  exact laneIn_kept (hW.sub (by decide)) hs

theorem execLaneFault_kept {s t : State} {a0} {a1} (h : execLaneFault a0 a1 s = .next t) :
    Kept 1986572 s t := by
  have hW : Sub 1986572 1986572 := Sub.refl _
  have hs : Kept 1986572 s s := Kept.refl _ _
  unfold execLaneFault at h
  cases h
  exact laneFault_kept (hW.sub (by decide)) hs

theorem execNakFrame_kept {s t : State} {a0} {a1} (h : execNakFrame a0 a1 s = .next t) :
    Kept 1986572 s t := by
  have hW : Sub 1986572 1986572 := Sub.refl _
  have hs : Kept 1986572 s s := Kept.refl _ _
  unfold execNakFrame at h
  cases h
  unfold Sys2Proof.Machine.nakIn_
  apply frameIn_kept
  · exact hW.sub (by decide)
  · intro x0 x1 h2
    refine Kept.ite ?_ ?_
    · exact h2
    · extract_lets +onlyGivenNames l3
      clear_value l3
      refine odAdd_kept (hW.sub (by decide)) ?_
      apply forEach_kept
      · intro x4 x5 h6
        exact send_kept (hW.sub (by decide)) h6
      · exact h2
  · exact hs

theorem execReplayTimeout_kept {s t : State} {a0} (h : execReplayTimeout a0 s = .next t) :
    Kept 1724428 s t := by
  have hW : Sub 1724428 1724428 := Sub.refl _
  have hs : Kept 1724428 s s := Kept.refl _ _
  unfold execReplayTimeout at h
  cases h
  exact replayTimeout_kept (hW.sub (by decide)) hs

theorem execLaserCheck_kept {s t : State} {a0} (h : execLaserCheck a0 s = .next t) :
    Kept 1724428 s t := by
  have hW : Sub 1724428 1724428 := Sub.refl _
  have hs : Kept 1724428 s s := Kept.refl _ _
  unfold execLaserCheck at h
  cases h
  exact laserCheck_kept (hW.sub (by decide)) hs

theorem execBringupStepTimeout_kept {s t : State} {a0} (h : execBringupStepTimeout a0 s = .next t) :
    Kept 1720320 s t := by
  have hW : Sub 1720320 1720320 := Sub.refl _
  have hs : Kept 1720320 s s := Kept.refl _ _
  unfold execBringupStepTimeout at h
  cases h
  exact stepTimeout_kept (hW.sub (by decide)) hs

theorem execNakRepeat_kept {s t : State} {a0} (h : execNakRepeat a0 s = .next t) :
    Kept 1986572 s t := by
  have hW : Sub 1986572 1986572 := Sub.refl _
  have hs : Kept 1986572 s s := Kept.refl _ _
  unfold execNakRepeat at h
  cases h
  exact nakRepeat_kept (hW.sub (by decide)) hs

theorem execIdleFrame_kept {s t : State} {a0} {a1} (h : execIdleFrame a0 a1 s = .next t) :
    Kept 1986572 s t := by
  have hW : Sub 1986572 1986572 := Sub.refl _
  have hs : Kept 1986572 s s := Kept.refl _ _
  unfold execIdleFrame at h
  cases h
  exact idleIn_kept (hW.sub (by decide)) hs

theorem execLinkProof_kept {s t : State} {a0} {a1} (h : execLinkProof a0 a1 s = .next t) :
    Kept 4128749 s t := by
  have hW : Sub 4128749 4128749 := Sub.refl _
  have hs : Kept 4128749 s s := Kept.refl _ _
  unfold execLinkProof at h
  cases h
  exact linkProofIn_kept (hW.sub (by decide)) hs

theorem execLaneFrameRepeat_kept {s t : State} {a0} (h : execLaneFrameRepeat a0 s = .next t) :
    Kept 1986572 s t := by
  have hW : Sub 1986572 1986572 := Sub.refl _
  have hs : Kept 1986572 s s := Kept.refl _ _
  unfold execLaneFrameRepeat at h
  cases h
  exact laneRepeat_kept (hW.sub (by decide)) hs

theorem execPacketBoundary_kept {s t : State} {a0} (h : execPacketBoundary a0 s = .next t) :
    Kept 1986572 s t := by
  have hW : Sub 1986572 1986572 := Sub.refl _
  have hs : Kept 1986572 s s := Kept.refl _ _
  unfold execPacketBoundary at h
  cases h
  exact packetBoundary_kept (hW.sub (by decide)) hs

theorem execBeatHoldRelease_kept {s t : State} (h : execBeatHoldRelease s = .next t) :
    Kept 4194303 s t := by
  have hW : Sub 4194303 4194303 := Sub.refl _
  have hs : Kept 4194303 s s := Kept.refl _ _
  unfold execBeatHoldRelease at h
  cases h
  refine Kept.ite ?_ ?_
  · exact hs
  · exact releaseBeats_kept (hW.sub (by decide)) hs

theorem execBeatSilence_kept {s t : State} (h : execBeatSilence s = .next t) :
    Kept 16400 s t := by
  have hW : Sub 16400 16400 := Sub.refl _
  have hs : Kept 16400 s s := Kept.refl _ _
  unfold execBeatSilence at h
  cases h
  exact beatSilence_kept (hW.sub (by decide)) hs

theorem execModuleRetrain_kept {s t : State} {a0} {a1} (h : execModuleRetrain a0 a1 s = .next t) :
    Kept 4092909 s t := by
  have hW : Sub 4092909 4092909 := Sub.refl _
  have hs : Kept 4092909 s s := Kept.refl _ _
  unfold execModuleRetrain at h
  cases h
  exact moduleUp_kept (hW.sub (by decide)) hs

theorem execSheet_kept {s t : State} {a0} (h : execSheet a0 s = .next t) :
    Kept 4194303 s t := by
  have hW : Sub 4194303 4194303 := Sub.refl _
  have hs : Kept 4194303 s s := Kept.refl _ _
  unfold execSheet at h
  cases h
  exact arrive1_kept (hW.sub (by decide)) hs

theorem execModuleLinkDown_kept {s t : State} {a0} {a1} (h : execModuleLinkDown a0 a1 s = .next t) :
    Kept 1703940 s t := by
  have hW : Sub 1703940 1703940 := Sub.refl _
  have hs : Kept 1703940 s s := Kept.refl _ _
  unfold execModuleLinkDown at h
  cases h
  exact moduleDown_kept (hW.sub (by decide)) hs

theorem execSidebandFailure_kept {s t : State} {a0} (h : execSidebandFailure a0 s = .next t) :
    Kept 4 s t := by
  have hW : Sub 4 4 := Sub.refl _
  have hs : Kept 4 s s := Kept.refl _ _
  unfold execSidebandFailure at h
  cases h
  exact sidebandFails_kept (hW.sub (by decide)) hs

theorem execSync_kept {s t : State} {a0} (h : execSync a0 s = .next t) :
    Kept 4160509 s t := by
  have hW : Sub 4160509 4160509 := Sub.refl _
  have hs : Kept 4160509 s s := Kept.refl _ _
  unfold execSync at h
  cases h
  exact syncIn_kept (hW.sub (by decide)) hs

theorem execCredit_kept {s t : State} {a0} (h : execCredit a0 s = .next t) :
    Kept 1712204 s t := by
  have hW : Sub 1712204 1712204 := Sub.refl _
  have hs : Kept 1712204 s s := Kept.refl _ _
  unfold execCredit at h
  cases h
  exact creditIn_kept (hW.sub (by decide)) hs

theorem execBeat_kept {s t : State} {a0} (h : execBeat a0 s = .next t) :
    Kept 4194303 s t := by
  have hW : Sub 4194303 4194303 := Sub.refl _
  have hs : Kept 4194303 s s := Kept.refl _ _
  unfold execBeat at h
  cases h
  exact arrive0_kept (hW.sub (by decide)) hs

theorem execSubmit_kept {s t : State} {a0} (h : execSubmit a0 s = .next t) :
    Kept 4194303 s t := by
  have hW : Sub 4194303 4194303 := Sub.refl _
  have hs : Kept 4194303 s s := Kept.refl _ _
  unfold execSubmit at h
  cases h
  exact arrive1_kept (hW.sub (by decide)) hs

theorem execWindow_kept {s t : State} {a0} (h : execWindow a0 s = .next t) :
    Kept 4194303 s t := by
  have hW : Sub 4194303 4194303 := Sub.refl _
  have hs : Kept 4194303 s s := Kept.refl _ _
  unfold execWindow at h
  cases h
  exact arrive1_kept (hW.sub (by decide)) hs

theorem execSupplySag_kept {s t : State} {a0} {a1} (h : execSupplySag a0 a1 s = .next t) :
    Kept 1794428 s t := by
  have hW : Sub 1794428 1794428 := Sub.refl _
  have hs : Kept 1794428 s s := Kept.refl _ _
  unfold execSupplySag at h
  cases h
  exact supplySag_kept (hW.sub (by decide)) hs

theorem execColdReset_kept {s t : State} {a0} (h : execColdReset a0 s = .next t) :
    Kept 4194303 s t := by
  have hW : Sub 4194303 4194303 := Sub.refl _
  have hs : Kept 4194303 s s := Kept.refl _ _
  unfold execColdReset at h
  cases h
  exact coldReset_kept (hW.sub (by decide)) hs

theorem execReleaseStepEnd_kept {s t : State} (h : execReleaseStepEnd s = .next t) :
    Kept 4194303 s t := by
  have hW : Sub 4194303 4194303 := Sub.refl _
  have hs : Kept 4194303 s s := Kept.refl _ _
  unfold execReleaseStepEnd at h
  cases h
  exact releaseStepEnd_kept (hW.sub (by decide)) hs

theorem execKilnIsolation_kept {s t : State} (h : execKilnIsolation s = .next t) :
    Kept 94208 s t := by
  have hW : Sub 94208 94208 := Sub.refl _
  have hs : Kept 94208 s s := Kept.refl _ _
  unfold execKilnIsolation at h
  cases h
  exact isolate_kept (hW.sub (by decide)) hs

theorem execMgpFault_kept {s t : State} {a0} (h : execMgpFault a0 s = .next t) :
    Kept 4194303 s t := by
  have hW : Sub 4194303 4194303 := Sub.refl _
  have hs : Kept 4194303 s s := Kept.refl _ _
  unfold execMgpFault at h
  cases h
  exact mgpFault_kept (hW.sub (by decide)) hs

theorem execSaveEnd_kept {s t : State} {a0} (h : execSaveEnd a0 s = .next t) :
    Kept 4194303 s t := by
  have hW : Sub 4194303 4194303 := Sub.refl _
  have hs : Kept 4194303 s s := Kept.refl _ _
  unfold execSaveEnd at h
  cases h
  exact saveEnd_kept (hW.sub (by decide)) hs

theorem execSlotProgrammed_kept {s t : State} {a0} (h : execSlotProgrammed a0 s = .next t) :
    Kept 589824 s t := by
  have hW : Sub 589824 589824 := Sub.refl _
  have hs : Kept 589824 s s := Kept.refl _ _
  unfold execSlotProgrammed at h
  cases h
  exact slotProgrammed_kept (hW.sub (by decide)) hs

theorem execBoot_kept {s t : State} {a0} (h : execBoot a0 s = .next t) :
    Kept 3920412 s t := by
  have hW : Sub 3920412 3920412 := Sub.refl _
  have hs : Kept 3920412 s s := Kept.refl _ _
  unfold execBoot at h
  cases h
  exact boot_kept (hW.sub (by decide)) hs

theorem execTrigEdge_kept {s t : State} (h : execTrigEdge s = .next t) :
    Kept 4158445 s t := by
  have hW : Sub 4158445 4158445 := Sub.refl _
  have hs : Kept 4158445 s s := Kept.refl _ _
  unfold execTrigEdge at h
  cases h
  exact trigEdge_kept (hW.sub (by decide)) hs

theorem execCheckerLock_kept {s t : State} {a0} (h : execCheckerLock a0 s = .next t) :
    Kept 65536 s t := by
  have hW : Sub 65536 65536 := Sub.refl _
  have hs : Kept 65536 s s := Kept.refl _ _
  unfold execCheckerLock at h
  cases h
  exact checkerLock_kept (hW.sub (by decide)) hs

theorem execTestComplete_kept {s t : State} {a0} {a1} (h : execTestComplete a0 a1 s = .next t) :
    Kept 4194303 s t := by
  have hW : Sub 4194303 4194303 := Sub.refl _
  have hs : Kept 4194303 s s := Kept.refl _ _
  unfold execTestComplete at h
  cases h
  exact testComplete_kept (hW.sub (by decide)) hs

theorem execCheckerLockLoss_kept {s t : State} {a0} (h : execCheckerLockLoss a0 s = .next t) :
    Kept 65536 s t := by
  have hW : Sub 65536 65536 := Sub.refl _
  have hs : Kept 65536 s s := Kept.refl _ _
  unfold execCheckerLockLoss at h
  cases h
  exact checkerLost_kept (hW.sub (by decide)) hs

theorem execCheckerError_kept {s t : State} {a0} {a1} (h : execCheckerError a0 a1 s = .next t) :
    Kept 1114112 s t := by
  have hW : Sub 1114112 1114112 := Sub.refl _
  have hs : Kept 1114112 s s := Kept.refl _ _
  unfold execCheckerError at h
  cases h
  exact checkerError_kept (hW.sub (by decide)) hs

theorem execCoreFailure_kept {s t : State} {a0} (h : execCoreFailure a0 s = .next t) :
    Kept 4158445 s t := by
  have hW : Sub 4158445 4158445 := Sub.refl _
  have hs : Kept 4158445 s s := Kept.refl _ _
  unfold execCoreFailure at h
  cases h
  exact coreFails_kept (hW.sub (by decide)) hs

theorem execCounterSample_kept {s t : State} {a0} {a1} {a2} {a3} (h : execCounterSample a0 a1 a2 a3 s = .next t) :
    Kept 786444 s t := by
  have hW : Sub 786444 786444 := Sub.refl _
  have hs : Kept 786444 s s := Kept.refl _ _
  unfold execCounterSample at h
  cases h
  exact counterSample_kept (hW.sub (by decide)) hs

theorem execThermalSample_kept {s t : State} {a0} (h : execThermalSample a0 s = .next t) :
    Kept 1794428 s t := by
  have hW : Sub 1794428 1794428 := Sub.refl _
  have hs : Kept 1794428 s s := Kept.refl _ _
  unfold execThermalSample at h
  cases h
  exact thermalSample_kept (hW.sub (by decide)) hs

theorem execPowerCheck_kept {s t : State} (h : execPowerCheck s = .next t) :
    Kept 1769484 s t := by
  have hW : Sub 1769484 1769484 := Sub.refl _
  have hs : Kept 1769484 s s := Kept.refl _ _
  unfold execPowerCheck at h
  cases h
  exact powerCheck_kept (hW.sub (by decide)) hs

theorem execPmbusTimeout_kept {s t : State} {a0} (h : execPmbusTimeout a0 s = .next t) :
    Kept 1769472 s t := by
  have hW : Sub 1769472 1769472 := Sub.refl _
  have hs : Kept 1769472 s s := Kept.refl _ _
  unfold execPmbusTimeout at h
  cases h
  exact pmbusTimeout_kept (hW.sub (by decide)) hs

theorem execStoredValuesWritten_kept {s t : State} (h : execStoredValuesWritten s = .next t) :
    Kept 65536 s t := by
  have hW : Sub 65536 65536 := Sub.refl _
  have hs : Kept 65536 s s := Kept.refl _ _
  unfold execStoredValuesWritten at h
  cases h
  exact storedWritten_kept (hW.sub (by decide)) hs

theorem execLogFlush_kept {s t : State} (h : execLogFlush s = .next t) :
    Kept 1703936 s t := by
  have hW : Sub 1703936 1703936 := Sub.refl _
  have hs : Kept 1703936 s s := Kept.refl _ _
  unfold execLogFlush at h
  cases h
  exact logFlush_kept (hW.sub (by decide)) hs

theorem execPmbusPoll_kept {s t : State} {a0} {a1} (h : execPmbusPoll a0 a1 s = .next t) :
    Kept 589824 s t := by
  have hW : Sub 589824 589824 := Sub.refl _
  have hs : Kept 589824 s s := Kept.refl _ _
  unfold execPmbusPoll at h
  cases h
  exact pmbusPoll_kept (hW.sub (by decide)) hs

theorem execEscalation_kept {s t : State} {a0} {a1} (h : execEscalation a0 a1 s = .next t) :
    Kept 1703948 s t := by
  have hW : Sub 1703948 1703948 := Sub.refl _
  have hs : Kept 1703948 s s := Kept.refl _ _
  unfold execEscalation at h
  cases h
  exact escalate_kept (hW.sub (by decide)) hs

theorem execStartRebuild_kept {s t : State} {a0} {a1} (h : execStartRebuild a0 a1 s = .next t) :
    Kept 4194303 s t := by
  have hW : Sub 4194303 4194303 := Sub.refl _
  have hs : Kept 4194303 s s := Kept.refl _ _
  unfold execStartRebuild at h
  cases h
  exact serveIf_kept (hW.sub (by decide)) hs

theorem execPartitionReset_kept {s t : State} {a0} {a1} (h : execPartitionReset a0 a1 s = .next t) :
    Kept 4194303 s t := by
  have hW : Sub 4194303 4194303 := Sub.refl _
  have hs : Kept 4194303 s s := Kept.refl _ _
  unfold execPartitionReset at h
  cases h
  exact serveIf_kept (hW.sub (by decide)) hs

theorem execWriteBlock_kept {s t : State} {a0} {a1} (h : execWriteBlock a0 a1 s = .next t) :
    Kept 4194303 s t := by
  have hW : Sub 4194303 4194303 := Sub.refl _
  have hs : Kept 4194303 s s := Kept.refl _ _
  unfold execWriteBlock at h
  cases h
  exact serveIf_kept (hW.sub (by decide)) hs

theorem execGetMeasurements_kept {s t : State} {a0} {a1} {a2} (h : execGetMeasurements a0 a1 a2 s = .next t) :
    Kept 1048576 s t := by
  have hW : Sub 1048576 1048576 := Sub.refl _
  have hs : Kept 1048576 s s := Kept.refl _ _
  unfold execGetMeasurements at h
  cases h
  exact getMeasurements_kept (hW.sub (by decide)) hs

theorem execQpRelease_kept {s t : State} {a0} {a1} (h : execQpRelease a0 a1 s = .next t) :
    Kept 4194303 s t := by
  have hW : Sub 4194303 4194303 := Sub.refl _
  have hs : Kept 4194303 s s := Kept.refl _ _
  unfold execQpRelease at h
  cases h
  exact serveIf_kept (hW.sub (by decide)) hs

theorem execConfigure_kept {s t : State} {a0} {a1} (h : execConfigure a0 a1 s = .next t) :
    Kept 4194303 s t := by
  have hW : Sub 4194303 4194303 := Sub.refl _
  have hs : Kept 4194303 s s := Kept.refl _ _
  unfold execConfigure at h
  cases h
  exact serveIf_kept (hW.sub (by decide)) hs

theorem execDiscardStagedSet_kept {s t : State} {a0} {a1} (h : execDiscardStagedSet a0 a1 s = .next t) :
    Kept 4194303 s t := by
  have hW : Sub 4194303 4194303 := Sub.refl _
  have hs : Kept 4194303 s s := Kept.refl _ _
  unfold execDiscardStagedSet at h
  cases h
  exact serveIf_kept (hW.sub (by decide)) hs

theorem execReadBlock_kept {s t : State} {a0} {a1} (h : execReadBlock a0 a1 s = .next t) :
    Kept 4194303 s t := by
  have hW : Sub 4194303 4194303 := Sub.refl _
  have hs : Kept 4194303 s s := Kept.refl _ _
  unfold execReadBlock at h
  cases h
  exact serveIf_kept (hW.sub (by decide)) hs

theorem execCounterValueWrite_kept {s t : State} {a0} {a1} (h : execCounterValueWrite a0 a1 s = .next t) :
    Kept 4194303 s t := by
  have hW : Sub 4194303 4194303 := Sub.refl _
  have hs : Kept 4194303 s s := Kept.refl _ _
  unfold execCounterValueWrite at h
  cases h
  exact serveIf_kept (hW.sub (by decide)) hs

theorem execMbxDone_kept {s t : State} {a0} (h : execMbxDone a0 s = .next t) :
    Kept 2 s t := by
  have hW : Sub 2 2 := Sub.refl _
  have hs : Kept 2 s s := Kept.refl _ _
  unfold execMbxDone at h
  cases h
  exact mbxDone_kept (hW.sub (by decide)) hs

theorem execCancelPendingCommit_kept {s t : State} {a0} {a1} (h : execCancelPendingCommit a0 a1 s = .next t) :
    Kept 4194303 s t := by
  have hW : Sub 4194303 4194303 := Sub.refl _
  have hs : Kept 4194303 s s := Kept.refl _ _
  unfold execCancelPendingCommit at h
  cases h
  exact serveIf_kept (hW.sub (by decide)) hs

theorem execLinkTestStop_kept {s t : State} {a0} {a1} (h : execLinkTestStop a0 a1 s = .next t) :
    Kept 4194303 s t := by
  have hW : Sub 4194303 4194303 := Sub.refl _
  have hs : Kept 4194303 s s := Kept.refl _ _
  unfold execLinkTestStop at h
  cases h
  exact serveIf_kept (hW.sub (by decide)) hs

theorem execWarmReset_kept {s t : State} {a0} {a1} (h : execWarmReset a0 a1 s = .next t) :
    Kept 4194303 s t := by
  have hW : Sub 4194303 4194303 := Sub.refl _
  have hs : Kept 4194303 s s := Kept.refl _ _
  unfold execWarmReset at h
  cases h
  exact serveIf_kept (hW.sub (by decide)) hs

theorem execRead_kept {s t : State} {a0} {a1} (h : execRead a0 a1 s = .next t) :
    Kept 4194303 s t := by
  have hW : Sub 4194303 4194303 := Sub.refl _
  have hs : Kept 4194303 s s := Kept.refl _ _
  unfold execRead at h
  cases h
  exact serveIf_kept (hW.sub (by decide)) hs

theorem execFormatShelf_kept {s t : State} {a0} {a1} (h : execFormatShelf a0 a1 s = .next t) :
    Kept 4194303 s t := by
  have hW : Sub 4194303 4194303 := Sub.refl _
  have hs : Kept 4194303 s s := Kept.refl _ _
  unfold execFormatShelf at h
  cases h
  exact serveIf_kept (hW.sub (by decide)) hs

theorem execRecord_kept {s t : State} {a0} {a1} {a2} {a3} (h : execRecord a0 a1 a2 a3 s = .next t) :
    Kept 4194303 s t := by
  have hW : Sub 4194303 4194303 := Sub.refl _
  have hs : Kept 4194303 s s := Kept.refl _ _
  unfold execRecord at h
  cases h
  exact record_kept (hW.sub (by decide)) hs

theorem execWeightKeyWrite_kept {s t : State} {a0} {a1} (h : execWeightKeyWrite a0 a1 s = .next t) :
    Kept 4194303 s t := by
  have hW : Sub 4194303 4194303 := Sub.refl _
  have hs : Kept 4194303 s s := Kept.refl _ _
  unfold execWeightKeyWrite at h
  cases h
  exact serveIf_kept (hW.sub (by decide)) hs

theorem execCommit_kept {s t : State} {a0} {a1} (h : execCommit a0 a1 s = .next t) :
    Kept 4194303 s t := by
  have hW : Sub 4194303 4194303 := Sub.refl _
  have hs : Kept 4194303 s s := Kept.refl _ _
  unfold execCommit at h
  cases h
  exact serveIf_kept (hW.sub (by decide)) hs

theorem execWheelRestart_kept {s t : State} {a0} {a1} (h : execWheelRestart a0 a1 s = .next t) :
    Kept 4194303 s t := by
  have hW : Sub 4194303 4194303 := Sub.refl _
  have hs : Kept 4194303 s s := Kept.refl _ _
  unfold execWheelRestart at h
  cases h
  exact serveIf_kept (hW.sub (by decide)) hs

theorem execBlockWriteTimeout_kept {s t : State} {a0} (h : execBlockWriteTimeout a0 s = .next t) :
    Kept 524290 s t := by
  have hW : Sub 524290 524290 := Sub.refl _
  have hs : Kept 524290 s s := Kept.refl _ _
  unfold execBlockWriteTimeout at h
  cases h
  exact blockTimeout_kept (hW.sub (by decide)) hs

theorem execDrain_kept {s t : State} {a0} {a1} (h : execDrain a0 a1 s = .next t) :
    Kept 4194303 s t := by
  have hW : Sub 4194303 4194303 := Sub.refl _
  have hs : Kept 4194303 s s := Kept.refl _ _
  unfold execDrain at h
  cases h
  exact serveIf_kept (hW.sub (by decide)) hs

theorem execTestRequest_kept {s t : State} {a0} {a1} (h : execTestRequest a0 a1 s = .next t) :
    Kept 4194303 s t := by
  have hW : Sub 4194303 4194303 := Sub.refl _
  have hs : Kept 4194303 s s := Kept.refl _ _
  unfold execTestRequest at h
  cases h
  exact serveIf_kept (hW.sub (by decide)) hs

theorem execDiscardHeldSave_kept {s t : State} {a0} {a1} (h : execDiscardHeldSave a0 a1 s = .next t) :
    Kept 4194303 s t := by
  have hW : Sub 4194303 4194303 := Sub.refl _
  have hs : Kept 4194303 s s := Kept.refl _ _
  unfold execDiscardHeldSave at h
  cases h
  exact serveIf_kept (hW.sub (by decide)) hs

theorem execWrite_kept {s t : State} {a0} {a1} (h : execWrite a0 a1 s = .next t) :
    Kept 4194303 s t := by
  have hW : Sub 4194303 4194303 := Sub.refl _
  have hs : Kept 4194303 s s := Kept.refl _ _
  unfold execWrite at h
  cases h
  exact serveIf_kept (hW.sub (by decide)) hs

theorem execScanRequest_kept {s t : State} {a0} {a1} (h : execScanRequest a0 a1 s = .next t) :
    Kept 4194303 s t := by
  have hW : Sub 4194303 4194303 := Sub.refl _
  have hs : Kept 4194303 s s := Kept.refl _ _
  unfold execScanRequest at h
  cases h
  exact serveIf_kept (hW.sub (by decide)) hs

theorem execReleaseRequest_kept {s t : State} {a0} {a1} (h : execReleaseRequest a0 a1 s = .next t) :
    Kept 4194303 s t := by
  have hW : Sub 4194303 4194303 := Sub.refl _
  have hs : Kept 4194303 s s := Kept.refl _ _
  unfold execReleaseRequest at h
  cases h
  exact serveIf_kept (hW.sub (by decide)) hs

theorem execClearTheLog_kept {s t : State} {a0} {a1} (h : execClearTheLog a0 a1 s = .next t) :
    Kept 4194303 s t := by
  have hW : Sub 4194303 4194303 := Sub.refl _
  have hs : Kept 4194303 s s := Kept.refl _ _
  unfold execClearTheLog at h
  cases h
  exact serveIf_kept (hW.sub (by decide)) hs

theorem execMbxSubmit_kept {s t : State} {a0} {a1} (h : execMbxSubmit a0 a1 s = .next t) :
    Kept 2 s t := by
  have hW : Sub 2 2 := Sub.refl _
  have hs : Kept 2 s s := Kept.refl _ _
  unfold execMbxSubmit at h
  cases h
  exact mbxSubmit_kept (hW.sub (by decide)) hs

theorem execStartFullScan_kept {s t : State} {a0} {a1} (h : execStartFullScan a0 a1 s = .next t) :
    Kept 4194303 s t := by
  have hW : Sub 4194303 4194303 := Sub.refl _
  have hs : Kept 4194303 s s := Kept.refl _ _
  unfold execStartFullScan at h
  cases h
  exact serveIf_kept (hW.sub (by decide)) hs

theorem execRecoveryBlockWrite_kept {s t : State} {a0} {a1} {a2} (h : execRecoveryBlockWrite a0 a1 a2 s = .next t) :
    Kept 4194303 s t := by
  have hW : Sub 4194303 4194303 := Sub.refl _
  have hs : Kept 4194303 s s := Kept.refl _ _
  unfold execRecoveryBlockWrite at h
  cases h
  refine Kept.ite ?_ ?_
  · exact serve_kept (hW.sub (by decide)) hs
  · exact hs

theorem execFirmwareUpdate_kept {s t : State} {a0} {a1} {a2} (h : execFirmwareUpdate a0 a1 a2 s = .next t) :
    Kept 4194303 s t := by
  have hW : Sub 4194303 4194303 := Sub.refl _
  have hs : Kept 4194303 s s := Kept.refl _ _
  unfold execFirmwareUpdate at h
  cases h
  refine Kept.ite ?_ ?_
  · exact serve_kept (hW.sub (by decide)) hs
  · exact hs

theorem execQpConnect_kept {s t : State} {a0} {a1} (h : execQpConnect a0 a1 s = .next t) :
    Kept 4194303 s t := by
  have hW : Sub 4194303 4194303 := Sub.refl _
  have hs : Kept 4194303 s s := Kept.refl _ _
  unfold execQpConnect at h
  cases h
  exact serveIf_kept (hW.sub (by decide)) hs

theorem execQpReset_kept {s t : State} {a0} {a1} (h : execQpReset a0 a1 s = .next t) :
    Kept 4194303 s t := by
  have hW : Sub 4194303 4194303 := Sub.refl _
  have hs : Kept 4194303 s s := Kept.refl _ _
  unfold execQpReset at h
  cases h
  exact serveIf_kept (hW.sub (by decide)) hs

theorem execLinkTestStart_kept {s t : State} {a0} {a1} (h : execLinkTestStart a0 a1 s = .next t) :
    Kept 4194303 s t := by
  have hW : Sub 4194303 4194303 := Sub.refl _
  have hs : Kept 4194303 s s := Kept.refl _ _
  unfold execLinkTestStart at h
  cases h
  exact serveIf_kept (hW.sub (by decide)) hs

theorem execMoveCommit_kept {s t : State} {a0} {a1} (h : execMoveCommit a0 a1 s = .next t) :
    Kept 3832781 s t := by
  have hW : Sub 3832781 3832781 := Sub.refl _
  have hs : Kept 3832781 s s := Kept.refl _ _
  unfold execMoveCommit at h
  cases h
  refine tendPeer_kept (hW.sub (by decide)) ?_
  refine tendRecalls_kept (hW.sub (by decide)) ?_
  refine flushHeld_kept (hW.sub (by decide)) ?_
  exact moveCommit_kept (hW.sub (by decide)) hs

/-- Whatever the command, what is waiting, the clock and what was sent stay, and memory and the dictionary store keep their
forms. -/
theorem exec_kept {i : Instr} {s t : State} (h : exec i s = .next t) : Kept 4194303 s t := by
  cases i with
  | read x0 x1 => exact (execRead_kept (a0 := x0) (a1 := x1) h).mono (by decide)
  | write x0 x1 => exact (execWrite_kept (a0 := x0) (a1 := x1) h).mono (by decide)
  | readBlock x0 x1 => exact (execReadBlock_kept (a0 := x0) (a1 := x1) h).mono (by decide)
  | writeBlock x0 x1 => exact (execWriteBlock_kept (a0 := x0) (a1 := x1) h).mono (by decide)
  | blockWriteTimeout x0 => exact (execBlockWriteTimeout_kept (a0 := x0) h).mono (by decide)
  | commit x0 x1 => exact (execCommit_kept (a0 := x0) (a1 := x1) h).mono (by decide)
  | cancelPendingCommit x0 x1 => exact (execCancelPendingCommit_kept (a0 := x0) (a1 := x1) h).mono (by decide)
  | discardStagedSet x0 x1 => exact (execDiscardStagedSet_kept (a0 := x0) (a1 := x1) h).mono (by decide)
  | hello x0 x1 => exact (execHello_kept (a0 := x0) (a1 := x1) h).mono (by decide)
  | auth x0 x1 x2 => exact (execAuth_kept (a0 := x0) (a1 := x1) (a2 := x2) h).mono (by decide)
  | record x0 x1 x2 x3 => exact (execRecord_kept (a0 := x0) (a1 := x1) (a2 := x2) (a3 := x3) h).mono (by decide)
  | sessionSetupTimeout x0 => exact (execSessionSetupTimeout_kept (a0 := x0) h).mono (by decide)
  | sessionIdleTimeout x0 => exact (execSessionIdleTimeout_kept (a0 := x0) h).mono (by decide)
  | commandTailDoorbell x0 x1 x2 => exact (execCommandTailDoorbell_kept (a0 := x0) (a1 := x1) (a2 := x2) h).mono (by decide)
  | completionHeadDoorbell x0 x1 => exact (execCompletionHeadDoorbell_kept (a0 := x0) (a1 := x1) h).mono (by decide)
  | eventHeadDoorbell x0 x1 => exact (execEventHeadDoorbell_kept (a0 := x0) (a1 := x1) h).mono (by decide)
  | mbxSubmit x0 x1 => exact (execMbxSubmit_kept (a0 := x0) (a1 := x1) h).mono (by decide)
  | mbxDone x0 => exact (execMbxDone_kept (a0 := x0) h).mono (by decide)
  | deferredCommandStart x0 => exact (execDeferredCommandStart_kept (a0 := x0) h).mono (by decide)
  | seqOpen x0 => exact (execSeqOpen_kept (a0 := x0) h).mono (by decide)
  | seqClose x0 => exact (execSeqClose_kept (a0 := x0) h).mono (by decide)
  | seqFork x0 => exact (execSeqFork_kept (a0 := x0) h).mono (by decide)
  | seqTruncate x0 => exact (execSeqTruncate_kept (a0 := x0) h).mono (by decide)
  | kvAppend x0 => exact (execKvAppend_kept (a0 := x0) h).mono (by decide)
  | colSeal x0 => exact (execColSeal_kept (a0 := x0) h).mono (by decide)
  | colMove x0 => exact (execColMove_kept (a0 := x0) h).mono (by decide)
  | colPin x0 => exact (execColPin_kept (a0 := x0) h).mono (by decide)
  | colUnpin x0 => exact (execColUnpin_kept (a0 := x0) h).mono (by decide)
  | colDiscard x0 => exact (execColDiscard_kept (a0 := x0) h).mono (by decide)
  | pfxLookup x0 => exact (execPfxLookup_kept (a0 := x0) h).mono (by decide)
  | pfxCommit x0 => exact (execPfxCommit_kept (a0 := x0) h).mono (by decide)
  | pfxEvict x0 => exact (execPfxEvict_kept (a0 := x0) h).mono (by decide)
  | objCreate x0 => exact (execObjCreate_kept (a0 := x0) h).mono (by decide)
  | objWrite x0 => exact (execObjWrite_kept (a0 := x0) h).mono (by decide)
  | objRead x0 => exact (execObjRead_kept (a0 := x0) h).mono (by decide)
  | objMove x0 => exact (execObjMove_kept (a0 := x0) h).mono (by decide)
  | objPolicy x0 => exact (execObjPolicy_kept (a0 := x0) h).mono (by decide)
  | attn x0 => exact (execAttn_kept (a0 := x0) h).mono (by decide)
  | attnBwd x0 => exact (execAttnBwd_kept (a0 := x0) h).mono (by decide)
  | specConfirm x0 => exact (execSpecConfirm_kept (a0 := x0) h).mono (by decide)
  | compaction x0 => exact (execCompaction_kept (a0 := x0) h).mono (by decide)
  | tableBuild x0 => exact (execTableBuild_kept (a0 := x0) h).mono (by decide)
  | tableLoad x0 => exact (execTableLoad_kept (a0 := x0) h).mono (by decide)
  | compress x0 => exact (execCompress_kept (a0 := x0) h).mono (by decide)
  | waitCount x0 => exact (execWaitCount_kept (a0 := x0) h).mono (by decide)
  | fence x0 => exact (execFence_kept (a0 := x0) h).mono (by decide)
  | cxlMemRead x0 x1 x2 => exact (execCxlMemRead_kept (a0 := x0) (a1 := x1) (a2 := x2) h).mono (by decide)
  | cxlMemWrite x0 x1 x2 => exact (execCxlMemWrite_kept (a0 := x0) (a1 := x1) (a2 := x2) h).mono (by decide)
  | beat x0 => exact (execBeat_kept (a0 := x0) h).mono (by decide)
  | beatHoldRelease => exact (execBeatHoldRelease_kept h).mono (by decide)
  | sheet x0 => exact (execSheet_kept (a0 := x0) h).mono (by decide)
  | submit x0 => exact (execSubmit_kept (a0 := x0) h).mono (by decide)
  | window x0 => exact (execWindow_kept (a0 := x0) h).mono (by decide)
  | credit x0 => exact (execCredit_kept (a0 := x0) h).mono (by decide)
  | sync x0 => exact (execSync_kept (a0 := x0) h).mono (by decide)
  | beatSilence => exact (execBeatSilence_kept h).mono (by decide)
  | wheelRestart x0 x1 => exact (execWheelRestart_kept (a0 := x0) (a1 := x1) h).mono (by decide)
  | tileLanded x0 x1 x2 x3 => exact (execTileLanded_kept (a0 := x0) (a1 := x1) (a2 := x2) (a3 := x3) h).mono (by decide)
  | itemComplete x0 x1 => exact (execItemComplete_kept (a0 := x0) (a1 := x1) h).mono (by decide)
  | jobComplete x0 => exact (execJobComplete_kept (a0 := x0) h).mono (by decide)
  | moveCommit x0 x1 => exact (execMoveCommit_kept (a0 := x0) (a1 := x1) h).mono (by decide)
  | moduleLinkDown x0 x1 => exact (execModuleLinkDown_kept (a0 := x0) (a1 := x1) h).mono (by decide)
  | moduleRetrain x0 x1 => exact (execModuleRetrain_kept (a0 := x0) (a1 := x1) h).mono (by decide)
  | sidebandFailure x0 => exact (execSidebandFailure_kept (a0 := x0) h).mono (by decide)
  | configure x0 x1 => exact (execConfigure_kept (a0 := x0) (a1 := x1) h).mono (by decide)
  | qpConnect x0 x1 => exact (execQpConnect_kept (a0 := x0) (a1 := x1) h).mono (by decide)
  | drain x0 x1 => exact (execDrain_kept (a0 := x0) (a1 := x1) h).mono (by decide)
  | qpReset x0 x1 => exact (execQpReset_kept (a0 := x0) (a1 := x1) h).mono (by decide)
  | qpRelease x0 x1 => exact (execQpRelease_kept (a0 := x0) (a1 := x1) h).mono (by decide)
  | connectTimeout x0 => exact (execConnectTimeout_kept (a0 := x0) h).mono (by decide)
  | peerSendTailDoorbell x0 x1 => exact (execPeerSendTailDoorbell_kept (a0 := x0) (a1 := x1) h).mono (by decide)
  | peerCompletionHeadDoorbell x0 x1 => exact (execPeerCompletionHeadDoorbell_kept (a0 := x0) (a1 := x1) h).mono (by decide)
  | wrWrite x0 => exact (execWrWrite_kept (a0 := x0) h).mono (by decide)
  | wrWriteImm x0 => exact (execWrWriteImm_kept (a0 := x0) h).mono (by decide)
  | wrRead x0 => exact (execWrRead_kept (a0 := x0) h).mono (by decide)
  | wrWaitCount x0 => exact (execWrWaitCount_kept (a0 := x0) h).mono (by decide)
  | peerWrite x0 x1 => exact (execPeerWrite_kept (a0 := x0) (a1 := x1) h).mono (by decide)
  | peerWriteImm x0 x1 => exact (execPeerWriteImm_kept (a0 := x0) (a1 := x1) h).mono (by decide)
  | readReq x0 x1 => exact (execReadReq_kept (a0 := x0) (a1 := x1) h).mono (by decide)
  | readResp x0 x1 => exact (execReadResp_kept (a0 := x0) (a1 := x1) h).mono (by decide)
  | ack x0 x1 => exact (execAck_kept (a0 := x0) (a1 := x1) h).mono (by decide)
  | nak x0 x1 => exact (execNak_kept (a0 := x0) (a1 := x1) h).mono (by decide)
  | connect x0 x1 => exact (execConnect_kept (a0 := x0) (a1 := x1) h).mono (by decide)
  | connectAck x0 x1 => exact (execConnectAck_kept (a0 := x0) (a1 := x1) h).mono (by decide)
  | disconnect x0 x1 => exact (execDisconnect_kept (a0 := x0) (a1 := x1) h).mono (by decide)
  | busy x0 x1 => exact (execBusy_kept (a0 := x0) (a1 := x1) h).mono (by decide)
  | busyResend x0 => exact (execBusyResend_kept (a0 := x0) h).mono (by decide)
  | retransmissionTimeout x0 => exact (execRetransmissionTimeout_kept (a0 := x0) h).mono (by decide)
  | peerRekey x0 => exact (execPeerRekey_kept (a0 := x0) h).mono (by decide)
  | contextFetch x0 => exact (execContextFetch_kept (a0 := x0) h).mono (by decide)
  | relayedPacket x0 x1 => exact (execRelayedPacket_kept (a0 := x0) (a1 := x1) h).mono (by decide)
  | leaseRequest x0 x1 => exact (execLeaseRequest_kept (a0 := x0) (a1 := x1) h).mono (by decide)
  | leaseGrant x0 x1 => exact (execLeaseGrant_kept (a0 := x0) (a1 := x1) h).mono (by decide)
  | leaseRefuse x0 x1 => exact (execLeaseRefuse_kept (a0 := x0) (a1 := x1) h).mono (by decide)
  | leaseReturn x0 x1 => exact (execLeaseReturn_kept (a0 := x0) (a1 := x1) h).mono (by decide)
  | leaseRecall x0 x1 => exact (execLeaseRecall_kept (a0 := x0) (a1 := x1) h).mono (by decide)
  | leaseDone x0 x1 => exact (execLeaseDone_kept (a0 := x0) (a1 := x1) h).mono (by decide)
  | borrowerHoldExpiry x0 => exact (execBorrowerHoldExpiry_kept (a0 := x0) h).mono (by decide)
  | portBringUp x0 x1 => exact (execPortBringUp_kept (a0 := x0) (a1 := x1) h).mono (by decide)
  | bringupStepTimeout x0 => exact (execBringupStepTimeout_kept (a0 := x0) h).mono (by decide)
  | linkKey x0 x1 x2 x3 => exact (execLinkKey_kept (a0 := x0) (a1 := x1) (a2 := x2) (a3 := x3) h).mono (by decide)
  | linkCt x0 x1 x2 x3 => exact (execLinkCt_kept (a0 := x0) (a1 := x1) (a2 := x2) (a3 := x3) h).mono (by decide)
  | linkProof x0 x1 => exact (execLinkProof_kept (a0 := x0) (a1 := x1) h).mono (by decide)
  | dataFrame x0 x1 => exact (execDataFrame_kept (a0 := x0) (a1 := x1) h).mono (by decide)
  | creditFrame x0 x1 => exact (execCreditFrame_kept (a0 := x0) (a1 := x1) h).mono (by decide)
  | nakFrame x0 x1 => exact (execNakFrame_kept (a0 := x0) (a1 := x1) h).mono (by decide)
  | lane x0 x1 => exact (execLane_kept (a0 := x0) (a1 := x1) h).mono (by decide)
  | laneFault x0 x1 => exact (execLaneFault_kept (a0 := x0) (a1 := x1) h).mono (by decide)
  | laneFrameRepeat x0 => exact (execLaneFrameRepeat_kept (a0 := x0) h).mono (by decide)
  | laneAgreementTimeout x0 => exact (execLaneAgreementTimeout_kept (a0 := x0) h).mono (by decide)
  | laneRetrain x0 x1 x2 => exact (execLaneRetrain_kept (a0 := x0) (a1 := x1) (a2 := x2) h).mono (by decide)
  | laserCheck x0 => exact (execLaserCheck_kept (a0 := x0) h).mono (by decide)
  | nakRepeat x0 => exact (execNakRepeat_kept (a0 := x0) h).mono (by decide)
  | replayTimeout x0 => exact (execReplayTimeout_kept (a0 := x0) h).mono (by decide)
  | creditFrameTimer x0 => exact (execCreditFrameTimer_kept (a0 := x0) h).mono (by decide)
  | linkRekey x0 => exact (execLinkRekey_kept (a0 := x0) h).mono (by decide)
  | packetBoundary x0 => exact (execPacketBoundary_kept (a0 := x0) h).mono (by decide)
  | identify x0 x1 x2 => exact (execIdentify_kept (a0 := x0) (a1 := x1) (a2 := x2) h).mono (by decide)
  | param x0 x1 => exact (execParam_kept (a0 := x0) (a1 := x1) h).mono (by decide)
  | badmap x0 x1 x2 => exact (execBadmap_kept (a0 := x0) (a1 := x1) (a2 := x2) h).mono (by decide)
  | bridgeRead x0 x1 x2 => exact (execBridgeRead_kept (a0 := x0) (a1 := x1) (a2 := x2) h).mono (by decide)
  | readMeta x0 x1 x2 => exact (execReadMeta_kept (a0 := x0) (a1 := x1) (a2 := x2) h).mono (by decide)
  | program x0 x1 => exact (execProgram_kept (a0 := x0) (a1 := x1) h).mono (by decide)
  | erase x0 x1 => exact (execErase_kept (a0 := x0) (a1 := x1) h).mono (by decide)
  | bridgeReset x0 x1 => exact (execBridgeReset_kept (a0 := x0) (a1 := x1) h).mono (by decide)
  | bridgeResponseTimeout x0 x1 => exact (execBridgeResponseTimeout_kept (a0 := x0) (a1 := x1) h).mono (by decide)
  | portDownWaitExpiry x0 => exact (execPortDownWaitExpiry_kept (a0 := x0) h).mono (by decide)
  | journalHalfFull x0 => exact (execJournalHalfFull_kept (a0 := x0) h).mono (by decide)
  | checkpoint x0 => exact (execCheckpoint_kept (a0 := x0) h).mono (by decide)
  | garbageCollection x0 => exact (execGarbageCollection_kept (a0 := x0) h).mono (by decide)
  | shelfStartup x0 x1 => exact (execShelfStartup_kept (a0 := x0) (a1 := x1) h).mono (by decide)
  | startFullScan x0 x1 => exact (execStartFullScan_kept (a0 := x0) (a1 := x1) h).mono (by decide)
  | formatShelf x0 x1 => exact (execFormatShelf_kept (a0 := x0) (a1 := x1) h).mono (by decide)
  | startRebuild x0 x1 => exact (execStartRebuild_kept (a0 := x0) (a1 := x1) h).mono (by decide)
  | spdmRequest x0 => exact (execSpdmRequest_kept (a0 := x0) h).mono (by decide)
  | finish x0 x1 x2 => exact (execFinish_kept (a0 := x0) (a1 := x1) (a2 := x2) h).mono (by decide)
  | getMeasurements x0 x1 x2 => exact (execGetMeasurements_kept (a0 := x0) (a1 := x1) (a2 := x2) h).mono (by decide)
  | spdmSessionEnd x0 => exact (execSpdmSessionEnd_kept (a0 := x0) h).mono (by decide)
  | own x0 => exact (execOwn_kept (a0 := x0) h).mono (by decide)
  | setSecret x0 x1 x2 => exact (execSetSecret_kept (a0 := x0) (a1 := x1) (a2 := x2) h).mono (by decide)
  | tenancySecret x0 x1 => exact (execTenancySecret_kept (a0 := x0) (a1 := x1) h).mono (by decide)
  | status x0 => exact (execStatus_kept (a0 := x0) h).mono (by decide)
  | ownershipWaitExpiry => exact (execOwnershipWaitExpiry_kept h).mono (by decide)
  | releaseRequest x0 x1 => exact (execReleaseRequest_kept (a0 := x0) (a1 := x1) h).mono (by decide)
  | releaseStepEnd => exact (execReleaseStepEnd_kept h).mono (by decide)
  | weightKeyWrite x0 x1 => exact (execWeightKeyWrite_kept (a0 := x0) (a1 := x1) h).mono (by decide)
  | scanRequest x0 x1 => exact (execScanRequest_kept (a0 := x0) (a1 := x1) h).mono (by decide)
  | testRequest x0 x1 => exact (execTestRequest_kept (a0 := x0) (a1 := x1) h).mono (by decide)
  | trigEdge => exact (execTrigEdge_kept h).mono (by decide)
  | testComplete x0 x1 => exact (execTestComplete_kept (a0 := x0) (a1 := x1) h).mono (by decide)
  | linkTestStart x0 x1 => exact (execLinkTestStart_kept (a0 := x0) (a1 := x1) h).mono (by decide)
  | linkTestStop x0 x1 => exact (execLinkTestStop_kept (a0 := x0) (a1 := x1) h).mono (by decide)
  | coldReset x0 => exact (execColdReset_kept (a0 := x0) h).mono (by decide)
  | boot x0 => exact (execBoot_kept (a0 := x0) h).mono (by decide)
  | warmReset x0 x1 => exact (execWarmReset_kept (a0 := x0) (a1 := x1) h).mono (by decide)
  | partitionReset x0 x1 => exact (execPartitionReset_kept (a0 := x0) (a1 := x1) h).mono (by decide)
  | mgpFault x0 => exact (execMgpFault_kept (a0 := x0) h).mono (by decide)
  | firmwareUpdate x0 x1 x2 => exact (execFirmwareUpdate_kept (a0 := x0) (a1 := x1) (a2 := x2) h).mono (by decide)
  | recoveryBlockWrite x0 x1 x2 => exact (execRecoveryBlockWrite_kept (a0 := x0) (a1 := x1) (a2 := x2) h).mono (by decide)
  | supplySag x0 x1 => exact (execSupplySag_kept (a0 := x0) (a1 := x1) h).mono (by decide)
  | kilnIsolation => exact (execKilnIsolation_kept h).mono (by decide)
  | saveEnd x0 => exact (execSaveEnd_kept (a0 := x0) h).mono (by decide)
  | discardHeldSave x0 x1 => exact (execDiscardHeldSave_kept (a0 := x0) (a1 := x1) h).mono (by decide)
  | thermalSample x0 => exact (execThermalSample_kept (a0 := x0) h).mono (by decide)
  | pmbusPoll x0 x1 => exact (execPmbusPoll_kept (a0 := x0) (a1 := x1) h).mono (by decide)
  | pmbusTimeout x0 => exact (execPmbusTimeout_kept (a0 := x0) h).mono (by decide)
  | powerCheck => exact (execPowerCheck_kept h).mono (by decide)
  | logFlush => exact (execLogFlush_kept h).mono (by decide)
  | escalation x0 x1 => exact (execEscalation_kept (a0 := x0) (a1 := x1) h).mono (by decide)
  | clearTheLog x0 x1 => exact (execClearTheLog_kept (a0 := x0) (a1 := x1) h).mono (by decide)
  | counterValueWrite x0 x1 => exact (execCounterValueWrite_kept (a0 := x0) (a1 := x1) h).mono (by decide)
  | counterSample x0 x1 x2 x3 => exact (execCounterSample_kept (a0 := x0) (a1 := x1) (a2 := x2) (a3 := x3) h).mono (by decide)
  | saveRingCopyEnd => exact (execSaveRingCopyEnd_kept h).mono (by decide)
  | coreFailure x0 => exact (execCoreFailure_kept (a0 := x0) h).mono (by decide)
  | rtpDomainFailure x0 => exact (execRtpDomainFailure_kept (a0 := x0) h).mono (by decide)
  | slotProgrammed x0 => exact (execSlotProgrammed_kept (a0 := x0) h).mono (by decide)
  | storedValuesWritten => exact (execStoredValuesWritten_kept h).mono (by decide)
  | blockEncoded x0 x1 x2 => exact (execBlockEncoded_kept (a0 := x0) (a1 := x1) (a2 := x2) h).mono (by decide)
  | borrowerLeaseRequest x0 x1 => exact (execBorrowerLeaseRequest_kept (a0 := x0) (a1 := x1) h).mono (by decide)
  | idleFrame x0 x1 => exact (execIdleFrame_kept (a0 := x0) (a1 := x1) h).mono (by decide)
  | checkerLock x0 => exact (execCheckerLock_kept (a0 := x0) h).mono (by decide)
  | checkerLockLoss x0 => exact (execCheckerLockLoss_kept (a0 := x0) h).mono (by decide)
  | checkerError x0 x1 => exact (execCheckerError_kept (a0 := x0) (a1 := x1) h).mono (by decide)

end Sys2Proof.Laws
end

