-- ==== Sys2Proof/Laws/Report.lean ====
section
/-! SUPPORT. What reaches the host: messages once made stay made, a completed command's record is one of them, and a queue's
front command that may start is carried out. -/

namespace Sys2Proof.Laws

open Sys2Proof Sys2Proof.Machine

/-! ## Messages stay -/

/-- Every message to the host of `s` is one of `t`, in the same order and before the others. -/
abbrev Says (s t : State) : Prop := bodies s <+: bodies t

theorem Says.refl (s : State) : Says s s := List.prefix_refl _

theorem Says.trans {r s t : State} (h : Says r s) (k : Says s t) : Says r t := List.IsPrefix.trans h k

theorem Says.of_host {s t : State} (h : t.host = s.host) : Says s t := by
  unfold Says bodies
  rw [h]

theorem Says.of_unacked {s t : State} (h : t.host.unacked = s.host.unacked) : Says s t := by
  unfold Says bodies
  rw [h]

theorem pumpClass_bodies (cls : Nat) (mods : List Nat) (cred out : Nat) (held : Bool) (l : List TxMsg) :
    (pumpClass cls mods cred out held l).1.map (fun m => m.body) = l.map (fun m => m.body) := by
  induction l generalizing cred out held with
  | nil => rfl
  | cons m ms ih =>
    unfold pumpClass
    split
    · split
      · simp only [List.map_cons, ih]
      · simp only [List.map_cons, ih]
    · simp only [List.map_cons, ih]

theorem pumpTx_bodies (s : State) : bodies (pumpTx s) = bodies s := by
  unfold pumpTx
  split
  · rfl
  · simp only [bodies, pumpClass_bodies]

theorem sendClass2_bodies (n : Nat) (b : HostMsg) (v : Option Nat) (s : State) :
    bodies (sendClass2 n b v s) = bodies s ++ [b] := by
  unfold sendClass2 sendFrag2
  rw [pumpTx_bodies]
  simp [bodies]

theorem sendClass2_says (n : Nat) (b : HostMsg) (v : Option Nat) (s : State) : Says s (sendClass2 n b v s) := by
  unfold Says
  rw [sendClass2_bodies]
  exact List.prefix_append _ _

theorem writeEvent_says (r : Nat) (e : Event) (s : State) : Says s (writeEvent r e s) := by
  refine Says.trans ?_ (sendClass2_says _ _ _ _)
  exact Says.of_host rfl

theorem pushEvent_says (r : Nat) (e : Event) (s : State) : Says s (pushEvent r e s) := by
  unfold pushEvent
  dsimp only
  split
  · refine Says.trans ?_ (writeEvent_says _ _ _)
    exact Says.of_host rfl
  · split <;> exact Says.of_host rfl

theorem event_says (st : Status) (p : Option Nat) (f u d : Nat) (s : State) : Says s (event st p f u d s) :=
  pushEvent_says _ _ _

/-- A message to a window is made, or an event in its place (R66). -/
theorem sendInside_says {w cls off n : Nat} {p : Option Nat} {f : State → State} {s : State} (h : Says s (f s)) :
    Says s (sendInside w cls off n p f s) := by
  unfold sendInside
  split
  · exact h
  · refine Says.trans ?_ (event_says _ _ _ _ _ _)
    exact Says.of_unacked rfl

theorem writeCompletion_says (q : QRef) (d : Desc) (st : Status) (v : Nat) (s : State) : Says s (writeCompletion q d st v s) := by
  unfold writeCompletion
  dsimp only
  split
  · exact Says.of_host rfl
  · refine Says.trans ?_ (sendInside_says (sendClass2_says _ _ _ _))
    exact Says.of_host rfl

theorem finishCmd_says (c : Cmd) (st : Status) (v : Nat) (s : State) : Says s (finishCmd c st v s) := by
  refine Says.trans ?_ (writeCompletion_says _ _ _ _ _)
  exact Says.of_host rfl

theorem writeWrCompletion_says (q : Qp) (w : Wr) (s : State) : Says s (writeWrCompletion q w s) := by
  unfold writeWrCompletion onlyIf
  dsimp only
  have h := sendInside_says (w := q.cqWindow) (cls := 2) (off := 32 * (q.written % q.ring)) (n := 32) (p := some q.part)
    (sendClass2_says 32 (.completion q.cqWindow (32 * (q.written % q.ring)) q.part
      { tag := BitVec.ofNat 32 (dfield w.desc 4 4), opcode := dfield w.desc 0 1, status := w.status, queue := 0xFF,
        phase := q.written / q.ring % 2 == 0, wpos := s.wheel.cur, result := q.num + w.moved * 2 ^ 32 })
      (some (8 * q.part + 5)) s)
  split
  · exact h.trans (event_says _ _ _ _ _ _)
  · exact h

theorem flushWrs_says (n k : Nat) (s : State) : Says s (flushWrs n k s) := by
  induction k generalizing s with
  | zero => exact Says.refl _
  | succ k ih =>
    unfold flushWrs
    split
    · exact Says.refl _
    · split
      · exact Says.refl _
      · split
        · refine Says.trans ?_ (ih _)
          exact (writeWrCompletion_says _ _ s).trans (Says.of_host rfl)
        · exact Says.refl _

theorem settle_says (n : Nat) (s : State) : Says s (settle n s) := by
  induction n generalizing s with
  | zero => exact Says.refl _
  | succ n ih =>
    unfold settle
    split
    · exact (finishCmd_says _ _ _ s).trans (ih _)
    · split
      · refine Says.trans ?_ (ih _)
        refine Says.trans ?_ (flushWrs_says _ _ _)
        exact Says.of_host rfl
      · split
        · refine Says.trans ?_ (ih _)
          refine Says.trans ?_ (writeCompletion_says _ _ _ _ _)
          exact Says.of_host rfl
        · split
          · refine Says.trans ?_ (ih _)
            refine Says.trans ?_ (writeCompletion_says _ _ _ _ _)
            exact Says.of_host rfl
          · exact Says.refl _

/-! ## Completions -/

theorem writeCompletion_bodies {q : QRef} {d : Desc} {st : Status} {v : Nat} {s : State} (h : compWindow s q ≠ 0xFFFF)
    (k : windowHolds (compWindow s q) 2 (32 * ((queueOf s q).completed % ringSize s q)) 32 s = true) :
    bodies (writeCompletion q d st v s) = bodies s ++ [completionOf q d st v s] := by
  unfold writeCompletion
  dsimp only
  have hw : (compWindow s q == 0xFFFF) = false := beq_eq_false_iff_ne.2 h
  have hk : ∀ t, windowHolds (compWindow s q) 2 (32 * ((queueOf s q).completed % ringSize s q)) 32 (setQueue q t s) = true := fun _ => k
  rw [hw]
  unfold sendInside
  simp only [hk, Bool.false_eq_true, if_false, if_true]
  exact sendClass2_bodies _ _ _ _

/-- A completed command's record is a message to the host made after those of `s`. -/
theorem complete_reports {c : Cmd} {st : Status} {v : Nat} {s : State} (h : compWindow s c.q ≠ 0xFFFF)
    (k : windowHolds (compWindow s c.q) 2 (32 * ((queueOf s c.q).completed % ringSize s c.q)) 32 s = true) :
    (bodies s ++ [completionOf c.q c.desc st v s]) <+: bodies (complete c st v s) := by
  have e : bodies (finishCmd c st v s) = bodies s ++ [completionOf c.q c.desc st v s] := writeCompletion_bodies h k
  rw [← e]
  exact settle_says _ _

/-- Completing a command changes nothing but the queues, the pairs that wait on counts and what is sent to the host. -/
theorem complete_parts (c : Cmd) (st : Status) (v : Nat) (s : State) : Kept 8204 s (complete c st v s) :=
  complete_kept (Sub.refl _) (Kept.refl _ _)

/-! ## Front commands -/

theorem queueOf_setQueue (q : QRef) (k : Queue) (s : State) :
    queueOf (setQueue q k s) q = k ∨ queueOf (setQueue q k s) q = queueOf s q := by
  unfold queueOf setQueue
  by_cases h : qIdx q < s.queues.qs.length
  · left
    simp [List.getD_eq_getElem?_getD, h]
  · right
    rw [List.set_eq_of_length_le (Nat.le_of_not_lt h)]

theorem popCmd_completed (q : QRef) (d : Desc) (ds : List Desc) (s : State) :
    (queueOf (popCmd q d ds s) q).completed = (queueOf s q).completed := by
  have h := queueOf_setQueue q { queueOf s q with waiting := ds } s
  show (queueOf (setQueue q { queueOf s q with waiting := ds } s) q).completed = _
  rcases h with h | h <;> rw [h]

/-- A front command that runs is what its meaning makes of it. -/
theorem startCmd_front {op : Nat} {q : QRef} {d : Desc} {ds : List Desc} {s : State} (h : Front op q d ds s)
    (run : Cmd → State → State) : startCmd op run q s = run (takenCmd q d s) (popCmd q d ds s) := by
  unfold startCmd
  rw [h.front]
  dsimp only
  have hc : (dOpcode d != op || !canStart s q) = false := by rw [h.may, h.code]; simp
  rw [hc, h.own, h.form]
  simp only [Bool.false_eq_true, if_false, Bool.not_true]
  unfold startAt goOrDefer
  have hd : (takenCmd q d s).desc = d := rfl
  have ha : (hasAt (dOpcode d) && dAt d != 0) = false := by
    rw [h.code]
    cases e : hasAt op with
    | false => rfl
    | true => simp [h.soon e]
  rw [hd, ha, h.clear, h.turn]
  rfl

theorem front_window {op : Nat} {q : QRef} {d : Desc} {ds : List Desc} {s : State} (h : Front op q d ds s) :
    compWindow s q ≠ 0xFFFF := by
  have := h.may
  unfold canStart compRoom at this
  simp only [Bool.and_eq_true, bne_iff_ne] at this
  exact this.1.1.2.1

/-- A front command that has completed on a state `t` reached from its start without a message to the host. -/
theorem front_reports {op : Nat} {q : QRef} {d : Desc} {ds : List Desc} {s t : State} {st : Status} {v : Nat}
    (h : Front op q d ds s) (hh : t.host = s.host) (hq : t.queues = (popCmd q d ds s).queues) (ho : ∀ i k, od t i k = od s i k)
    (hw : t.wheel = s.wheel) : Reports q d st v s (complete (takenCmd q d s) st v t) := by
  have hwin : compWindow t q = compWindow s q := by
    cases q <;> exact ho _ _
  have hring : ringSize t q = ringSize s q := by
    cases q with
    | part p i => exact ho _ _
    | admin => rfl
  have hcomp : (queueOf t q).completed = (queueOf s q).completed := by
    rw [← popCmd_completed q d ds s]
    unfold queueOf
    rw [hq]
  refine ⟨[], ?_⟩
  have hb : bodies t = bodies s := by
    unfold bodies
    rw [hh]
  have hc : completionOf q d st v t = completionOf q d st v s := by
    unfold completionOf
    rw [hwin, hring, hcomp, hw]
  rw [List.append_nil, ← hb, ← hc]
  refine complete_reports (c := takenCmd q d s) ?_ ?_
  · show compWindow t q ≠ 0xFFFF
    rw [hwin]
    exact front_window h
  · show windowHolds (compWindow t q) 2 (32 * ((queueOf t q).completed % ringSize t q)) 32 t = true
    rw [hwin, hring, hcomp]
    unfold windowHolds findWindow
    rw [hh]
    exact h.lands

/-! ## Frames -/

/-- The bit of a part. -/
def Part.bit : Part → Nat
  | .mem => 0
  | .mgmt => 1
  | .host => 2
  | .queues => 3
  | .wheel => 4
  | .sheets => 5
  | .jobs => 6
  | .kv => 7
  | .objs => 8
  | .pfx => 9
  | .tables => 10
  | .pasture => 11
  | .shelves => 12
  | .peer => 13
  | .links => 14
  | .sec => 15
  | .power => 16
  | .log => 17
  | .samplers => 18
  | .od => 19
  | .tx => 20
  | .fresh => 21

/-- What is kept outside a set of parts, said by their names. -/
theorem Kept.onlyIn {W : Nat} {l : List Part} {s t : State} (h : Kept W s t)
    (hl : ∀ p, p ∉ l → W.testBit (Part.bit p) = false) : OnlyIn l s t := by
  refine ⟨h.pending, h.now, fun p hp => ?_⟩
  have := hl p hp
  cases p with
  | mem => exact h.memSame this
  | mgmt => exact h.mgmtSame this
  | host => exact h.hostSame this
  | queues => exact h.queuesSame this
  | wheel => exact h.wheelSame this
  | sheets => exact h.sheetsSame this
  | jobs => exact h.jobsSame this
  | kv => exact h.kvSame this
  | objs => exact h.objsSame this
  | pfx => exact h.pfxSame this
  | tables => exact h.tablesSame this
  | pasture => exact h.pastureSame this
  | shelves => exact h.shelvesSame this
  | peer => exact h.peerSame this
  | links => exact h.linksSame this
  | sec => exact h.secSame this
  | power => exact h.powerSame this
  | log => exact h.logSame this
  | samplers => exact h.samplersSame this
  | od => exact h.odSame this
  | tx => exact h.txSame this
  | fresh => exact h.freshSame this

end Sys2Proof.Laws
end

