-- ==== Sys2Proof/Laws/Request.lean ====
section
/-! SUPPORT. Dictionary requests: what serving one comes to, and how a write reaches the meaning of its object. -/

namespace Sys2Proof.Laws

open Sys2Proof Sys2Proof.Machine

/-- A request served for the first time is performed and answered. -/
theorem serve_request {sig : Option Bool} {via : Via} {m : DictMsg} {s : State} (h : Asks via m s) :
    serve sig via m s = serveNew sig via m s := by
  unfold serve serveDelivered
  rw [h.served, h.arrives, h.fresh]
  rfl

theorem serveIf_request {b : Bool} {via : Via} {m : DictMsg} {s : State} (hb : b = true) (h : Asks via m s) :
    serveIf b via m s = serveNew none via m s := by
  unfold serveIf
  rw [if_pos hb]
  exact serve_request h

/-- What a performed request that does nothing after its response comes to. -/
theorem serveNew_plain {sig : Option Bool} {via : Via} {m : DictMsg} {s t : State} {st : Status} {typ : Nat} {value : Bytes}
    (h : perform sig via m s = { st := st, typ := typ, value := value, state := t }) :
    serveNew sig via m s = answered via m st typ value t := by
  unfold serveNew
  rw [h]
  rfl

/-- What one that acts after its response comes to. -/
theorem serveNew_later {sig : Option Bool} {via : Via} {m : DictMsg} {s t : State} {st : Status} {typ : Nat} {value : Bytes}
    {f : State → State} (h : perform sig via m s = { st := st, typ := typ, value := value, state := t, after := f }) :
    serveNew sig via m s = f (answered via m st typ value t) := by
  unfold serveNew
  rw [h]
  rfl

theorem perform_run {sig : Option Bool} {via : Via} {m : DictMsg} {s : State} (h : Request via m s) :
    perform sig via m s =
      match m.op.toNat with
      | 1 => readObject (Via.role via) (bitOf m.flags.toNat 0) m.index.toNat m.sub.toNat s
      | 2 => writeObject (Via.role via) m.typ.toNat m.index.toNat m.sub.toNat m.value s
      | 3 => readBlockObject (Via.role via) (bitOf m.flags.toNat 0) m.index.toNat m.sub.toNat m.block.toNat s
      | 4 => writeBlockObject via sig m.typ.toNat m.index.toNat m.sub.toNat m.block.toNat m.value s
      | 5 => writeObject (Via.role via) m.typ.toNat 0x1F00 1 m.value s
      | _ => refuseA .badDescriptor s := by
  have h1 : (s.power.dev == .recovery) = false := beq_eq_false_iff_ne.2 h.running
  have h2 : (m.length.toNat != m.value.length) = false := by simp [h.whole]
  unfold perform
  simp only [h1, h2, Bool.false_and, Bool.false_eq_true, if_false]
  all_goals rfl

/-- A write that is admitted reaches the meaning of its object's access. -/
theorem perform_write {sig : Option Bool} {via : Via} {m : DictMsg} {i k : Nat} {r : OdRow} {s : State}
    (h : Writes via m i k r s) :
    perform sig via m s =
      match r.acc with
      | .rws => ofPair (stage (Via.role via) i k (leNat m.value) s)
      | .wo => writeWo (Via.role via) i k (leNat m.value) m.value s
      | _ => ofPair (writeRw (Via.role via) i k (leNat m.value) s) := by
  have hw : writeObject (Via.role via) m.typ.toNat i k m.value s =
      match r.acc with
      | .rws => ofPair (stage (Via.role via) i k (leNat m.value) s)
      | .wo => writeWo (Via.role via) i k (leNat m.value) m.value s
      | _ => ofPair (writeRw (Via.role via) i k (leNat m.value) s) := by
    have h1 : decide (1024 < r.size) = false := decide_eq_false (Nat.not_lt.2 h.short)
    unfold writeObject
    rw [h.admitted]
    simp [h1, h.typed, h.long, h.inRange, h.special]
    all_goals rfl
  rw [perform_run h.request]
  rcases h.target with ⟨h1, h2, h3⟩ | ⟨h1, h2, h3⟩
  · rw [h1, h2, h3]
    exact hw
  · rw [h1, ← h2, ← h3]
    exact hw

/-- The listing that admits a write is the object's. -/
theorem writes_listed {via : Via} {m : DictMsg} {i k : Nat} {r : OdRow} {s : State} (h : Writes via m i k r s) :
    odFind i k = some r := by
  have := h.admitted
  unfold writeCheck at this
  split at this
  · cases this
  · split at this
    · cases this
    · rename_i r' e
      dsimp only at this
      split_ifs at this
      cases this
      exact e

/-- An admitted write of an object whose access is WO. -/
theorem perform_wo {sig : Option Bool} {via : Via} {m : DictMsg} {i k : Nat} {r : OdRow} {s : State} (h : Writes via m i k r s)
    (ha : (odFind i k).map (fun x => x.acc) = some .wo) :
    perform sig via m s = writeWo (Via.role via) i k (leNat m.value) m.value s := by
  rw [writes_listed h] at ha
  have : r.acc = .wo := by simpa using ha
  rw [perform_write h, this]

end Sys2Proof.Laws
end

