-- ==== Sys2Proof/Laws/State.lean ====
section
/-! SUPPORT. The named updates of the state, field by field: what each puts into the field it is for, and that it leaves every
other field as it was. -/

namespace Sys2Proof.Laws

open Sys2Proof.Machine

/-! ## Repetition -/

@[simp] theorem forEach_nil {α : Type} (f : α → State → State) (s : State) : forEach f [] s = s := rfl
@[simp] theorem forEach_cons {α : Type} (f : α → State → State) (x : α) (xs : List α) (s : State) :
    forEach f (x :: xs) s = forEach f xs (f x s) := rfl
@[simp] theorem onlyIf_true (f : State → State) (s : State) : onlyIf true f s = f s := rfl
@[simp] theorem onlyIf_false (f : State → State) (s : State) : onlyIf false f s = s := rfl

/-! ## The commit state of a role -/

@[simp] theorem roleSt_setRole (r : Role) (f : RoleState → RoleState) (s : State) :
    roleSt r (setRole r f s) = f (roleSt r s) := by cases r <;> rfl
@[simp] theorem roleSt_setRole_tenant (f : RoleState → RoleState) (s : State) :
    roleSt .operator (setRole .tenant f s) = roleSt .operator s := rfl
@[simp] theorem roleSt_setRole_operator (f : RoleState → RoleState) (s : State) :
    roleSt .tenant (setRole .operator f s) = roleSt .tenant s := rfl


/-! ## send -/

@[simp] theorem send_tx (x : Sent) (s : State) : (send x s).tx = s.tx ++ [x] := rfl
@[simp] theorem send_pending (x : Sent) (s : State) : (send x s).pending = s.pending := rfl
@[simp] theorem send_now (x : Sent) (s : State) : (send x s).now = s.now := rfl
@[simp] theorem send_fresh (x : Sent) (s : State) : (send x s).fresh = s.fresh := rfl
@[simp] theorem send_od (x : Sent) (s : State) : (send x s).od = s.od := rfl
@[simp] theorem send_mem (x : Sent) (s : State) : (send x s).mem = s.mem := rfl
@[simp] theorem send_mgmt (x : Sent) (s : State) : (send x s).mgmt = s.mgmt := rfl
@[simp] theorem send_host (x : Sent) (s : State) : (send x s).host = s.host := rfl
@[simp] theorem send_queues (x : Sent) (s : State) : (send x s).queues = s.queues := rfl
@[simp] theorem send_wheel (x : Sent) (s : State) : (send x s).wheel = s.wheel := rfl
@[simp] theorem send_sheets (x : Sent) (s : State) : (send x s).sheets = s.sheets := rfl
@[simp] theorem send_jobs (x : Sent) (s : State) : (send x s).jobs = s.jobs := rfl
@[simp] theorem send_kv (x : Sent) (s : State) : (send x s).kv = s.kv := rfl
@[simp] theorem send_objs (x : Sent) (s : State) : (send x s).objs = s.objs := rfl
@[simp] theorem send_pfx (x : Sent) (s : State) : (send x s).pfx = s.pfx := rfl
@[simp] theorem send_tables (x : Sent) (s : State) : (send x s).tables = s.tables := rfl
@[simp] theorem send_pasture (x : Sent) (s : State) : (send x s).pasture = s.pasture := rfl
@[simp] theorem send_shelves (x : Sent) (s : State) : (send x s).shelves = s.shelves := rfl
@[simp] theorem send_peer (x : Sent) (s : State) : (send x s).peer = s.peer := rfl
@[simp] theorem send_links (x : Sent) (s : State) : (send x s).links = s.links := rfl
@[simp] theorem send_sec (x : Sent) (s : State) : (send x s).sec = s.sec := rfl
@[simp] theorem send_power (x : Sent) (s : State) : (send x s).power = s.power := rfl
@[simp] theorem send_log (x : Sent) (s : State) : (send x s).log = s.log := rfl
@[simp] theorem send_samplers (x : Sent) (s : State) : (send x s).samplers = s.samplers := rfl

/-! ## drawn -/

@[simp] theorem drawn_fresh (s : State) : (drawn s).fresh = s.fresh + 1 := rfl
@[simp] theorem drawn_pending (s : State) : (drawn s).pending = s.pending := rfl
@[simp] theorem drawn_now (s : State) : (drawn s).now = s.now := rfl
@[simp] theorem drawn_tx (s : State) : (drawn s).tx = s.tx := rfl
@[simp] theorem drawn_od (s : State) : (drawn s).od = s.od := rfl
@[simp] theorem drawn_mem (s : State) : (drawn s).mem = s.mem := rfl
@[simp] theorem drawn_mgmt (s : State) : (drawn s).mgmt = s.mgmt := rfl
@[simp] theorem drawn_host (s : State) : (drawn s).host = s.host := rfl
@[simp] theorem drawn_queues (s : State) : (drawn s).queues = s.queues := rfl
@[simp] theorem drawn_wheel (s : State) : (drawn s).wheel = s.wheel := rfl
@[simp] theorem drawn_sheets (s : State) : (drawn s).sheets = s.sheets := rfl
@[simp] theorem drawn_jobs (s : State) : (drawn s).jobs = s.jobs := rfl
@[simp] theorem drawn_kv (s : State) : (drawn s).kv = s.kv := rfl
@[simp] theorem drawn_objs (s : State) : (drawn s).objs = s.objs := rfl
@[simp] theorem drawn_pfx (s : State) : (drawn s).pfx = s.pfx := rfl
@[simp] theorem drawn_tables (s : State) : (drawn s).tables = s.tables := rfl
@[simp] theorem drawn_pasture (s : State) : (drawn s).pasture = s.pasture := rfl
@[simp] theorem drawn_shelves (s : State) : (drawn s).shelves = s.shelves := rfl
@[simp] theorem drawn_peer (s : State) : (drawn s).peer = s.peer := rfl
@[simp] theorem drawn_links (s : State) : (drawn s).links = s.links := rfl
@[simp] theorem drawn_sec (s : State) : (drawn s).sec = s.sec := rfl
@[simp] theorem drawn_power (s : State) : (drawn s).power = s.power := rfl
@[simp] theorem drawn_log (s : State) : (drawn s).log = s.log := rfl
@[simp] theorem drawn_samplers (s : State) : (drawn s).samplers = s.samplers := rfl

/-! ## draws -/

@[simp] theorem draws_fresh (n : Nat) (s : State) : (draws n s).fresh = s.fresh + n := rfl
@[simp] theorem draws_pending (n : Nat) (s : State) : (draws n s).pending = s.pending := rfl
@[simp] theorem draws_now (n : Nat) (s : State) : (draws n s).now = s.now := rfl
@[simp] theorem draws_tx (n : Nat) (s : State) : (draws n s).tx = s.tx := rfl
@[simp] theorem draws_od (n : Nat) (s : State) : (draws n s).od = s.od := rfl
@[simp] theorem draws_mem (n : Nat) (s : State) : (draws n s).mem = s.mem := rfl
@[simp] theorem draws_mgmt (n : Nat) (s : State) : (draws n s).mgmt = s.mgmt := rfl
@[simp] theorem draws_host (n : Nat) (s : State) : (draws n s).host = s.host := rfl
@[simp] theorem draws_queues (n : Nat) (s : State) : (draws n s).queues = s.queues := rfl
@[simp] theorem draws_wheel (n : Nat) (s : State) : (draws n s).wheel = s.wheel := rfl
@[simp] theorem draws_sheets (n : Nat) (s : State) : (draws n s).sheets = s.sheets := rfl
@[simp] theorem draws_jobs (n : Nat) (s : State) : (draws n s).jobs = s.jobs := rfl
@[simp] theorem draws_kv (n : Nat) (s : State) : (draws n s).kv = s.kv := rfl
@[simp] theorem draws_objs (n : Nat) (s : State) : (draws n s).objs = s.objs := rfl
@[simp] theorem draws_pfx (n : Nat) (s : State) : (draws n s).pfx = s.pfx := rfl
@[simp] theorem draws_tables (n : Nat) (s : State) : (draws n s).tables = s.tables := rfl
@[simp] theorem draws_pasture (n : Nat) (s : State) : (draws n s).pasture = s.pasture := rfl
@[simp] theorem draws_shelves (n : Nat) (s : State) : (draws n s).shelves = s.shelves := rfl
@[simp] theorem draws_peer (n : Nat) (s : State) : (draws n s).peer = s.peer := rfl
@[simp] theorem draws_links (n : Nat) (s : State) : (draws n s).links = s.links := rfl
@[simp] theorem draws_sec (n : Nat) (s : State) : (draws n s).sec = s.sec := rfl
@[simp] theorem draws_power (n : Nat) (s : State) : (draws n s).power = s.power := rfl
@[simp] theorem draws_log (n : Nat) (s : State) : (draws n s).log = s.log := rfl
@[simp] theorem draws_samplers (n : Nat) (s : State) : (draws n s).samplers = s.samplers := rfl

/-! ## odPut -/

@[simp] theorem odPut_od (key v : Nat) (s : State) : (odPut key v s).od = odBind key v s.od := rfl
@[simp] theorem odPut_pending (key v : Nat) (s : State) : (odPut key v s).pending = s.pending := rfl
@[simp] theorem odPut_now (key v : Nat) (s : State) : (odPut key v s).now = s.now := rfl
@[simp] theorem odPut_fresh (key v : Nat) (s : State) : (odPut key v s).fresh = s.fresh := rfl
@[simp] theorem odPut_tx (key v : Nat) (s : State) : (odPut key v s).tx = s.tx := rfl
@[simp] theorem odPut_mem (key v : Nat) (s : State) : (odPut key v s).mem = s.mem := rfl
@[simp] theorem odPut_mgmt (key v : Nat) (s : State) : (odPut key v s).mgmt = s.mgmt := rfl
@[simp] theorem odPut_host (key v : Nat) (s : State) : (odPut key v s).host = s.host := rfl
@[simp] theorem odPut_queues (key v : Nat) (s : State) : (odPut key v s).queues = s.queues := rfl
@[simp] theorem odPut_wheel (key v : Nat) (s : State) : (odPut key v s).wheel = s.wheel := rfl
@[simp] theorem odPut_sheets (key v : Nat) (s : State) : (odPut key v s).sheets = s.sheets := rfl
@[simp] theorem odPut_jobs (key v : Nat) (s : State) : (odPut key v s).jobs = s.jobs := rfl
@[simp] theorem odPut_kv (key v : Nat) (s : State) : (odPut key v s).kv = s.kv := rfl
@[simp] theorem odPut_objs (key v : Nat) (s : State) : (odPut key v s).objs = s.objs := rfl
@[simp] theorem odPut_pfx (key v : Nat) (s : State) : (odPut key v s).pfx = s.pfx := rfl
@[simp] theorem odPut_tables (key v : Nat) (s : State) : (odPut key v s).tables = s.tables := rfl
@[simp] theorem odPut_pasture (key v : Nat) (s : State) : (odPut key v s).pasture = s.pasture := rfl
@[simp] theorem odPut_shelves (key v : Nat) (s : State) : (odPut key v s).shelves = s.shelves := rfl
@[simp] theorem odPut_peer (key v : Nat) (s : State) : (odPut key v s).peer = s.peer := rfl
@[simp] theorem odPut_links (key v : Nat) (s : State) : (odPut key v s).links = s.links := rfl
@[simp] theorem odPut_sec (key v : Nat) (s : State) : (odPut key v s).sec = s.sec := rfl
@[simp] theorem odPut_power (key v : Nat) (s : State) : (odPut key v s).power = s.power := rfl
@[simp] theorem odPut_log (key v : Nat) (s : State) : (odPut key v s).log = s.log := rfl
@[simp] theorem odPut_samplers (key v : Nat) (s : State) : (odPut key v s).samplers = s.samplers := rfl

/-! ## odSet -/

@[simp] theorem odSet_od (index sub v : Nat) (s : State) : (odSet index sub v s).od = odBind (odKey index sub) v s.od := rfl
@[simp] theorem odSet_pending (index sub v : Nat) (s : State) : (odSet index sub v s).pending = s.pending := rfl
@[simp] theorem odSet_now (index sub v : Nat) (s : State) : (odSet index sub v s).now = s.now := rfl
@[simp] theorem odSet_fresh (index sub v : Nat) (s : State) : (odSet index sub v s).fresh = s.fresh := rfl
@[simp] theorem odSet_tx (index sub v : Nat) (s : State) : (odSet index sub v s).tx = s.tx := rfl
@[simp] theorem odSet_mem (index sub v : Nat) (s : State) : (odSet index sub v s).mem = s.mem := rfl
@[simp] theorem odSet_mgmt (index sub v : Nat) (s : State) : (odSet index sub v s).mgmt = s.mgmt := rfl
@[simp] theorem odSet_host (index sub v : Nat) (s : State) : (odSet index sub v s).host = s.host := rfl
@[simp] theorem odSet_queues (index sub v : Nat) (s : State) : (odSet index sub v s).queues = s.queues := rfl
@[simp] theorem odSet_wheel (index sub v : Nat) (s : State) : (odSet index sub v s).wheel = s.wheel := rfl
@[simp] theorem odSet_sheets (index sub v : Nat) (s : State) : (odSet index sub v s).sheets = s.sheets := rfl
@[simp] theorem odSet_jobs (index sub v : Nat) (s : State) : (odSet index sub v s).jobs = s.jobs := rfl
@[simp] theorem odSet_kv (index sub v : Nat) (s : State) : (odSet index sub v s).kv = s.kv := rfl
@[simp] theorem odSet_objs (index sub v : Nat) (s : State) : (odSet index sub v s).objs = s.objs := rfl
@[simp] theorem odSet_pfx (index sub v : Nat) (s : State) : (odSet index sub v s).pfx = s.pfx := rfl
@[simp] theorem odSet_tables (index sub v : Nat) (s : State) : (odSet index sub v s).tables = s.tables := rfl
@[simp] theorem odSet_pasture (index sub v : Nat) (s : State) : (odSet index sub v s).pasture = s.pasture := rfl
@[simp] theorem odSet_shelves (index sub v : Nat) (s : State) : (odSet index sub v s).shelves = s.shelves := rfl
@[simp] theorem odSet_peer (index sub v : Nat) (s : State) : (odSet index sub v s).peer = s.peer := rfl
@[simp] theorem odSet_links (index sub v : Nat) (s : State) : (odSet index sub v s).links = s.links := rfl
@[simp] theorem odSet_sec (index sub v : Nat) (s : State) : (odSet index sub v s).sec = s.sec := rfl
@[simp] theorem odSet_power (index sub v : Nat) (s : State) : (odSet index sub v s).power = s.power := rfl
@[simp] theorem odSet_log (index sub v : Nat) (s : State) : (odSet index sub v s).log = s.log := rfl
@[simp] theorem odSet_samplers (index sub v : Nat) (s : State) : (odSet index sub v s).samplers = s.samplers := rfl

/-! ## odKeep -/

@[simp] theorem odKeep_od (p : Nat → Bool) (s : State) : (odKeep p s).od = s.od.filter (fun e => p e.1) := rfl
@[simp] theorem odKeep_pending (p : Nat → Bool) (s : State) : (odKeep p s).pending = s.pending := rfl
@[simp] theorem odKeep_now (p : Nat → Bool) (s : State) : (odKeep p s).now = s.now := rfl
@[simp] theorem odKeep_fresh (p : Nat → Bool) (s : State) : (odKeep p s).fresh = s.fresh := rfl
@[simp] theorem odKeep_tx (p : Nat → Bool) (s : State) : (odKeep p s).tx = s.tx := rfl
@[simp] theorem odKeep_mem (p : Nat → Bool) (s : State) : (odKeep p s).mem = s.mem := rfl
@[simp] theorem odKeep_mgmt (p : Nat → Bool) (s : State) : (odKeep p s).mgmt = s.mgmt := rfl
@[simp] theorem odKeep_host (p : Nat → Bool) (s : State) : (odKeep p s).host = s.host := rfl
@[simp] theorem odKeep_queues (p : Nat → Bool) (s : State) : (odKeep p s).queues = s.queues := rfl
@[simp] theorem odKeep_wheel (p : Nat → Bool) (s : State) : (odKeep p s).wheel = s.wheel := rfl
@[simp] theorem odKeep_sheets (p : Nat → Bool) (s : State) : (odKeep p s).sheets = s.sheets := rfl
@[simp] theorem odKeep_jobs (p : Nat → Bool) (s : State) : (odKeep p s).jobs = s.jobs := rfl
@[simp] theorem odKeep_kv (p : Nat → Bool) (s : State) : (odKeep p s).kv = s.kv := rfl
@[simp] theorem odKeep_objs (p : Nat → Bool) (s : State) : (odKeep p s).objs = s.objs := rfl
@[simp] theorem odKeep_pfx (p : Nat → Bool) (s : State) : (odKeep p s).pfx = s.pfx := rfl
@[simp] theorem odKeep_tables (p : Nat → Bool) (s : State) : (odKeep p s).tables = s.tables := rfl
@[simp] theorem odKeep_pasture (p : Nat → Bool) (s : State) : (odKeep p s).pasture = s.pasture := rfl
@[simp] theorem odKeep_shelves (p : Nat → Bool) (s : State) : (odKeep p s).shelves = s.shelves := rfl
@[simp] theorem odKeep_peer (p : Nat → Bool) (s : State) : (odKeep p s).peer = s.peer := rfl
@[simp] theorem odKeep_links (p : Nat → Bool) (s : State) : (odKeep p s).links = s.links := rfl
@[simp] theorem odKeep_sec (p : Nat → Bool) (s : State) : (odKeep p s).sec = s.sec := rfl
@[simp] theorem odKeep_power (p : Nat → Bool) (s : State) : (odKeep p s).power = s.power := rfl
@[simp] theorem odKeep_log (p : Nat → Bool) (s : State) : (odKeep p s).log = s.log := rfl
@[simp] theorem odKeep_samplers (p : Nat → Bool) (s : State) : (odKeep p s).samplers = s.samplers := rfl

/-! ## odAdd -/

@[simp] theorem odAdd_od (index sub bits n : Nat) (s : State) :
    (odAdd index sub bits n s).od = odBind (odKey index sub) ((od s index sub + n) % 2 ^ bits) s.od := rfl
@[simp] theorem odAdd_pending (index sub bits n : Nat) (s : State) : (odAdd index sub bits n s).pending = s.pending := rfl
@[simp] theorem odAdd_now (index sub bits n : Nat) (s : State) : (odAdd index sub bits n s).now = s.now := rfl
@[simp] theorem odAdd_fresh (index sub bits n : Nat) (s : State) : (odAdd index sub bits n s).fresh = s.fresh := rfl
@[simp] theorem odAdd_tx (index sub bits n : Nat) (s : State) : (odAdd index sub bits n s).tx = s.tx := rfl
@[simp] theorem odAdd_mem (index sub bits n : Nat) (s : State) : (odAdd index sub bits n s).mem = s.mem := rfl
@[simp] theorem odAdd_mgmt (index sub bits n : Nat) (s : State) : (odAdd index sub bits n s).mgmt = s.mgmt := rfl
@[simp] theorem odAdd_host (index sub bits n : Nat) (s : State) : (odAdd index sub bits n s).host = s.host := rfl
@[simp] theorem odAdd_queues (index sub bits n : Nat) (s : State) : (odAdd index sub bits n s).queues = s.queues := rfl
@[simp] theorem odAdd_wheel (index sub bits n : Nat) (s : State) : (odAdd index sub bits n s).wheel = s.wheel := rfl
@[simp] theorem odAdd_sheets (index sub bits n : Nat) (s : State) : (odAdd index sub bits n s).sheets = s.sheets := rfl
@[simp] theorem odAdd_jobs (index sub bits n : Nat) (s : State) : (odAdd index sub bits n s).jobs = s.jobs := rfl
@[simp] theorem odAdd_kv (index sub bits n : Nat) (s : State) : (odAdd index sub bits n s).kv = s.kv := rfl
@[simp] theorem odAdd_objs (index sub bits n : Nat) (s : State) : (odAdd index sub bits n s).objs = s.objs := rfl
@[simp] theorem odAdd_pfx (index sub bits n : Nat) (s : State) : (odAdd index sub bits n s).pfx = s.pfx := rfl
@[simp] theorem odAdd_tables (index sub bits n : Nat) (s : State) : (odAdd index sub bits n s).tables = s.tables := rfl
@[simp] theorem odAdd_pasture (index sub bits n : Nat) (s : State) : (odAdd index sub bits n s).pasture = s.pasture := rfl
@[simp] theorem odAdd_shelves (index sub bits n : Nat) (s : State) : (odAdd index sub bits n s).shelves = s.shelves := rfl
@[simp] theorem odAdd_peer (index sub bits n : Nat) (s : State) : (odAdd index sub bits n s).peer = s.peer := rfl
@[simp] theorem odAdd_links (index sub bits n : Nat) (s : State) : (odAdd index sub bits n s).links = s.links := rfl
@[simp] theorem odAdd_sec (index sub bits n : Nat) (s : State) : (odAdd index sub bits n s).sec = s.sec := rfl
@[simp] theorem odAdd_power (index sub bits n : Nat) (s : State) : (odAdd index sub bits n s).power = s.power := rfl
@[simp] theorem odAdd_log (index sub bits n : Nat) (s : State) : (odAdd index sub bits n s).log = s.log := rfl
@[simp] theorem odAdd_samplers (index sub bits n : Nat) (s : State) : (odAdd index sub bits n s).samplers = s.samplers := rfl

/-! ## bump64 -/

@[simp] theorem bump64_od (index sub : Nat) (s : State) :
    (bump64 index sub s).od = odBind (odKey index sub) ((od s index sub + 1) % 2 ^ 64) s.od := rfl
@[simp] theorem bump64_pending (index sub : Nat) (s : State) : (bump64 index sub s).pending = s.pending := rfl
@[simp] theorem bump64_now (index sub : Nat) (s : State) : (bump64 index sub s).now = s.now := rfl
@[simp] theorem bump64_fresh (index sub : Nat) (s : State) : (bump64 index sub s).fresh = s.fresh := rfl
@[simp] theorem bump64_tx (index sub : Nat) (s : State) : (bump64 index sub s).tx = s.tx := rfl
@[simp] theorem bump64_mem (index sub : Nat) (s : State) : (bump64 index sub s).mem = s.mem := rfl
@[simp] theorem bump64_mgmt (index sub : Nat) (s : State) : (bump64 index sub s).mgmt = s.mgmt := rfl
@[simp] theorem bump64_host (index sub : Nat) (s : State) : (bump64 index sub s).host = s.host := rfl
@[simp] theorem bump64_queues (index sub : Nat) (s : State) : (bump64 index sub s).queues = s.queues := rfl
@[simp] theorem bump64_wheel (index sub : Nat) (s : State) : (bump64 index sub s).wheel = s.wheel := rfl
@[simp] theorem bump64_sheets (index sub : Nat) (s : State) : (bump64 index sub s).sheets = s.sheets := rfl
@[simp] theorem bump64_jobs (index sub : Nat) (s : State) : (bump64 index sub s).jobs = s.jobs := rfl
@[simp] theorem bump64_kv (index sub : Nat) (s : State) : (bump64 index sub s).kv = s.kv := rfl
@[simp] theorem bump64_objs (index sub : Nat) (s : State) : (bump64 index sub s).objs = s.objs := rfl
@[simp] theorem bump64_pfx (index sub : Nat) (s : State) : (bump64 index sub s).pfx = s.pfx := rfl
@[simp] theorem bump64_tables (index sub : Nat) (s : State) : (bump64 index sub s).tables = s.tables := rfl
@[simp] theorem bump64_pasture (index sub : Nat) (s : State) : (bump64 index sub s).pasture = s.pasture := rfl
@[simp] theorem bump64_shelves (index sub : Nat) (s : State) : (bump64 index sub s).shelves = s.shelves := rfl
@[simp] theorem bump64_peer (index sub : Nat) (s : State) : (bump64 index sub s).peer = s.peer := rfl
@[simp] theorem bump64_links (index sub : Nat) (s : State) : (bump64 index sub s).links = s.links := rfl
@[simp] theorem bump64_sec (index sub : Nat) (s : State) : (bump64 index sub s).sec = s.sec := rfl
@[simp] theorem bump64_power (index sub : Nat) (s : State) : (bump64 index sub s).power = s.power := rfl
@[simp] theorem bump64_log (index sub : Nat) (s : State) : (bump64 index sub s).log = s.log := rfl
@[simp] theorem bump64_samplers (index sub : Nat) (s : State) : (bump64 index sub s).samplers = s.samplers := rfl

/-! ## bump32 -/

@[simp] theorem bump32_od (index sub : Nat) (s : State) :
    (bump32 index sub s).od = odBind (odKey index sub) ((od s index sub + 1) % 2 ^ 32) s.od := rfl
@[simp] theorem bump32_pending (index sub : Nat) (s : State) : (bump32 index sub s).pending = s.pending := rfl
@[simp] theorem bump32_now (index sub : Nat) (s : State) : (bump32 index sub s).now = s.now := rfl
@[simp] theorem bump32_fresh (index sub : Nat) (s : State) : (bump32 index sub s).fresh = s.fresh := rfl
@[simp] theorem bump32_tx (index sub : Nat) (s : State) : (bump32 index sub s).tx = s.tx := rfl
@[simp] theorem bump32_mem (index sub : Nat) (s : State) : (bump32 index sub s).mem = s.mem := rfl
@[simp] theorem bump32_mgmt (index sub : Nat) (s : State) : (bump32 index sub s).mgmt = s.mgmt := rfl
@[simp] theorem bump32_host (index sub : Nat) (s : State) : (bump32 index sub s).host = s.host := rfl
@[simp] theorem bump32_queues (index sub : Nat) (s : State) : (bump32 index sub s).queues = s.queues := rfl
@[simp] theorem bump32_wheel (index sub : Nat) (s : State) : (bump32 index sub s).wheel = s.wheel := rfl
@[simp] theorem bump32_sheets (index sub : Nat) (s : State) : (bump32 index sub s).sheets = s.sheets := rfl
@[simp] theorem bump32_jobs (index sub : Nat) (s : State) : (bump32 index sub s).jobs = s.jobs := rfl
@[simp] theorem bump32_kv (index sub : Nat) (s : State) : (bump32 index sub s).kv = s.kv := rfl
@[simp] theorem bump32_objs (index sub : Nat) (s : State) : (bump32 index sub s).objs = s.objs := rfl
@[simp] theorem bump32_pfx (index sub : Nat) (s : State) : (bump32 index sub s).pfx = s.pfx := rfl
@[simp] theorem bump32_tables (index sub : Nat) (s : State) : (bump32 index sub s).tables = s.tables := rfl
@[simp] theorem bump32_pasture (index sub : Nat) (s : State) : (bump32 index sub s).pasture = s.pasture := rfl
@[simp] theorem bump32_shelves (index sub : Nat) (s : State) : (bump32 index sub s).shelves = s.shelves := rfl
@[simp] theorem bump32_peer (index sub : Nat) (s : State) : (bump32 index sub s).peer = s.peer := rfl
@[simp] theorem bump32_links (index sub : Nat) (s : State) : (bump32 index sub s).links = s.links := rfl
@[simp] theorem bump32_sec (index sub : Nat) (s : State) : (bump32 index sub s).sec = s.sec := rfl
@[simp] theorem bump32_power (index sub : Nat) (s : State) : (bump32 index sub s).power = s.power := rfl
@[simp] theorem bump32_log (index sub : Nat) (s : State) : (bump32 index sub s).log = s.log := rfl
@[simp] theorem bump32_samplers (index sub : Nat) (s : State) : (bump32 index sub s).samplers = s.samplers := rfl

/-! ## memWrite -/

@[simp] theorem memWrite_mem (p off : Nat) (bs : Bytes) (s : State) :
    (memWrite p off bs s).mem = cellsPut (memAddr p off) bs s.mem := rfl
@[simp] theorem memWrite_pending (p off : Nat) (bs : Bytes) (s : State) : (memWrite p off bs s).pending = s.pending := rfl
@[simp] theorem memWrite_now (p off : Nat) (bs : Bytes) (s : State) : (memWrite p off bs s).now = s.now := rfl
@[simp] theorem memWrite_fresh (p off : Nat) (bs : Bytes) (s : State) : (memWrite p off bs s).fresh = s.fresh := rfl
@[simp] theorem memWrite_tx (p off : Nat) (bs : Bytes) (s : State) : (memWrite p off bs s).tx = s.tx := rfl
@[simp] theorem memWrite_od (p off : Nat) (bs : Bytes) (s : State) : (memWrite p off bs s).od = s.od := rfl
@[simp] theorem memWrite_mgmt (p off : Nat) (bs : Bytes) (s : State) : (memWrite p off bs s).mgmt = s.mgmt := rfl
@[simp] theorem memWrite_host (p off : Nat) (bs : Bytes) (s : State) : (memWrite p off bs s).host = s.host := rfl
@[simp] theorem memWrite_queues (p off : Nat) (bs : Bytes) (s : State) : (memWrite p off bs s).queues = s.queues := rfl
@[simp] theorem memWrite_wheel (p off : Nat) (bs : Bytes) (s : State) : (memWrite p off bs s).wheel = s.wheel := rfl
@[simp] theorem memWrite_sheets (p off : Nat) (bs : Bytes) (s : State) : (memWrite p off bs s).sheets = s.sheets := rfl
@[simp] theorem memWrite_jobs (p off : Nat) (bs : Bytes) (s : State) : (memWrite p off bs s).jobs = s.jobs := rfl
@[simp] theorem memWrite_kv (p off : Nat) (bs : Bytes) (s : State) : (memWrite p off bs s).kv = s.kv := rfl
@[simp] theorem memWrite_objs (p off : Nat) (bs : Bytes) (s : State) : (memWrite p off bs s).objs = s.objs := rfl
@[simp] theorem memWrite_pfx (p off : Nat) (bs : Bytes) (s : State) : (memWrite p off bs s).pfx = s.pfx := rfl
@[simp] theorem memWrite_tables (p off : Nat) (bs : Bytes) (s : State) : (memWrite p off bs s).tables = s.tables := rfl
@[simp] theorem memWrite_pasture (p off : Nat) (bs : Bytes) (s : State) : (memWrite p off bs s).pasture = s.pasture := rfl
@[simp] theorem memWrite_shelves (p off : Nat) (bs : Bytes) (s : State) : (memWrite p off bs s).shelves = s.shelves := rfl
@[simp] theorem memWrite_peer (p off : Nat) (bs : Bytes) (s : State) : (memWrite p off bs s).peer = s.peer := rfl
@[simp] theorem memWrite_links (p off : Nat) (bs : Bytes) (s : State) : (memWrite p off bs s).links = s.links := rfl
@[simp] theorem memWrite_sec (p off : Nat) (bs : Bytes) (s : State) : (memWrite p off bs s).sec = s.sec := rfl
@[simp] theorem memWrite_power (p off : Nat) (bs : Bytes) (s : State) : (memWrite p off bs s).power = s.power := rfl
@[simp] theorem memWrite_log (p off : Nat) (bs : Bytes) (s : State) : (memWrite p off bs s).log = s.log := rfl
@[simp] theorem memWrite_samplers (p off : Nat) (bs : Bytes) (s : State) : (memWrite p off bs s).samplers = s.samplers := rfl

/-! ## memZero -/

@[simp] theorem memZero_mem (p off n : Nat) (s : State) :
    (memZero p off n s).mem = s.mem.filter (fun c => !(memAddr p off ≤ c.1 && c.1 < memAddr p off + n)) := rfl
@[simp] theorem memZero_pending (p off n : Nat) (s : State) : (memZero p off n s).pending = s.pending := rfl
@[simp] theorem memZero_now (p off n : Nat) (s : State) : (memZero p off n s).now = s.now := rfl
@[simp] theorem memZero_fresh (p off n : Nat) (s : State) : (memZero p off n s).fresh = s.fresh := rfl
@[simp] theorem memZero_tx (p off n : Nat) (s : State) : (memZero p off n s).tx = s.tx := rfl
@[simp] theorem memZero_od (p off n : Nat) (s : State) : (memZero p off n s).od = s.od := rfl
@[simp] theorem memZero_mgmt (p off n : Nat) (s : State) : (memZero p off n s).mgmt = s.mgmt := rfl
@[simp] theorem memZero_host (p off n : Nat) (s : State) : (memZero p off n s).host = s.host := rfl
@[simp] theorem memZero_queues (p off n : Nat) (s : State) : (memZero p off n s).queues = s.queues := rfl
@[simp] theorem memZero_wheel (p off n : Nat) (s : State) : (memZero p off n s).wheel = s.wheel := rfl
@[simp] theorem memZero_sheets (p off n : Nat) (s : State) : (memZero p off n s).sheets = s.sheets := rfl
@[simp] theorem memZero_jobs (p off n : Nat) (s : State) : (memZero p off n s).jobs = s.jobs := rfl
@[simp] theorem memZero_kv (p off n : Nat) (s : State) : (memZero p off n s).kv = s.kv := rfl
@[simp] theorem memZero_objs (p off n : Nat) (s : State) : (memZero p off n s).objs = s.objs := rfl
@[simp] theorem memZero_pfx (p off n : Nat) (s : State) : (memZero p off n s).pfx = s.pfx := rfl
@[simp] theorem memZero_tables (p off n : Nat) (s : State) : (memZero p off n s).tables = s.tables := rfl
@[simp] theorem memZero_pasture (p off n : Nat) (s : State) : (memZero p off n s).pasture = s.pasture := rfl
@[simp] theorem memZero_shelves (p off n : Nat) (s : State) : (memZero p off n s).shelves = s.shelves := rfl
@[simp] theorem memZero_peer (p off n : Nat) (s : State) : (memZero p off n s).peer = s.peer := rfl
@[simp] theorem memZero_links (p off n : Nat) (s : State) : (memZero p off n s).links = s.links := rfl
@[simp] theorem memZero_sec (p off n : Nat) (s : State) : (memZero p off n s).sec = s.sec := rfl
@[simp] theorem memZero_power (p off n : Nat) (s : State) : (memZero p off n s).power = s.power := rfl
@[simp] theorem memZero_log (p off n : Nat) (s : State) : (memZero p off n s).log = s.log := rfl
@[simp] theorem memZero_samplers (p off n : Nat) (s : State) : (memZero p off n s).samplers = s.samplers := rfl

/-! ## memClear -/

@[simp] theorem memClear_mem (s : State) : (memClear s).mem = [] := rfl
@[simp] theorem memClear_pending (s : State) : (memClear s).pending = s.pending := rfl
@[simp] theorem memClear_now (s : State) : (memClear s).now = s.now := rfl
@[simp] theorem memClear_fresh (s : State) : (memClear s).fresh = s.fresh := rfl
@[simp] theorem memClear_tx (s : State) : (memClear s).tx = s.tx := rfl
@[simp] theorem memClear_od (s : State) : (memClear s).od = s.od := rfl
@[simp] theorem memClear_mgmt (s : State) : (memClear s).mgmt = s.mgmt := rfl
@[simp] theorem memClear_host (s : State) : (memClear s).host = s.host := rfl
@[simp] theorem memClear_queues (s : State) : (memClear s).queues = s.queues := rfl
@[simp] theorem memClear_wheel (s : State) : (memClear s).wheel = s.wheel := rfl
@[simp] theorem memClear_sheets (s : State) : (memClear s).sheets = s.sheets := rfl
@[simp] theorem memClear_jobs (s : State) : (memClear s).jobs = s.jobs := rfl
@[simp] theorem memClear_kv (s : State) : (memClear s).kv = s.kv := rfl
@[simp] theorem memClear_objs (s : State) : (memClear s).objs = { s.objs with altered := [] } := rfl
@[simp] theorem memClear_pfx (s : State) : (memClear s).pfx = s.pfx := rfl
@[simp] theorem memClear_tables (s : State) : (memClear s).tables = s.tables := rfl
@[simp] theorem memClear_pasture (s : State) : (memClear s).pasture = s.pasture := rfl
@[simp] theorem memClear_shelves (s : State) : (memClear s).shelves = s.shelves := rfl
@[simp] theorem memClear_peer (s : State) : (memClear s).peer = s.peer := rfl
@[simp] theorem memClear_links (s : State) : (memClear s).links = s.links := rfl
@[simp] theorem memClear_sec (s : State) : (memClear s).sec = s.sec := rfl
@[simp] theorem memClear_power (s : State) : (memClear s).power = s.power := rfl
@[simp] theorem memClear_log (s : State) : (memClear s).log = s.log := rfl
@[simp] theorem memClear_samplers (s : State) : (memClear s).samplers = s.samplers := rfl

/-! ## setRole -/

@[simp] theorem setRole_pending (r : Role) (f : RoleState → RoleState) (s : State) : (setRole r f s).pending = s.pending := by cases r <;> rfl
@[simp] theorem setRole_now (r : Role) (f : RoleState → RoleState) (s : State) : (setRole r f s).now = s.now := by cases r <;> rfl
@[simp] theorem setRole_fresh (r : Role) (f : RoleState → RoleState) (s : State) : (setRole r f s).fresh = s.fresh := by cases r <;> rfl
@[simp] theorem setRole_tx (r : Role) (f : RoleState → RoleState) (s : State) : (setRole r f s).tx = s.tx := by cases r <;> rfl
@[simp] theorem setRole_od (r : Role) (f : RoleState → RoleState) (s : State) : (setRole r f s).od = s.od := by cases r <;> rfl
@[simp] theorem setRole_mem (r : Role) (f : RoleState → RoleState) (s : State) : (setRole r f s).mem = s.mem := by cases r <;> rfl
@[simp] theorem setRole_host (r : Role) (f : RoleState → RoleState) (s : State) : (setRole r f s).host = s.host := by cases r <;> rfl
@[simp] theorem setRole_queues (r : Role) (f : RoleState → RoleState) (s : State) : (setRole r f s).queues = s.queues := by cases r <;> rfl
@[simp] theorem setRole_wheel (r : Role) (f : RoleState → RoleState) (s : State) : (setRole r f s).wheel = s.wheel := by cases r <;> rfl
@[simp] theorem setRole_sheets (r : Role) (f : RoleState → RoleState) (s : State) : (setRole r f s).sheets = s.sheets := by cases r <;> rfl
@[simp] theorem setRole_jobs (r : Role) (f : RoleState → RoleState) (s : State) : (setRole r f s).jobs = s.jobs := by cases r <;> rfl
@[simp] theorem setRole_kv (r : Role) (f : RoleState → RoleState) (s : State) : (setRole r f s).kv = s.kv := by cases r <;> rfl
@[simp] theorem setRole_objs (r : Role) (f : RoleState → RoleState) (s : State) : (setRole r f s).objs = s.objs := by cases r <;> rfl
@[simp] theorem setRole_pfx (r : Role) (f : RoleState → RoleState) (s : State) : (setRole r f s).pfx = s.pfx := by cases r <;> rfl
@[simp] theorem setRole_tables (r : Role) (f : RoleState → RoleState) (s : State) : (setRole r f s).tables = s.tables := by cases r <;> rfl
@[simp] theorem setRole_pasture (r : Role) (f : RoleState → RoleState) (s : State) : (setRole r f s).pasture = s.pasture := by cases r <;> rfl
@[simp] theorem setRole_shelves (r : Role) (f : RoleState → RoleState) (s : State) : (setRole r f s).shelves = s.shelves := by cases r <;> rfl
@[simp] theorem setRole_peer (r : Role) (f : RoleState → RoleState) (s : State) : (setRole r f s).peer = s.peer := by cases r <;> rfl
@[simp] theorem setRole_links (r : Role) (f : RoleState → RoleState) (s : State) : (setRole r f s).links = s.links := by cases r <;> rfl
@[simp] theorem setRole_sec (r : Role) (f : RoleState → RoleState) (s : State) : (setRole r f s).sec = s.sec := by cases r <;> rfl
@[simp] theorem setRole_power (r : Role) (f : RoleState → RoleState) (s : State) : (setRole r f s).power = s.power := by cases r <;> rfl
@[simp] theorem setRole_log (r : Role) (f : RoleState → RoleState) (s : State) : (setRole r f s).log = s.log := by cases r <;> rfl
@[simp] theorem setRole_samplers (r : Role) (f : RoleState → RoleState) (s : State) : (setRole r f s).samplers = s.samplers := by cases r <;> rfl

/-! ## setShelf -/

@[simp] theorem setShelf_shelves (h : Nat) (x : Shelf) (s : State) : (setShelf h x s).shelves = s.shelves.set h x := rfl
@[simp] theorem setShelf_pending (h : Nat) (x : Shelf) (s : State) : (setShelf h x s).pending = s.pending := rfl
@[simp] theorem setShelf_now (h : Nat) (x : Shelf) (s : State) : (setShelf h x s).now = s.now := rfl
@[simp] theorem setShelf_fresh (h : Nat) (x : Shelf) (s : State) : (setShelf h x s).fresh = s.fresh := rfl
@[simp] theorem setShelf_tx (h : Nat) (x : Shelf) (s : State) : (setShelf h x s).tx = s.tx := rfl
@[simp] theorem setShelf_od (h : Nat) (x : Shelf) (s : State) : (setShelf h x s).od = s.od := rfl
@[simp] theorem setShelf_mem (h : Nat) (x : Shelf) (s : State) : (setShelf h x s).mem = s.mem := rfl
@[simp] theorem setShelf_mgmt (h : Nat) (x : Shelf) (s : State) : (setShelf h x s).mgmt = s.mgmt := rfl
@[simp] theorem setShelf_host (h : Nat) (x : Shelf) (s : State) : (setShelf h x s).host = s.host := rfl
@[simp] theorem setShelf_queues (h : Nat) (x : Shelf) (s : State) : (setShelf h x s).queues = s.queues := rfl
@[simp] theorem setShelf_wheel (h : Nat) (x : Shelf) (s : State) : (setShelf h x s).wheel = s.wheel := rfl
@[simp] theorem setShelf_sheets (h : Nat) (x : Shelf) (s : State) : (setShelf h x s).sheets = s.sheets := rfl
@[simp] theorem setShelf_jobs (h : Nat) (x : Shelf) (s : State) : (setShelf h x s).jobs = s.jobs := rfl
@[simp] theorem setShelf_kv (h : Nat) (x : Shelf) (s : State) : (setShelf h x s).kv = s.kv := rfl
@[simp] theorem setShelf_objs (h : Nat) (x : Shelf) (s : State) : (setShelf h x s).objs = s.objs := rfl
@[simp] theorem setShelf_pfx (h : Nat) (x : Shelf) (s : State) : (setShelf h x s).pfx = s.pfx := rfl
@[simp] theorem setShelf_tables (h : Nat) (x : Shelf) (s : State) : (setShelf h x s).tables = s.tables := rfl
@[simp] theorem setShelf_pasture (h : Nat) (x : Shelf) (s : State) : (setShelf h x s).pasture = s.pasture := rfl
@[simp] theorem setShelf_peer (h : Nat) (x : Shelf) (s : State) : (setShelf h x s).peer = s.peer := rfl
@[simp] theorem setShelf_links (h : Nat) (x : Shelf) (s : State) : (setShelf h x s).links = s.links := rfl
@[simp] theorem setShelf_sec (h : Nat) (x : Shelf) (s : State) : (setShelf h x s).sec = s.sec := rfl
@[simp] theorem setShelf_power (h : Nat) (x : Shelf) (s : State) : (setShelf h x s).power = s.power := rfl
@[simp] theorem setShelf_log (h : Nat) (x : Shelf) (s : State) : (setShelf h x s).log = s.log := rfl
@[simp] theorem setShelf_samplers (h : Nat) (x : Shelf) (s : State) : (setShelf h x s).samplers = s.samplers := rfl

/-! ## editPort -/

@[simp] theorem editPort_links (n : Nat) (f : Port → Port) (s : State) :
    (editPort n f s).links = { s.links with ports := s.links.ports.modify n f } := rfl
@[simp] theorem editPort_pending (n : Nat) (f : Port → Port) (s : State) : (editPort n f s).pending = s.pending := rfl
@[simp] theorem editPort_now (n : Nat) (f : Port → Port) (s : State) : (editPort n f s).now = s.now := rfl
@[simp] theorem editPort_fresh (n : Nat) (f : Port → Port) (s : State) : (editPort n f s).fresh = s.fresh := rfl
@[simp] theorem editPort_tx (n : Nat) (f : Port → Port) (s : State) : (editPort n f s).tx = s.tx := rfl
@[simp] theorem editPort_od (n : Nat) (f : Port → Port) (s : State) : (editPort n f s).od = s.od := rfl
@[simp] theorem editPort_mem (n : Nat) (f : Port → Port) (s : State) : (editPort n f s).mem = s.mem := rfl
@[simp] theorem editPort_mgmt (n : Nat) (f : Port → Port) (s : State) : (editPort n f s).mgmt = s.mgmt := rfl
@[simp] theorem editPort_host (n : Nat) (f : Port → Port) (s : State) : (editPort n f s).host = s.host := rfl
@[simp] theorem editPort_queues (n : Nat) (f : Port → Port) (s : State) : (editPort n f s).queues = s.queues := rfl
@[simp] theorem editPort_wheel (n : Nat) (f : Port → Port) (s : State) : (editPort n f s).wheel = s.wheel := rfl
@[simp] theorem editPort_sheets (n : Nat) (f : Port → Port) (s : State) : (editPort n f s).sheets = s.sheets := rfl
@[simp] theorem editPort_jobs (n : Nat) (f : Port → Port) (s : State) : (editPort n f s).jobs = s.jobs := rfl
@[simp] theorem editPort_kv (n : Nat) (f : Port → Port) (s : State) : (editPort n f s).kv = s.kv := rfl
@[simp] theorem editPort_objs (n : Nat) (f : Port → Port) (s : State) : (editPort n f s).objs = s.objs := rfl
@[simp] theorem editPort_pfx (n : Nat) (f : Port → Port) (s : State) : (editPort n f s).pfx = s.pfx := rfl
@[simp] theorem editPort_tables (n : Nat) (f : Port → Port) (s : State) : (editPort n f s).tables = s.tables := rfl
@[simp] theorem editPort_pasture (n : Nat) (f : Port → Port) (s : State) : (editPort n f s).pasture = s.pasture := rfl
@[simp] theorem editPort_shelves (n : Nat) (f : Port → Port) (s : State) : (editPort n f s).shelves = s.shelves := rfl
@[simp] theorem editPort_peer (n : Nat) (f : Port → Port) (s : State) : (editPort n f s).peer = s.peer := rfl
@[simp] theorem editPort_sec (n : Nat) (f : Port → Port) (s : State) : (editPort n f s).sec = s.sec := rfl
@[simp] theorem editPort_power (n : Nat) (f : Port → Port) (s : State) : (editPort n f s).power = s.power := rfl
@[simp] theorem editPort_log (n : Nat) (f : Port → Port) (s : State) : (editPort n f s).log = s.log := rfl
@[simp] theorem editPort_samplers (n : Nat) (f : Port → Port) (s : State) : (editPort n f s).samplers = s.samplers := rfl

/-! ## setQueue -/

@[simp] theorem setQueue_queues (q : QRef) (k : Queue) (s : State) :
    (setQueue q k s).queues = { s.queues with qs := s.queues.qs.set (qIdx q) k } := rfl
@[simp] theorem setQueue_pending (q : QRef) (k : Queue) (s : State) : (setQueue q k s).pending = s.pending := rfl
@[simp] theorem setQueue_now (q : QRef) (k : Queue) (s : State) : (setQueue q k s).now = s.now := rfl
@[simp] theorem setQueue_fresh (q : QRef) (k : Queue) (s : State) : (setQueue q k s).fresh = s.fresh := rfl
@[simp] theorem setQueue_tx (q : QRef) (k : Queue) (s : State) : (setQueue q k s).tx = s.tx := rfl
@[simp] theorem setQueue_od (q : QRef) (k : Queue) (s : State) : (setQueue q k s).od = s.od := rfl
@[simp] theorem setQueue_mem (q : QRef) (k : Queue) (s : State) : (setQueue q k s).mem = s.mem := rfl
@[simp] theorem setQueue_mgmt (q : QRef) (k : Queue) (s : State) : (setQueue q k s).mgmt = s.mgmt := rfl
@[simp] theorem setQueue_host (q : QRef) (k : Queue) (s : State) : (setQueue q k s).host = s.host := rfl
@[simp] theorem setQueue_wheel (q : QRef) (k : Queue) (s : State) : (setQueue q k s).wheel = s.wheel := rfl
@[simp] theorem setQueue_sheets (q : QRef) (k : Queue) (s : State) : (setQueue q k s).sheets = s.sheets := rfl
@[simp] theorem setQueue_jobs (q : QRef) (k : Queue) (s : State) : (setQueue q k s).jobs = s.jobs := rfl
@[simp] theorem setQueue_kv (q : QRef) (k : Queue) (s : State) : (setQueue q k s).kv = s.kv := rfl
@[simp] theorem setQueue_objs (q : QRef) (k : Queue) (s : State) : (setQueue q k s).objs = s.objs := rfl
@[simp] theorem setQueue_pfx (q : QRef) (k : Queue) (s : State) : (setQueue q k s).pfx = s.pfx := rfl
@[simp] theorem setQueue_tables (q : QRef) (k : Queue) (s : State) : (setQueue q k s).tables = s.tables := rfl
@[simp] theorem setQueue_pasture (q : QRef) (k : Queue) (s : State) : (setQueue q k s).pasture = s.pasture := rfl
@[simp] theorem setQueue_shelves (q : QRef) (k : Queue) (s : State) : (setQueue q k s).shelves = s.shelves := rfl
@[simp] theorem setQueue_peer (q : QRef) (k : Queue) (s : State) : (setQueue q k s).peer = s.peer := rfl
@[simp] theorem setQueue_links (q : QRef) (k : Queue) (s : State) : (setQueue q k s).links = s.links := rfl
@[simp] theorem setQueue_sec (q : QRef) (k : Queue) (s : State) : (setQueue q k s).sec = s.sec := rfl
@[simp] theorem setQueue_power (q : QRef) (k : Queue) (s : State) : (setQueue q k s).power = s.power := rfl
@[simp] theorem setQueue_log (q : QRef) (k : Queue) (s : State) : (setQueue q k s).log = s.log := rfl
@[simp] theorem setQueue_samplers (q : QRef) (k : Queue) (s : State) : (setQueue q k s).samplers = s.samplers := rfl

/-! ## setQp -/

@[simp] theorem setQp_pending (q : Qp) (s : State) : (setQp q s).pending = s.pending := rfl
@[simp] theorem setQp_now (q : Qp) (s : State) : (setQp q s).now = s.now := rfl
@[simp] theorem setQp_fresh (q : Qp) (s : State) : (setQp q s).fresh = s.fresh := rfl
@[simp] theorem setQp_tx (q : Qp) (s : State) : (setQp q s).tx = s.tx := rfl
@[simp] theorem setQp_od (q : Qp) (s : State) : (setQp q s).od = s.od := rfl
@[simp] theorem setQp_mem (q : Qp) (s : State) : (setQp q s).mem = s.mem := rfl
@[simp] theorem setQp_mgmt (q : Qp) (s : State) : (setQp q s).mgmt = s.mgmt := rfl
@[simp] theorem setQp_host (q : Qp) (s : State) : (setQp q s).host = s.host := rfl
@[simp] theorem setQp_queues (q : Qp) (s : State) : (setQp q s).queues = s.queues := rfl
@[simp] theorem setQp_wheel (q : Qp) (s : State) : (setQp q s).wheel = s.wheel := rfl
@[simp] theorem setQp_sheets (q : Qp) (s : State) : (setQp q s).sheets = s.sheets := rfl
@[simp] theorem setQp_jobs (q : Qp) (s : State) : (setQp q s).jobs = s.jobs := rfl
@[simp] theorem setQp_kv (q : Qp) (s : State) : (setQp q s).kv = s.kv := rfl
@[simp] theorem setQp_objs (q : Qp) (s : State) : (setQp q s).objs = s.objs := rfl
@[simp] theorem setQp_pfx (q : Qp) (s : State) : (setQp q s).pfx = s.pfx := rfl
@[simp] theorem setQp_tables (q : Qp) (s : State) : (setQp q s).tables = s.tables := rfl
@[simp] theorem setQp_pasture (q : Qp) (s : State) : (setQp q s).pasture = s.pasture := rfl
@[simp] theorem setQp_shelves (q : Qp) (s : State) : (setQp q s).shelves = s.shelves := rfl
@[simp] theorem setQp_links (q : Qp) (s : State) : (setQp q s).links = s.links := rfl
@[simp] theorem setQp_sec (q : Qp) (s : State) : (setQp q s).sec = s.sec := rfl
@[simp] theorem setQp_power (q : Qp) (s : State) : (setQp q s).power = s.power := rfl
@[simp] theorem setQp_log (q : Qp) (s : State) : (setQp q s).log = s.log := rfl
@[simp] theorem setQp_samplers (q : Qp) (s : State) : (setQp q s).samplers = s.samplers := rfl

/-! ## setSeq -/

@[simp] theorem setSeq_kv (q : Seq) (s : State) :
    (setSeq q s).kv = { s.kv with seqs := s.kv.seqs.map (fun x => if x.id == q.id then q else x) } := rfl
@[simp] theorem setSeq_pending (q : Seq) (s : State) : (setSeq q s).pending = s.pending := rfl
@[simp] theorem setSeq_now (q : Seq) (s : State) : (setSeq q s).now = s.now := rfl
@[simp] theorem setSeq_fresh (q : Seq) (s : State) : (setSeq q s).fresh = s.fresh := rfl
@[simp] theorem setSeq_tx (q : Seq) (s : State) : (setSeq q s).tx = s.tx := rfl
@[simp] theorem setSeq_od (q : Seq) (s : State) : (setSeq q s).od = s.od := rfl
@[simp] theorem setSeq_mem (q : Seq) (s : State) : (setSeq q s).mem = s.mem := rfl
@[simp] theorem setSeq_mgmt (q : Seq) (s : State) : (setSeq q s).mgmt = s.mgmt := rfl
@[simp] theorem setSeq_host (q : Seq) (s : State) : (setSeq q s).host = s.host := rfl
@[simp] theorem setSeq_queues (q : Seq) (s : State) : (setSeq q s).queues = s.queues := rfl
@[simp] theorem setSeq_wheel (q : Seq) (s : State) : (setSeq q s).wheel = s.wheel := rfl
@[simp] theorem setSeq_sheets (q : Seq) (s : State) : (setSeq q s).sheets = s.sheets := rfl
@[simp] theorem setSeq_jobs (q : Seq) (s : State) : (setSeq q s).jobs = s.jobs := rfl
@[simp] theorem setSeq_objs (q : Seq) (s : State) : (setSeq q s).objs = s.objs := rfl
@[simp] theorem setSeq_pfx (q : Seq) (s : State) : (setSeq q s).pfx = s.pfx := rfl
@[simp] theorem setSeq_tables (q : Seq) (s : State) : (setSeq q s).tables = s.tables := rfl
@[simp] theorem setSeq_pasture (q : Seq) (s : State) : (setSeq q s).pasture = s.pasture := rfl
@[simp] theorem setSeq_shelves (q : Seq) (s : State) : (setSeq q s).shelves = s.shelves := rfl
@[simp] theorem setSeq_peer (q : Seq) (s : State) : (setSeq q s).peer = s.peer := rfl
@[simp] theorem setSeq_links (q : Seq) (s : State) : (setSeq q s).links = s.links := rfl
@[simp] theorem setSeq_sec (q : Seq) (s : State) : (setSeq q s).sec = s.sec := rfl
@[simp] theorem setSeq_power (q : Seq) (s : State) : (setSeq q s).power = s.power := rfl
@[simp] theorem setSeq_log (q : Seq) (s : State) : (setSeq q s).log = s.log := rfl
@[simp] theorem setSeq_samplers (q : Seq) (s : State) : (setSeq q s).samplers = s.samplers := rfl

/-! ## addSeq -/

@[simp] theorem addSeq_kv (q : Seq) (s : State) : (addSeq q s).kv = { s.kv with seqs := s.kv.seqs ++ [q], lastSeq := q.id } := rfl
@[simp] theorem addSeq_pending (q : Seq) (s : State) : (addSeq q s).pending = s.pending := rfl
@[simp] theorem addSeq_now (q : Seq) (s : State) : (addSeq q s).now = s.now := rfl
@[simp] theorem addSeq_fresh (q : Seq) (s : State) : (addSeq q s).fresh = s.fresh := rfl
@[simp] theorem addSeq_tx (q : Seq) (s : State) : (addSeq q s).tx = s.tx := rfl
@[simp] theorem addSeq_od (q : Seq) (s : State) : (addSeq q s).od = s.od := rfl
@[simp] theorem addSeq_mem (q : Seq) (s : State) : (addSeq q s).mem = s.mem := rfl
@[simp] theorem addSeq_mgmt (q : Seq) (s : State) : (addSeq q s).mgmt = s.mgmt := rfl
@[simp] theorem addSeq_host (q : Seq) (s : State) : (addSeq q s).host = s.host := rfl
@[simp] theorem addSeq_queues (q : Seq) (s : State) : (addSeq q s).queues = s.queues := rfl
@[simp] theorem addSeq_wheel (q : Seq) (s : State) : (addSeq q s).wheel = s.wheel := rfl
@[simp] theorem addSeq_sheets (q : Seq) (s : State) : (addSeq q s).sheets = s.sheets := rfl
@[simp] theorem addSeq_jobs (q : Seq) (s : State) : (addSeq q s).jobs = s.jobs := rfl
@[simp] theorem addSeq_objs (q : Seq) (s : State) : (addSeq q s).objs = s.objs := rfl
@[simp] theorem addSeq_pfx (q : Seq) (s : State) : (addSeq q s).pfx = s.pfx := rfl
@[simp] theorem addSeq_tables (q : Seq) (s : State) : (addSeq q s).tables = s.tables := rfl
@[simp] theorem addSeq_pasture (q : Seq) (s : State) : (addSeq q s).pasture = s.pasture := rfl
@[simp] theorem addSeq_shelves (q : Seq) (s : State) : (addSeq q s).shelves = s.shelves := rfl
@[simp] theorem addSeq_peer (q : Seq) (s : State) : (addSeq q s).peer = s.peer := rfl
@[simp] theorem addSeq_links (q : Seq) (s : State) : (addSeq q s).links = s.links := rfl
@[simp] theorem addSeq_sec (q : Seq) (s : State) : (addSeq q s).sec = s.sec := rfl
@[simp] theorem addSeq_power (q : Seq) (s : State) : (addSeq q s).power = s.power := rfl
@[simp] theorem addSeq_log (q : Seq) (s : State) : (addSeq q s).log = s.log := rfl
@[simp] theorem addSeq_samplers (q : Seq) (s : State) : (addSeq q s).samplers = s.samplers := rfl

/-! ## setCol -/

@[simp] theorem setCol_kv (c : Col) (s : State) :
    (setCol c s).kv = { s.kv with cols := s.kv.cols.map (fun x => if x.slot == c.slot then c else x) } := rfl
@[simp] theorem setCol_pending (c : Col) (s : State) : (setCol c s).pending = s.pending := rfl
@[simp] theorem setCol_now (c : Col) (s : State) : (setCol c s).now = s.now := rfl
@[simp] theorem setCol_fresh (c : Col) (s : State) : (setCol c s).fresh = s.fresh := rfl
@[simp] theorem setCol_tx (c : Col) (s : State) : (setCol c s).tx = s.tx := rfl
@[simp] theorem setCol_od (c : Col) (s : State) : (setCol c s).od = s.od := rfl
@[simp] theorem setCol_mem (c : Col) (s : State) : (setCol c s).mem = s.mem := rfl
@[simp] theorem setCol_mgmt (c : Col) (s : State) : (setCol c s).mgmt = s.mgmt := rfl
@[simp] theorem setCol_host (c : Col) (s : State) : (setCol c s).host = s.host := rfl
@[simp] theorem setCol_queues (c : Col) (s : State) : (setCol c s).queues = s.queues := rfl
@[simp] theorem setCol_wheel (c : Col) (s : State) : (setCol c s).wheel = s.wheel := rfl
@[simp] theorem setCol_sheets (c : Col) (s : State) : (setCol c s).sheets = s.sheets := rfl
@[simp] theorem setCol_jobs (c : Col) (s : State) : (setCol c s).jobs = s.jobs := rfl
@[simp] theorem setCol_objs (c : Col) (s : State) : (setCol c s).objs = s.objs := rfl
@[simp] theorem setCol_pfx (c : Col) (s : State) : (setCol c s).pfx = s.pfx := rfl
@[simp] theorem setCol_tables (c : Col) (s : State) : (setCol c s).tables = s.tables := rfl
@[simp] theorem setCol_pasture (c : Col) (s : State) : (setCol c s).pasture = s.pasture := rfl
@[simp] theorem setCol_shelves (c : Col) (s : State) : (setCol c s).shelves = s.shelves := rfl
@[simp] theorem setCol_peer (c : Col) (s : State) : (setCol c s).peer = s.peer := rfl
@[simp] theorem setCol_links (c : Col) (s : State) : (setCol c s).links = s.links := rfl
@[simp] theorem setCol_sec (c : Col) (s : State) : (setCol c s).sec = s.sec := rfl
@[simp] theorem setCol_power (c : Col) (s : State) : (setCol c s).power = s.power := rfl
@[simp] theorem setCol_log (c : Col) (s : State) : (setCol c s).log = s.log := rfl
@[simp] theorem setCol_samplers (c : Col) (s : State) : (setCol c s).samplers = s.samplers := rfl

/-! ## setObj -/

@[simp] theorem setObj_objs (o : Obj) (s : State) :
    (setObj o s).objs = { s.objs with objs := s.objs.objs.map (fun x => if x.id == o.id then o else x) } := rfl
@[simp] theorem setObj_pending (o : Obj) (s : State) : (setObj o s).pending = s.pending := rfl
@[simp] theorem setObj_now (o : Obj) (s : State) : (setObj o s).now = s.now := rfl
@[simp] theorem setObj_fresh (o : Obj) (s : State) : (setObj o s).fresh = s.fresh := rfl
@[simp] theorem setObj_tx (o : Obj) (s : State) : (setObj o s).tx = s.tx := rfl
@[simp] theorem setObj_od (o : Obj) (s : State) : (setObj o s).od = s.od := rfl
@[simp] theorem setObj_mem (o : Obj) (s : State) : (setObj o s).mem = s.mem := rfl
@[simp] theorem setObj_mgmt (o : Obj) (s : State) : (setObj o s).mgmt = s.mgmt := rfl
@[simp] theorem setObj_host (o : Obj) (s : State) : (setObj o s).host = s.host := rfl
@[simp] theorem setObj_queues (o : Obj) (s : State) : (setObj o s).queues = s.queues := rfl
@[simp] theorem setObj_wheel (o : Obj) (s : State) : (setObj o s).wheel = s.wheel := rfl
@[simp] theorem setObj_sheets (o : Obj) (s : State) : (setObj o s).sheets = s.sheets := rfl
@[simp] theorem setObj_jobs (o : Obj) (s : State) : (setObj o s).jobs = s.jobs := rfl
@[simp] theorem setObj_kv (o : Obj) (s : State) : (setObj o s).kv = s.kv := rfl
@[simp] theorem setObj_pfx (o : Obj) (s : State) : (setObj o s).pfx = s.pfx := rfl
@[simp] theorem setObj_tables (o : Obj) (s : State) : (setObj o s).tables = s.tables := rfl
@[simp] theorem setObj_pasture (o : Obj) (s : State) : (setObj o s).pasture = s.pasture := rfl
@[simp] theorem setObj_shelves (o : Obj) (s : State) : (setObj o s).shelves = s.shelves := rfl
@[simp] theorem setObj_peer (o : Obj) (s : State) : (setObj o s).peer = s.peer := rfl
@[simp] theorem setObj_links (o : Obj) (s : State) : (setObj o s).links = s.links := rfl
@[simp] theorem setObj_sec (o : Obj) (s : State) : (setObj o s).sec = s.sec := rfl
@[simp] theorem setObj_power (o : Obj) (s : State) : (setObj o s).power = s.power := rfl
@[simp] theorem setObj_log (o : Obj) (s : State) : (setObj o s).log = s.log := rfl
@[simp] theorem setObj_samplers (o : Obj) (s : State) : (setObj o s).samplers = s.samplers := rfl

/-! ## setJob -/

@[simp] theorem setJob_jobs (j : Job) (s : State) :
    (setJob j s).jobs = { s.jobs with jobs := s.jobs.jobs.map (fun x => if x.id == j.id then j else x) } := rfl
@[simp] theorem setJob_pending (j : Job) (s : State) : (setJob j s).pending = s.pending := rfl
@[simp] theorem setJob_now (j : Job) (s : State) : (setJob j s).now = s.now := rfl
@[simp] theorem setJob_fresh (j : Job) (s : State) : (setJob j s).fresh = s.fresh := rfl
@[simp] theorem setJob_tx (j : Job) (s : State) : (setJob j s).tx = s.tx := rfl
@[simp] theorem setJob_od (j : Job) (s : State) : (setJob j s).od = s.od := rfl
@[simp] theorem setJob_mem (j : Job) (s : State) : (setJob j s).mem = s.mem := rfl
@[simp] theorem setJob_mgmt (j : Job) (s : State) : (setJob j s).mgmt = s.mgmt := rfl
@[simp] theorem setJob_host (j : Job) (s : State) : (setJob j s).host = s.host := rfl
@[simp] theorem setJob_queues (j : Job) (s : State) : (setJob j s).queues = s.queues := rfl
@[simp] theorem setJob_wheel (j : Job) (s : State) : (setJob j s).wheel = s.wheel := rfl
@[simp] theorem setJob_sheets (j : Job) (s : State) : (setJob j s).sheets = s.sheets := rfl
@[simp] theorem setJob_kv (j : Job) (s : State) : (setJob j s).kv = s.kv := rfl
@[simp] theorem setJob_objs (j : Job) (s : State) : (setJob j s).objs = s.objs := rfl
@[simp] theorem setJob_pfx (j : Job) (s : State) : (setJob j s).pfx = s.pfx := rfl
@[simp] theorem setJob_tables (j : Job) (s : State) : (setJob j s).tables = s.tables := rfl
@[simp] theorem setJob_pasture (j : Job) (s : State) : (setJob j s).pasture = s.pasture := rfl
@[simp] theorem setJob_shelves (j : Job) (s : State) : (setJob j s).shelves = s.shelves := rfl
@[simp] theorem setJob_peer (j : Job) (s : State) : (setJob j s).peer = s.peer := rfl
@[simp] theorem setJob_links (j : Job) (s : State) : (setJob j s).links = s.links := rfl
@[simp] theorem setJob_sec (j : Job) (s : State) : (setJob j s).sec = s.sec := rfl
@[simp] theorem setJob_power (j : Job) (s : State) : (setJob j s).power = s.power := rfl
@[simp] theorem setJob_log (j : Job) (s : State) : (setJob j s).log = s.log := rfl
@[simp] theorem setJob_samplers (j : Job) (s : State) : (setJob j s).samplers = s.samplers := rfl

end Sys2Proof.Laws
end

