-- ==== Sys2Proof/Machine/Layouts.lean ====
section
/-! DEFINITION. The bytes of the records that the spec lays out: what the host receives (R30, R54, R56, R64), the structures in
the device reserved region (R133, R138, R264), the NOR areas (R457) and the link-test patterns (R509). -/

namespace Sys2Proof.Machine

/-! ## Host link -/

/-- A completion record (R54). -/
def completionBytes (r : Completion) : Bytes :=
  recordOf [(4, r.tag.toNat), (1, r.opcode), (1, r.status.code), (1, r.queue), (1, flagBit r.phase 0), (8, r.wpos.toNat),
    (16, r.result)]

/-- An event record (R56). -/
def eventBytes (e : Event) : Bytes :=
  recordOf [(8, e.timeNs), (8, e.wpos.toNat), (1, e.status.code), (1, e.partition), (2, e.fault), (2, e.unit),
    (1, flagBit e.phase 0 + flagBit e.overflow 1), (1, 0), (8, e.detail)]

/-- The 16 `args` bytes of a device-to-host message (R65). -/
def hostArgs : HostMsg → Bytes
  | .output w off q layer row0 rows _ _ _ =>
    recordOf [(2, w), (2, 0), (4, off), (3, q), (1, layer), (2, row0), (2, rows)]
  | .completion w off _ _ => recordOf [(2, w), (2, 0), (4, off), (8, 0)]
  | .event w off _ _ => recordOf [(2, w), (2, 0), (4, off), (8, 0)]
  | .wpush w off obj tile _ _ _ _ => recordOf [(2, w), (2, 0), (4, off), (4, obj), (4, tile)]

/-- Type, partition, status and payload of a device-to-host message (R65). The status of a COMPLETION or EVENT message, whose
record carries one, is taken to be that of the record (DESIGN CHOICE, log entry 136). -/
def hostParts : HostMsg → Nat × Nat × Status × Bytes
  | .output _ _ _ _ _ _ p st bs => (0x05, p, st, bs)
  | .completion _ _ p r => (0x06, p, r.status, completionBytes r)
  | .event _ _ p e => (0x07, p, e.status, eventBytes e)
  | .wpush _ _ _ _ p st _ bs => (0x08, p, st, bs)

/-- A device-to-host TPP message: 32 header bytes and the payload (R64). -/
def tppBytes (m : TxMsg) : Bytes :=
  let x := hostParts m.body
  recordOf [(1, x.1), (1, flagBit m.first 0 + flagBit m.final 1), (1, x.2.1), (1, x.2.2.1.code), (2, m.len), (2, m.seq.toNat),
    (8, m.wpos.toNat)] ++ hostArgs m.body ++ x.2.2.2

/-- A CREDIT message of the device (R64, R65): acknowledged numbers and units returned, of classes 0 to 3. -/
def creditBytes (acks : List U16) (units : List Nat) : Bytes :=
  recordOf [(1, 0x09), (1, 3), (1, 255), (1, 0), (2, 0), (2, 0), (8, 0)] ++
    (List.range 4).flatMap (fun c => recordOf [(2, (acks.getD c 0).toNat), (2, nth units c)])

/-! ## Sequences, columns and the prefix index -/

/-- A sequence descriptor (R133). -/
def seqBytes (q : Seq) : Bytes :=
  recordOf [(3, q.id), (1, if q.failed then 2 else 1), (1, q.part), (1, q.model),
    (1, flagBit q.prov.isSome 0 + flagBit (!q.coils.isEmpty) 1), (1, q.prov.elim 0 (fun t => t.count)), (4, q.length), (4, q.policy),
    (8, q.root.elim 0 structAddr), (8, if q.coils.isEmpty then 0 else q.coilDir), (5, q.prov.elim 0 (fun t => t.step)),
    (5, q.lastUsed), (2, q.pendCount), (1, q.pendLayer), (3, 0), (16, q.hostTag)]

/-- A root block (R136). -/
def rootBytes (q : Seq) : Bytes := (rootWords q).flatMap (natLe 8)

/-- A list block (R136). -/
def blockBytes (ids : List Nat) (b : Nat) : Bytes := (blockWords ids b).flatMap (natLe 4)

/-- A coil directory (R132); a group that is no window group has a zero entry. -/
def coilDirBytes (q : Seq) : Bytes :=
  (coilDirectory q).flatMap (fun e => recordOf [(8, e.1), (2, e.2.1), (2, 0), (4, e.2.2)])

/-- The `lender` byte of a column: the peer port of its pasture home or image (R138). -/
def lenderOf (s : State) (c : Col) : Nat :=
  let lease := if c.home.tier == .pasture then some c.home.unit else (c.image.bind (fun l => if l.tier == .pasture then some l.unit else none))
  (lease.bind (fun n => s.pasture.leases.find? (fun l => !l.lent && l.id == n))).elim 255 (fun l => l.port)

/-- A column table entry (R138). -/
def colBytes (s : State) (c : Col) : Bytes :=
  recordOf [(1, if c.isSealed then 2 else 1),
    (1, flagBit c.pinned 0 + flagBit (isPublished s c.slot) 1 + flagBit (c.dur == .ring || c.dur == .heath) 2 +
      flagBit c.poisoned 3 + flagBit c.moving 4),
    (1, c.part), (1, c.model), (1, c.fill), (1, c.home.tier.code), (1, c.image.elim 255 (fun l => l.tier.code)), (1, lenderOf s c),
    (4, c.refs), (1, c.gen), (1, c.policy), (2, 0), (5, c.home.addr), (5, c.image.elim 0 (fun l => l.addr)), (5, c.lastUsed), (1, 0)]

/-- A prefix index entry (R264); it names its column by the column's ID. -/
def entryBytes (s : State) (e : PEntry) : Bytes :=
  recordOf [(16, e.fp), (8, e.tag)] ++ e.tokens.flatMap (fun t => natLe 4 t.toNat) ++
    recordOf [(4, (findCol s e.column).elim e.column colId), (4, e.parent), (4, e.child), (4, e.next), (4, e.prev), (1, e.part), (1, 1 + flagBit e.logged 1), (2, 0),
      (5, e.lastHit), (3, 0), (4, e.hits), (4, 0)]

/-! ## NOR -/

/-- NOR areas that the TH2 uses: offset, size, and whether Aedmi alone writes it (R457). -/
def norAreas : List (Nat × Nat × Bool) :=
  [(0x0000000, 16 * 2 ^ 20, false), (0x1000000, 65536, true), (0x1010000, 65536, true), (0x1020000, 65536, true),
   (0x1030000, 2 ^ 20, false), (0x1130000, 2 ^ 20, false), (0x2000000, 32 * 2 ^ 20, false)]

/-- NOR offset of a slot of the fault log ring (R457, R472). -/
def logSlotAt (slot : Nat) : Nat := 0x2000000 + 32 * slot

/-! ## Link-test patterns (R509) -/

/-- The exponents of a pattern's polynomial: x^n + x^m + 1. -/
def prbsTaps : Nat → Option (Nat × Nat)
  | 1 => some (7, 6)
  | 2 => some (15, 14)
  | 3 => some (23, 18)
  | 4 => some (31, 28)
  | _ => none

/-- The next `k` bits of a pattern after the bits `past`, newest first: each is the sum of those `n` and `m` places back. -/
def prbsBits (n m : Nat) : Nat → List Bool → List Bool
  | 0, _ => []
  | k + 1, past =>
    let b := past.getD (n - 1) false != past.getD (m - 1) false
    b :: prbsBits n m k (b :: past)

/-- Bit `i` of the user pattern, repeated, bit 0 first. -/
def userBit (pattern i : Nat) : Bool := bitOf pattern (i % 64)

/-- The PAM4 level, 0 to 3, of two bits, the first the more significant: Gray code (PRESUMED, log entry 137). -/
def pam4 : Bool → Bool → Nat
  | false, false => 0
  | false, true => 1
  | true, true => 2
  | true, false => 3

/-! ## Cores (R207, R208) -/

/-- The core store: bytes, banks, bytes a bank reads in a cycle and writes in a cycle. -/
def coreStoreBytes : Nat := 8 * 2 ^ 20
def coreStoreBanks : Nat := 16
def bankRate : Nat := 256

/-- Core store bytes of a region: the first, and how many. -/
def regionSpan (r : Nat) : Nat × Nat := (r * 0x80000, 0x80000)

/-- The shared resource unit of a region of a logical core (kind 4, R93). -/
def regionUnit (core r : Nat) : Nat := 16 * core + r

/-- The side of the matrix engine's MAC array, the vector engine's lanes, bytes read from cluster cache in a cycle. -/
def macSide : Nat := 128
def vectorLanes : Nat := 256
def cacheRate : Nat := 4096

end Sys2Proof.Machine
end

