-- ==== Sys2Proof/Machine/Bars.lean ====
section
/-! DEFINITION. What a host read of the CXL.io function returns: its class code and the partition of an HDM decoder (R42), BAR0
with its doorbells, mailbox and counter window (R48, R496), BAR2 with the MSI-X table and its pending bits (R48, R62). -/

namespace Sys2Proof.Machine

/-- The function's class code (R42). -/
def classCode : Nat := 0x050210

/-- The partition that an HDM decoder serves (R42). -/
def decoderPartition (d : Nat) : Nat := d

/-- The record and the value subindex of a counter of the window, by its offset in BAR0 (R496). -/
def windowCounter (off : Nat) : Option (Nat × Nat) :=
  if off < 0x8000 || 0xBE00 ≤ off then none
  else if off < 0xB000 then
    let i := (off - 0x8000) % 128 / 8
    if i ≤ 13 then some (0xA100 + (off - 0x8000) / 128, 0x11 + i) else none
  else if off < 0xB800 then
    let c := (off - 0xB000) / 64
    if c < 24 then some (0xA200 + c, 0x11 + (off - 0xB000) % 64 / 8) else none
  else
    let k := (off - 0xB800) / 32
    if k < 48 then some (0xA300 + k, 0x09 + (off - 0xB800) % 32 / 8) else none

/-- An aligned 64-bit read of the counter window: zeros while OD 0xA000:01 is 0 and where the window has no counter (R48, R496); in OWNED
and RELEASING a value is coarsened (R497). -/
def counterWindow (off : Nat) (s : State) : Nat :=
  match windowCounter off with
  | none => 0
  | some (index, sub) =>
    if od s 0xA000 0x01 = 0 then 0
    else (odFind index sub).elim 0 (fun r => odValue .tenant false s r index sub)

/-- MBX_DONE (R48). -/
def mbxDoneBits (s : State) : Nat :=
  ((List.range 16).map (fun k => if (s.mgmt.mbx.getD k {}).done then 2 ^ k else 0)).foldl (· + ·) 0

/-- The bytes in a mailbox slot: the response, or the request that it will replace (R49); none before the first. -/
def mbxBytes (x : MbxSlot) : Bytes :=
  match x.rsp, x.req with
  | some m, _ => dictBytes m
  | none, some m => dictBytes m
  | none, none => []

/-- Whether a BAR0 offset is a doorbell's (R48); MBX_SUBMIT is none of R366 or of the command queues, and reads zero here (DESIGN CHOICE,
log entry 139). -/
def isBell (off : Nat) : Bool :=
  (off < 0x800 && off % 0x40 < 0x24) || (0x800 ≤ off && off < 0x80C) || (0x2000 ≤ off && off < 0x2080)

/-- An aligned 32-bit read of BAR0 outside the counter window (R48). Reserved ranges read zero; so do places that the table does not
list or gives no read (DESIGN CHOICE, log entry 139). -/
def bar0Read (off : Nat) (s : State) : Nat :=
  if isBell off then bellValue s off
  else if off = 0x1004 then mbxDoneBits s
  else if 0x10000 ≤ off && off < 0x18000 then
    fieldAt (mbxBytes (s.mgmt.mbx.getD ((off - 0x10000) / 0x800) {})) (off % 0x800) 4
  else 0

/-- The 16 bytes of an MSI-X table entry, with the layout of the PCI standard (PRESUMED, log entry 108). -/
def msixBytes (e : MsixEntry) : Bytes := recordOf [(8, e.addr.toNat), (4, e.data.toNat), (4, flagBit e.masked 0)]

/-- A read of `n` bytes of BAR2 (R48): the MSI-X table and the pending-bit array. -/
def bar2Read (off n : Nat) (s : State) : Nat :=
  if off < 0x1100 then fieldAt (msixBytes (s.host.msix.getD (off / 16) {})) (off % 16) n
  else if 0x1800 ≤ off then
    ((List.range (8 * n)).map (fun i => if s.host.msixPending.contains (8 * (off - 0x1800) + i) then 2 ^ i else 0)).foldl (· + ·) 0
  else 0

/-- An MSI-X table entry with one of its four words written (PRESUMED, log entry 108). -/
def msixPut (e : MsixEntry) (word : Nat) (v : BitVec 32) : MsixEntry :=
  match word with
  | 0 => { e with addr := (e.addr.extractLsb' 32 32) ++ v }
  | 1 => { e with addr := v ++ (e.addr.extractLsb' 0 32) }
  | 2 => { e with data := v }
  | _ => { e with masked := v.getLsbD 0 }

/-- An aligned 32-bit write of BAR2 (R48): a word of an MSI-X table entry; a vector whose mask is cleared sends its pending message. The
pending-bit array is read only. No row of the opcode table carries such a write (log entry 108). -/
def bar2Write (off : Nat) (v : BitVec 32) (s : State) : State :=
  if 0x1100 ≤ off || !cxlServes s then s
  else
    let k := off / 16
    let e := msixPut (s.host.msix.getD k {}) (off % 16 / 4) v
    let s1 : State := { s with host := { s.host with msix := s.host.msix.set k e } }
    if !e.masked && s.host.msixPending.contains k then
      sendVector k { s1 with host := { s1.host with msixPending := s1.host.msixPending.filter (fun i => i != k) } }
    else s1

end Sys2Proof.Machine
end

