-- ==== Sys2Proof/WellFormed.lean ====
section
/-! DEFINITION. Well-formed commands: unit numbers within what the spec gives the device (R8), message lengths within
R30 and R64. Every command has a meaning, well formed or not; this says which ones a sender can produce. -/

namespace Sys2Proof

/-- A transport that exists: mailbox slots are 0 to 15 (R48). -/
def Via.wf : Via → Bool
  | .session _ => true
  | .mctp _ _ => true
  | .mailbox k => decide (k < 16)

/-- A dictionary message with at most 1,024 value bytes, its length field telling their number (R30). -/
def DictMsg.wf (m : DictMsg) : Bool := decide (m.value.length ≤ 1024) && decide (m.length.toNat = m.value.length)

/-- A queue that exists (R48): 32 partitions of four queues, and the admin queue. -/
def QRef.wf : QRef → Bool
  | .part p q => decide (p < 32) && decide (q < 4)
  | .admin => true

/-- A TPP message whose payload is as long as its header says (R64). -/
def TppMsg.wf (m : TppMsg) : Bool := decide (m.length.toNat = m.payload.length)

/-- Ports 0 to 31 are peer ports, 32 to 47 heath ports (R392). -/
def portWf (p : Nat) : Bool := decide (p < 48)

/-- Shelves (R323). -/
def shelfWf (h : Nat) : Bool := decide (h < 16)

/-- Queue pair numbers (R362). -/
def qpWf (q : Nat) : Bool := decide (q < 65536)

/-- A command that a sender can produce. -/
def Instr.wf : Instr → Bool
  | .read v m | .write v m | .readBlock v m | .writeBlock v m | .commit v m | .cancelPendingCommit v m
  | .discardStagedSet v m | .wheelRestart v m | .configure v m | .qpConnect v m | .drain v m | .qpReset v m
  | .qpRelease v m | .startFullScan v m | .formatShelf v m | .startRebuild v m | .releaseRequest v m
  | .weightKeyWrite v m | .scanRequest v m | .testRequest v m | .linkTestStart v m | .linkTestStop v m
  | .warmReset v m | .partitionReset v m | .discardHeldSave v m | .clearTheLog v m | .counterValueWrite v m
  | .firmwareUpdate v m _ | .recoveryBlockWrite v m _ => v.wf && m.wf
  | .blockWriteTimeout v => v.wf
  | .record _ _ _ b => b.all DictMsg.wf
  | .mbxSubmit _ m => m.wf
  | .commandTailDoorbell q _ _ | .completionHeadDoorbell q _ | .seqOpen q | .seqClose q | .seqFork q | .seqTruncate q
  | .kvAppend q | .colSeal q | .colMove q | .colPin q | .colUnpin q | .colDiscard q | .pfxLookup q | .pfxCommit q
  | .pfxEvict q | .objCreate q | .objWrite q | .objRead q | .objMove q | .objPolicy q | .attn q | .attnBwd q
  | .specConfirm q | .tableBuild q | .tableLoad q | .compress q | .waitCount q | .fence q => q.wf
  | .eventHeadDoorbell r _ => decide (r < 33)
  | .cxlMemRead p l _ | .cxlMemWrite p l _ => decide (p < 32) && decide (l < 2 ^ 40)
  | .beat m | .sheet m | .submit m | .window m | .credit m | .sync m => m.wf
  | .moduleLinkDown m _ | .moduleRetrain m _ | .sidebandFailure m => decide (m < 48)
  | .connectTimeout q | .wrWrite q | .wrWriteImm q | .wrRead q | .wrWaitCount q | .busyResend q
  | .retransmissionTimeout q | .peerRekey q | .contextFetch q => qpWf q
  | .peerSendTailDoorbell p _ | .peerCompletionHeadDoorbell p _ => decide (p < 32)
  | .peerWrite p _ | .peerWriteImm p _ | .readReq p _ | .readResp p _ | .ack p _ | .nak p _ | .connect p _
  | .connectAck p _ | .disconnect p _ | .busy p _ | .relayedPacket p _ | .leaseRequest p _ | .leaseGrant p _
  | .leaseRefuse p _ | .leaseReturn p _ | .leaseRecall p _ | .leaseDone p _ | .borrowerLeaseRequest p _ =>
    decide (p < 32)
  | .portBringUp p _ | .bringupStepTimeout p | .linkKey p _ _ _ | .linkCt p _ _ _ | .linkProof p _ | .dataFrame p _
  | .creditFrame p _ | .nakFrame p _ | .lane p _ | .laneFrameRepeat p | .laneAgreementTimeout p | .nakRepeat p
  | .replayTimeout p | .creditFrameTimer p | .linkRekey p | .packetBoundary p | .idleFrame p _ => portWf p
  | .laneFault p n | .laneRetrain p n _ => portWf p && decide (n < 8)
  | .checkerLock n | .checkerLockLoss n | .checkerError n _ => decide (n < 8)
  | .identify h _ _ | .param h _ | .badmap h _ _ | .bridgeRead h _ _ | .readMeta h _ _ | .program h _ | .erase h _
  | .bridgeReset h _ | .bridgeResponseTimeout h _ | .portDownWaitExpiry h | .journalHalfFull h | .checkpoint h
  | .garbageCollection h | .shelfStartup h _ => shelfWf h
  | .thermalSample r => decide (r.length = 160)
  | .pmbusPoll r _ => decide (r.length = 8)
  | .pmbusTimeout r => decide (r < 8)
  | .laserCheck p => decide (p.length = 12)
  | .coreFailure c | .blockEncoded _ c _ => decide (c < 96)
  | .hello _ _ | .auth _ _ _ | .sessionSetupTimeout _ | .sessionIdleTimeout _ | .mbxDone _ | .deferredCommandStart _
  | .compaction _ | .beatHoldRelease | .beatSilence | .tileLanded _ _ _ _ | .itemComplete _ _ | .jobComplete _
  | .moveCommit _ _ | .borrowerHoldExpiry _ | .spdmRequest _ | .finish _ _ _ | .getMeasurements _ _ _
  | .spdmSessionEnd _ | .own _ | .setSecret _ _ _ | .tenancySecret _ _ | .status _ | .ownershipWaitExpiry
  | .releaseStepEnd | .trigEdge | .testComplete _ _ | .coldReset _ | .boot _ | .mgpFault _ | .supplySag _ _
  | .kilnIsolation | .saveEnd _ | .powerCheck | .logFlush | .escalation _ _ | .counterSample _ _ _ _
  | .saveRingCopyEnd | .rtpDomainFailure _ | .slotProgrammed _ | .storedValuesWritten => true

end Sys2Proof
end

