-- ==== Sys2Proof/Tests/Slice0.lean ====
section
/-! SUPPORT. Tests: a command that is not well formed for each check of WellFormed; for every statement with hypotheses, small
states and operands that meet the hypotheses of each of its clauses; and values worked out by hand from the spec. -/

namespace Sys2Proof.Tests

set_option Elab.async false

open Sys2Proof Sys2Proof.Machine

/-! ## Small states and messages -/

/-- READY with nobody owning the device. -/
def up : State :=
  { State.reset with
    power := { State.reset.power with dev := .ready, needsBoot := false }
    sec := { State.reset.sec with identity := some [], rtp := .run } }

/-- READY and OWNED, for work of partition 0. -/
def own : State := { up with sec := { up.sec with tenancy := .owned } }

/-- The dictionary with values at some addresses. -/
def withOd (l : List (Nat × Nat × Nat)) (s : State) : State := l.foldl (fun t e => odSet e.1 e.2.1 e.2.2 t) s

def ask (op index sub : Nat) (v : Bytes) : DictMsg :=
  { op := BitVec.ofNat 8 op, index := BitVec.ofNat 16 index, sub := BitVec.ofNat 8 sub, tag := 7, value := v
    length := BitVec.ofNat 16 v.length }

/-- A WRITE with the type and size that the object has. -/
def put (index sub v : Nat) : DictMsg :=
  match odFind index sub with
  | some r => { ask 2 index sub (natLe r.size v) with typ := BitVec.ofNat 8 r.ty.code }
  | none => ask 2 index sub []

/-- A block of a value. -/
def putBlock (index sub block : Nat) (v : Bytes) : DictMsg :=
  { put index sub 0 with op := 4, block := BitVec.ofNat 16 block, value := v, length := BitVec.ofNat 16 v.length }

/-- The request waiting in mailbox slot 0 of the tenant. -/
def mailed (m : DictMsg) (s : State) : State := { s with mgmt := { s.mgmt with mbx := s.mgmt.mbx.set 0 { req := some m }, mbxOrder := [0] } }

/-- The operator's transport: MCTP from an endpoint, with the vendor identifier of R76. -/
def net : Via := .mctp 0 0x1ED8

/-! ## Hypotheses as one decision -/

def asksB (via : Via) (m : DictMsg) (s : State) : Bool :=
  serves m s && delivers via m s && decide (keptResponse via m.tag s = none) && decide (m.length.toNat = m.value.length)

theorem asks_of {via : Via} {m : DictMsg} {s : State} (h : asksB via m s = true) : Asks via m s := by
  simp only [asksB, Bool.and_eq_true, decide_eq_true_eq] at h
  exact ⟨h.1.1.1, h.1.1.2, h.1.2, h.2⟩

def requestB (via : Via) (m : DictMsg) (s : State) : Bool := asksB via m s && decide (s.power.dev ≠ .recovery)

theorem request_of {via : Via} {m : DictMsg} {s : State} (h : requestB via m s = true) : Request via m s := by
  simp only [requestB, Bool.and_eq_true, decide_eq_true_eq] at h
  exact { asks_of h.1 with running := h.2 }

def writesB (via : Via) (m : DictMsg) (i k : Nat) (s : State) (p : OdRow → Bool) : Bool :=
  requestB via m s &&
  decide ((m.op = 2 ∧ m.index.toNat = i ∧ m.sub.toNat = k) ∨ (m.op = 5 ∧ i = 0x1F00 ∧ k = 1)) &&
  match writeCheck (Via.role via) s i k with
  | .ok r => decide (r.size ≤ 1024) && decide (m.typ.toNat = r.ty.code) && decide (m.value.length = r.size) &&
      r.range.ok (leNat m.value) && specialOk s i k (leNat m.value) m.value && p r
  | .error _ => false

theorem writes_of {via : Via} {m : DictMsg} {i k : Nat} {s : State} {p : OdRow → Bool} (h : writesB via m i k s p = true) :
    ∃ r, Writes via m i k r s ∧ p r = true := by
  unfold writesB at h
  cases hw : writeCheck (Via.role via) s i k with
  | error e => simp [hw] at h
  | ok r =>
    simp only [hw, Bool.and_eq_true, decide_eq_true_eq] at h
    exact ⟨r, ⟨request_of h.1.1, h.1.2, hw, h.2.1.1.1.1.1, h.2.1.1.1.1.2, h.2.1.1.1.2, h.2.1.1.2, h.2.1.2⟩, h.2.2⟩

/-- A successful result with a property. -/
def okB {ε α : Type} (x : Except ε α) (p : α → Bool) : Bool :=
  match x with
  | .ok a => p a
  | .error _ => false

theorem ok_of {ε α : Type} {x : Except ε α} {p : α → Bool} (h : okB x p = true) : ∃ a, x = .ok a ∧ p a = true := by
  cases x with
  | error e => simp [okB] at h
  | ok a => exact ⟨a, rfl, h⟩

def frontB (op : Nat) (q : QRef) (d : Desc) (ds : List Desc) (s : State) : Bool :=
  decide ((queueOf s q).waiting = d :: ds) && decide (dOpcode d = op) && canStart s q &&
  windowHolds (compWindow s q) 2 (32 * ((queueOf s q).completed % ringSize s q)) 32 s && owned s && headerOk q d &&
  (!hasAt op || decide (dAt d = 0)) && !mustWait (popCmd q d ds s) d && !waitsBehind (popCmd q d ds s) (takenCmd q d s)

theorem front_of {op : Nat} {q : QRef} {d : Desc} {ds : List Desc} {s : State} (h : frontB op q d ds s = true) :
    Front op q d ds s := by
  simp only [frontB, Bool.and_eq_true, Bool.or_eq_true, Bool.not_eq_true', decide_eq_true_eq] at h
  obtain ⟨⟨⟨⟨⟨⟨⟨⟨h1, h2⟩, h3⟩, hl⟩, h4⟩, h5⟩, h6⟩, h7⟩, h8⟩ := h
  exact ⟨h1, h2, h3, hl, h4, h5, fun ht => h6.elim (fun hf => by simp [ht] at hf) id, h7, h8⟩

def arrivesB (n t : Nat) (f : Frame) (s : State) : Bool :=
  portUp s n && decide (f.ftype.toNat = t) && f.fecOk && f.authOk &&
  (!isHeathPort n || decide (frameCtr (portOf s n) f.ctrLo.toNat = expectedCtr (portOf s n)))

theorem arrives_of {n t : Nat} {f : Frame} {s : State} (h : arrivesB n t f s = true) : Arrives n t f s := by
  simp only [arrivesB, Bool.and_eq_true, Bool.or_eq_true, Bool.not_eq_true', decide_eq_true_eq] at h
  obtain ⟨⟨⟨⟨h1, h2⟩, h3⟩, h4⟩, h5⟩ := h
  exact ⟨h1, h2, h3, h4, fun ht => h5.elim (fun hf => by simp [ht] at hf) id⟩

def answersB (h code : Nat) (b : BridgeHdr) (o : BridgeOp) (s : State) : Bool :=
  decide ((shelfOf s h).ops.find? (fun x => x.tag == b.tag.toNat && x.op == code) = some o) && heathUp s h && b.flags.getLsbD 0 &&
  decide (b.status.toNat ≠ 5 ∧ b.status.toNat ≠ 6)

theorem answers_of {h code : Nat} {b : BridgeHdr} {o : BridgeOp} {s : State} (x : answersB h code b o s = true) :
    Answers h code b o s := by
  simp only [answersB, Bool.and_eq_true, decide_eq_true_eq] at x
  exact ⟨x.1.1.1, x.1.1.2, x.1.2, x.2⟩

/-! ## Dictionary requests -/

theorem witness_ReadsAnswerTheValue :
    (Request net (ask 1 0x1000 1 []) up ∧ ∃ r, readCheck .operator up 0x1000 1 = .ok r ∧ decide (r.size ≤ 1024) = true) ∧
    (Request net { ask 3 0x3100 5 [] with block := 1 } up ∧ ctrLocOf 0x3100 = none ∧
      ∃ r, readCheck .operator up 0x3100 5 = .ok r ∧ decide (1024 < r.size) = true ∧ decide (1024 * 1 < r.size) = true) :=
  ⟨⟨request_of (by decide +kernel), ok_of (by decide +kernel)⟩, request_of (by decide +kernel), by decide +kernel,
    (ok_of (p := fun r => decide (1024 < r.size)) (by decide +kernel)).imp (fun r h => ⟨h.1, h.2, by simpa using h.2⟩)⟩

theorem witness_RefusedRequestsChangeNothing :
    (Request net (ask 1 0x0FFF 0 []) up ∧ readCheck .operator up 0x0FFF 0 = .error .badObject) ∧
    (Request net (ask 2 0x1000 1 []) up ∧ writeCheck .operator up 0x1000 1 = .error .badObject) ∧
    (∃ r, odFind 0x2000 2 = some r ∧ r.acc ≠ .wo ∧ owned own = true ∧ tenantOwned r = true) ∧
    owned up = false ∧ odFind 0x1000 6 = none :=
  ⟨⟨request_of (by decide +kernel), by decide +kernel⟩, ⟨request_of (by decide +kernel), by decide +kernel⟩,
    ⟨(odFind 0x2000 2).get (by decide +kernel), by decide +kernel, by decide +kernel, by decide +kernel, by decide +kernel⟩,
    by decide +kernel, by decide +kernel⟩

theorem witness_WritesTakeEffect :
    (∃ r, Writes net (put 0x1100 1 50000) 0x1100 1 r up ∧ (decide (r.acc = .rws)) = true) ∧ up.mgmt.op.pend = none ∧
    (∃ r, Writes net (put 0x1100 3 60000) 0x1100 3 r up ∧ (decide (r.acc = .rw)) = true) ∧ ctrLocOf 0x1100 = none ∧
    (∃ r, Writes net (put 0x7100 2 8) 0x7100 2 r up ∧ (fun _ => true) r = true) ∧
    (∃ r, Writes net (put 0x7100 3 4) 0x7100 3 r up ∧ (fun _ => true) r = true) :=
  ⟨writes_of (by decide +kernel), rfl, writes_of (by decide +kernel), by decide +kernel, writes_of (by decide +kernel),
    writes_of (by decide +kernel)⟩

/-- 1,024 bytes of FP8 scales have come. -/
def half : State :=
  let m := putBlock 0x3100 5 0 (List.replicate 1024 0)
  mailed (putBlock 0x3100 5 1 (List.replicate 1024 0)) { own with mgmt := { own.mgmt with
    blocks := [{ via := requester (.mailbox 0), index := m.index, sub := m.sub, next := 1, bytes := m.value, lastAt := 0 }] } }

theorem witness_BlockWritesGather :
    (Request (.mailbox 0) (putBlock 0x3100 5 0 (List.replicate 1024 0)) (mailed (putBlock 0x3100 5 0 (List.replicate 1024 0)) own) ∧
      ∃ r, writeCheck .tenant (mailed (putBlock 0x3100 5 0 (List.replicate 1024 0)) own) 0x3100 5 = .ok r ∧
        decide (1024 < r.size ∧ (putBlock 0x3100 5 0 []).typ.toNat = r.ty.code) = true) ∧
    (Request (.mailbox 0) (putBlock 0x3100 5 1 (List.replicate 1024 0)) half ∧
      half.mgmt.blocks.find? (sameWrite (.mailbox 0) 0x3100 5) = half.mgmt.blocks.head? ∧
      ∃ r, writeCheck .tenant half 0x3100 5 = .ok r ∧
        decide (r.size = 2048 ∧ specialOk half 0x3100 5 0 (List.replicate 2048 0) = true) = true) ∧
    (∃ (s : State) (b : BlockWrite), b ∈ s.mgmt.blocks ∧ b.via = requester net ∧ b.index = 0xC040 ∧ b.lastAt + 1000000000 ≤ s.now) :=
  ⟨⟨request_of (by decide +kernel), ok_of (by decide +kernel)⟩,
    ⟨request_of (by decide +kernel), by decide +kernel, ok_of (by decide +kernel)⟩,
    { up with now := 1000000000, mgmt := { up.mgmt with
      blocks := [{ via := requester net, index := 0xC040, sub := 1, next := 1, bytes := [], lastAt := 0 }] } },
    _, List.mem_singleton.2 rfl, rfl, rfl, by decide⟩

theorem witness_CommitsApplyOrWait :
    (∃ r, Writes net (put 0x1F00 1 0) 0x1F00 1 r up ∧ (fun _ => true) r = true) ∧ leNat (put 0x1F00 1 0).value = 0 ∧
    (∃ l, checkCommit .operator [] 0 up = .ok l ∧ (fun _ => true) l = true) ∧
    (∃ r, Writes net (put 0x1F00 1 0x1000000) 0x1F00 1 r up ∧ (fun _ => true) r = true) ∧
    (∃ l, checkCommit .operator [] 0x1000000 up = .ok l ∧ decide (l = none) = true) :=
  ⟨writes_of (by decide +kernel), by decide +kernel, ok_of (by decide +kernel), writes_of (by decide +kernel),
    ok_of (by decide +kernel)⟩

theorem witness_OneCommitIsPendingAtATime :
    let p : PendCommit := { pos := 0x1000000, content := [], pool := true }
    let s : State := { up with mgmt := { up.mgmt with op := { up.mgmt.op with pend := some p } } }
    let t : State := { own with mgmt := { own.mgmt with ten := { own.mgmt.ten with pend := some p } } }
    let m := putBlock 0x3100 5 0 (List.replicate 1024 0)
    (∃ r, Writes net (put 0x1100 1 50000) 0x1100 1 r s ∧ decide (r.acc = .rws) = true) ∧
    (Request (.mailbox 0) m (mailed m t) ∧ ∃ r, writeCheck .tenant (mailed m t) 0x3100 5 = .ok r ∧
      decide (1024 < r.size ∧ m.typ.toNat = r.ty.code ∧ r.acc = .rws) = true) ∧
    (∃ r, Writes net (put 0x1F00 1 0) 0x1F00 1 r s ∧ (fun _ => true) r = true) ∧
    (∃ r, Writes net (put 0x1F00 4 1) 0x1F00 4 r s ∧ (fun _ => true) r = true) ∧
    (∃ r, Writes net (put 0x1F00 4 1) 0x1F00 4 r up ∧ (fun _ => true) r = true) ∧
    (∃ r, Writes net (put 0x1F00 5 1) 0x1F00 5 r up ∧ (fun _ => true) r = true) :=
  ⟨writes_of (by decide +kernel), ⟨request_of (by decide +kernel), ok_of (by decide +kernel)⟩, writes_of (by decide +kernel),
    writes_of (by decide +kernel), writes_of (by decide +kernel), writes_of (by decide +kernel)⟩

theorem witness_WheelRestarts :
    let s := mailed (put 0x2000 2 0x1000000) own
    (∃ r, Writes (.mailbox 0) (put 0x2000 2 0x1000000) 0x2000 2 r s ∧ (fun _ => true) r = true) ∧ cmdComps s = 0 ∧
    (∃ r, Writes (.mailbox 0) (put 0x2000 2 0x1000000) 0x2000 2 r
      { s with wheel := { s.wheel with next := some { takeover := 1, slot := none } } } ∧ (fun _ => true) r = true) ∧
    Pos.ok 0x1000000 = true ∧ Pos.layer 0x1000000 ≤ lastAt own (Pos.step 0x1000000) ∧ tooEarly own 0x1000000 = false ∧
    (0x1000000 : WPos).toNat < ({ own with wheel := { own.wheel with floor := 0x2000000 } } : State).wheel.floor.toNat :=
  ⟨writes_of (by decide +kernel), by decide +kernel, writes_of (by decide +kernel), by decide +kernel, by decide +kernel,
    by decide +kernel, by decide +kernel⟩

theorem witness_PositionsOrderAsNumbers : Pos.ok 0x1032000 = true ∧ Pos.ok 0x1033000 = true := by decide +kernel

theorem witness_ControlAndStoreRequestsAct :
    (∃ r, Writes net (put 0xD000 5 1) 0xD000 5 r up ∧ (fun _ => true) r = true) ∧
    (∃ r, Writes net (put 0xA100 0x11 0) 0xA100 0x11 r up ∧ (fun _ => true) r = true) ∧
    (∃ l, ctrLocOf 0xA100 = some l ∧ l.valSub 0 = 0x11 ∧ 0 < l.count ∧ bitOf (od up l.index (l.cfgSub 0)) 54 = false) ∧
    (let s : State := { up with power := { up.power with kiln := { up.power.kiln with held := true } } }
     ∃ r, Writes net (put 0xC030 8 1) 0xC030 8 r s ∧ (fun _ => true) r = true) ∧
    (∃ r, Writes net (put 0x6000 0x11 1) 0x6000 0x11 r up ∧ (fun _ => true) r = true) :=
  ⟨writes_of (by decide +kernel), writes_of (by decide +kernel),
    ⟨(ctrLocOf 0xA100).get (by decide +kernel), by decide +kernel, by decide +kernel, by decide +kernel, by decide +kernel⟩,
    writes_of (by decide +kernel), writes_of (by decide +kernel)⟩

/-- A pair request: its bytes from the offsets of R363. -/
def reqBytes (l : List (Nat × Nat)) : Nat := l.foldl (fun v e => v + e.2 * 2 ^ (8 * e.1)) 0

/-- Partition 0 has a DATA object of 1 MiB at 1 MiB in pasture, and window 0 of 64 KiB is registered. -/
def data0 : Obj := { id := 1, part := 0, kind := 1, size := 0x100000, off := 0x100000, exts := [{ home := { tier := .pasture } }] }

def stocked : State :=
  { own with
    objs := { own.objs with objs := [data0], lastObj := 1 }
    host := { own.host with windows := [{ id := 0, cls := 2, bytes := 65536 }, { id := 1, cls := 3, bytes := 65536 }] } }

/-- Queue pair 64 of partition 0, in a state. -/
def pair (st : QpState) : Qp :=
  { num := 64, state := st, part := 0, remoteNode := 5, remoteQp := 64, winBytes := 65536, winPkts := 16, ring := 16,
    ringOff := 0x100000, rkey := 1 }

def paired (q : Qp) (s : State) : State := { s with peer := { s.peer with qps := [q] } }

def pairReq (op : Nat) : DictMsg := put 0x7020 1 (reqBytes [(0, op), (2, 64)])

theorem witness_PairRequestsAct :
    let m := put 0x7020 1 (reqBytes [(0, 1), (2, 64), (6, 64), (18, 16), (24, 0x100000)])
    let key (s : State) : State := { s with sec := { s.sec with setSecret := some 0 } }
    (∃ r, Writes (.mailbox 0) m 0x7020 1 r (mailed m stocked) ∧ (fun _ => true) r = true) ∧
    configureCheck (mailed m stocked) (leNat m.value) = .ok ∧
    (∃ r, Writes (.mailbox 0) (pairReq 2) 0x7020 1 r (mailed (pairReq 2) (key (paired (pair .configured) stocked))) ∧
      (fun _ => true) r = true) ∧
    (∃ r, Writes (.mailbox 0) (pairReq 3) 0x7020 1 r (mailed (pairReq 3) (paired (pair .ready) stocked)) ∧
      (fun _ => true) r = true) ∧
    (∃ r, Writes (.mailbox 0) (pairReq 4) 0x7020 1 r (mailed (pairReq 4) (paired (pair .ready) stocked)) ∧
      (fun _ => true) r = true) ∧
    (∃ r, Writes (.mailbox 0) (pairReq 5) 0x7020 1 r (mailed (pairReq 5) (paired (pair .error) stocked)) ∧
      (fun _ => true) r = true) ∧
    reqField (leNat (pairReq 2).value) 2 2 = 64 ∧ fieldAt (pairReq 2).value 0 1 = 2 ∧ stocked.peer.heldPkts = [] :=
  ⟨writes_of (by decide +kernel), by decide +kernel, writes_of (by decide +kernel), writes_of (by decide +kernel),
    writes_of (by decide +kernel), writes_of (by decide +kernel), by decide +kernel, by decide +kernel, by decide +kernel⟩

theorem witness_OwnerRequestsAct :
    let m := put 0x9000 2 1
    let e := put 0x9020 1 0
    let w := put 0x9020 1 (7 * 2 ^ 192)
    (∃ r, Writes net m 0x9000 2 r own ∧ (fun _ => true) r = true) ∧
    (∃ r, Writes (.mailbox 0) e 0x9020 1 r (mailed e own) ∧ (fun _ => true) r = true) ∧ (∀ b ∈ e.value, b = 0) ∧
    (∃ r, Writes (.mailbox 0) w 0x9020 1 r (mailed w { own with sec := { own.sec with setSecret := some 1 } }) ∧
      (fun _ => true) r = true) ∧
    (∃ b ∈ w.value, b ≠ 0) ∧ fieldAt w.value 0 8 = od own 0x9000 4 ∧ fieldAt w.value 72 8 = 0 :=
  ⟨writes_of (by decide +kernel), writes_of (by decide +kernel), by decide +kernel, writes_of (by decide +kernel),
    by decide +kernel, by decide +kernel, by decide +kernel⟩

theorem witness_TestAndResetRequestsAct :
    let t := put 0xB000 1 (2 * 2 ^ 48)
    (∃ r, Writes net (put 0xB030 1 1) 0xB030 1 r up ∧ (fun _ => true) r = true) ∧ up.sec.tenancy = .unowned ∧
    (∃ r, Writes net t 0xB000 1 r up ∧ (fun _ => true) r = true) ∧ testFormed (leNat t.value) = true ∧
    testAllowed up (testKind (leNat t.value)) (testUnit (leNat t.value)) = true ∧
    (∃ r, Writes net (put 0xB040 6 1) 0xB040 6 r (withOd [(0xB040, 1, 3)] up) ∧ (fun _ => true) r = true) ∧
    (put 0xB040 6 1).value = [1] ∧ testAllowed up 4 3 = true ∧ od (withOd [(0xB040, 1, 3)] up) 0xB040 1 = 3 ∧
    (∃ r, Writes net (put 0xB040 6 0) 0xB040 6 r { up with power := { up.power with linkTest := some 3 } } ∧
      (fun _ => true) r = true) ∧ (put 0xB040 6 0).value = [0] ∧
    (∃ r, Writes net (put 0xC050 1 1) 0xC050 1 r up ∧ (fun _ => true) r = true) ∧ up.sec.rtp = .run ∧
    (let p := put 0xC050 2 3
     ∃ r, Writes (.mailbox 0) p 0xC050 2 r (mailed p own) ∧ (fun _ => true) r = true) :=
  ⟨writes_of (by decide +kernel), by decide +kernel, writes_of (by decide +kernel), by decide +kernel, by decide +kernel,
    writes_of (by decide +kernel), by decide +kernel, by decide +kernel, by decide +kernel, writes_of (by decide +kernel),
    by decide +kernel, writes_of (by decide +kernel), by decide +kernel, writes_of (by decide +kernel)⟩

/-- The smallest firmware image: its header of R461 with no code, and zeros for the 7,856 bytes behind it. -/
def image : Bytes :=
  natLe 4 0x46324854 ++ natLe 2 1 ++ natLe 2 64 ++ natLe 4 7920 ++ natLe 4 9 ++ List.replicate 7904 0

def lastBlock : DictMsg := putBlock 0xC040 1 7 (image.drop 7168)

theorem image_length : image.length = 7920 := by
  simp only [image, List.length_append, natLe, List.length_cons, List.length_nil, List.length_replicate]

/-- Seven blocks of it have come. -/
def arrived : BlockWrite :=
  { via := requester net, index := 0xC040, sub := 1, next := 7, bytes := image.take 7168, lastAt := 0 }

def nearly (s : State) : State := { s with mgmt := { s.mgmt with blocks := [arrived] } }

theorem last_taken {s : State} (hs : s.mgmt.blocks = [arrived]) :
    takeBlock net 0xC040 1 16777216 lastBlock.block.toNat lastBlock.value s = some (image, true) := by
  have hb : lastBlock.block.toNat = 7 := by decide +kernel
  have hf : s.mgmt.blocks.find? (sameWrite net 0xC040 1) = some arrived := by
    rw [hs]
    exact List.find?_cons_of_pos (by decide +kernel)
  have hn : (arrived.next == 7) = true := rfl
  have hv : lastBlock.value = image.drop 7168 := by simp only [lastBlock, putBlock]
  have ht : arrived.bytes = image.take 7168 := by simp only [arrived]
  have hw : fieldAt image 8 4 = 7920 := by decide +kernel
  have hm : min 16777216 7920 = 7920 := by decide
  simp only [takeBlock, hb, hv, hf, Option.filter_some, hn, if_true, Option.map_some, ht, List.take_append_drop, image_length,
    wholeLength, hw, hm, if_neg (show ¬ (7 : Nat) = 0 by decide)]
  rfl

theorem image_good : imageFields image = true := by
  unfold imageFields
  rw [image_length]
  decide +kernel

theorem witness_ImagesArriveInBlocks :
    let rec_ : State := nearly { up with power := { up.power with dev := .recovery } }
    let m := putBlock 0xC040 1 0 (image.take 1024)
    (Request net m up ∧ writesImage m = true ∧ 1024 < fieldAt m.value 8 4 ∧ updating up = false ∧
      ∃ r, writeCheck .operator up 0xC040 1 = .ok r ∧ decide (1024 < r.size ∧ m.typ.toNat = r.ty.code) = true) ∧
    (Request net lastBlock (nearly up) ∧ lastBlock.block ≠ 0 ∧ 1 ≤ lastBlock.value.length ∧ imageFields image = true ∧
      takeBlock net 0xC040 1 16777216 lastBlock.block.toNat lastBlock.value (nearly up) = some (image, true)) ∧
    (Asks net lastBlock rec_ ∧ (∃ r, writeCheck .operator rec_ 0xC040 1 = .ok r ∧ decide (1024 < r.size) = true) ∧
      takeBlock net 0xC040 1 16777216 lastBlock.block.toNat lastBlock.value rec_ = some (image, true)) :=
  ⟨⟨request_of (by decide +kernel), by decide +kernel, by decide +kernel, by decide +kernel, ok_of (by decide +kernel)⟩,
    ⟨request_of (by decide +kernel), by decide +kernel, by decide +kernel, image_good, last_taken (s := nearly up) rfl⟩,
    asks_of (by decide +kernel), ok_of (by decide +kernel),
    last_taken (s := nearly { up with power := { up.power with dev := .recovery } }) rfl⟩

/-! ## Operators, mailbox, SPDM and tenancy -/

def session (isUp : Bool) : OpSession := { id := 1, up := isUp, helloAt := 0, lastAt := 0, rxCtr := some 4 }

def inSession (isUp : Bool) (now : Nat) : State := { up with now := now, mgmt := { up.mgmt with sessions := [session isUp] } }

theorem witness_OperatorSessionsOpenAndEnd :
    (let s := withOd [(0x9010, 1, 1)] up
     ready s = true ∧ s.sec.identity ≠ none ∧ od s 0x9010 1 ≠ 0 ∧ s.mgmt.sessions.length < 4) ∧
    ((inSession false 5).mgmt.sessions.find? (fun y => y.id == 1 && !y.up) = some (session false) ∧
      (inSession false 5).now ≤ (session false).helloAt + 5000000000 ∧
      certOk (inSession false 5) { magic := 0x5443504F, opKey := 0, serial := 0, scope := 0, sigOk := true } = true) ∧
    (ready (inSession true 5) = true ∧ (inSession true 5).mgmt.sessions.find? (fun y => y.id == 1 && y.up) = some (session true) ∧
      ∀ c, (session true).rxCtr = some c → c < (5 : U64).toNat) ∧
    (∃ x ∈ (inSession false 5000000000).mgmt.sessions, x.id = 1 ∧ x.up = false ∧
      x.helloAt + 5000000000 ≤ (inSession false 5000000000).now) ∧
    (∃ x ∈ (inSession true 600000000000).mgmt.sessions, x.id = 1 ∧ x.up = true ∧
      x.lastAt + od (inSession true 600000000000) 0x1100 3 * 1000000 ≤ (inSession true 600000000000).now) :=
  ⟨by decide +kernel, by decide +kernel, ⟨by decide +kernel, by decide +kernel, fun c h => by cases h; decide⟩, by decide +kernel,
    by decide +kernel⟩

theorem witness_MailboxSlotsTakeRequests :
    cxlServes up = true ∧ (15 : U32).toNat < 16 ∧ (up.mgmt.mbx.getD 15 {}).req = none ∧
    (cxlServes (mailed (ask 1 0x1000 1 []) up) = true ∧ ((mailed (ask 1 0x1000 1 []) up).mgmt.mbx.getD 0 {}).req ≠ none) ∧
    cxlServes State.reset = false := by decide +kernel

theorem witness_SpdmSessionsAttest :
    (ready up = true ∧ up.sec.identity ≠ none ∧ up.sec.sessions.length < 2 ∧ findSpdm up 3 = none) ∧
    (∃ x ∈ [({ id := 3 } : SpdmSession)], x.id = 3 ∧ x.finished = false) ∧ up.sec.tenancy = .unowned ∧ (1 : Byte).toNat ≤ 8 ∧ up.sec.candidate ≠ some 3 ∧
    up.power.nor.chain.length ≤ up.power.nor.chain.length ∧
    (let s : State := { up with now := 10 ^ 15, sec := { up.sec with tenancy := .attesting, candidate := some 3 } }
     s.sec.tenancy = .attesting ∧ s.sec.candidate = some 3 ∧ s.sec.attestSince + od s 0x9000 7 * 1000000 ≤ s.now) := by
  decide +kernel

/-- Session 3 is the owner's. -/
def byOwner : State :=
  { own with sec := { own.sec with sessions := [{ id := 3, finished := true }], ownerDigest := Config.sha256 [] } }

theorem byOwner_isOwner (s : State) (h1 : s.sec.sessions = byOwner.sec.sessions) (h2 : s.sec.ownerDigest = byOwner.sec.ownerDigest) :
    isOwner s 3 = true := by
  simp [isOwner, findSpdm, h1, h2, byOwner]

theorem witness_TheOwnerTakesAndKeepsTheDevice :
    (let s : State := { up with sec := { up.sec with tenancy := .attesting, candidate := some 3, sessions := [{ id := 3 }] } }
     ready s = true ∧ s.sec.tenancy = .attesting ∧ s.sec.candidate = some 3 ∧ findSpdm s 3 = some { id := 3 } ∧
       findSpdm s 3 ≠ none) ∧
    (up.sec.tenancy ≠ .attesting) ∧
    (let s := withOd [(0x9000, 4, 9)] byOwner
     ready s = true ∧ owned s = true ∧ isOwner s 3 = true ∧ (9 : U64).toNat ≠ 0 ∧ (9 : U64).toNat = od s 0x9000 4 ∧
       s.sec.setSecret = none ∧ s.sec.tenSecret = none ∧ (∀ h, h < 16 → (shelfOf s h).keyId = 0)) ∧
    (let s : State := { withOd [(0x9000, 4, 9)] byOwner with sec := { byOwner.sec with setSecret := some 1 } }
     isOwner s 3 = true ∧ (9 : U64).toNat = od s 0x9000 4 ∧ s.sec.setSecret = some 1 ∧ (1 : BitVec 256) ≠ 2) ∧
    isOwner up 3 = false :=
  ⟨by decide +kernel, by decide +kernel,
    ⟨by decide +kernel, by decide +kernel, byOwner_isOwner _ rfl rfl, by decide +kernel, by decide +kernel, by decide +kernel,
      by decide +kernel, by decide +kernel⟩,
    ⟨byOwner_isOwner _ rfl rfl, by decide +kernel, rfl, by decide⟩, by decide +kernel⟩

/-! ## Commands of a queue -/

/-- A descriptor of a partition's queue, by its bytes. -/
def dsc (l : List (Nat × Nat)) : Desc := BitVec.ofNat 512 (reqBytes ((2, 0xFF) :: l))

def q0 : QRef := .part 0 0

/-- The descriptor waits at the front of queue 0 of partition 0, whose completions go to window 0. -/
def queued (d : Desc) (s : State) : State := setQueue q0 { waiting := [d], tail := 1 } (withOd [(0x1300, 5, 0)] s)

def row (r : Nat) : KvRow := { layer := 0, row := r, tok := { a := [], b := [], sa := [], sb := [] } }

def col5 : Col := { slot := 5, gen := 0, part := 0, model := 0, fill := 16, home := { tier := .meadow }, rows := (List.range 16).map row }

def seq1 : Seq := { id := 1, part := 0, model := 0, length := 16, cols := [5] }

/-- Model 0 has one layer of one BF16 head of 32 elements; sequence 1 holds 16 tokens in column 5. -/
def work : State :=
  let s := withOd [(0x3100, 1, 0xAB), (0x3100, 2, 1), (0x3100, 3, 1), (0x3100, 4, 2 ^ 24 + 2 ^ 32 + 32 * 2 ^ 48)] stocked
  { s with kv := { s.kv with seqs := [seq1], lastSeq := 1, cols := [col5], lastSlot := 5 } }

/-- A started command of queue 0. -/
def cmd1 (w : CmdWork) (d : Desc) : Cmd := { id := 1, q := q0, part := 0, desc := d, work := w, since := 0 }

def started (w : CmdWork) (d : Desc) (s : State) : State :=
  { s with queues := { s.queues with cmds := [cmd1 w d], nextCmd := 2 } }

def noJob : Job :=
  { id := 1, kind := .attn, part := 0, seq := 1, layer := 0, step := 0, entry := 0, desc := 0, len := 16, rows := 1, tree := [],
    cols := [5], items := [], missing := [], status := .ok, window := 0, outOff := 0, dueAt := none, held := false, cmd := 0,
    skipped := 0, pages := 1 }

/-- The same with a job that reads sequence 1. -/
def reading (j : Job) (s : State) : State := { s with jobs := { s.jobs with jobs := [j], nextJob := 2 } }

theorem witness_DoorbellsSubmitAndFree :
    (let s := setQueue q0 { waiting := [0] } (withOd [(0x1300, 5, 0)] stocked)
     cxlServes s = true ∧ (queueOf s q0).stopped = false ∧ compWindow s q0 ≠ 0xFFFF ∧ (63 : U32).toNat < ringSize s q0 ∧
       (queueOf s q0).waiting.length + modSub 63 (queueOf s q0).tail (ringSize s q0) ≤ ringSize s q0) ∧
    (let s := setQueue q0 { waiting := [0, 0] } (withOd [(0x1300, 5, 0)] stocked)
     cxlServes s = true ∧ (queueOf s q0).stopped = false ∧ compWindow s q0 ≠ 0xFFFF ∧ ringSize s q0 ≤ (64 : U32).toNat ∧
       ringSize s q0 < (queueOf s q0).waiting.length + modSub 63 (queueOf s q0).tail (ringSize s q0)) := by decide +kernel

theorem witness_FencesAndCountsHold :
    Front 0x61 q0 (dsc [(0, 0x61)]) [] (queued (dsc [(0, 0x61)]) work) ∧
    (let d := dsc [(0, 0x60), (9, 3), (16, 5)]
     Front 0x60 q0 d [] (queued d work) ∧ dfield d 8 1 = 0 ∧ dfield d 10 2 = 0 ∧
       countOf (queued d work) (ownQueue q0) 0 0 (dfield d 9 1) 0 = some 0) ∧
    (let d := dsc [(0, 0x60), (8, 2)]
     Front 0x60 q0 d [] (queued d work) ∧ 1 < dfield d 8 1) ∧
    (let s := started .fence (dsc [(0, 0x61)]) work
     ∃ c ∈ s.queues.cmds, c.q = q0 ∧ c.work = .fence) ∧
    (let d := dsc [(0, 0x02), (8, 1)]
     let s := started .deferred d work
     findCmd s 1 = some (cmd1 .deferred d) ∧ mustWait s d = false ∧ deferredBehind s (cmd1 .deferred d) = false ∧
       mustWait (reading noJob s) d = true) := by
  repeat' refine And.intro ?_ ?_
  all_goals first | exact front_of (by decide +kernel) | decide +kernel

theorem witness_SequencesOpenForkAndClose :
    (let d := dsc [(0, 0x01)]
     let s := queued d work
     Front 0x01 q0 d [] s ∧ dfield d 8 1 < 16 ∧ modelLayers s 0 ≠ 0 ∧ dfield d 12 4 < 256 ∧ policyDefined s 0 (dfield d 12 4) = true ∧
       openCount s 0 < od s 0x4010 1 ∧ s.kv.seqs.length < 16777215 ∧ meadowCheck s 0 (coilUnits s 0) = .ok) ∧
    (let d := dsc [(0, 0x01)]
     let s := queued d (withOd [(0x4010, 1, 1)] work)
     Front 0x01 q0 d [] s ∧ od s 0x4010 1 ≤ openCount s 0) ∧
    (let d := dsc [(0, 0x02), (8, 1)]
     Front 0x02 q0 d [] (queued d work) ∧ findSeq (queued d work) (dSeq d) = some seq1) ∧
    (let d := dsc [(0, 0x03), (8, 1)]
     let s := queued d work
     Front 0x03 q0 d [] s ∧ findSeq s (dSeq d) = some seq1 ∧ seq1.length % 16 = 0 ∧ seqRoom s 0 = .ok () ∧
       meadowCheck s 0 (listUnits 1 + coilUnits s 0) = .ok) ∧
    (let d := dsc [(0, 0x04), (8, 1)]
     let s := queued d work
     Front 0x04 q0 d [] s ∧ findSeq s (dSeq d) = some seq1 ∧ dfield d 12 4 < seq1.length ∧ dfield d 12 4 % 16 = 0 ∧
       servable s seq1 none (dfield d 12 4) = true) := by
  repeat' refine And.intro ?_ ?_
  all_goals first | exact front_of (by decide +kernel) | decide +kernel

theorem witness_AppendsExtendASequence :
    (let d := dsc [(0, 0x10), (8, 1), (12, 16), (16, 1), (19, 1), (24, 0x100000)]
     let s := queued d work
     Front 0x10 q0 d [] s ∧
       ∃ a, appendArgs 0 d (popCmd q0 d [] s) = .ok a ∧ (decide (a.seq.length % 16 = 0) &&
         (a.seq.cols.drop (a.seq.length / 16)).all (fun k => (findCol s k).all (fun c => !c.moving && c.home.tier == .meadow)) &&
         okB (addCols false a.seq.id (ceilDiv (a.seq.length + a.count) 16 - (findSeq s a.seq.id).elim 0 (fun x => x.cols.length))
           (popCmd q0 d [] s)) (fun _ => true) &&
         decide (findSeq s a.seq.id = some seq1 ∧ a.first + a.layers = modelLayers s a.seq.model)) = true) ∧
    (let d := dsc [(0, 0x10), (8, 1), (12, 16), (16, 1), (19, 1), (24, 0x100000)]
     let s := queued d { work with kv := { work.kv with
       seqs := [{ seq1 with cols := [5, 6] }], cols := [col5, { col5 with slot := 6, fill := 0, moving := true }] } }
     Front 0x10 q0 d [] s ∧
       ∃ a, appendArgs 0 d (popCmd q0 d [] s) = .ok a ∧ (decide (a.seq.length % 16 = 0) &&
         (a.seq.cols.drop (a.seq.length / 16)).any (fun k => (findCol s k).any (fun c => c.moving))) = true) ∧
    (let d := dsc [(0, 0x10), (8, 1)]
     let s := queued d { work with kv := { work.kv with seqs := [{ seq1 with failed := true }] } }
     Front 0x10 q0 d [] s ∧ findSeq s (dSeq d) = some { seq1 with failed := true }) := by
  repeat' refine And.intro ?_ ?_
  all_goals first | exact front_of (by decide +kernel) | exact ok_of (by decide +kernel) | decide +kernel

theorem witness_ColumnCommandsAct :
    (let d := dsc [(0, 0x11), (8, 1), (16, 1)]
     Front 0x11 q0 d [] (queued d work) ∧ targetCols 0 d (queued d work) = .ok [col5] ∧ canSeal (queued d work) col5 = true) ∧
    (let d := dsc [(0, 0x13), (8, 1), (16, 1)]
     Front 0x13 q0 d [] (queued d work) ∧ targetCols 0 d (queued d work) = .ok [col5]) ∧
    (let d := dsc [(0, 0x12), (8, 1), (16, 1)]
     let s := queued d work
     Front 0x12 q0 d [] s ∧ targetCols 0 d s = .ok [col5] ∧ col5.poisoned = false ∧ col5.moving = false ∧ dfield d 20 1 ≤ 2 ∧ dfield d 21 1 ≤ 2 ∧
       colRefusal (tierOf 0) 0 true col5 = none ∧ needsPort s (tierOf 0) 0 col5 = none ∧
       ∃ r, moveEach (moveCol (tierOf 0) 0 (.cmd 1)) [col5] (popCmd q0 d [] s) = .ok r ∧ decide (r.1 = []) = true) ∧
    (let d := dsc [(0, 0x12), (8, 1), (16, 1)]
     let c := { col5 with poisoned := true }
     let s := queued d { work with kv := { work.kv with cols := [c] } }
     Front 0x12 q0 d [] s ∧ targetCols 0 d s = .ok [c]) ∧
    (let d := dsc [(0, 0x14), (8, 1), (16, 1)]
     Front 0x14 q0 d [] (queued d work) ∧ targetCols 0 d (queued d work) = .ok [col5]) ∧
    (let d := dsc [(0, 0x15), (8, 1), (16, 1)]
     let s := queued d work
     Front 0x15 q0 d [] s ∧ targetCols 0 d s = .ok [col5] ∧ bitOf (dFlags d) 0 = false ∧ openSeq s 0 (dSeq d) = .ok seq1 ∧
       col5.fill = 16 ∧ (windowGroups s 0).isEmpty = true) := by
  repeat' refine And.intro ?_ ?_
  all_goals first | exact front_of (by decide +kernel) | exact ok_of (by decide +kernel) | decide +kernel

theorem witness_PrefixCommandsMatchPublishAndEvict :
    (let d := dsc [(0, 0x20), (8, 1), (12, 16), (16, 0x100000)]
     let x : Seq := { seq1 with length := 0, cols := [] }
     let s := queued d { work with kv := { work.kv with seqs := [x] } }
     Front 0x20 q0 d [] s ∧ s.pfx.rebuildState ≠ 1 ∧ (walk s 0 (modelTag s 0) 0x100000 1 0 0 0).1 = [] ∧
       (∃ a, lookupArgs 0 d s = .ok a ∧ decide (a.seq = some x ∧ a.runs = 1 ∧ a.model = 0 ∧ a.src = 0x100000 ∧ spanPoisoned s 0 a.src 64 = false) = true) ∧
       meadowCheck s 0 (listUnits 0) = .ok) ∧
    (let d := dsc [(0, 0x21), (8, 1), (16, 1), (24, 0x100000)]
     Front 0x21 q0 d [] (queued d work) ∧ dFlags d = 0 ∧ commitArgs 0 d (queued d work) = .ok seq1 ∧
       0 + 1 ≤ od (queued d work) 0x4030 1) ∧
    (let d := dsc [(0, 0x21), (8, 1)]
     let s := queued d { work with kv := { work.kv with seqs := [{ seq1 with failed := true }] } }
     Front 0x21 q0 d [] s ∧ findSeq s (dSeq d) = some { seq1 with failed := true }) ∧
    (let d := dsc [(0, 0x22), (11, 1)]
     let s := queued d work
     Front 0x22 q0 d [] s ∧ s.pfx.rcTail.length < 2048 ∧
       ∃ t, evictState 0 d (popCmd q0 d [] s) = .ok t ∧ (fun _ => true) t = true) ∧
    (∀ e ∈ [(0x20, dsc [(0, 0x20), (8, 1), (12, 16), (16, 0x100000)]), (0x21, dsc [(0, 0x21), (8, 1), (16, 1), (24, 0x100000)]),
        (0x22, dsc [(0, 0x22), (11, 1)])],
      let s := queued e.2 { work with pfx := { work.pfx with rebuildState := 1 } }
      frontB e.1 q0 e.2 [] s = true ∧ s.pfx.rebuildState = 1) ∧
    (let d := dsc [(0, 0x22), (11, 1)]
     let s := queued d { work with pfx := { work.pfx with rcTail := List.replicate 2048 default } }
     Front 0x22 q0 d [] s ∧ 2048 ≤ s.pfx.rcTail.length) ∧
    State.reset.queues.cmds = [] := by
  repeat' refine And.intro ?_ ?_
  all_goals first | exact front_of (by decide +kernel) | exact ok_of (by decide +kernel) | decide +kernel

theorem free_place (f : Nat) : (placeFor [] f).isNone = false := by
  have h : ∀ b, ∃ n, freeIn [] b = some n := by
    intro b
    cases b with
    | zero => exact ⟨1, by decide⟩
    | succ b =>
      refine ⟨8 * (b + 1), ?_⟩
      have hn : (8 * (b + 1) + 0 != 0) = true := by simp
      simp only [freeIn, List.range_succ_eq_map, List.map_cons, List.map_map, List.any_nil, Bool.not_false, Bool.and_true]
      exact List.find?_cons_of_pos hn
  obtain ⟨n, hn⟩ := h (bucket1 f)
  simp only [placeFor, hn, Option.isNone_some]

theorem commit_first (p tag src i slot : Nat) (a : Commit) (he : a.st.pfx.entries = []) :
    ∃ b, commitCol p tag src i slot a = .ok b ∧ b.outs = a.outs ++ [(0, slot)] ∧ b.crowded = a.crowded := by
  unfold commitCol
  have hs (n : Nat) : (odAdd 0x4020 0x05 64 n a.st).pfx.entries = [] := he
  simp only [entryOf, hs, he, List.find?_nil]
  exact ⟨_, rfl, rfl, by rw [free_place, Bool.or_false]⟩

/-- Column 5 can be published. -/
theorem witness_commitCols :
    let d := dsc [(0, 0x21), (8, 1), (16, 1), (24, 0x100000)]
    ∃ a, commitCols 0 0xAB 0x100000 0 [5]
      { st := popCmd q0 d [] (queued d work), parent := 0, parentFp := 0, outs := [], crowded := false } = .ok a ∧
      a.outs = [(0, 5)] ∧ a.crowded = false := by
  intro d
  obtain ⟨b, hb, ho, hc⟩ := commit_first 0 0xAB 0x100000 0 5
    { st := popCmd q0 d [] (queued d work), parent := 0, parentFp := 0, outs := [], crowded := false } rfl
  exact ⟨b, by simp only [commitCols, hb], ho, hc⟩

theorem witness_ObjectWritesStoreTheirBytes : findObj stocked 1 = some data0 := by decide +kernel

theorem witness_ObjectCommandsAct :
    (let d := dsc [(0, 0x30), (8, 1), (16, 0x10000), (24, 0x200000)]
     let s := queued d work
     Front 0x30 q0 d [] s ∧ policyDefined s 0 (dfield d 12 4) = true ∧ dfield d 8 1 = 1 ∧ dfield d 9 1 = 0 ∧ dfield d 32 4 = 0 ∧
       dfield d 16 8 = 0x10000 ∧ dfield d 24 8 = 0x200000 ∧
       dfield d 12 4 < 256 ∧ s.objs.objs.any (fun o => o.part == 0 && overlaps 0x200000 0x10000 o.off o.size) = false ∧
       meadowCheck s 0 16 = .ok ∧ s.objs.objs.length < 1048576) ∧
    (let d := dsc [(0, 0x31), (8, 1), (24, 0x100000), (32, 64)]
     let s := queued d work
     Front 0x31 q0 d [] s ∧ ∃ a, writeArgs 0 d s = .ok a ∧ decide (a.obj = data0 ∧ a.decrypt = false ∧ a.sealing = false ∧
       extsOf a.obj a.dst a.len = [0] ∧ writeWaits s a.obj.id a.dst a.len = false ∧
       (a.obj.exts.getD 0 default).home.tier ≠ .heath ∧ a.obj.poisoned = false ∧ downPort s a.obj (extsOf a.obj a.dst a.len) true = none) = true) ∧
    (let d := dsc [(0, 0x31), (8, 1), (12, 1)]
     let s := queued d work
     Front 0x31 q0 d [] s ∧ ∃ a, writeArgs 0 d s = .ok a ∧ decide (a.obj = data0 ∧ a.decrypt = false ∧ a.sealing = true ∧ a.obj.poisoned = false ∧
       a.len = 0 ∧ writeWaits s a.obj.id a.dst 0 = false) = true) ∧
    (let d := dsc [(0, 0x31), (8, 1), (24, 0x100000), (32, 64)]
     let s := queued d { work with objs := { work.objs with heldWrites := [{ obj := 1, off := 0, bytes := [] }] } }
     Front 0x31 q0 d [] s ∧ ∃ a, writeArgs 0 d s = .ok a ∧ writeWaits s a.obj.id a.dst a.len = true) ∧
    (let d := dsc [(0, 0x31), (8, 1)]
     let o := { data0 with part := 1 }
     let s := queued d { work with objs := { work.objs with objs := [o] } }
     Front 0x31 q0 d [] s ∧ findObj s (dObj d) = some o ∧ o.part ≠ 0) ∧
    (let d := dsc [(0, 0x32), (8, 1), (24, 64), (32, 1)]
     let s := queued d work
     Front 0x32 q0 d [] s ∧ readArgs 0 d s = .ok (data0, none) ∧ downPort s data0 (extsOf data0 0 64) false = none) ∧
    (let d := dsc [(0, 0x33), (8, 1), (13, 3)]
     let s := queued d work
     Front 0x33 q0 d [] s ∧ moveArgs 0 d s = .ok data0 ∧ dfield d 13 1 = 3 ∧ objInUse (popCmd q0 d [] s) data0 1 = false) ∧
    (let d := dsc [(0, 0x33), (8, 1)]
     let s := queued d work
     Front 0x33 q0 d [] s ∧ moveArgs 0 d s = .ok data0 ∧ dfield d 13 1 < 3 ∧ dfield d 24 8 = 0 ∧
       (data0.exts.getD 0 default).moving = false ∧ extRefused s (tierOf (dfield d 12 1)) (dfield d 13 1) data0
         (data0.exts.getD 0 default) = false ∧ downPort s data0 [0] true = none ∧
       expandsMove s data0 (bitOf (dfield d 14 1) 0) (dfield d 16 8) (dfield d 24 8) = none ∧
       ∃ r, moveEach (moveExt (tierOf 0) 0 (.cmd 1) 1) [0] (popCmd q0 d [] s) = .ok r ∧ (fun _ => true) r = true) ∧
    (let d := dsc [(0, 0x34), (8, 3), (16, 1)]
     Front 0x34 q0 d [] (queued d work) ∧ dfield d 12 1 = 0 ∧ dfield d 8 4 = 3 ∧ dfield d 16 4 = 1 ∧ dfield d 20 1 ≤ 2 ∧
       dfield d 21 1 ≤ 3) ∧
    (let d := dsc [(0, 0x34), (12, 3)]
     Front 0x34 q0 d [] (queued d work) ∧ 2 < dfield d 12 1) := by
  repeat' refine And.intro ?_ ?_
  all_goals first | exact front_of (by decide +kernel) | exact ok_of (by decide +kernel) | decide +kernel

def tail1 : Tail := { step := 3, count := 2, tree := [1, 3], rows := [], failed := false }

/-- Every page that the command's job reads lies behind a port that serves. -/
def pagesServe (k : JobKind) (r : Seq × MGroup) (d : Desc) (s : State) : Bool :=
  let u := popCmd q0 d [] s
  let j := cmdJob k (takenCmd q0 d s) r.1 r.2 u
  ((List.range j.items.length).flatMap (itemPages u j)).all (fun p => (tilePlace u j p).all (fun y => !onDownPort s y.2.1))

theorem pagesServe_all {k : JobKind} {r : Seq × MGroup} {d : Desc} {s : State} {j : Job} (h : pagesServe k r d s = true)
    (hj : j = cmdJob k (takenCmd q0 d s) r.1 r.2 (popCmd q0 d [] s)) :
    ∀ p ∈ (List.range j.items.length).flatMap (itemPages (popCmd q0 d [] s) j), ∀ y,
      tilePlace (popCmd q0 d [] s) j p = some y → onDownPort s y.2.1 = false := by
  subst hj
  intro p hp y hy
  have hx := List.all_eq_true.1 h p hp
  simpa [hy] using hx

theorem witness_AttentionCommandsAct :
    (let d := dsc [(0, 0x40), (8, 1), (12, 1), (24, 0x3F800000), (32, 0x100000)]
     let s := queued d work
     Front 0x40 q0 d [] s ∧ ∃ r, attnCheck 0 d s = .ok r ∧ (decide (r.1 = seq1) && pagesServe .attn r d s) = true) ∧
    (let d := dsc [(0, 0x41), (8, 1), (12, 1), (24, 0x3F800000), (32, 0x100000), (40, 0x101000), (48, 0x102000)]
     let s := queued d work
     Front 0x41 q0 d [] s ∧ ∃ r, bwdCheck 0 d s = .ok r ∧ (decide (r.1 = seq1) && pagesServe .backward r d s) = true) ∧
    (let d := dsc [(0, 0x42), (8, 1), (16, 3)]
     let s := queued d work
     Front 0x42 q0 d [] s ∧ openSeq s 0 (dSeq d) = .ok seq1 ∧ seq1.prov.filter (fun t => t.step == dfield d 16 8) = none) ∧
    (let d := dsc [(0, 0x42), (8, 1), (11, 2), (16, 3), (25, 1), (26, 0xFFFFFFFFFFFFFFFFFFFFFFFFFFFF)]
     let x := { seq1 with prov := some tail1 }
     let s := queued d { work with kv := { work.kv with seqs := [x] } }
     Front 0x42 q0 d [] s ∧ openSeq s 0 (dSeq d) = .ok x ∧ x.prov = some tail1 ∧ tail1.step = dfield d 16 8 ∧
       tail1.failed = false ∧ pathOk tail1 d = true ∧ dfield d 11 1 ≠ 0) ∧
    (let d := dsc [(0, 0x42), (8, 1), (11, 2), (16, 3), (25, 1), (26, 0xFFFFFFFFFFFFFFFFFFFFFFFFFFFF)]
     let x := { seq1 with prov := some tail1 }
     let s := started .confirm d { work with kv := { work.kv with seqs := [x] } }
     findCmd s 1 = some (cmd1 .confirm d) ∧ findSeq s (dSeq d) = some x ∧ x.prov = some tail1 ∧ tail1.step = dfield d 16 8 ∧
       tail1.left = [] ∧ tail1.failed = false ∧ lastMoving s x = false ∧
       ∃ t, compactRows { x with prov := none } tail1 ((List.range (dfield d 11 1)).map (fun i => dfield d (24 + i) 1))
         (dropTail x tail1.step s) = .ok t ∧ (fun _ => true) t = true) ∧
    (let d := dsc [(0, 0x42), (8, 1), (11, 2), (16, 3)]
     let p := { tail1 with left := [1] }
     let x := { seq1 with prov := some p }
     let s := started .confirm d { work with kv := { work.kv with seqs := [x] } }
     findCmd s 1 = some (cmd1 .confirm d) ∧ findSeq s (dSeq d) = some x ∧ p.step = dfield d 16 8 ∧ p.left ≠ []) := by
  repeat' refine And.intro ?_ ?_
  all_goals first | exact front_of (by decide +kernel) | exact ok_of (by decide +kernel) | decide +kernel

theorem witness_CodingCommandsAct :
    (let d := dsc [(0, 0x51), (8, 15)]
     Front 0x51 q0 d [] (queued d work) ∧ dfield d 12 4 = 0 ∧ dfield d 8 1 < 16 ∧ dfield d 16 8 = 0 ∧ slotInFlight (popCmd q0 d [] (queued d work)) 15 = 0) ∧
    (let d := dsc [(0, 0x51), (8, 15), (12, 1), (16, 64)]
     Front 0x51 q0 d [] (queued d work) ∧ ownObj (queued d work) 0 (dfield d 12 4) = .ok data0 ∧ dfield d 16 8 % 64 = 0 ∧
       dfield d 12 4 ≠ 0 ∧ data0.poisoned = false ∧ dfield d 8 1 < 16 ∧ dfield d 16 8 + 256 ≤ data0.size ∧
       slotInFlight (popCmd q0 d [] (queued d work)) 15 = 0) ∧
    (let c := dsc [(0, 0x52), (32, 1), (34, 15)]
     let d := dsc [(0, 0x51), (8, 15)]
     let s := queued d (started (.coding { total := 1, busy := [], done := [], gen := 0 }) c work)
     Front 0x51 q0 d [] s ∧ slotInFlight (popCmd q0 d [] s) 15 ≠ 0) ∧
    (let d := dsc [(0, 0x50), (8, 1), (24, 64), (32, 1), (48, 1), (56, 0x1000)]
     let s := queued d work
     Front 0x50 q0 d [] s ∧ ∃ a, buildArgs 0 d s = .ok a ∧ decide (a.dst = data0 ∧
       a.dst.exts.any (fun e => e.home.tier == .heath) = false ∧ a.dst.exts.any (fun e => e.moving) = false ∧ codePort s a = none) = true) ∧
    (let d := dsc [(0, 0x52), (8, 1), (12, 1), (24, 64), (48, 1), (56, 0x1000)]
     let s := queued d work
     Front 0x52 q0 d [] s ∧ ∃ a, compressArgs 0 d s = .ok a ∧ decide (a.dst = data0 ∧
       a.dst.exts.any (fun e => e.home.tier == .heath) = false ∧ a.dst.exts.any (fun e => e.moving) = false ∧ codePort s a = none) = true) ∧
    (let k : Coding := { total := 1, busy := [(7, 0)], done := [], gen := 0 }
     let s := started (.coding k) 0 work
     findCmd s 1 = some (cmd1 (.coding k) 0) ∧ k.busy.find? (fun x => x.1 == 7) = some (7, 0) ∧ k.done.length + 1 = k.total ∧
       ({ k with total := 2 } : Coding).done.length + 1 ≠ ({ k with total := 2 } : Coding).total) := by
  repeat' refine And.intro ?_ ?_
  all_goals first | exact front_of (by decide +kernel) | exact ok_of (by decide +kernel) | decide +kernel

/-- Partition 0's object, homed in meadow. -/
def inMeadow : Obj := { data0 with exts := [{ home := { tier := .meadow } }] }

/-- Its granule at byte `off` holds what was stored there under the present keys once. -/
def replayed (g : Nat × Granule) : State :=
  { work with objs := { work.objs with objs := [inMeadow], altered := [g] } }

theorem open_seal (k : BitVec 768) (a : Nat) (bs : Bytes) : ∃ x, openGranule k a (sealGranule k a bs) = some x := by
  simp [openGranule, sealGranule]

theorem open_other (k : BitVec 768) (a : Nat) (c : Bytes) : openGranule k a { cipher := c, tag := [] } = none := by
  simp [openGranule, granuleTag, natLe]

theorem witness_CxlLinesReadAndWrite :
    (cxlServes work = true ∧ owned work = true ∧ objAt work 0 (64 * 0x8000) 64 = none ∧ inRing work 0 (64 * 0x8000) = false) ∧
    (objAt work 0 (64 * 0x4000) 64 = some data0 ∧ data0.poisoned = false ∧ (data0.exts.getD 0 default).image = none ∧
      (data0.exts.getD 0 default).home.tier = .pasture) ∧
    (let o := { data0 with poisoned := true }
     objAt { work with objs := { work.objs with objs := [o] } } 0 (64 * 0x4000) 64 = some o) ∧
    (let s := withOd [(0x1300, 5, 0)] work
     cxlServes s = true ∧ owned s = true ∧ objAt s 0 (64 * 63) 64 = none ∧ inRing s 0 (64 * 63) = true) ∧
    (let s : State := { work with objs := { work.objs with objs := [inMeadow] } }
     cxlServes s = true ∧ owned s = true ∧ objAt s 0 (64 * 0x4000) 64 = some inMeadow ∧ inMeadow.immutable = false ∧
       (slotsOf s).any (fun x => x.obj == inMeadow.id) = false ∧ inMeadow.poisoned = false) ∧
    (let o := { data0 with immutable := true }
     objAt { work with objs := { work.objs with objs := [o] } } 0 (64 * 0x4000) 64 = some o) ∧
    (cxlServes up = true ∧ owned up = false) ∧ cxlServes State.reset = false := by decide +kernel

theorem witness_alteredGranules (g : Granule) :
    let a := granuleAt { tier := .meadow } (64 * 0x4000 - data0.off)
    cxlServes (replayed (a, g)) = true ∧ owned (replayed (a, g)) = true ∧
    objAt (replayed (a, g)) 0 (64 * 0x4000) 64 = some inMeadow ∧
    (replayed (a, g)).objs.altered.find? (fun y => y.1 == a) = some (a, g) := by
  have h : cxlServes (replayed (0, default)) = true ∧ owned (replayed (0, default)) = true ∧
      objAt (replayed (0, default)) 0 (64 * 0x4000) 64 = some inMeadow := by decide +kernel
  exact ⟨h.1, h.2.1, h.2.2, List.find?_cons_of_pos (by simp)⟩

/-! ## The host's messages and the wheel -/

def msg (typ part : Nat) (args : Nat) (payload : Bytes) : TppMsg :=
  { typ := BitVec.ofNat 8 typ, partition := BitVec.ofNat 8 part, length := BitVec.ofNat 16 payload.length, msgSeq := 0
    args := BitVec.ofNat 128 args, payload := payload }

/-- A plan of one layer for partition 0, which may have a sheet of no entries at step 0. -/
def plan0 : Plan :=
  { (default : Plan) with
    planId := 9, layers := 1, slices := [1], depth := 1, dueStep := 0, lead := 2
    parts := [{ maxSeq := 1, maxSplit := 0, maxPages := 1, maxCand := 0, subBytes := 128, cores := 0 }] }

def planned : State :=
  { work with
    wheel := { work.wheel with active := some { obj := 1, plan := plan0, digest := 0, half := false }, fresh := false }
    power := { work.power with coreMap := List.range 96 } }

def sheet0 : Bytes :=
  natLe 4 0x54454853 ++ [1, 0] ++ natLe 2 64 ++ natLe 5 1 ++ natLe 3 0 ++ natLe 4 0 ++ natLe 4 9 ++ natLe 8 0 ++ natLe 4 64 ++
  natLe 4 64 ++ natLe 24 0

theorem witness_MessagesActInTheirOrder :
    (let m := msg 0x01 0xFF 5 []
     tppServes planned = true ∧ planned.host.held0 = [] ∧ m.msgSeq = planned.host.rx0 ∧ headerFine m 0x01 = true ∧
       m.partition = 0xFF ∧ m.length = 0 ∧ argsZeroBut m [(16, 2)] = true ∧ owned planned = true ∧ planned.wheel.held = [] ∧
       owned up = false) ∧
    (let m := { msg 0x01 0xFF 5 [] with msgSeq := 1 }
     m.msgSeq ≠ planned.host.rx0 ∧ (m.msgSeq - planned.host.rx0).toNat < 32768) ∧
    (let m := { msg 0x01 0xFF 5 [] with msgSeq := 0xFFFF }
     32768 ≤ (m.msgSeq - planned.host.rx0).toNat) ∧
    (let m := msg 0x02 0 64 sheet0
     planned.host.held1 = [] ∧ m.msgSeq = planned.host.rx1 ∧ headerFine m 0x02 = true ∧ m.partition.toNat < 32 ∧ m.wpos = 0 ∧
       argsZeroBut m [(16, 8)] = true ∧ bitOf m.flags.toNat 0 = true ∧ argField m 20 4 = 0 ∧
       argField m 16 4 = m.payload.length ∧ m.payload.length ≤ 2 ^ 20) ∧
    sheetForm 0 sheet0 = none ∧ sheetFault (readSheet 0 sheet0) planned = none ∧
    sheetFault (readSheet 0 sheet0) work = some (0x10, 0xFFFF) ∧
    (let m := msg 0x03 0 (1 + 64 * 2 ^ 32) (natLe 64 7)
     headerFine m 0x03 = true ∧ m.partition.toNat < 32 ∧ argsZeroBut m [(16, 8)] = true ∧
       subPlan m planned = some { obj := 1, plan := plan0, digest := 0, half := false } ∧ argField m 16 4 < 2 * plan0.layers ∧
       argField m 20 4 + m.payload.length ≤ (plan0.parts.getD m.partition.toNat default).subBytes ∧
       bufferBusy false m planned = false) ∧
    (let m := msg 0x04 0xFF (255 + 3 * 2 ^ 16 + 64 * 2 ^ 32) []
     headerFine m 0x04 = true ∧ m.length = 0 ∧ m.wpos = 0 ∧ argsZeroBut m [(16, 3), (20, 4)] = true ∧ argField m 16 2 < 256 ∧
       argField m 18 1 = 3 ∧ argField m 20 4 % 64 = 0 ∧ windowBusy (argField m 16 2) planned = false) ∧
    ((msg 0x03 0 0 []).typ.toNat = 3 ∧ (msg 0x04 0 0 []).typ.toNat = 4 ∧ owned up = false) ∧
    tppServes State.reset = false := by decide +kernel

theorem witness_BeatsAreJudgedAndFollowed :
    let w : WPos := Pos.mk 1 0 0
    let s : State := { planned with now := 100000, wheel := { planned.wheel with stepStart := some 0 } }
    let early : State := { s with now := 99999 }
    (Pos.ok w = true ∧ Pos.layer w ≤ lastAt s (Pos.step w) ∧ s.wheel.fresh = false ∧ s.wheel.cur.toNat < w.toNat ∧
      tooEarly s w = false ∧ tooEarly early w = true) ∧
    (let f : State := { s with wheel := { s.wheel with fresh := true } }
     f.wheel.fresh = true ∧ f.wheel.floor.toNat ≤ w.toNat ∧ tooEarly f w = false ∧ Pos.layer w ≤ lastAt f (Pos.step w)) ∧
    (Pos.ok s.wheel.cur = true ∧ Pos.layer s.wheel.cur ≤ lastAt s (Pos.step s.wheel.cur)) ∧
    (let t : State := { s with wheel := { s.wheel with cur := w } }
     Pos.ok 0 = true ∧ Pos.layer 0 ≤ lastAt t (Pos.step 0) ∧ t.wheel.fresh = false ∧ (0 : WPos).toNat < t.wheel.cur.toNat) ∧
    (let b : HeldBeat := { wpos := w, c1 := 0 }
     let t : State := { s with wheel := { s.wheel with held := [b] } }
     streamModules t ≠ [] ∧ t.wheel.held = [b] ∧ tooEarly { t with wheel := { t.wheel with held := [] } } b.wpos = false ∧
       tooEarly { t with now := 99999, wheel := { t.wheel with held := [] } } b.wpos = true) ∧
    planned.wheel.lastBeat + od planned 0x7100 0x04 * 1000 ≤ ({ planned with now := 1000000000 } : State).now ∧
    planned.now < planned.wheel.lastBeat + od planned 0x7100 0x04 * 1000 ∧
    streamModules { planned with host := { planned.host with modules := 0 } } = [] ∧
    Pos.mk 1 0 0 = Pos.succ (lastAt planned (Pos.step (Pos.mk 0 0 3))) (Pos.mk 0 0 3) := by decide +kernel

theorem witness_CreditsSyncsAndModules :
    (let m := msg 0x09 0xFF 0 []
     tppServes work = true ∧ work.jobs.leaving = [] ∧ headerFine m 0x09 = true ∧ m.length = 0 ∧
       ∃ t, exec (.credit m) work = .next t) ∧
    (let m := msg 0x0A 0xFF 0 []
     headerFine m 0x0A = true ∧ m.length = 0 ∧ m.args = 0 ∧ work.wheel.blocked = []) ∧
    (work.host.modules.getLsbD 47 = true ∧ moduleServes work 47 = true) ∧
    (let s : State := { work with host := { work.host with modules := 1 } }
     s.host.modules.getLsbD 47 = false ∧ s.power.failedModules.contains 47 = false ∧ s.power.test = none) ∧
    ((work.host.sidebands &&& ~~~(1#48 <<< 0)) ≠ 0 ∧
      (List.range 48).find? (fun k => (work.host.sidebands &&& ~~~(1#48 <<< 0)).getLsbD k) = some 1) := by
  repeat' refine And.intro ?_ ?_
  all_goals first | exact ⟨_, rfl⟩ | decide +kernel

def item0 (st : ItemState) : Item := { headGroup := 0, core := 0, state := st, cycles := 0, wasted := 0 }

/-- The first item's work has been looked at: what the job sees, and how its weights expand. -/
def expandsB (s : State) (j : Job) (p : Bool) : Bool :=
  (jobView s j).any (fun a => (itemExpand j (item0 .running) a.g s).2.isOk == p)

theorem expands_of {s : State} {j : Job} {p : Bool} (h : expandsB s j p = true) :
    ∃ a t f, jobView s j = some a ∧ itemExpand j (item0 .running) a.g s = (t, f) ∧ f.isOk = p := by
  simp only [expandsB, Option.any_eq_true, beq_iff_eq] at h
  obtain ⟨a, ha, hp⟩ := h
  exact ⟨a, _, _, ha, rfl, hp⟩

theorem witness_JobsRunToTheirEnd :
    (let j := { noJob with missing := [(0, 0)], fetching := [(0, 0)] }
     findJob (reading j work) 1 = some j ∧ j.fetching.contains (0, 0) = true ∧ (0 : Nat) ≠ weightTile) ∧
    (let j := { noJob with items := [item0 .running] }
     let s := reading j work
     findJob s 1 = some j ∧ j.items[0]? = some (item0 .running) ∧ j.missing.any (fun m => m.1 == 0) = false ∧
       j.status.isError = false ∧ jobPoisoned s j = false ∧
       ∃ a t f, jobView s j = some a ∧ itemExpand j (item0 .running) a.g s = (t, f) ∧ f.isOk = true) ∧
    (let j := { noJob with items := [item0 .running] }
     let s := reading j (withOd [(0x3100, 4, 2 * 2 ^ 16 + 2 ^ 24 + 2 ^ 32 + 32 * 2 ^ 48)] work)
     findJob s 1 = some j ∧ jobPoisoned s j = false ∧
       ∃ a t f, jobView s j = some a ∧ itemExpand j (item0 .running) a.g s = (t, f) ∧ f.isOk = false) ∧
    (let c := { col5 with image := some { tier := .meadow } }
     tilePlace { work with kv := { work.kv with cols := [c] } } noJob 0 = some (c, { tier := .meadow }, true)) ∧
    tilePlace work noJob 0 = some (col5, { tier := .meadow }, false) ∧ tilePlace work { noJob with cols := [] } 0 = none ∧
    (let j := { noJob with items := [item0 .running], status := .media }
     findJob (reading j work) 1 = some j ∧ j.status.isError = true ∧ isSherdStatus j.status = false ∧
       jobPoisoned (reading j work) j = false) ∧
    (let j := { noJob with items := [item0 .done] }
     let s := reading j { work with kv := { work.kv with cols := [{ col5 with poisoned := true }] } }
     findJob s 1 = some j ∧ jobPoisoned s j = true) ∧
    (let j := { noJob with items := [item0 .done] }
     let s := reading j work
     findJob s 1 = some j ∧ (item0 .done).state ≠ .running ∧ j.items.all (fun i => i.state == .done) = true ∧
       jobPoisoned s j = false ∧ ∃ a, jobInput s j = .ok a ∧ (fun _ => true) a = true) ∧
    findJob work 1 = none := by
  repeat' refine And.intro ?_ ?_
  all_goals first | exact ok_of (by decide +kernel) | exact expands_of (by decide +kernel) | decide +kernel

def move0 (image : Bool) : Move :=
  { id := 1, item := .col 5, part := 0, units := 1, dest := { tier := .pasture }, image := image, cause := .sweep, since := 0 }

def copying (image : Bool) : State := { work with objs := { work.objs with moves := [move0 image] } }

def armed : State :=
  { work with power := { work.power with kiln := { work.power.kiln with vinMv := 11400, mramOk := true } } }

def rec0 : LogRec := { fp := 0, tag := 0, tokens := [], recNo := 1, target := 0, part := 0, withdrawal := true, units := 0, addr := 0 }

/-- A column's data in the save ring, with how much of it has not entered. -/
def entering (col units left : Nat) : RingEntry :=
  { item := .data col { tier := .heath } units, bytes := 4096 * (units - left), left := left }

/-- The kiln is armed, and column 5, which is published, is asked for. -/
def asking : State :=
  { armed with
    kv := { armed.kv with cols := [{ col5 with dur := .queued }] }
    pfx := { armed.pfx with entries := [{ (default : PEntry) with no := 1, column := 5 }] } }

/-- The same, and four bales of the first 16 MiB of shelf 0 wait for a place. -/
def filled : State :=
  setShelf 0 { shelfOf asking 0 with unplaced := [0, 64, 128, 192].map (fun u => { unit := u, bale := true, victim := none }) }
    asking

theorem witness_CopiesCommitAndEnterTheRing :
    (let s := copying false
     s.objs.moves.find? (fun x => x.id == 1) = some (move0 false) ∧ (move0 false).dest.tier ≠ .heath ∧
       sourcePoisoned s (move0 false) = false ∧
       findCol s 5 = some col5 ∧ col5.home.tier ≠ .heath ∧ col5.image = none) ∧
    (let s := setShelf 0 { shelfOf work 0 with fines := [{ key := 0, state := 4, cls := false }] }
       { copying false with kv := { work.kv with cols := [{ col5 with home := { tier := .heath, addr := 0 } }] } }
     s.objs.moves.find? (fun x => x.id == 1) = some (move0 false) ∧ sourcePoisoned s (move0 false) = true) ∧
    (∀ o, (move0 false).item ≠ .plain o) ∧
    (findCol (copying true) 5 = some col5 ∧ (move0 true).image = true) ∧
    (work.objs.moves.find? (fun x => x.id == 1) = none) ∧
    (let s : State := { armed with pfx := { armed.pfx with rcTail := [rec0] } }
     ringOpen s = true ∧ (tendRing s).pfx.rcTail = [rec0] ∧ ringUsed (tendRing s) + 128 ≤ ringCap) ∧
    (let s : State := { filled with pfx := { filled.pfx with rcTail := [rec0], ring := [entering 9 1024 0] } }
     ringOpen s = true ∧ (tendRing s).pfx.rcTail = [rec0] ∧ ringCap < ringUsed (tendRing s) + 128) ∧
    (let s : State := { asking with pfx := { asking.pfx with ring := [entering 5 1 0] } }
     ringOpen s = true ∧ (tendRing s).pfx.rcTail = [] ∧ (inCopy (tendRing s)).any (fun x => x.2.1.left == 0) = true ∧
       ringUsed (tendRing s) + 128 ≤ ringCap) ∧
    (let s : State := { filled with pfx := { filled.pfx with ring := [entering 9 1024 0, entering 5 1 1] } }
     ringOpen s = true ∧ (tendRing s).pfx.rcTail = [] ∧ (inCopy (tendRing s)).any (fun x => x.2.1.left != 0) = true) ∧
    (let c := { col5 with home := { tier := .heath }, dur := .queued }
     let s : State := { asking with kv := { asking.kv with cols := [c] }, pfx := { asking.pfx with durQueue := [5] } }
     ringOpen s = true ∧ (tendRing s).pfx.rcTail = [] ∧ (inCopy (tendRing s)).isNone = true ∧ (tendRing s).pfx.durQueue = [5] ∧
       findCol (tendRing s) 5 = some c ∧
       ringUsed (tendRing s) + 32 * (clsChanges c.home (columnUnits (tendRing s) c.model)).length + 128 ≤ ringCap) ∧
    (publishRec asking col5 {tier := .heath}).isSome = true ∧ work.objs.heldWrites = [] ∧ work.objs.bring = [] ∧ ringOpen work = false := by
  repeat' refine And.intro ?_ ?_
  all_goals first | decide +kernel | exact fun o h => nomatch h

/-! ## Peers -/

/-- A work request. -/
def wr0 (op : Nat) : Desc := BitVec.ofNat 512 (reqBytes [(0, op), (8, 0x100000), (16, 0x100000), (24, 8192)])

theorem witness_PairDoorbellsSubmitAndFree :
    (let q := { pair .ready with waiting := [0] }
     let s := paired q stocked
     cxlServes s = true ∧ owned s = true ∧ bitsOf (0x40000F#32).toNat 15 14 = 0 ∧ doorbellPair s 0 (0x40000F#32).toNat = some q ∧
       bitsOf (0x40000F#32).toNat 11 0 < q.ring ∧
       q.waiting.length + modSub (bitsOf (0x40000F#32).toNat 11 0) q.tail q.ring ≤ q.ring) ∧
    (let q := { pair .ready with waiting := [0, 0] }
     doorbellPair (paired q stocked) 0 (0x40000F#32).toNat = some q ∧ q.state ≠ .error ∧
       q.ring - q.waiting.length < modSub (bitsOf (0x40000F#32).toNat 11 0) q.tail q.ring) ∧
    (let s := paired (pair .ready) stocked
     (doorbellPair s 0 (0x400010#32).toNat = some (pair .ready) ∧ (pair .ready).ring ≤ bitsOf (0x400010#32).toNat 11 0) ∧
     (bitsOf (0x404001#32).toNat 15 14 = 1 ∧ doorbellPair s 0 (0x404001#32).toNat = some (pair .ready)) ∧
     (bitsOf (0x3F0001#32).toNat 15 14 = 0 ∧ doorbellPair s 0 (0x3F0001#32).toNat = none) ∧
     (bitsOf (0x404001#32).toNat 15 14 = 1 ∧ doorbellPair s 1 (0x404001#32).toNat = none)) ∧
    (cxlServes up = true ∧ owned up = false) ∧
    cxlServes State.reset = false := by decide +kernel

def waitingPair (d : Desc) (st : QpState) : Qp := { pair st with waiting := [d] }

theorem witness_WorkRequestsStart :
    (∀ op, op = 0x70 ∨ op = 0x71 ∨ op = 0x72 →
      let q := waitingPair (wr0 op) .ready
      let s := paired q stocked
      findQp s 64 = some q ∧ wrOp (wr0 op) = op ∧ wrMayStart q (wr0 op) = true ∧ wrCheck s q (wr0 op) = .ok) ∧
    (let d : Desc := BitVec.ofNat 512 (reqBytes [(0, 0x60), (16, 1)])
     let q := waitingPair d .ready
     wrOp d = 0x60 ∧ wrMayStart q d = true ∧ wrCheck (paired q stocked) q d = .ok) ∧
    (let d : Desc := BitVec.ofNat 512 (reqBytes [(0, 0x70)])
     let q := waitingPair d .ready
     wrMayStart q d = true ∧ wrCheck (paired q stocked) q d = .badDescriptor) ∧
    (let q := waitingPair (wr0 0x70) .error
     findQp (paired q stocked) 64 = some q ∧ q.waiting = [wr0 0x70] ∧ wrMayStart q (wr0 0x70) = false) := by
  refine ⟨?_, by decide +kernel, by decide +kernel, by decide +kernel⟩
  intro op h
  rcases h with rfl | rfl | rfl <;> decide +kernel

/-- Node 3, with pair 64 on die and one object of 1 MiB in meadow at 1 MiB, port 0 up. -/
def node (q : Qp) : State :=
  let s := withOd [(0x7000, 1, 3), (0x7001, 1, 77)] (paired q stocked)
  { s with
    peer := { s.peer with onDie := [64] }
    objs := { s.objs with objs := [{ data0 with exts := [{ home := { tier := .meadow } }] }] }
    links := { s.links with ports := s.links.ports.set 0 { state := 2 } } }

def pkt (ptype : Nat) (body : Bytes) : Pkt :=
  { ptype := BitVec.ofNat 8 ptype, hops := 1, dstNode := 3, srcNode := 5, dstQp := 64, srcQp := 64, psn := 0, body := body }

def placing : Bytes := natLe 8 77 ++ natLe 8 0x100000 ++ natLe 8 64 ++ natLe 64 7

def reachIn (s : State) (q : Qp) (k : Pkt) : Bool :=
  portUp s 0 && decide (ownNode s ≠ 0xFFFF) && decide (k.dstNode.toNat = ownNode s) && s.peer.onDie.contains k.dstQp.toNat &&
  decide (atPort 0 k = k) && (!inOrder k || !s.peer.heldPkts.any (fun x => x.dstQp == k.dstQp)) &&
  decide (s.peer.parked.filter (fun x => x.2.dstQp.toNat == k.dstQp.toNat) = []) && decide (findQp s k.dstQp.toNat = some q)

theorem reach_of {s : State} {q : Qp} {k : Pkt} (h : reachIn s q k = true) : Reaches 0 k q s := by
  simp only [reachIn, Bool.and_eq_true, Bool.or_eq_true, Bool.not_eq_true', decide_eq_true_eq] at h
  obtain ⟨⟨⟨⟨⟨⟨⟨h1, h2⟩, h3⟩, h4⟩, h5⟩, h6⟩, h7⟩, h8⟩ := h
  exact ⟨h1, h2, h3, h4, h5, h7, fun ht => h6.elim (fun hf => by simp [ht] at hf) id, h8⟩

/-- The packet reaches the pair, is authentic and of an epoch that the pair takes. -/
def acceptIn (s : State) (q : Qp) (k : Pkt) : Bool := reachIn s q k && k.authentic && epochFits q k

theorem accept_of {s : State} {q : Qp} {k : Pkt} (h : acceptIn s q k = true) : Accepts 0 k q s := by
  simp only [acceptIn, Bool.and_eq_true] at h
  exact { reach_of h.1.1 with tag := h.1.2, epoch := h.2 }

def reach (q : Qp) (k : Pkt) : Bool := reachIn (node q) q k

def accept (q : Qp) (k : Pkt) : Bool := acceptIn (node q) q k

/-- What a request packet finds: the pair on die, with the packet's epoch followed. -/
def found (q : Qp) (k : Pkt) (s : State) : State := setQp (epochKept k q) (bringOn k.dstQp.toNat s)

/-- The control pair of port 0, and a lease request as it arrives there. -/
def control : Qp := { pair .ready with num := 0 }

def leasing : Pkt :=
  { pkt 2 (natLe 24 0 ++ leaseBytes 1 { bytes := BitVec.ofNat 64 gib, lender := 0, borrower := 0 }) with flags := 3, dstQp := 0 }

theorem witness_RequestPacketsAreAnswered :
    let q := pair .ready
    (∀ t ∈ [1, 2, 3], let k := pkt t placing
      accept q k = true ∧ linked q = true ∧ 64 ≤ q.num ∧ k.psn.toNat = q.expPsn ∧
      reqCheck (found q k (node q)) q k = .ok ∧
      spanWaits (found q k (node q)) q.part (bodyOff k) (reqLen k) = false ∧
      reqCheck (found q { k with body := [] } (node q)) q { k with body := [] } ≠ .ok ∧
      accept q { k with body := [] } = true) ∧
    (let s := { node control with peer := { (node control).peer with onDie := [0] } }
     acceptIn s control leasing = true ∧ linked control = true ∧ isLease control leasing = true ∧ leasing.psn.toNat = control.expPsn) ∧
    (∀ t ∈ [1, 2], let k := pkt t placing
      let s := { node q with objs := { (node q).objs with heldWrites := [{ obj := 1, off := 0, bytes := [] }] } }
      acceptIn s q k = true ∧ reqCheck (found q k s) q k = .ok ∧ spanWaits (found q k s) q.part (bodyOff k) (reqLen k) = true) ∧
    (∀ t ∈ [1, 2], let k := pkt t placing
      let q := { q with expPsn := 1 }
      accept q k = true ∧ 0 < modSub q.expPsn k.psn.toNat (2 ^ 24) ∧ modSub q.expPsn k.psn.toNat (2 ^ 24) ≤ 2 ^ 23) ∧
    (∀ t ∈ [1, 2, 3], let k := { pkt t placing with psn := 1 }
      accept q k = true ∧ 2 ^ 23 < modSub q.expPsn k.psn.toNat (2 ^ 24)) ∧
    (∀ t ∈ [1, 2, 3], let k := { pkt t placing with authentic := false }
      reach q k = true ∧ reach { q with state := .error } k = true ∧ k.authentic = false) ∧
    (∀ t ∈ [1, 2, 3], let q := pair .configured
      reach q (pkt t placing) = true ∧ linked q = false ∧ q.state ≠ .error) ∧
    (let k := pkt 1 placing
     spanObjs (node q) q.part (bodyOff k) (k.body.drop 24).length = (node q).objs.objs ∧ (node q).objs.objs.length = 1 ∧
       (node q).objs.objs.all (fun o => o.off ≤ bodyOff k && bodyOff k + 64 ≤ o.off + o.size) = true) ∧
    bitOf ({ pkt 2 placing with flags := 2 } : Pkt).flags.toNat 1 = true := by decide +kernel

/-- A READ of 8,192 bytes whose first response has come. -/
def reads : Wr := { desc := wr0 0x72, psn := 9, pkts := 1, out := 1, got := [] }

/-- A CONNECT or CONNECT_ACK of set 0. -/
def connects (t : Nat) : Pkt := pkt t (List.replicate 32 0)

/-- The same node with a set secret. -/
def member (q : Qp) : State := { node q with sec := { (node q).sec with setSecret := some 1 } }

theorem witness_AnswerPacketsAct :
    let q := pair .ready
    (∀ t ∈ [4, 5, 6, 9], reach q { pkt t [] with authentic := false } = true) ∧
    (∀ t ∈ [5, 6, 9], accept q (pkt t [0, 0, 0, 1]) = true) ∧ linked q = true ∧ fieldAt (pkt 6 [0, 0, 0, 1]).body 3 1 = 1 ∧
    (let q := { pair .ready with started := [reads, { desc := wr0 0x72, psn := 10 }], unacked := [pkt 3 []] }
     let k := { pkt 4 (natLe 4 1 ++ natLe 4 0 ++ List.replicate 64 0) with psn := 9 }
     accept q k = true ∧
       q.started.find? (fun x => !x.done && wrOp x.desc == 0x72 && x.out == 1 && x.psn == k.psn.toNat) = some reads ∧
       reads.got.contains (fieldAt k.body 0 4) = false ∧ fieldAt k.body 0 4 < readPkts reads.desc ∧
       reads.got.length + 1 ≠ readPkts reads.desc ∧ q.unacked ≠ [] ∧
       spanWaits (found q k (node q)) q.part (wrLocal reads.desc + 4096 * 1) 64 = false) ∧
    (let w := { reads with got := [0] }
     let q := { pair .ready with started := [w], unacked := [{ pkt 3 [] with psn := 9 }] }
     let k := { pkt 4 (natLe 4 1 ++ natLe 4 0 ++ List.replicate 64 0) with psn := 9 }
     accept q k = true ∧
       q.started.find? (fun x => !x.done && wrOp x.desc == 0x72 && x.out == 1 && x.psn == k.psn.toNat) = some w ∧
       w.got.contains (fieldAt k.body 0 4) = false ∧ fieldAt k.body 0 4 < readPkts w.desc ∧ w.got.length + 1 = readPkts w.desc ∧
       spanWaits (found q k (node q)) q.part (wrLocal w.desc + 4096 * 1) 64 = false) ∧
    (let q := { pair .ready with unacked := [pkt 1 []] }
     reach q (pkt 10 []) = true ∧ q.unacked ≠ []) ∧
    (∀ st ∈ [QpState.configured, .connecting], let q := pair st
     let k := { connects 7 with srcNode := 3 }
     reachIn (member q) q (connects 7) = true ∧ connectFits (member q) (connects 7) = true ∧ fromRemote q (connects 7) = true ∧
       connectTag (member q) (connects 7) = true ∧ ownNode (member q) < (connects 7).srcNode.toNat ∧
       (let q := { q with remoteNode := 3 }
        reachIn (member q) q k = true ∧ connectFits (member q) k = true ∧ fromRemote q k = true ∧
          k.srcNode.toNat ≤ ownNode (member q) ∧
          (findQp (sendConnect q.num ptConnectAck (setQp { q with remoteQp := k.srcQp.toNat } (bringOn 64 (member q)))) q.num).isSome
            = true)) ∧
    (let q := pair .connecting
     reachIn (member q) q (connects 8) = true ∧ connectFits (member q) (connects 8) = true ∧ fromRemote q (connects 8) = true ∧
       fromRemote { q with remoteNode := 6 } (connects 8) = false ∧
       reachIn (member { q with remoteNode := 6 }) { q with remoteNode := 6 } (connects 8) = true) ∧
    (∀ t ∈ [7, 8], let q := pair .connecting
     connectTag (node q) (connects t) = false ∧ reach q (connects t) = true ∧ connectTag (member q) (connects t) = true ∧
       (let s := withOd [(0x9000, 4, 9)] (member q)
        connectTag s (connects t) = true ∧ connectFits s (connects t) = false ∧ reachIn s q (connects t) = true)) := by decide +kernel

theorem witness_PairTimersAct :
    (let q := { pair .connecting with connectAt := some 0 }
     let s : State := { node q with now := 5000000 }
     findQp s 64 = some q ∧ q.connectAt = some 0 ∧ 0 + 5000000 ≤ s.now) ∧
    (let q := { pair .connecting with num := 32, connectAt := some 0 }
     let s : State := { node q with now := 5000000 }
     findQp s 32 = some q ∧ portUp s (32 % 32) = true ∧ portUp s (31 % 32) = false) ∧
    (pair .ready).state ≠ .connecting ∧
    (let q := { pair .ready with timer := some 0, unacked := [pkt 1 []] }
     let s : State := { node q with now := 1000000000 }
     findQp s 64 = some q ∧ 0 + timeoutNs s q ≤ s.now ∧ q.runs < od s 0x7010 0x02) ∧
    (let q := { pair .ready with timer := some 0, unacked := [pkt 1 []], runs := 100 }
     let s : State := { node q with now := 1000000000 }
     findQp s 64 = some q ∧ 0 + timeoutNs s q ≤ s.now ∧ od s 0x7010 0x02 ≤ q.runs) ∧
    (let q := { pair .ready with busy := [(0, 1), (5, 2)] }
     findQp (node q) 64 = some q ∧ q.busy = (0, 1) :: [(5, 2)] ∧ 0 + 2000 ≤ ({ node q with now := 2000 } : State).now) ∧
    (let q := { pair .ready with counter := 2 ^ 64 }
     findQp (node q) 64 = some q ∧ od (node q) 0x7010 0x05 ≤ q.counter ∧ q.epoch + 1 < 2 ^ 32 - 1) ∧
    (pair .ready).counter < od (node (pair .ready)) 0x7010 0x05 := by decide +kernel

def lease0 : Lease := { id := leaseKey 2 1, port := 2, lent := false, bytes := gib, notice := 1, lender := 0, borrower := 0 }

theorem witness_LeasesAreLentAndReturned :
    (portUp (node control) 0 = true ∧ ownNode (node control) ≠ 0xFFFF ∧ findQp (node control) 0 = some control ∧
      linked control = true) ∧
    portUp State.reset 0 = false ∧ lendable State.reset = 0 ∧
    (let s := withOd [(0x5010, 1, 2 * gib)] own
     min ((BitVec.ofNat 64 (3 * gib)).toNat / gib * gib) (lendable s) ≠ 0) ∧
    (let s : State := { own with pasture := { leases := [lease0] } }
     s.pasture.leases.find? (fun x => !x.lent && x.id == leaseKey 2 1) = some lease0 ∧ leaseImages s (leaseKey 2 1) = [] ∧
       leaseHomes s (leaseKey 2 1) = []) ∧
    own.pasture.leases.find? (fun x => !x.lent && x.id == leaseKey 2 1) = none ∧
    od (withOd [(0x5010, 4, 1)] own) 0x5010 0x04 ≠ 0 ∧ od (withOd [(0x5010, 4, 0)] own) 0x5010 0x04 = 0 := by decide +kernel

theorem witness_PacketsAreRelayedAndParked :
    let s := withOd [(0x7000, 2, 5 * 256 ^ 9), (0x7002, 1, 1)] (node (pair .ready))
    let k := { pkt 1 [] with dstNode := 9 }
    (portUp s 0 = true ∧ ownNode s ≠ 0xFFFF ∧ k.dstNode.toNat ≠ ownNode s ∧ k.hops ≠ 0 ∧ routePort s k.dstNode.toNat = some 5) ∧
    ({ k with hops := 0 } : Pkt).hops = 0 ∧
    (let k := { pkt 1 [] with dstQp := 65 }
     k.dstNode.toNat = ownNode s ∧ s.peer.onDie.contains k.dstQp.toNat = false ∧ od s 0x7002 (0 + 1) = 1 ∧
       (s.peer.parked.filter (fun x => x.1 == 0)).length < 128) ∧
    (let t : State := { s with peer := { s.peer with parked := [(0, pkt 1 [])] } }
     t.peer.parked.any (fun x => x.2.dstQp.toNat == 64) = true) ∧
    s.peer.parked.any (fun x => x.2.dstQp.toNat == 64) = false ∧
    (let t : State := { s with peer := { s.peer with parked := [(0, pkt 1 [])] } }
     (bringOn 64 t).peer.onDie.contains 64 = true) ∧
    s.peer.onDie.length < 4096 := by decide +kernel

/-! ## Links -/

theorem leNat_lt (l : Bytes) : leNat l < 256 ^ l.length := by
  induction l with
  | nil => decide
  | cons b bs ih =>
    have hb : b.toNat < 256 := b.isLt
    simp only [leNat, List.length_cons, Nat.pow_succ]
    omega

theorem natLe_leNat (l : Bytes) : natLe l.length (leNat l) = l := by
  induction l with
  | nil => rfl
  | cons b bs ih =>
    have hb : b.toNat < 256 := b.isLt
    have hq : (b.toNat + 256 * leNat bs) / 256 = leNat bs := by omega
    have hr : BitVec.ofNat 8 (b.toNat + 256 * leNat bs) = b := by
      apply BitVec.eq_of_toNat_eq
      simp only [BitVec.toNat_ofNat]
      omega
    simp only [leNat, List.length_cons, natLe, hq, hr, ih]

/-- The unit that a public key names. -/
def unitFor (pub : Bytes) : BitVec 128 := BitVec.ofNat 128 (leNat (digestBytes (Config.sha256 pub) 16))

theorem key_is_of (pub : Bytes) : keyIsOf pub (unitFor pub) = true := by
  have hl : (digestBytes (Config.sha256 pub) 16).length = 16 := by simp only [digestBytes, List.length_map, List.length_range]
  have hb := leNat_lt (digestBytes (Config.sha256 pub) 16)
  rw [hl] at hb
  have hm : leNat (digestBytes (Config.sha256 pub) 16) % 2 ^ 128 = leNat (digestBytes (Config.sha256 pub) 16) :=
    Nat.mod_eq_of_lt (by omega)
  have he := natLe_leNat (digestBytes (Config.sha256 pub) 16)
  rw [hl] at he
  simp only [keyIsOf, unitFor, BitVec.toNat_ofNat, hm, he, beq_self_eq_true]

/-- `up` with a port as given. -/
def withPort (n : Nat) (p : Port) : State := { up with links := { up.links with ports := up.links.ports.set n p } }

def caps0 (heath : Bool) : LinkCaps :=
  { heath := heath, unit := 1, node := 5, lanes := 0xFF, grants := [64, 64, 64, 64] }

def trainsB (n : Nat) (s : State) : Bool :=
  !portUp s n && !(portOf s n).failed && decide (s.power.linkTest = none) && decide (s.power.test = none) && ready s

theorem trains_of {n : Nat} {s : State} (h : trainsB n s = true) : Trains n s := by
  simp only [trainsB, Bool.and_eq_true, Bool.not_eq_true', decide_eq_true_eq] at h
  exact ⟨h.1.1.1.1, h.1.1.1.2, h.1.1.2, h.1.2, h.2⟩

theorem witness_PortsComeUp :
    (∀ n ∈ [0, 31, 32, 47], ∀ k ∈ [0, 1, 2, 3, 4], trainsB n (withPort n { state := 1, step := k }) = true ∧
      (portOf (withPort n { state := 1, step := k }) n).step = k ∧ minLanes up n ≤ laneCount (litLanes up n)) ∧
    (∀ n ∈ [0, 31, 32, 47], n < up.links.ports.length ∧ up.sec.identity ≠ none ∧
      (caps0 (isHeathPort n)).heath = isHeathPort n ∧
      (caps0 (isHeathPort n)).grants.length = 4 ∧ (∀ g ∈ (caps0 (isHeathPort n)).grants, 64 ≤ g) ∧
      minLanes up n ≤ laneCount (bothLanes (bothLanes (caps0 true).lanes.toNat (litLanes up n)) (allLanes n)) ∧
      up.sec.unitId.toNat < (caps0 true).unit.toNat ∧ capsFit n (caps0 (!isHeathPort n)) up = false) ∧
    (let s := { withPort 0 { state := 1, step := 1 } with links := { up.links with
       ports := up.links.ports.set 0 { state := 1, step := 1 }, lasers := List.replicate 12 { low := List.range 8 } } }
     trainsB 0 s = true ∧ laneCount (litLanes s 0) < minLanes s 0) ∧
    (let s : State := { withPort 0 { state := 1, step := 5 } with now := 15000000 }
     (portOf s 0).state = 1 ∧ (portOf s 0).step ≠ 0 ∧ (portOf s 0).stepAt + stepBound (portOf s 0).step ≤ s.now) ∧
    (let s := withPort 0 { state := 1, step := 5 }
     (portOf s 0).state = 1 ∧ (portOf s 0).step = 5 ∧ s.sec.identity ≠ none ∧ (portOf s 0).neighbour.toNat ≤ s.sec.unitId.toNat) ∧
    (let s := withPort 0 { state := 1, step := 4 }
     (portOf s 0).state = 1 ∧ (portOf s 0).step = 4) ∧
    (agreeing (portOf (withPort 0 { state := 1, step := 5, keySent := true }) 0) = true) ∧
    (let s := withPort 0 { state := 1, step := 5, secret := some 0, neighbour := unitFor [] }
     agreeing (portOf s 0) = true ∧ (portOf s 0).secret ≠ none) ∧
    State.reset.sec.identity = none := by decide +kernel

theorem witness_linkProof :
    let s := withPort 0 { state := 1, step := 5, secret := some 0, neighbour := unitFor [] }
    keyIsOf (portOf s 0).peerPub (portOf s 0).neighbour = true ∧ allowed s (portOf s 0).neighbour = true := by
  refine ⟨key_is_of [], ?_⟩
  have h : (allowList (withPort 0 { state := 1, step := 5, secret := some 0, neighbour := unitFor [] })).all (fun v => v == 0) = true := by
    decide +kernel
  simp only [allowed, h, Bool.true_or]

def frame0 (t : Nat) (payload : Bytes) : Frame := { ftype := BitVec.ofNat 8 t, ctrLo := 0, payload := payload }

theorem witness_FramesAct :
    (∀ n ∈ [0, 31, 32, 47], ∀ t ∈ [0, 1, 2], Arrives n t (frame0 t (List.replicate 72 0)) (withPort n { state := 2 })) ∧
    (∀ n ∈ [32, 47], Arrives n 3 (frame0 3 (natLe 8 0)) (withPort n { state := 2 }) ∧ isHeathPort n = true) ∧
    (let s := withPort 0 { state := 2 }
     let f := frame0 4 (natLe 8 0x7F ++ natLe 8 9)
     Arrives 0 4 f s ∧ (portOf (received 0 f s) 0).txCtr ≤ fieldAt f.payload 8 8) := by
  refine ⟨?_, ?_, arrives_of (by decide +kernel), by decide +kernel⟩
  · intro n hn t ht
    simp only [List.mem_cons, List.not_mem_nil, or_false] at hn ht
    rcases hn with rfl | rfl | rfl | rfl <;> rcases ht with rfl | rfl | rfl <;> exact arrives_of (by decide +kernel)
  · intro n hn
    simp only [List.mem_cons, List.not_mem_nil, or_false] at hn
    rcases hn with rfl | rfl <;> exact ⟨arrives_of (by decide +kernel), by decide +kernel⟩

theorem witness_BadFramesAreDropped :
    (∀ t ∈ [0, 1, 2, 3, 4], let f := { frame0 t [] with fecOk := false }
      portUp (withPort 47 { state := 2 }) 47 = true ∧ f.ftype.toNat = t ∧ f.fecOk = false ∧
        (portOf (withPort 47 { state := 2 }) 47).bad < 1023 ∧
        1023 ≤ (portOf (withPort 47 { state := 2, bad := 1023 }) 47).bad) ∧
    (let s := withPort 32 { state := 2 }
     let f := { frame0 1 [] with ctrLo := 1 }
     portUp s 32 = true ∧ f.fecOk = true ∧ f.authOk = true ∧ isHeathPort 32 = true ∧
       frameCtr (portOf s 32) f.ctrLo.toNat ≠ expectedCtr (portOf s 32)) ∧
    ({ frame0 1 [] with authOk := false } : Frame).authOk = false ∧ (portOf (withPort 32 { state := 2 }) 32).rxLost = false ∧
    portUp up 0 = false := by decide +kernel

def qpkt0 : QPkt := { len := 64, pkt := some (pkt 1 []) }

theorem witness_LinksRepairAndSchedule :
    (let s : State := { withPort 32 { state := 2, rxLost := true, nakAt := some 0 } with now := 2000 }
     isHeathPort 32 = true ∧ portUp s 32 = true ∧ (portOf s 32).rxLost = true ∧ (portOf s 32).nakAt = some 0 ∧ 0 + 2000 ≤ s.now) ∧
    (let s : State := { withPort 32 { state := 2, rxLost := true } with now := 1000000 }
     (portOf s 32).rxLost = true ∧ (portOf s 32).nakFirst + 1000000 ≤ s.now) ∧
    (let s : State := { withPort 0 { state := 2 } with now := 4096 }
     portUp s 0 = true ∧ creditDue s 0 = true) ∧
    heldTransit up 0 = [] ∧
    128 ≤ (heldTransit (withPort 1 { state := 2, queues := [(2, List.replicate 128 { qpkt0 with transit := some 0 })] }) 0).length ∧
    (let s := withPort 0 { state := 2, epochFrames := 2 ^ 64 }
     portUp s 0 = true ∧ od s 0x7100 0x01 ≤ (portOf s 0).epochFrames) ∧
    (let s := withPort 0 { state := 2, txLanes := 0xFF, rxLanes := 0xFF }
     portUp s 0 = true ∧ bitOf (targetMask (portOf s 0)) 7 = true ∧
       minLanes s 0 ≤ laneCount (laneClear (targetMask (portOf s 0)) 7)) ∧
    (let s := withPort 0 { state := 2, txLanes := 0x01, rxLanes := 0x01 }
     bitOf (targetMask (portOf s 0)) 0 = true ∧ laneCount (laneClear (targetMask (portOf s 0)) 0) < minLanes s 0) ∧
    (let a : LaneAgree := { mask := 0x7F, switchAt := 9, since := 0, lastSent := 0 }
     let s : State := { withPort 0 { state := 2, agree := some a } with now := 20000 }
     (portOf s 0).agree = some a ∧ portUp s 0 = true ∧ a.lastSent + 1000 ≤ s.now ∧ a.since + 20000 ≤ s.now) ∧
    (let s : State := { withPort 0 { state := 2, laneBad := [(7, 0)] } with now := 100000000 }
     portUp s 0 = true ∧ (portOf s 0).laneBad.any (fun x => x.1 == 7 && x.2 + 100000000 ≤ s.now) = true) ∧
    (up.links.lasers.length = 12 ∧
      (∀ k, k < 12 → (up.links.lasers.getD k {}).low = [] ∧ ∀ x ∈ (List.replicate 12 [(1200 : Int)]).getD k [], (1200 : Int) ≤ x)) ∧
    (let s := withPort 0 { state := 2, queues := [(2, [qpkt0])], grants := [64, 64, 64, 64] }
     portUp s 0 = true ∧ pickQueue 0 (portOf s 0) = some (2, qpkt0) ∧ qpkt0.pkt = some (pkt 1 [])) ∧
    (let k : QPkt := { qpkt0 with pkt := none }
     let s := withPort 32 { state := 2, queues := [(2, [k])], grants := [64, 64, 64, 64] }
     portUp s 32 = true ∧ pickQueue 32 (portOf s 32) = some (2, k)) ∧
    (let s := withPort 0 { state := 2, queues := [(2, [qpkt0])] }
     pickQueue 0 (portOf s 0) = none) ∧
    portUp up 0 = false := by decide +kernel

/-! ## Heath shelves -/

def shelfRec0 : ShelfRec :=
  { bridgeId := 0, channels := 16, luns := 1, blocks := 64, pages := 64, pageBytes := 16384, metaBytes := 128, tRead := 40,
    tProg := 150, tErase := 10, endurance := 1000 }

/-- `up` with heath port 32 in service and shelf 0 as given. -/
def shelf (x : Shelf) : State :=
  let s := withPort 32 { state := 2 }
  { s with shelves := s.shelves.set 0 x }

def asked (op : Nat) (u : OpUse) : BridgeOp :=
  { tag := 4, op := op, channel := 0, lun := 0, block := 0, page := 0, use := u, at_ := 0 }

/-- A response's header: flags bit 0, and the length of the data behind it (R328). -/
def hdr0 : BridgeHdr := { tag := 4, channel := 0, lun := 0, flags := 1, status := 0 }

/-- A page of shelf 0 under a header whose CRC fits it, with a tag. -/
def page0 (unit : Nat) (tag : Byte) : PageRec :=
  { data := [], spare := pageHdrBytes { seq := 1, unit := unit, kind := 0 } (tag :: List.replicate 7 0) ++ List.replicate 64 0 }

/-- `up` with the secret under whose key the page was written. -/
def keyed : State := { up with sec := { up.sec with tenSecret := some 1 } }

/-- Of two pages that differ in their tags alone, one fails. -/
theorem witness_pageTag : ∃ tag, pageFits {} (.host 3) 0 (page0 3 tag) = true ∧ pageTagOk keyed (page0 3 tag) = false := by
  have hk (tag : Byte) (h : tag = 0 ∨ tag = 1) : pageKeyHeld keyed (hdrOf (page0 3 tag).spare) = true ∧
      hdrOf (page0 3 tag).spare = hdrOf (page0 3 0).spare ∧ ((page0 3 tag).spare.drop 24).take 8 = tag :: List.replicate 7 0 ∧
      pageFits {} (.host 3) 0 (page0 3 tag) = true := by
    rcases h with rfl | rfl <;> decide +kernel
  have ok (tag : Byte) (h : tag = 0 ∨ tag = 1) : pageTagOk keyed (page0 3 tag) = (tag :: List.replicate 7 0 ==
      pageTag ((pageKey keyed (hdrOf (page0 3 0).spare).kind (hdrOf (page0 3 0).spare).keyId).drop 64)
        (pageHdrHead (hdrOf (page0 3 0).spare)) []) := by
    obtain ⟨_, h2, h3, _⟩ := hk tag h
    simp only [pageTagOk, h2, h3]
    rfl
  cases hc : pageTagOk keyed (page0 3 0) with
  | false => exact ⟨0, (hk 0 (.inl rfl)).2.2.2, hc⟩
  | true =>
    refine ⟨1, (hk 1 (.inr rfl)).2.2.2, ?_⟩
    rw [ok 0 (.inl rfl), beq_iff_eq] at hc
    rw [ok 1 (.inr rfl), ← hc]
    decide +kernel

theorem witness_BridgeAnswersAct :
    (∀ x ∈ [(0x01, OpUse.identify), (0x02, .param), (0x03, .badmap), (0x10, .read (.host 0)), (0x11, .scanMeta),
        (0x20, .program 0 false 1 0 0 none), (0x30, .erase 1), (0x30, .format), (0x50, .reset)],
      Answers 0 x.1 hdr0 (asked x.1 x.2) (shelf { state := 1, ops := [asked x.1 x.2] })) ∧
    (let o := asked 0x01 .identify
     (shelfOf (taken 0 o (shelf { state := 1, ops := [o] })) 0).state = 1 ∧ hdr0.status = 0 ∧ shelfRecOk shelfRec0 = true ∧
       shelfRecOk { shelfRec0 with channels := 8 } = false) ∧
    ({ hdr0 with length := 64 } : BridgeHdr).length.toNat = 64 ∧
    bringsData { hdr0 with length := 256 } 256 (List.replicate 256 (0 : Byte)).length = true ∧
    ({ hdr0 with length := 8 } : BridgeHdr).length.toNat = badmapBytes { geom := some shelfRec0 } ∧
    hdr0.length = 0 ∧ (asked 0x10 (.read (.host 3))).use = .read (.host 3) ∧
    pageFits {} (.host 3) 0 (page0 3 0) = true ∧ pageFits {} (.host 3) 0 (page0 4 0) = false ∧ pageTagOk up (page0 3 0) = true ∧
    (asked 0x30 (.erase 1)).use = .erase 1 ∧
    (let e : MapEnt := { key := 3, state := 2, cls := false }
     fineEnt { fines := [e] } 3 = some e) ∧
    0 < up.shelves.length := by
  refine ⟨?_, by decide +kernel, by decide +kernel, by decide +kernel, by decide +kernel, by decide +kernel, by decide +kernel,
    by decide +kernel, by decide +kernel, by decide +kernel, by decide +kernel, by decide +kernel, by decide +kernel⟩
  intro x hx
  simp only [List.mem_cons, List.not_mem_nil, or_false] at hx
  rcases hx with rfl | rfl | rfl | rfl | rfl | rfl | rfl | rfl | rfl <;> exact answers_of (by decide +kernel)

theorem witness_ShelvesKeepHouseAndNoticeSilence :
    (let s := shelf { state := 4, tail := List.replicate 512 { seq := 1, unit := 0, op := 1 } }
     shelfJournals (shelfOf s 0) = true ∧ 512 ≤ (shelfOf s 0).tail.length ∧ journalBusy (shelfOf s 0) = false ∧
       s.power.kiln.sag = none) ∧
    (shelfOf up 0).tail.length < 512 ∧
    (let s := shelf { state := 4, journalPages := 2 ^ 32 }
     (shelfOf s 0).state = 4 ∧ od s 0x6000 0x07 ≤ (shelfOf s 0).journalPages ∧ (shelfOf s 0).ckpt = none ∧ anyUse (shelfOf s 0) isRootUse = false ∧
       wantsGc (shelfOf s 0) (od s 0x6000 0x01) = false ∧ heathUp s 0 = true) ∧
    (let c := { cmd1 (.stalled 0) 0 with since := 0 }
     let s := { started (.stalled 0) 0 work with now := 2 ^ 60 }
     heathUp s 0 = false ∧ s.queues.cmds = [c] ∧ c.work = .stalled 0 ∧ portWaitOver s c.since = true ∧
       s.host.cxlWaiting = [] ∧ s.objs.moves = []) ∧
    (let w : CxlWait := { part := 0, line := 0, shelf := 0, unit := 0, since := 0, asked := false }
     let s : State := { work with now := 2 ^ 60, host := { work.host with cxlWaiting := [w] } }
     heathUp s 0 = false ∧ s.queues.cmds = [] ∧ s.host.cxlWaiting = [w] ∧ w.shelf = 0 ∧ portWaitOver s w.since = true ∧
       s.objs.moves = [] ∧ s.objs.heldWrites = [] ∧ s.objs.bring = []) ∧
    (let b : Superblock := { id := 1, group := 0, blocks := [], state := 2, stream := 0, openSeq := 0, uses := [(0, 5)] }
     let s := shelf { state := 4, geom := some shelfRec0, sbs := [b], relocate := [1] }
     let x := shelfOf s 0
     x.state = 4 ∧ x.collecting = none ∧ s.power.kiln.sag = none ∧ wantsGc x (od s 0x6000 0x01) = true ∧
       nextVictim x (od s 0x6000 0x02) = some 1 ∧ victim x = some 1 ∧ inSb x 1 ≠ []) ∧
    (shelfOf up 0).ops = [] ∧
    (let o := asked 0x20 (.program 0 false 1 0 0 none)
     let s : State := { shelf { state := 4, ops := [o] } with now := 50000000 }
     (shelfOf s 0).ops.find? (fun x => x.tag == hdr0.tag.toNat && x.op == 0x20) = some o ∧ heathUp s 0 = true ∧
       (shelfOf s 0).ops.find? (fun x => x.tag == hdr0.tag.toNat && x.at_ + 50000000 ≤ s.now) = some o ∧ o.op ≠ 1 ∧
       ({ hdr0 with status := 5 } : BridgeHdr).status = 5 ∧ ({ hdr0 with status := 6 } : BridgeHdr).status = 6) := by decide +kernel

/-- The requests of heath and of the prefix store. -/
theorem witness_StoreRequestsAct :
    (let s := shelf { state := 6, geom := some shelfRec0 }
     let m := put 0x6100 0x0E 1
     (∃ r, Writes net m 0x6100 0x0E r s ∧ (fun _ => true) r = true) ∧ owned s = false ∧ (shelfOf s 0).state = 6 ∧
       (shelfOf s 0).geom ≠ none ∧ heathUp s 0 = true) ∧
    (let m := put 0x4020 0x0A 1
     let s := mailed m { own with sec := { own.sec with tenSecret := some 1 } }
     (∃ r, Writes (.mailbox 0) m 0x4020 0x0A r s ∧ (fun _ => true) r = true) ∧ s.sec.tenSecret ≠ none ∧ s.pfx.rebuildState ≠ 1 ∧
       ∃ r, Writes (.mailbox 0) m 0x4020 0x0A r { s with pfx := { s.pfx with rebuildState := 1 } } ∧ (fun _ => true) r = true) :=
  ⟨⟨writes_of (by decide +kernel), by decide +kernel, by decide +kernel, by decide +kernel, by decide +kernel⟩,
    writes_of (by decide +kernel), by decide +kernel, by decide +kernel, writes_of (by decide +kernel)⟩

def booted (b : Boot) : State := shelf { state := 1, geom := some shelfRec0, boot := b }

theorem witness_ShelvesStartUp :
    (let s := shelf { state := 1, geom := some shelfRec0, badSeen := 16, params := List.replicate 16 (0, []) }
     (shelfOf s 0).geom = some shelfRec0 ∧ (shelfOf s 0).state = 1 ∧ (shelfOf s 0).boot.phase = .none ∧
      shelfRec0.channels * shelfRec0.luns ≤ (shelfOf s 0).badSeen ∧
      shelfRec0.channels * shelfRec0.luns ≤ (shelfOf s 0).params.length ∧ heathUp s 0 = true ∧ (shelfOf up 0).geom = none) ∧
    (∀ p ∈ [BootPhase.roots, .format, .opened, .scan],
      cursorsDone (shelfOf (booted { phase := p }) 0) = true ∧ (shelfOf (booted { phase := p }) 0).boot.phase = p) ∧
    cursorsDone (shelfOf (booted { phase := .roots, cursors := [{ channel := 0, lun := 0, blocks := [0], page := 0 }] }) 0) = false ∧
    (let s := booted { root := some (1, []) }
     (shelfOf s 0).boot.root = some (1, []) ∧ rootNames s.sec.unitId shelfRec0 [] = false) ∧
    (let d := rootBytesOf up.sec.unitId {} shelfRec0
     let s := booted { root := some (1, d) }
     (shelfOf s 0).boot.root = some (1, d) ∧ rootNames s.sec.unitId shelfRec0 d = true) ∧
    (let s := booted {}
     (shelfOf s 0).boot.root = none ∧ (shelfOf s 0).boot.marked = false ∧ (shelfOf s 0).boot.todo = []) ∧
    (shelfOf (booted { marked := true }) 0).boot.marked = true ∧ 0 < up.shelves.length := by decide +kernel

/-! ## Resets, boot, the kiln, tests and monitors -/

def withPower (f : Power → Power) (s : State) : State := { s with power := f s.power }

def releasing (n : Nat) (then_ : Bool) : State :=
  { own with sec := { own.sec with tenancy := .releasing, releaseStep := n, releaseThenReset := then_ } }

theorem witness_ResetsAndReleasesFollowTheirSteps :
    up.power.dev ≠ .saving ∧
    (let s := withPower (fun p => { p with dev := .recovery }) up
     s.power.dev = .recovery ∧ s.power.nor.slotValid = true) ∧
    (withPower (fun p => { p with dev := .saving }) up).power.dev = .saving ∧
    (up.sec.rtp = .run ∧ up.power.dev ≠ .saved ∧ up.sec.tenancy ≠ .owned ∧ up.sec.tenancy ≠ .releasing) ∧
    (own.sec.rtp = .run ∧ own.power.dev = .ready ∧ own.sec.tenancy = .owned) ∧
    (∀ n ∈ [1, 2, 5, 6], let s := releasing n false
      s.sec.tenancy = .releasing ∧ s.sec.releaseStep ≠ 0 ∧
        (s.sec.releaseStep ≤ 5 ∨ (s.sec.releaseStep = 6 ∧ s.sec.releaseThenReset = false)) ∧ stepOver s = true) ∧
    (let s : State := { releasing 2 false with pasture := { leases := [{ lease0 with lent := true }] } }
     s.sec.releaseStep = 2 ∧ (s.pasture.leases.any (fun l => l.lent)) = true) ∧
    (releasing 6 true).sec.releaseStep = 6 ∧ (releasing 7 false).sec.releaseStep = 7 := by decide +kernel

theorem witness_BootFollowsTheImage :
    State.reset.power.needsBoot = true ∧ (true && State.reset.power.nor.slotValid) = true ∧
    (false && State.reset.power.nor.slotValid) = false ∧ State.reset.power.warm = false ∧
    (let s := withPower (fun p => { p with warm := true }) State.reset
     s.power.needsBoot = true ∧ s.power.warm = true) ∧
    up.power.needsBoot = false ∧
    (let s := withPower (fun p => { p with nor := { p.nor with dirty := some [(1, 2)] } }) up
     s.power.nor.dirty = some [(1, 2)] ∧ s.power.dev = .ready) ∧
    (updating (withOd [(0xC040, 2, 3)] up) = true ∧ up.power.dev ≠ .saved) := by decide +kernel

/-- A device that saves, its kiln isolated or not. -/
def saving (isolated held : Bool) : State :=
  withPower (fun p => { p with
    dev := .saving
    kiln := { p.kiln with
      sag := some { t0 := 0, cause := .pwrWarn, vinMv := 0, isolated := isolated }, held := held, mramOk := true
      save := some { saveNo := 1, wpos := 0, timeNs := 0, tenancy := .unowned, cause := .pwrWarn, vinMv := 0, heathKeyId := 0,
                     tails := [], rcTail := [], ring := [], pages := [], logTail := [], bytes := 0, trailer := false } } }) up

theorem witness_SagsAreSaved :
    up.power.dev = .ready ∧ 0 < od up 0xC030 0x03 ∧ od up 0xC030 0x03 ≤ 65535 ∧ State.reset.power.dev = .booting ∧
    (∀ held, let s := saving false held
      s.power.dev = .saving ∧ s.power.kiln.sag = some { t0 := 0, cause := .pwrWarn, vinMv := 0 } ∧ s.power.kiln.held = held ∧
        s.power.kiln.mramOk = true) ∧
    (let s := saving true false
     s.power.dev = .saving ∧ s.power.kiln.sag = some { t0 := 0, cause := .pwrWarn, vinMv := 0, isolated := true } ∧
       s.power.kiln.save.isSome = true ∧ s.power.resetHeld = false) ∧
    (∀ x ∈ [({ item := .withdraw rec0, bytes := 128 } : RingEntry)], ringWhole [x] x = true) := by decide +kernel

def tested : Test := { kind := 1, unit := 0, since := 0 }

theorem witness_TestsAndFailuresTakeBlocksOut :
    (let s := withOd [(0xB000, 2, 1), (0xB000, 3, 2 * 2 ^ 48)] up
     od s 0xB000 0x02 = 1 ∧ s.power.dev = .ready ∧ (startTest (od s 0xB000 0x03) s).1 = .ok) ∧
    (let s := withOd [(0xB000, 2, 1), (0xB000, 3, 255 * 2 ^ 48)] up
     od s 0xB000 0x02 = 1 ∧ (startTest (od s 0xB000 0x03) s).1 ≠ .ok) ∧
    (let s := withPower (fun p => { p with test := some tested }) up
     s.power.test = some tested ∧ up.power.test = none) ∧
    (let s := withPower (fun p => { p with coreMap := List.range 96 }) up
     s.power.dev = .ready ∧ coreUp s 95 = true) ∧
    (let s := withPower (fun p => { p with linkTest := some 0, checkers := List.replicate 8 { locked := true } }) up
     checkerThere s 7 = true ∧ 7 < s.power.checkers.length ∧ (s.power.checkers.getD 7 {}).locked = true) ∧
    (let s := withOd [(0xB040, 5, 1)] up
     od s 0xB040 0x05 = 1 ∧ s.power.trigAt ≤ s.now) ∧
    up.sec.rtp = .run ∧ State.reset.sec.rtp ≠ .run := by decide +kernel

/-- Signatures that match what is expected, and that do not. -/
theorem witness_signatures :
    (∃ sig : U64, sig.toNat = (Config.misrExpected tested.kind).toNat) ∧
    (∃ sig : U64, sig.toNat ≠ (Config.misrExpected tested.kind).toNat) := by
  refine ⟨⟨_, rfl⟩, Config.misrExpected tested.kind + 1, fun h => ?_⟩
  have hx := BitVec.eq_of_toNat_eq h
  bv_omega

theorem witness_MonitorsRecord :
    (let r : List Int := List.replicate 160 0
     up.power.dev = .ready ∧ (hottest r).2 < i32Of (od up 0xC012 0x01) ∧ (hottest r).2 < i32Of (od up 0xC012 0x02)) ∧
    (let r : List Int := List.replicate 160 1000000
     i32Of (od up 0xC012 0x02) ≤ (hottest r).2) ∧
    od (withOd [(0xC000, 8, 0)] up) 0xC000 0x08 ≠ 1 ∧
    (let s := withOd [(0xC000, 8, 1), (0xC020, 1, 128 + 256)] up
     od s 0xC000 0x08 = 1 ∧ s.power.vddSet ≤ 845 ∧ s.power.vddStepAt = none ∧
       (indexed [({ answered := true, mv := 0, deciAmp := 0, watts := 0 } : RegReading)]).any
         (fun x => regEnabled (regAt s x.1) && regCode (regAt s x.1) == 1 && x.2.answered) = true) ∧
    (let s : State := { withOd [(0xC020, 1, 128 + 256)] up with now := 100000000 }
     regEnabled (regAt s 0) = true ∧ 0 ∉ s.power.regLost ∧ s.power.regSeen.getD 0 0 + 100000000 ≤ s.now) ∧
    (let s := withPower (fun p => { p with vddStepAt := some 0 }) up
     s.power.vddStepAt = some 0 ∧ s.now < 0 + 10000000) ∧
    0 ∈ (withPower (fun p => { p with regLost := [0] }) up).power.regLost ∧
    (let s := withPower (fun p => { p with samples := List.replicate 9 (2 ^ 40) }) up
     9 ≤ s.power.samples.length ∧ s.power.overPower = false ∧
       od s 0xC000 0x05 * 10 < sumBy id ((s.power.samples ++ [diePower s]).drop (s.power.samples.length + 1 - 10))) ∧
    up.log.droppedSince = 0 ∧ ({ up with log := { up.log with droppedSince := 1 } } : State).log.droppedSince = 0 + 1 ∧
    (let s : State := { up with log := { up.log with windows := [(0x0100, 1, List.replicate 256 0)] } }
     s.log.windows.find? (fun x => x.1 == (0x0100 : U16).toNat && x.2.1 == (1 : U16).toNat) =
       some (0x0100, 1, List.replicate 256 0) ∧ od s 0xD010 0x01 ≤ 256) ∧
    (let x : Sampler := { id := 1, down := 0, lastAt := 0, due := true }
     let s : State := { up with samplers := [x] }
     s.samplers.find? (fun y => y.id == (1 : U16).toNat) = some x ∧ x.lastAt ≠ s.now / 1000 + 1 ∧ (1 : U16).toNat < 0x8000) ∧
    (let x : Sampler := { id := 1, down := 0, lastAt := 1, due := true }
     let s : State := { up with samplers := [x] }
     s.samplers.find? (fun y => y.id == (1 : U16).toNat) = some x ∧ x.lastAt = s.now / 1000 + 1) := by decide +kernel

/-! ## The whole block -/

theorem witness_ResetHoldsTheDefaults : (odFind 0x2000 1).isSome = true ∧ (odFind 0xA100 0x1E).isSome = true := by decide +kernel

theorem witness_StepRunsTheFrontCommand : State.reset.pending = [] ∧ Quiet (paired (pair .ready) stocked) :=
  ⟨rfl, ⟨by decide +kernel, rfl, rfl, rfl, rfl, fun _ h => (nomatch h), rfl, rfl, by decide +kernel⟩⟩

/-- A state with an object away from its default and a byte of memory. -/
def marked : State := memWrite 0 64 [1] (withOd [(0x1300, 5, 0)] own)

theorem witness_EveryStepKeepsTheInvariant : (OdStore.wf marked.od ∧ Memory.wf marked.mem) ∧ ∃ t, step marked = .next t :=
  ⟨by decide +kernel, _, rfl⟩

theorem witness_EveryCommandCompletes : Invariant marked := ⟨by decide +kernel, by decide +kernel⟩

theorem witness_OnlyTheNamedCommandsTouch :
    (∃ t, exec .logFlush marked = .next t) ∧ isDictionary .logFlush = false ∧ isMessage .logFlush = false ∧
      isLifecycle .logFlush = false ∧ touchesSecrets .logFlush = false ∧ touchesMemory .logFlush = false ∧
      touchesTables .logFlush = false := ⟨⟨_, rfl⟩, rfl, rfl, rfl, rfl, rfl, rfl⟩

/-! ## Commands that no sender can produce -/

theorem test_wf_transport : (Instr.blockWriteTimeout (.mailbox 15)).wf = true ∧ (Instr.blockWriteTimeout (.mailbox 16)).wf = false := by
  decide +kernel

theorem test_wf_message :
    (Instr.read net { ask 1 0x1000 1 [] with length := 1 }).wf = false ∧
    (Instr.write net (ask 2 0x1000 1 (List.replicate 1025 0))).wf = false ∧
    (Instr.record 1 0 true (some { ask 1 0x1000 1 [] with length := 1 })).wf = false := by decide +kernel

theorem test_wf_queue :
    (Instr.fence (.part 31 3)).wf = true ∧ (Instr.fence (.part 32 0)).wf = false ∧ (Instr.fence (.part 0 4)).wf = false := by
  decide +kernel

theorem test_wf_host_message : (Instr.beat { msg 0x01 0xFF 0 [] with length := 1 }).wf = false := by decide +kernel

theorem test_wf_numbers :
    (Instr.eventHeadDoorbell 33 0).wf = false ∧ (Instr.cxlMemRead 32 0 .clean).wf = false ∧ (Instr.cxlMemRead 0 (2 ^ 40) .clean).wf = false ∧
    (Instr.moduleRetrain 48 true).wf = false ∧ (Instr.wrRead 65536).wf = false ∧ (Instr.peerSendTailDoorbell 32 0).wf = false ∧
    (Instr.ack 32 (pkt 5 [])).wf = false ∧ (Instr.packetBoundary 48).wf = false ∧ (Instr.laneFault 0 8).wf = false ∧
    (Instr.checkerLock 8).wf = false ∧ (Instr.checkpoint 16).wf = false ∧ (Instr.thermalSample []).wf = false ∧
    (Instr.pmbusPoll [] none).wf = false ∧ (Instr.pmbusTimeout 8).wf = false ∧ (Instr.laserCheck []).wf = false ∧
    (Instr.coreFailure 96).wf = false := by decide +kernel

/-! ## Values worked out in the spec's examples -/

/-- The record of the example of 17_faults_status.md names this position (R4). -/
theorem test_position : (Pos.mk 1234 17 2).toNat + 0x021 = 0x0000_0004_D211_2021 := by decide +kernel

/-- The MXFP8 block of the example under R128, with 5.3 and -0.0009 taken to the nearest multiples of a power of two. -/
theorem test_mxfp8_block :
    (quantBlock 3 one [.fin false 85 (-4), .fin false 21 (-10), .fin true 59 (-16)]).scale = 0x79 ∧
    (quantBlock 3 one [.fin false 85 (-4), .fin false 21 (-10), .fin true 59 (-16)]).codes = [0x7B, 0x3A, 0x97] := by
  decide +kernel

/-- The layer group of the first reference model, and its pages and columns (R124, R125; examples of 03 and 08). -/
def refGroup : MGroup :=
  { idx := 0, first := 0, final := 95, kind := 0, format := 3, h := 8, d := 128, dc := 0, dr := 0, window := 0 }

theorem test_reference_page : pageBytes refGroup = 33792 ∧ 96 * pageBytes refGroup = 3244032 := by decide +kernel

/-- The ring of the window of 1,000 positions, and the oldest position after page 75 (example under R131). -/
theorem test_coil :
    coilRing { refGroup with kind := 1, window := 1000 } = 64 ∧
    coilOldest { group := 0, ring := 64, newest := some 75, rows := [], loc := { tier := .meadow } } = 192 := by decide +kernel

/-- The output region and the submission of the example under R167. -/
theorem test_region : regionBytes 1 64 128 0 true = 16960 ∧ submissionBytes refGroup 64 1 0 0 = 20480 := by decide +kernel

/-- The bitmap of eight candidates of the example under R182, one with a wrong ancestor, and a candidate's depth. -/
theorem test_tree :
    treeOk ([1, 3, 5, 0xB, 0x1B, 0x25, 0x5B, 0xA5] ++ List.replicate 8 0) 8 = true ∧
    treeOk ([1, 3, 5, 0xB, 0x1B, 0x25, 0x5B, 0xA7] ++ List.replicate 8 0) 8 = false ∧
    (List.range 8).map (depthOf [1, 3, 5, 0xB, 0x1B, 0x25, 0x5B, 0xA5]) = [0, 1, 1, 2, 3, 2, 4, 3] := by decide +kernel

/-- The 32 blocks of 16 cycles of the item in the example under R200. -/
theorem test_item_cycles : pagesCycles refGroup 64 1 1 256 false = 512 := by decide +kernel

/-- The deltas of the example under R248, both ways. -/
theorem test_deltas :
    laneOp true 0 [0x3A, 0x38] [0x38, 0xB8] = [0x02, 0x80] ∧ laneOp false 0 [0x02, 0x80] [0x38, 0xB8] = [0x3A, 0x38] ∧
    laneOp true 2 [0x02] [0x0A] = [0x08] ∧ laneOp true 3 [0x81, 0x3F] [0x80, 0x3F] = [0x01, 0x00] := by decide +kernel

/-- The CRC of R238 over the nine digits, as catalogues of CRCs list it for this polynomial and initial value. -/
theorem test_crc16 : crc16 [0x31, 0x32, 0x33, 0x34, 0x35, 0x36, 0x37, 0x38, 0x39] = 0x29B1 := by decide +kernel

/-- The reserve of the example shelf under R334. -/
theorem test_reserve : reserveSbs { capSum := 64200, reserve := 16 } = 4013 := by decide +kernel

/-- A step on an empty queue lets one nanosecond pass. -/
theorem test_idle : step State.reset = .next { State.reset with now := 1 } := rfl

end Sys2Proof.Tests
end

section
/-! PROOFS. The order of wheel positions (00_scope.md, R4 to R6): a well-formed position is the number its step, layer and phase
spell in the layout of R4, and a number of that form orders by its fields. -/

namespace Sys2Proof.Proofs
open Sys2Proof Sys2Proof.Machine

theorem pos_layer_lt (w : WPos) : Pos.layer w < 2 ^ 8 := Nat.mod_lt _ (by decide)

theorem pos_phase_lt (w : WPos) : Pos.phase w < 2 ^ 4 := Nat.mod_lt _ (by decide)

/-- Well-formedness as R6 says it; the reserved bits are those below the phase. -/
theorem pos_ok_iff (w : WPos) : Pos.ok w = true ↔ Pos.phase w < 4 ∧ w.toNat % 2 ^ 12 = 0 := by
  simp [Pos.ok]

/-- The layout of R4: the fields of any value and its low 12 bits make the value up. -/
theorem pos_toNat_eq_fields_add (w : WPos) :
    w.toNat = Pos.step w * 2 ^ 24 + Pos.layer w * 2 ^ 16 + Pos.phase w * 2 ^ 12 + w.toNat % 2 ^ 12 := by
  unfold Pos.step Pos.layer Pos.phase
  omega

/-- A well-formed position has no bits beside its fields. -/
theorem pos_toNat_eq_fields {w : WPos} (hw : Pos.ok w = true) :
    w.toNat = Pos.step w * 2 ^ 24 + Pos.layer w * 2 ^ 16 + Pos.phase w * 2 ^ 12 := by
  have hlow : w.toNat % 2 ^ 12 = 0 := ((pos_ok_iff w).1 hw).2
  have hsum := pos_toNat_eq_fields_add w
  rwa [hlow, Nat.add_zero] at hsum

/-- The order of R5: the weight of each field exceeds all that the lower fields can add. -/
theorem pos_toNat_lt_iff_fields {v w : WPos} (hv : Pos.ok v = true) (hw : Pos.ok w = true) :
    v.toNat < w.toNat ↔ Pos.step v < Pos.step w ∨ (Pos.step v = Pos.step w ∧
      (Pos.layer v < Pos.layer w ∨ (Pos.layer v = Pos.layer w ∧ Pos.phase v < Pos.phase w))) := by
  rw [pos_toNat_eq_fields hv, pos_toNat_eq_fields hw]
  have hlv := pos_layer_lt v
  have hlw := pos_layer_lt w
  have hpv := pos_phase_lt v
  have hpw := pos_phase_lt w
  omega

/-- Well-formed positions with the same fields are the same position. -/
theorem pos_eq_iff_fields {v w : WPos} (hv : Pos.ok v = true) (hw : Pos.ok w = true) :
    v = w ↔ Pos.step v = Pos.step w ∧ Pos.layer v = Pos.layer w ∧ Pos.phase v = Pos.phase w := by
  constructor
  · rintro rfl
    exact ⟨rfl, rfl, rfl⟩
  · rintro ⟨hstep, hlayer, hphase⟩
    apply BitVec.eq_of_toNat_eq
    rw [pos_toNat_eq_fields hv, pos_toNat_eq_fields hw, hstep, hlayer, hphase]

/-- Settles O7: a well-formed position is the number its fields spell, and such numbers order, and are equal, by their fields. -/
theorem positionsOrderAsNumbers : Obligations.PositionsOrderAsNumbers := by
  intro v w hv hw
  exact ⟨pos_toNat_lt_iff_fields hv hw, pos_eq_iff_fields hv hw⟩

end Sys2Proof.Proofs
end

section
/-! PROOFS. One commit pending at a time (01_programming_model.md, R22, R26): what stands between a role's request and its staged
set while its commit waits, and the two writes that move content out of either. -/

namespace Sys2Proof.Proofs
open Sys2Proof Sys2Proof.Machine Sys2Proof.Laws

/-! ## From a performed request to the command's outcome -/

/-- A row's own request that the device performs with nothing left to do after its response. -/
theorem serveIf_eq_answered {b : Bool} {via : Via} {m : DictMsg} {st : Status} {s t : State} (hb : b = true)
    (h : Asks via m s) (hp : perform none via m s = ofPair (st, t)) :
    serveIf b via m s = answered via m st 0 [] t := by
  rw [serveIf_request hb h, serveNew_plain hp]

/-- An admitted write of any object but OD 0x1F00:01, which COMMIT writes too, comes as a WRITE of that object. -/
theorem writes_eq_true {via : Via} {m : DictMsg} {i k : Nat} {r : OdRow} {s : State} (h : Writes via m i k r s) (hk : k ≠ 1) :
    writes m i k = true := by
  obtain ⟨hop, hi, hs⟩ | ⟨-, -, hone⟩ := h.target
  · simp [writes, hop, hi, hs]
  · exact absurd hone hk

/-- An admitted write of OD 0x1F00:01 comes as a COMMIT or as a WRITE of that object. -/
theorem commits_eq_true {via : Via} {m : DictMsg} {r : OdRow} {s : State} (h : Writes via m 0x1F00 1 r s) :
    (m.op == 5 || writes m 0x1F00 1) = true := by
  obtain ⟨hop, hi, hs⟩ | ⟨hop, -, -⟩ := h.target
  · simp [writes, hop, hi, hs]
  · simp [hop]

/-! ## The operations on a role's commit state -/

theorem stage_pending {role : Role} {p : PendCommit} {s : State} (hp : (roleSt role s).pend = some p) (i k v : Nat) :
    stage role i k v s = (.conflict, s) := by
  simp [stage, hp]

theorem commitWrite_pending {role : Role} {p : PendCommit} {s : State} (hp : (roleSt role s).pend = some p) (pos : WPos) :
    commitWrite role pos s = (.conflict, s) := by
  simp [commitWrite, hp]

theorem cancelCommit_pending {role : Role} {p : PendCommit} {s : State} (hp : (roleSt role s).pend = some p) :
    cancelCommit role s = (.ok, announceCommit .ok
      (setRole role (fun x => { x with pend := none, staged := p.content, resState := 5, resStatus := 0 }) s)) := by
  simp [cancelCommit, hp]

theorem cancelCommit_none {role : Role} {s : State} (hp : (roleSt role s).pend = none) :
    cancelCommit role s = (.conflict, s) := by
  simp [cancelCommit, hp]

/-- A block of a value that the staged set would take, while the role's commit waits. -/
theorem writeBlockObject_pending {via : Via} {sig : Option Bool} {i k block : Nat} {bs : Bytes} {r : OdRow} {p : PendCommit}
    {s : State} (hw : writeCheck (Via.role via) s i k = .ok r) (hlong : 1024 < r.size) (himage : i ≠ 0xC040)
    (hsome : 1 ≤ bs.length) (hblock : bs.length ≤ 1024) (hp : (roleSt (Via.role via) s).pend = some p) :
    writeBlockObject via sig r.ty.code i k block bs s = ofPair (.conflict, s) := by
  have hne : bs ≠ [] := List.ne_nil_of_length_pos hsome
  unfold writeBlockObject
  rw [hw]
  simp [Nat.not_le.2 hlong, Nat.not_lt.2 hblock, hne, himage, hp, refuseA, ofPair]

/-! ## Requests of OD 0x1F00 -/

theorem perform_commitWrite {sig : Option Bool} {via : Via} {m : DictMsg} {r : OdRow} {s : State} (h : Writes via m 0x1F00 1 r s) :
    perform sig via m s = ofPair (commitWrite (Via.role via) (BitVec.ofNat 64 (leNat m.value)) s) := by
  rw [perform_wo h (by decide +kernel)]
  rfl

theorem perform_cancelCommit {sig : Option Bool} {via : Via} {m : DictMsg} {r : OdRow} {s : State} (h : Writes via m 0x1F00 4 r s) :
    perform sig via m s = ofPair (cancelCommit (Via.role via) s) := by
  rw [perform_wo h (by decide +kernel)]
  rfl

theorem perform_discardStaged {sig : Option Bool} {via : Via} {m : DictMsg} {r : OdRow} {s : State}
    (h : Writes via m 0x1F00 5 r s) : perform sig via m s = ofPair (discardStaged (Via.role via) s) := by
  rw [perform_wo h (by decide +kernel)]
  rfl

/-! ## The commands -/

theorem exec_write_rws_pending {via : Via} {m : DictMsg} {i k : Nat} {r : OdRow} {p : PendCommit} {s : State}
    (h : Writes via m i k r s) (hop : m.op = 2) (hacc : r.acc = .rws) (hp : (roleSt (Via.role via) s).pend = some p) :
    exec (.write via m) s = .next (answered via m .conflict 0 [] s) := by
  have hperf : perform none via m s = ofPair (.conflict, s) := by
    rw [perform_write h, hacc]
    exact congrArg ofPair (stage_pending hp i k (leNat m.value))
  exact congrArg _ (serveIf_eq_answered (by simp [hop]) h.request.toAsks hperf)

theorem exec_writeBlock_pending {via : Via} {m : DictMsg} {r : OdRow} {p : PendCommit} {s : State} (h : Request via m s)
    (hop : m.op = 4) (himage : m.index ≠ 0xC040) (hw : writeCheck (Via.role via) s m.index.toNat m.sub.toNat = .ok r)
    (hlong : 1024 < r.size) (htyp : m.typ.toNat = r.ty.code) (hsome : 1 ≤ m.value.length) (hblock : m.value.length ≤ 1024)
    (hp : (roleSt (Via.role via) s).pend = some p) :
    exec (.writeBlock via m) s = .next (answered via m .conflict 0 [] s) := by
  have hindex : m.index.toNat ≠ 0xC040 := fun he => himage (BitVec.eq_of_toNat_eq he)
  have hperf : perform none via m s = ofPair (.conflict, s) := by
    rw [perform_run h, hop, htyp]
    exact writeBlockObject_pending hw hlong hindex hsome hblock hp
  exact congrArg _ (serveIf_eq_answered (by simp [hop]) h.toAsks hperf)

theorem exec_commit_pending {via : Via} {m : DictMsg} {r : OdRow} {p : PendCommit} {s : State} (h : Writes via m 0x1F00 1 r s)
    (hp : (roleSt (Via.role via) s).pend = some p) :
    exec (.commit via m) s = .next (answered via m .conflict 0 [] s) := by
  have hperf : perform none via m s = ofPair (.conflict, s) := by rw [perform_commitWrite h, commitWrite_pending hp]
  exact congrArg _ (serveIf_eq_answered (commits_eq_true h) h.request.toAsks hperf)

/-- A write of OD 0x1F00:04 comes to what cancelling comes to. -/
theorem exec_cancelPendingCommit {via : Via} {m : DictMsg} {r : OdRow} {st : Status} {s t : State}
    (h : Writes via m 0x1F00 4 r s) (hc : cancelCommit (Via.role via) s = (st, t)) :
    exec (.cancelPendingCommit via m) s = .next (answered via m st 0 [] t) := by
  have hperf : perform none via m s = ofPair (st, t) := by rw [perform_cancelCommit h, hc]
  exact congrArg _ (serveIf_eq_answered (writes_eq_true h (by decide)) h.request.toAsks hperf)

theorem exec_discardStagedSet {via : Via} {m : DictMsg} {r : OdRow} {s : State} (h : Writes via m 0x1F00 5 r s) :
    exec (.discardStagedSet via m) s =
      .next (answered via m .ok 0 [] (setRole (Via.role via) (fun x => { x with staged := [] }) s)) :=
  congrArg _ (serveIf_eq_answered (writes_eq_true h (by decide)) h.request.toAsks (perform_discardStaged h))

/-- Settles O9: each operation that would add to the staged set or make a second commit asks for the pending one first, and the
requests reach these operations by their listing's access. -/
theorem oneCommitIsPendingAtATime : Obligations.OneCommitIsPendingAtATime :=
  ⟨fun _ _ _ _ _ _ _ h hop hacc hp => exec_write_rws_pending h hop hacc hp,
    fun _ _ _ _ _ h hop himage hw hlong htyp _ hsome hblock hp =>
      exec_writeBlock_pending h hop himage hw hlong htyp hsome hblock hp,
    fun _ _ _ _ _ h hp => exec_commit_pending h hp,
    fun _ _ _ _ _ h hp => exec_cancelPendingCommit h (cancelCommit_pending hp),
    fun _ _ _ _ h hp => exec_cancelPendingCommit h (cancelCommit_none hp),
    fun _ _ _ _ h => exec_discardStagedSet h⟩

end Sys2Proof.Proofs
end

section
/-! PROOFS. The wheel's restart (03_wheel_and_plans.md, R80, R84): what a write of OD 0x2000:02 asks for before it restarts the
wheel, and how the next beat is judged against the position it wrote. -/

namespace Sys2Proof.Proofs
open Sys2Proof Sys2Proof.Machine Sys2Proof.Laws

/-! ## What refuses a restart -/

/-- Without a pending commit none draws on the comparators, neither for itself nor for a plan it would load. -/
theorem commitComps_eq_zero {s : State} (hop : s.mgmt.op.pend = none) (hten : s.mgmt.ten.pend = none) : commitComps s = 0 := by
  simp [commitComps, hop, hten]

theorem boundComps_eq_zero {s : State} (hop : s.mgmt.op.pend = none) (hten : s.mgmt.ten.pend = none) : boundComps s = 0 := by
  simp [boundComps, hop, hten]

theorem restartWheel_free {s : State} (hactive : s.wheel.active = none) (hnext : s.wheel.next = none)
    (hop : s.mgmt.op.pend = none) (hten : s.mgmt.ten.pend = none) (hcmds : cmdComps s = 0) (v : Nat) :
    restartWheel v s = (.ok, { s with wheel := { s.wheel with
      cur := BitVec.ofNat 64 v, floor := BitVec.ofNat 64 v, fresh := true, stepStart := none } }) := by
  simp [restartWheel, hactive, hnext, hop, hten, hcmds, boundComps_eq_zero hop hten, commitComps_eq_zero hop hten]

theorem restartWheel_held {s : State} (hheld : s.wheel.active ≠ none ∨ s.wheel.next ≠ none ∨ s.mgmt.op.pend ≠ none ∨
    s.mgmt.ten.pend ≠ none ∨ cmdComps s ≠ 0) (v : Nat) : restartWheel v s = (.conflict, s) := by
  have hguard : (s.wheel.active.isSome || s.wheel.next.isSome || s.mgmt.op.pend.isSome || s.mgmt.ten.pend.isSome ||
      boundComps s != 0 || commitComps s != 0 || cmdComps s != 0) = true := by
    simp only [← Option.isSome_iff_ne_none] at hheld
    rcases hheld with h | h | h | h | h <;> simp [h]
  exact if_pos hguard

/-! ## The write of OD 0x2000:02 -/

theorem odFind_wheelFloor_acc : (odFind 0x2000 2).map (fun x => x.acc) = some .rw := by decide +kernel

theorem perform_restartWheel {sig : Option Bool} {via : Via} {m : DictMsg} {r : OdRow} {s : State} (h : Writes via m 0x2000 2 r s) :
    perform sig via m s = ofPair (restartWheel (leNat m.value) s) := by
  have hacc : r.acc = .rw := by simpa [writes_listed h] using odFind_wheelFloor_acc
  rw [perform_write h, hacc]
  rfl

/-- The command answers what restarting the wheel comes to. -/
theorem exec_wheelRestart {via : Via} {m : DictMsg} {r : OdRow} {st : Status} {s t : State} (h : Writes via m 0x2000 2 r s)
    (hr : restartWheel (leNat m.value) s = (st, t)) :
    exec (.wheelRestart via m) s = .next (answered via m st 0 [] t) := by
  have hperf : perform none via m s = ofPair (st, t) := by rw [perform_restartWheel h, hr]
  exact congrArg _ (serveIf_eq_answered (writes_eq_true h (by decide)) h.request.toAsks hperf)

/-! ## The first beat after a restart -/

/-- A position that names a layer of its step, judged before any beat has taken effect: the floor takes the place of the current
position. -/
theorem judgeBeat_fresh {w : WPos} {s : State} (hok : Pos.ok w = true) (hlayer : Pos.layer w ≤ lastAt s (Pos.step w))
    (hfresh : s.wheel.fresh = true) (c : U16) :
    judgeBeat w c s = if w.toNat < s.wheel.floor.toNat then beatBackward w s
      else if tooEarly s w then holdBeat w c s else takeEffect w c s := by
  simp [judgeBeat, hok, Nat.not_lt.2 hlayer, hfresh]

/-- Settles O8: the guard of the restart is what the statement lists, since the comparators of commits are those of pending ones,
and a fresh wheel calls a beat backward by its floor alone. -/
theorem wheelRestarts : Obligations.WheelRestarts :=
  ⟨fun _ _ _ _ h _ hactive hnext hop hten hcmds => exec_wheelRestart h (restartWheel_free hactive hnext hop hten hcmds _),
    fun _ _ _ _ h _ hheld => exec_wheelRestart h (restartWheel_held hheld _),
    fun _ c _ hok hlayer hfresh hbehind => by rw [judgeBeat_fresh hok hlayer hfresh c, if_pos hbehind],
    fun _ c _ hok hlayer hfresh hreached hearly => by
      rw [judgeBeat_fresh hok hlayer hfresh c, if_neg (Nat.not_lt.2 hreached), hearly]
      rfl⟩

end Sys2Proof.Proofs
end

section
/-! PROOFS. What every step keeps (01_programming_model.md, Commands; R21, R80): the canonical forms of the stores, the commands
that wait, the clock, and the parts that a command of another kind does not write. -/

namespace Sys2Proof.Proofs
open Sys2Proof Sys2Proof.Machine Sys2Proof.Laws

/-! ## The invariant -/

/-- The dictionary store and the partition ranges are empty after reset. -/
theorem invariant_reset : Invariant State.reset := ⟨by decide, by decide⟩

/-- Settles O3: both stores are empty. -/
theorem resetMeetsTheInvariant : Obligations.ResetMeetsTheInvariant := invariant_reset

/-- Keeping the forms of the two stores is keeping the invariant. -/
theorem Invariant.of_kept {W : Nat} {s t : State} (h : Kept W s t) (hs : Invariant s) : Invariant t :=
  ⟨h.odForm hs.odForm, h.memForm hs.memForm⟩

/-- The invariant does not look at the queue of commands or at the clock. -/
theorem invariant_with_pending {s : State} (h : Invariant s) (cs : List Instr) : Invariant { s with pending := cs } :=
  ⟨h.odForm, h.memForm⟩

theorem invariant_with_now {s : State} (h : Invariant s) (n : Nat) : Invariant { s with now := n } := ⟨h.odForm, h.memForm⟩

/-- What the block goes on with in a nanosecond without a command keeps what every command keeps, after the clock has moved. -/
theorem tick_kept (s : State) : Kept 4194303 { s with now := s.now + 1 } (tick s) := by
  have hall : ∀ w, w &&& 4194303 = w → Sub w 4194303 := fun _ h => h
  refine tendPeer_kept (hall _ rfl) (tendRecalls_kept (hall _ rfl) (flushVectors_kept (hall _ rfl) ?_))
  exact flushHeld_kept (hall _ rfl) (tendPrefix_kept (hall _ rfl) (rebuildStep_kept (hall _ rfl) (Kept.refl _ _)))

/-- Settles O4: a command keeps the two forms whatever it is, and so does a nanosecond without one. -/
theorem everyStepKeepsTheInvariant : Obligations.EveryStepKeepsTheInvariant := by
  intro s t hs h
  unfold step at h
  split at h
  · cases h
    exact Invariant.of_kept (tick_kept s) (invariant_with_now hs _)
  · exact Invariant.of_kept (exec_kept h) (invariant_with_pending hs _)

/-! ## Every command completes -/

/-- No arm of the dispatch stops the block or is refused. -/
theorem exec_next (c : Instr) (s : State) : ∃ t, exec c s = .next t := by
  cases c <;> exact ⟨_, rfl⟩

theorem step_next (s : State) : ∃ t, step s = .next t := by
  unfold step
  split
  · exact ⟨_, rfl⟩
  · exact exec_next _ _

/-- Settles O5: each command answers a next state, and what every command keeps covers the queue behind it and the clock. -/
theorem everyCommandCompletes : Obligations.EveryCommandCompletes := by
  refine ⟨fun c s => ?_, fun s hs => ⟨hs, step_next s⟩⟩
  obtain ⟨t, ht⟩ := exec_next c s
  exact ⟨t, ht, (exec_kept ht).pending, (exec_kept ht).now⟩

/-! ## What commands of no named class write -/

/-- All parts but the wheel, partition memory, code tables, and secrets and tenancy. -/
def otherParts : Nat := 4160494

/-- The parts that a command outside the dictionary requests, the host's messages and the lifecycle may write: never the wheel, and
partition memory, code tables and secrets only where its class names them. -/
def mayWrite (c : Instr) : Nat :=
  match touchesMemory c, touchesTables c, touchesSecrets c with
  | false, false, false => otherParts
  | false, false, true => otherParts + 2 ^ 15
  | false, true, false => otherParts + 2 ^ 10
  | false, true, true => otherParts + 2 ^ 10 + 2 ^ 15
  | true, false, false => otherParts + 2 ^ 0
  | true, false, true => otherParts + 2 ^ 0 + 2 ^ 15
  | true, true, false => otherParts + 2 ^ 0 + 2 ^ 10
  | true, true, true => otherParts + 2 ^ 0 + 2 ^ 10 + 2 ^ 15

/-- Each command writes within its class. -/
theorem exec_kept_mayWrite {c : Instr} {s t : State} (h : exec c s = .next t) (hdict : isDictionary c = false)
    (hmsg : isMessage c = false) (hlife : isLifecycle c = false) : Kept (mayWrite c) s t := by
  cases c with
  | read _ _ | write _ _ | readBlock _ _ | writeBlock _ _ | commit _ _ | cancelPendingCommit _ _ | discardStagedSet _ _
  | record _ _ _ _ | wheelRestart _ _ | configure _ _ | qpConnect _ _ | drain _ _ | qpReset _ _ | qpRelease _ _
  | startFullScan _ _ | formatShelf _ _ | startRebuild _ _ | releaseRequest _ _ | weightKeyWrite _ _ | scanRequest _ _
  | testRequest _ _ | linkTestStart _ _ | linkTestStop _ _ | warmReset _ _ | partitionReset _ _ | firmwareUpdate _ _ _
  | recoveryBlockWrite _ _ _ | discardHeldSave _ _ | clearTheLog _ _ | counterValueWrite _ _ => cases hdict
  | beat _ | beatHoldRelease | sheet _ | submit _ | window _ | sync _ | beatSilence => cases hmsg
  | releaseStepEnd | testComplete _ _ | coldReset _ | boot _ | mgpFault _ | supplySag _ _ | kilnIsolation | saveEnd _
  | thermalSample _ | rtpDomainFailure _ => cases hlife
  | blockWriteTimeout _ => exact (execBlockWriteTimeout_kept h).mono (W := otherParts) (by decide)
  | hello nonce ek => exact (execHello_kept (a0 := nonce) (a1 := ek) h).mono (W := otherParts) (by decide)
  | auth _ _ _ => exact (execAuth_kept h).mono (W := otherParts) (by decide)
  | sessionSetupTimeout _ => exact (execSessionSetupTimeout_kept h).mono (W := otherParts) (by decide)
  | sessionIdleTimeout _ => exact (execSessionIdleTimeout_kept h).mono (W := otherParts) (by decide)
  | commandTailDoorbell _ _ _ => exact (execCommandTailDoorbell_kept h).mono (W := otherParts) (by decide)
  | completionHeadDoorbell _ _ => exact (execCompletionHeadDoorbell_kept h).mono (W := otherParts) (by decide)
  | eventHeadDoorbell _ _ => exact (execEventHeadDoorbell_kept h).mono (W := otherParts) (by decide)
  | mbxSubmit _ _ => exact (execMbxSubmit_kept h).mono (W := otherParts) (by decide)
  | mbxDone _ => exact (execMbxDone_kept h).mono (W := otherParts) (by decide)
  | deferredCommandStart _ => exact (execDeferredCommandStart_kept h).mono (W := otherParts + 2 ^ 0 + 2 ^ 10 + 2 ^ 15) (by decide)
  | seqOpen _ => exact (execSeqOpen_kept h).mono (W := otherParts) (by decide)
  | seqClose _ => exact (execSeqClose_kept h).mono (W := otherParts) (by decide)
  | seqFork _ => exact (execSeqFork_kept h).mono (W := otherParts) (by decide)
  | seqTruncate _ => exact (execSeqTruncate_kept h).mono (W := otherParts) (by decide)
  | kvAppend _ => exact (execKvAppend_kept h).mono (W := otherParts) (by decide)
  | colSeal _ => exact (execColSeal_kept h).mono (W := otherParts) (by decide)
  | colMove _ => exact (execColMove_kept h).mono (W := otherParts) (by decide)
  | colPin _ => exact (execColPin_kept h).mono (W := otherParts) (by decide)
  | colUnpin _ => exact (execColUnpin_kept h).mono (W := otherParts) (by decide)
  | colDiscard _ => exact (execColDiscard_kept h).mono (W := otherParts) (by decide)
  | pfxLookup _ => exact (execPfxLookup_kept h).mono (W := otherParts) (by decide)
  | pfxCommit _ => exact (execPfxCommit_kept h).mono (W := otherParts + 2 ^ 0) (by decide)
  | pfxEvict _ => exact (execPfxEvict_kept h).mono (W := otherParts + 2 ^ 0) (by decide)
  | objCreate _ => exact (execObjCreate_kept h).mono (W := otherParts + 2 ^ 0) (by decide)
  | objWrite _ => exact (execObjWrite_kept h).mono (W := otherParts + 2 ^ 0 + 2 ^ 15) (by decide)
  | objRead _ => exact (execObjRead_kept h).mono (W := otherParts) (by decide)
  | objMove _ => exact (execObjMove_kept h).mono (W := otherParts + 2 ^ 0 + 2 ^ 15) (by decide)
  | objPolicy _ => exact (execObjPolicy_kept h).mono (W := otherParts + 2 ^ 0) (by decide)
  | attn _ => exact (execAttn_kept h).mono (W := otherParts + 2 ^ 0) (by decide)
  | attnBwd _ => exact (execAttnBwd_kept h).mono (W := otherParts + 2 ^ 0) (by decide)
  | specConfirm _ => exact (execSpecConfirm_kept h).mono (W := otherParts + 2 ^ 0) (by decide)
  | compaction _ => exact (execCompaction_kept h).mono (W := otherParts + 2 ^ 0) (by decide)
  | tableBuild _ => exact (execTableBuild_kept h).mono (W := otherParts) (by decide)
  | tableLoad _ => exact (execTableLoad_kept h).mono (W := otherParts + 2 ^ 10) (by decide)
  | compress _ => exact (execCompress_kept h).mono (W := otherParts) (by decide)
  | waitCount _ => exact (execWaitCount_kept h).mono (W := otherParts) (by decide)
  | fence _ => exact (execFence_kept h).mono (W := otherParts) (by decide)
  | cxlMemRead _ _ _ => exact (execCxlMemRead_kept h).mono (W := otherParts + 2 ^ 0) (by decide)
  | cxlMemWrite _ _ _ => exact (execCxlMemWrite_kept h).mono (W := otherParts + 2 ^ 0) (by decide)
  | credit _ => exact (execCredit_kept h).mono (W := otherParts) (by decide)
  | tileLanded _ _ _ _ => exact (execTileLanded_kept h).mono (W := otherParts + 2 ^ 0) (by decide)
  | itemComplete _ _ => exact (execItemComplete_kept h).mono (W := otherParts + 2 ^ 0) (by decide)
  | jobComplete _ => exact (execJobComplete_kept h).mono (W := otherParts + 2 ^ 0) (by decide)
  | moveCommit _ _ => exact (execMoveCommit_kept h).mono (W := otherParts + 2 ^ 0) (by decide)
  | moduleLinkDown _ _ => exact (execModuleLinkDown_kept h).mono (W := otherParts) (by decide)
  | moduleRetrain _ _ => exact (execModuleRetrain_kept h).mono (W := otherParts + 2 ^ 0) (by decide)
  | sidebandFailure _ => exact (execSidebandFailure_kept h).mono (W := otherParts) (by decide)
  | connectTimeout _ => exact (execConnectTimeout_kept h).mono (W := otherParts + 2 ^ 0) (by decide)
  | peerSendTailDoorbell _ _ => exact (execPeerSendTailDoorbell_kept h).mono (W := otherParts + 2 ^ 0) (by decide)
  | peerCompletionHeadDoorbell _ _ => exact (execPeerCompletionHeadDoorbell_kept h).mono (W := otherParts + 2 ^ 0) (by decide)
  | wrWrite _ => exact (execWrWrite_kept h).mono (W := otherParts + 2 ^ 0) (by decide)
  | wrWriteImm _ => exact (execWrWriteImm_kept h).mono (W := otherParts + 2 ^ 0) (by decide)
  | wrRead _ => exact (execWrRead_kept h).mono (W := otherParts + 2 ^ 0) (by decide)
  | wrWaitCount _ => exact (execWrWaitCount_kept h).mono (W := otherParts + 2 ^ 0) (by decide)
  | peerWrite _ _ => exact (execPeerWrite_kept h).mono (W := otherParts + 2 ^ 0) (by decide)
  | peerWriteImm _ _ => exact (execPeerWriteImm_kept h).mono (W := otherParts + 2 ^ 0) (by decide)
  | readReq _ _ => exact (execReadReq_kept h).mono (W := otherParts + 2 ^ 0) (by decide)
  | readResp _ _ => exact (execReadResp_kept h).mono (W := otherParts + 2 ^ 0) (by decide)
  | ack _ _ => exact (execAck_kept h).mono (W := otherParts + 2 ^ 0) (by decide)
  | nak _ _ => exact (execNak_kept h).mono (W := otherParts + 2 ^ 0) (by decide)
  | connect _ _ => exact (execConnect_kept h).mono (W := otherParts + 2 ^ 0) (by decide)
  | connectAck _ _ => exact (execConnectAck_kept h).mono (W := otherParts + 2 ^ 0) (by decide)
  | disconnect _ _ => exact (execDisconnect_kept h).mono (W := otherParts + 2 ^ 0) (by decide)
  | busy _ _ => exact (execBusy_kept h).mono (W := otherParts + 2 ^ 0) (by decide)
  | busyResend _ => exact (execBusyResend_kept h).mono (W := otherParts + 2 ^ 0) (by decide)
  | retransmissionTimeout _ => exact (execRetransmissionTimeout_kept h).mono (W := otherParts + 2 ^ 0) (by decide)
  | peerRekey _ => exact (execPeerRekey_kept h).mono (W := otherParts + 2 ^ 0) (by decide)
  | contextFetch _ => exact (execContextFetch_kept h).mono (W := otherParts + 2 ^ 0) (by decide)
  | relayedPacket _ _ => exact (execRelayedPacket_kept h).mono (W := otherParts) (by decide)
  | leaseRequest _ _ => exact (execLeaseRequest_kept h).mono (W := otherParts + 2 ^ 0) (by decide)
  | leaseGrant _ _ => exact (execLeaseGrant_kept h).mono (W := otherParts + 2 ^ 0) (by decide)
  | leaseRefuse _ _ => exact (execLeaseRefuse_kept h).mono (W := otherParts + 2 ^ 0) (by decide)
  | leaseReturn _ _ => exact (execLeaseReturn_kept h).mono (W := otherParts + 2 ^ 0) (by decide)
  | leaseRecall _ _ => exact (execLeaseRecall_kept h).mono (W := otherParts + 2 ^ 0) (by decide)
  | leaseDone _ _ => exact (execLeaseDone_kept h).mono (W := otherParts + 2 ^ 0) (by decide)
  | borrowerHoldExpiry _ => exact (execBorrowerHoldExpiry_kept h).mono (W := otherParts) (by decide)
  | portBringUp _ _ => exact (execPortBringUp_kept h).mono (W := otherParts) (by decide)
  | bringupStepTimeout _ => exact (execBringupStepTimeout_kept h).mono (W := otherParts) (by decide)
  | linkKey port unit pub ek => exact (execLinkKey_kept (a3 := ek) h).mono (W := otherParts) (by decide)
  | linkCt port unit pub ct => exact (execLinkCt_kept (a3 := ct) h).mono (W := otherParts) (by decide)
  | linkProof _ _ => exact (execLinkProof_kept h).mono (W := otherParts + 2 ^ 0 + 2 ^ 10 + 2 ^ 15) (by decide)
  | dataFrame _ _ => exact (execDataFrame_kept h).mono (W := otherParts) (by decide)
  | creditFrame _ _ => exact (execCreditFrame_kept h).mono (W := otherParts) (by decide)
  | nakFrame _ _ => exact (execNakFrame_kept h).mono (W := otherParts) (by decide)
  | lane _ _ => exact (execLane_kept h).mono (W := otherParts) (by decide)
  | laneFault _ _ => exact (execLaneFault_kept h).mono (W := otherParts) (by decide)
  | laneFrameRepeat _ => exact (execLaneFrameRepeat_kept h).mono (W := otherParts) (by decide)
  | laneAgreementTimeout _ => exact (execLaneAgreementTimeout_kept h).mono (W := otherParts) (by decide)
  | laneRetrain _ _ _ => exact (execLaneRetrain_kept h).mono (W := otherParts) (by decide)
  | laserCheck _ => exact (execLaserCheck_kept h).mono (W := otherParts) (by decide)
  | nakRepeat _ => exact (execNakRepeat_kept h).mono (W := otherParts) (by decide)
  | replayTimeout _ => exact (execReplayTimeout_kept h).mono (W := otherParts) (by decide)
  | creditFrameTimer _ => exact (execCreditFrameTimer_kept h).mono (W := otherParts) (by decide)
  | linkRekey _ => exact (execLinkRekey_kept h).mono (W := otherParts) (by decide)
  | packetBoundary _ => exact (execPacketBoundary_kept h).mono (W := otherParts) (by decide)
  | identify _ _ _ => exact (execIdentify_kept h).mono (W := otherParts + 2 ^ 0) (by decide)
  | param _ _ => exact (execParam_kept h).mono (W := otherParts + 2 ^ 0) (by decide)
  | badmap _ _ _ => exact (execBadmap_kept h).mono (W := otherParts + 2 ^ 0) (by decide)
  | bridgeRead _ _ _ => exact (execBridgeRead_kept h).mono (W := otherParts + 2 ^ 0) (by decide)
  | readMeta _ _ _ => exact (execReadMeta_kept h).mono (W := otherParts + 2 ^ 0) (by decide)
  | program _ _ => exact (execProgram_kept h).mono (W := otherParts + 2 ^ 0 + 2 ^ 10 + 2 ^ 15) (by decide)
  | erase _ _ => exact (execErase_kept h).mono (W := otherParts + 2 ^ 0) (by decide)
  | bridgeReset _ _ => exact (execBridgeReset_kept h).mono (W := otherParts + 2 ^ 0) (by decide)
  | bridgeResponseTimeout _ _ => exact (execBridgeResponseTimeout_kept h).mono (W := otherParts + 2 ^ 0) (by decide)
  | portDownWaitExpiry _ => exact (execPortDownWaitExpiry_kept h).mono (W := otherParts + 2 ^ 0) (by decide)
  | journalHalfFull _ => exact (execJournalHalfFull_kept h).mono (W := otherParts) (by decide)
  | checkpoint _ => exact (execCheckpoint_kept h).mono (W := otherParts) (by decide)
  | garbageCollection _ => exact (execGarbageCollection_kept h).mono (W := otherParts + 2 ^ 0) (by decide)
  | shelfStartup _ _ => exact (execShelfStartup_kept h).mono (W := otherParts) (by decide)
  | spdmRequest _ => exact (execSpdmRequest_kept h).mono (W := otherParts + 2 ^ 15) (by decide)
  | finish _ _ _ => exact (execFinish_kept h).mono (W := otherParts + 2 ^ 15) (by decide)
  | getMeasurements _ _ _ => exact (execGetMeasurements_kept h).mono (W := otherParts) (by decide)
  | spdmSessionEnd _ => exact (execSpdmSessionEnd_kept h).mono (W := otherParts + 2 ^ 15) (by decide)
  | own _ => exact (execOwn_kept h).mono (W := otherParts + 2 ^ 15) (by decide)
  | setSecret _ _ _ => exact (execSetSecret_kept h).mono (W := otherParts + 2 ^ 15) (by decide)
  | tenancySecret _ _ => exact (execTenancySecret_kept h).mono (W := otherParts + 2 ^ 15) (by decide)
  | status _ => exact (execStatus_kept h).mono (W := otherParts) (by decide)
  | ownershipWaitExpiry => exact (execOwnershipWaitExpiry_kept h).mono (W := otherParts + 2 ^ 15) (by decide)
  | trigEdge => exact (execTrigEdge_kept h).mono (W := otherParts + 2 ^ 0) (by decide)
  | pmbusPoll _ _ => exact (execPmbusPoll_kept h).mono (W := otherParts) (by decide)
  | pmbusTimeout _ => exact (execPmbusTimeout_kept h).mono (W := otherParts) (by decide)
  | powerCheck => exact (execPowerCheck_kept h).mono (W := otherParts) (by decide)
  | logFlush => exact (execLogFlush_kept h).mono (W := otherParts) (by decide)
  | escalation _ _ => exact (execEscalation_kept h).mono (W := otherParts) (by decide)
  | counterSample _ _ _ _ => exact (execCounterSample_kept h).mono (W := otherParts) (by decide)
  | saveRingCopyEnd => exact (execSaveRingCopyEnd_kept h).mono (W := otherParts + 2 ^ 0) (by decide)
  | coreFailure _ => exact (execCoreFailure_kept h).mono (W := otherParts + 2 ^ 0) (by decide)
  | slotProgrammed _ => exact (execSlotProgrammed_kept h).mono (W := otherParts) (by decide)
  | storedValuesWritten => exact (execStoredValuesWritten_kept h).mono (W := otherParts) (by decide)
  | blockEncoded _ _ _ => exact (execBlockEncoded_kept h).mono (W := otherParts + 2 ^ 0) (by decide)
  | borrowerLeaseRequest _ _ => exact (execBorrowerLeaseRequest_kept h).mono (W := otherParts + 2 ^ 0) (by decide)
  | idleFrame _ _ => exact (execIdleFrame_kept h).mono (W := otherParts) (by decide)
  | checkerLock _ => exact (execCheckerLock_kept h).mono (W := otherParts) (by decide)
  | checkerLockLoss _ => exact (execCheckerLockLoss_kept h).mono (W := otherParts) (by decide)
  | checkerError _ _ => exact (execCheckerError_kept h).mono (W := otherParts) (by decide)

theorem mayWrite_wheel (c : Instr) : (mayWrite c).testBit 4 = false := by
  unfold mayWrite
  cases touchesMemory c <;> cases touchesTables c <;> cases touchesSecrets c <;> rfl

theorem mayWrite_secrets {c : Instr} (h : touchesSecrets c = false) : (mayWrite c).testBit 15 = false := by
  unfold mayWrite
  rw [h]
  cases touchesMemory c <;> cases touchesTables c <;> rfl

theorem mayWrite_memory {c : Instr} (h : touchesMemory c = false) : (mayWrite c).testBit 0 = false := by
  unfold mayWrite
  rw [h]
  cases touchesTables c <;> cases touchesSecrets c <;> rfl

theorem mayWrite_tables {c : Instr} (h : touchesTables c = false) : (mayWrite c).testBit 10 = false := by
  unfold mayWrite
  rw [h]
  cases touchesMemory c <;> cases touchesSecrets c <;> rfl

/-- Settles O6: each command writes within its class, and a byte of a partition range is read from the memory alone. -/
theorem onlyTheNamedCommandsTouch : Obligations.OnlyTheNamedCommandsTouch := by
  intro c s t h hdict hmsg hlife
  have hkept := exec_kept_mayWrite h hdict hmsg hlife
  refine ⟨hkept.wheelSame (mayWrite_wheel c), fun hc => hkept.secSame (mayWrite_secrets hc), fun hc p off => ?_,
    fun hc => hkept.tablesSame (mayWrite_tables hc)⟩
  unfold memByte
  rw [hkept.memSame (mayWrite_memory hc)]

end Sys2Proof.Proofs
end

section
/-! PROOFS. Steps and reset (01_programming_model.md, Three ways in; R21, R43, R80, R434, R460): a step is the front command's, a quiet
nanosecond moves the clock alone, and reset leaves every object at its default. -/

namespace Sys2Proof.Proofs
open Sys2Proof Sys2Proof.Machine Sys2Proof.Laws

/-! ## A quiet nanosecond -/

/-- An action that the condition bars for every element of a list does nothing over the list. -/
theorem forEach_onlyIf_false {α : Type} {f : α → State → State} {b : α → Bool} {l : List α} (h : ∀ x ∈ l, b x = false) (s : State) :
    forEach (fun x => onlyIf (b x) (f x)) l s = s := by
  induction l with
  | nil => rfl
  | cons x xs ih =>
    rw [forEach_cons, h x (List.mem_cons_self ..), onlyIf_false]
    exact ih fun y hy => h y (List.mem_cons_of_mem _ hy)

theorem rebuildStep_idle {s : State} (h : s.pfx.rebuildState ≠ 1) : rebuildStep s = s := by
  simp [rebuildStep, h]

theorem tendPrefix_idle {s : State} (h : s.queues.cmds = []) : tendPrefix s = s := by
  simp [tendPrefix, heldPrefix, settleDurable, h]

theorem flushHeld_idle {s : State} (hw : s.objs.heldWrites = []) (hb : s.objs.bring = []) : flushHeld s = s := by
  simp [flushHeld, hw, hb]

theorem flushVectors_idle {s : State} (h : s.host.vectorsHeld = []) : flushVectors s = s := by
  unfold flushVectors
  split
  · rw [h, forEach_nil, ← h]
  · rfl

theorem tendRecalls_idle {s : State} (h : ∀ l ∈ s.pasture.leases, l.lent = true ∨ l.recalls = []) : tendRecalls s = s :=
  forEach_onlyIf_false (fun l hl => by rcases h l hl with h | h <;> simp [h]) s

theorem tendPairs_idle {s : State} (h : ∀ q ∈ s.peer.qps, q.waiting = [] ∧ (q.state = .draining → q.started ≠ [])) :
    tendPairs s = s := by
  refine forEach_onlyIf_false (fun q hq => ?_) s
  obtain ⟨hwaiting, hdraining⟩ := h q hq
  by_cases hd : q.state = .draining
  · simp [hwaiting, hdraining hd]
  · simp [hwaiting, hd]

theorem tendPeer_idle {s : State} (hp : s.peer.heldPkts = []) (hl : s.peer.leaseOut = [])
    (hq : ∀ q ∈ s.peer.qps, q.waiting = [] ∧ (q.state = .draining → q.started ≠ [])) : tendPeer s = s := by
  have hpkts : resumePkts s = s := by simp [resumePkts, hp]
  have hleases : tendLeases s = s := by simp [tendLeases, hl]
  rw [tendPeer, hpkts, hleases, tendPairs_idle hq]

/-- Where nothing waits, each of the things that the block goes on with of itself leaves the state alone. -/
theorem goOn_quiet {s : State} (h : Quiet s) :
    tendPeer (tendRecalls (flushVectors (flushHeld (tendPrefix (rebuildStep s))))) = s := by
  rw [rebuildStep_idle h.rebuild, tendPrefix_idle h.commands, flushHeld_idle h.writes h.bring, flushVectors_idle h.vectors,
    tendRecalls_idle h.recalls, tendPeer_idle h.packets h.leases h.pairs]

/-- Quiet does not look at the clock. -/
theorem tick_quiet {s : State} (h : Quiet s) : tick s = { s with now := s.now + 1 } :=
  goOn_quiet (s := { s with now := s.now + 1 })
    ⟨h.rebuild, h.commands, h.writes, h.bring, h.vectors, h.recalls, h.packets, h.leases, h.pairs⟩

/-- Settles O1: the front command's own step, and the clock that every other step keeps. -/
theorem stepRunsTheFrontCommand : Obligations.StepRunsTheFrontCommand := by
  refine ⟨fun _ _ _ => rfl, fun s h => ⟨?_, (tick_kept s).now⟩, fun _ => tick_quiet⟩
  unfold step
  rw [h]

/-! ## Reset -/

/-- An object that nothing has written shows its listing's default (R21). -/
theorem od_reset {i k : Nat} {r : OdRow} (hk : k < 256) (hr : odFind i k = some r) : od State.reset i k = r.dflt := by
  have hi : odKey i k / 256 = i := by unfold odKey; omega
  have hs : odKey i k % 256 = k := by unfold odKey; omega
  show odDefault (odKey i k) = r.dflt
  rw [odDefault, hi, hs, hr]

/-- Settles O2: the fields as `State.reset` gives them, and the default of what is not stored. -/
theorem resetHoldsTheDefaults : Obligations.ResetHoldsTheDefaults := by
  refine ⟨rfl, rfl, rfl, rfl, rfl, rfl, rfl, rfl, rfl, rfl, rfl, rfl, rfl, rfl, rfl, rfl, rfl, rfl, rfl, rfl, rfl, rfl,
    fun _ _ _ => od_reset, fun _ _ => rfl⟩

end Sys2Proof.Proofs
end

section
/-! PROOFS. Reads and writes of the dictionary (01_programming_model.md, R13 to R34; R464): what each operation on an object comes to
under the checks that admit it, and the requests that reach it. -/

namespace Sys2Proof.Proofs
open Sys2Proof Sys2Proof.Machine Sys2Proof.Laws

/-! ## Reads -/

/-- A row's own request, performed to an answer with nothing left to do after the response. -/
theorem serveIf_eq_answered_value {b : Bool} {via : Via} {m : DictMsg} {st : Status} {typ : Nat} {value : Bytes} {s t : State}
    (hb : b = true) (h : Asks via m s) (hp : perform none via m s = { st := st, typ := typ, value := value, state := t }) :
    serveIf b via m s = answered via m st typ value t := by
  rw [serveIf_request hb h, serveNew_plain hp]

theorem readObject_ok {role : Role} {i k : Nat} {r : OdRow} {s : State} (h : readCheck role s i k = .ok r) (hsize : r.size ≤ 1024)
    (staged : Bool) :
    readObject role staged i k s =
      { st := .ok, typ := r.ty.code, value := natLe r.size (odValue role staged s r i k), state := s } := by
  unfold readObject
  rw [h]
  exact if_neg (Nat.not_lt.2 hsize)

theorem readObject_refused {role : Role} {i k : Nat} {st : Status} {s : State} (h : readCheck role s i k = .error st)
    (staged : Bool) : readObject role staged i k s = { st := st, state := s } := by
  unfold readObject
  rw [h]
  rfl

theorem readBlockObject_ok {role : Role} {i k block : Nat} {r : OdRow} {s : State} (h : readCheck role s i k = .ok r)
    (hplain : ctrLocOf i = none) (hlong : 1024 < r.size) (hinside : 1024 * block < r.size) (staged : Bool) :
    readBlockObject role staged i k block s =
      { st := .ok, typ := r.ty.code, value := blockOf (odValue role staged s r i k) r.size block, state := s } := by
  unfold readBlockObject
  rw [h]
  simp [isCounterRecord, hplain, Nat.not_le.2 hlong, Nat.not_le.2 hinside]

theorem exec_read_ok {via : Via} {m : DictMsg} {r : OdRow} {s : State} (h : Request via m s) (hop : m.op = 1)
    (hr : readCheck (Via.role via) s m.index.toNat m.sub.toNat = .ok r) (hsize : r.size ≤ 1024) :
    exec (.read via m) s = .next (answered via m .ok r.ty.code
      (natLe r.size (odValue (Via.role via) (bitOf m.flags.toNat 0) s r m.index.toNat m.sub.toNat)) s) := by
  refine congrArg _ (serveIf_eq_answered_value (by simp [hop]) h.toAsks ?_)
  rw [perform_run h, hop]
  exact readObject_ok hr hsize _

theorem exec_readBlock_ok {via : Via} {m : DictMsg} {r : OdRow} {s : State} (h : Request via m s) (hop : m.op = 3)
    (hr : readCheck (Via.role via) s m.index.toNat m.sub.toNat = .ok r) (hplain : ctrLocOf m.index.toNat = none)
    (hlong : 1024 < r.size) (hinside : 1024 * m.block.toNat < r.size) :
    exec (.readBlock via m) s = .next (answered via m .ok r.ty.code
      (natLe (min 1024 (r.size - 1024 * m.block.toNat))
        (odValue (Via.role via) (bitOf m.flags.toNat 0) s r m.index.toNat m.sub.toNat / 2 ^ (8192 * m.block.toNat))) s) := by
  refine congrArg _ (serveIf_eq_answered_value (by simp [hop]) h.toAsks ?_)
  rw [perform_run h, hop]
  exact readBlockObject_ok hr hplain hlong hinside _

/-- Settles O10: a read that its check admits puts the value into the answer and hands the state on as it is. -/
theorem readsAnswerTheValue : Obligations.ReadsAnswerTheValue :=
  ⟨fun _ _ _ _ h hop hr hsize => exec_read_ok h hop hr hsize,
    fun _ _ _ _ h hop hr hplain hlong hinside => exec_readBlock_ok h hop hr hplain hlong hinside⟩

/-! ## Refusals -/

theorem writeObject_refused {role : Role} {typ i k : Nat} {bs : Bytes} {st : Status} {s : State}
    (h : writeCheck role s i k = .error st) : writeObject role typ i k bs s = ofPair (st, s) := by
  unfold writeObject
  rw [h]
  rfl

theorem exec_read_refused {via : Via} {m : DictMsg} {st : Status} {s : State} (h : Request via m s) (hop : m.op = 1)
    (hr : readCheck (Via.role via) s m.index.toNat m.sub.toNat = .error st) :
    exec (.read via m) s = .next (answered via m st 0 [] s) := by
  refine congrArg _ (serveIf_eq_answered_value (by simp [hop]) h.toAsks ?_)
  rw [perform_run h, hop]
  exact readObject_refused hr _

theorem exec_write_refused {via : Via} {m : DictMsg} {st : Status} {s : State} (h : Request via m s) (hop : m.op = 2)
    (hw : writeCheck (Via.role via) s m.index.toNat m.sub.toNat = .error st) :
    exec (.write via m) s = .next (answered via m st 0 [] s) := by
  refine congrArg _ (serveIf_eq_answered (by simp [hop]) h.toAsks ?_)
  rw [perform_run h, hop]
  exact writeObject_refused hw

/-- In OWNED the tenant's objects are closed to the operator (R15). -/
theorem readCheck_operator_tenantOwned {i k : Nat} {r : OdRow} {s : State} (hr : odFind i k = some r) (howned : owned s = true)
    (htenant : tenantOwned r = true) : readCheck .operator s i k = .error .notOwned := by
  simp [readCheck, hr, howned, htenant]

/-- Outside OWNED a tenant reads the identity objects alone (R14). -/
theorem readCheck_tenant_unowned {i k : Nat} {s : State} (howned : owned s = false) (hi : i < 0x1000 ∨ 0x2000 ≤ i) :
    readCheck .tenant s i k = .error .notOwned := by
  have hout : (decide (0x1000 ≤ i) && decide (i < 0x2000)) = false := by simp; omega
  simp [readCheck, howned, hout]

theorem writeCheck_tenant_unowned {i k : Nat} {s : State} (howned : owned s = false) :
    writeCheck .tenant s i k = .error .notOwned := by
  simp [writeCheck, howned]

theorem readCheck_operator_unlisted {i k : Nat} (hr : odFind i k = none) (s : State) :
    readCheck .operator s i k = .error .badObject := by
  simp [readCheck, hr]

theorem writeCheck_operator_unlisted {i k : Nat} (hr : odFind i k = none) (s : State) :
    writeCheck .operator s i k = .error .badObject := by
  simp [writeCheck, hr]

/-- Settles O11: a check that fails is the whole of the request, and each check asks for the role before the listing. -/
theorem refusedRequestsChangeNothing : Obligations.RefusedRequestsChangeNothing :=
  ⟨fun _ _ _ _ h hop hr => exec_read_refused h hop hr,
    fun _ _ _ _ h hop hw => exec_write_refused h hop hw,
    fun _ _ _ _ hr _ howned htenant => readCheck_operator_tenantOwned hr howned htenant,
    fun _ _ _ howned hi => readCheck_tenant_unowned howned hi,
    fun _ _ _ howned => writeCheck_tenant_unowned howned,
    fun s _ _ hr => ⟨readCheck_operator_unlisted hr s, writeCheck_operator_unlisted hr s⟩⟩

/-! ## Writes -/

theorem stage_room {role : Role} {s : State} {i k v : Nat} (hp : (roleSt role s).pend = none)
    (hroom : (insertKey (odKey i k) v (roleSt role s).staged).length ≤ 512) :
    stage role i k v s =
      (.ok, setRole role (fun x => { x with staged := insertKey (odKey i k) v (roleSt role s).staged }) s) := by
  simp [stage, hp, Nat.not_lt.2 hroom]

/-- An RW object that no row of `writeRw` names (R19, R21). -/
theorem writeRw_plain {role : Role} {i k v : Nat} {s : State} (hctr : ctrLocOf i = none) (hwheel : i ≠ 0x2000) (htest : i ≠ 0xB040)
    (hreg : i ≠ 0xC020) (hcursor : i ≠ 0xD001) (hlanes : i ≠ 0x7100 ∨ (k ≠ 2 ∧ k ≠ 3)) :
    writeRw role i k v s = (.ok, markStored [odKey i k] (odSet i k v s)) := by
  unfold writeRw
  split
  · exact absurd rfl hwheel
  · exact absurd rfl htest
  · exact absurd rfl hcursor
  · simp at hlanes
  · simp at hlanes
  · exact absurd rfl hreg
  · rw [hctr]
    rfl

theorem odFind_minLanes_acc : ∀ k, k = 2 ∨ k = 3 → (odFind 0x7100 k).map (fun x => x.acc) = some .rw := by
  rintro k (rfl | rfl) <;> decide +kernel

/-- A new least number of lanes is looked at on every port of its kind (R396). -/
theorem writeRw_minLanes {role : Role} {k v : Nat} {s : State} (hk : k = 2 ∨ k = 3) :
    writeRw role 0x7100 k v s = (.ok, forEach (fun i => lanesChanged (if k = 2 then i else 32 + i))
      (List.range (if k = 2 then 32 else 16)) (markStored [odKey 0x7100 k] (odSet 0x7100 k v s))) := by
  rcases hk with rfl | rfl <;> rfl

/-- An admitted WRITE comes to what its operation comes to. -/
theorem exec_write_of_perform {via : Via} {m : DictMsg} {i k : Nat} {r : OdRow} {st : Status} {s t : State}
    (h : Writes via m i k r s) (hop : m.op = 2) (hp : perform none via m s = ofPair (st, t)) :
    exec (.write via m) s = .next (answered via m st 0 [] t) :=
  congrArg _ (serveIf_eq_answered (by simp [hop]) h.request.toAsks hp)

/-- Settles O12: the access kind of the listing sends a write to the staged set or to the dictionary. -/
theorem writesTakeEffect : Obligations.WritesTakeEffect := by
  refine ⟨fun via m i k r s h hop hacc hp hroom => exec_write_of_perform h hop ?_,
    fun via m i k r s h hop hacc hctr hwheel htest hreg hcursor hlanes => exec_write_of_perform h hop ?_,
    fun via m k r s h hop hk => exec_write_of_perform h hop ?_⟩
  · rw [perform_write h, hacc]
    exact congrArg ofPair (stage_room hp hroom)
  · rw [perform_write h, hacc]
    exact congrArg ofPair (writeRw_plain hctr hwheel htest hreg hcursor hlanes)
  · have hacc : r.acc = .rw := by simpa [writes_listed h] using odFind_minLanes_acc k hk
    rw [perform_write h, hacc]
    exact congrArg ofPair (writeRw_minLanes hk)

end Sys2Proof.Proofs
end

section
/-! PROOFS. Long values, commits and images (01_programming_model.md, R22 to R25, R31; 14_management_power.md, R464, R466): how a value
is gathered from its blocks, what a good commit makes of the staged set, and what the last block of an image starts. -/

namespace Sys2Proof.Proofs
open Sys2Proof Sys2Proof.Machine Sys2Proof.Laws

/-! ## Gathering a value -/

theorem toNat_ne_zero {n : Nat} {b : BitVec n} (h : b ≠ 0) : b.toNat ≠ 0 :=
  fun he => h (BitVec.eq_of_toNat_eq (by simpa using he))

/-- The first block of a longer value starts the write; an object other than the image ends with its size. -/
theorem takeBlock_first {via : Via} {i k size : Nat} {bs : Bytes} {s : State} (hwhole : 1024 < wholeLength i size bs)
    (hfull : bs.length = 1024) : takeBlock via i k size 0 bs s = some (bs, false) := by
  simp [takeBlock, hfull, Nat.not_le.2 hwhole]

/-- A block that follows the earlier ones and completes the value. -/
theorem takeBlock_last {via : Via} {i k size block : Nat} {bs : Bytes} {b : BlockWrite} {s : State} (himage : i ≠ 0xC040)
    (hblock : block ≠ 0) (hb : s.mgmt.blocks.find? (sameWrite via i k) = some b) (hnext : b.next = block)
    (hall : b.bytes.length + bs.length = size) :
    takeBlock via i k size block bs s = some (b.bytes ++ bs, true) := by
  have hfound : (Option.filter (fun x : BlockWrite => x.next == block) (some b)) = some b := by simp [hnext]
  simp [takeBlock, hblock, hb, hfound, wholeLength, himage, hall]

/-- Every admitted block of a long object, up to what it completes. -/
theorem writeBlockObject_take {via : Via} {sig : Option Bool} {i k block : Nat} {bs : Bytes} {r : OdRow} {s : State}
    (hw : writeCheck (Via.role via) s i k = .ok r) (hlong : 1024 < r.size) (himage : i ≠ 0xC040) (hsome : 1 ≤ bs.length)
    (hblock : bs.length ≤ 1024) (hp : (roleSt (Via.role via) s).pend = none) :
    writeBlockObject via sig r.ty.code i k block bs s =
      match takeBlock via i k r.size block bs s with
      | none => refuseA .badDescriptor s
      | some (all, false) => { st := .ok, state := keepBlocks via i k block all s }
      | some (all, true) =>
        if !specialOk s i k 0 all then refuseA .badDescriptor (dropWrite via i k s)
        else ofPair (stage (Via.role via) i k (leNat all) (dropWrite via i k s)) := by
  have hne : bs ≠ [] := List.ne_nil_of_length_pos hsome
  unfold writeBlockObject
  rw [hw]
  simp [Nat.not_le.2 hlong, Nat.not_lt.2 hblock, hne, himage, hp]
  all_goals rfl

theorem roleSt_dropWrite (role : Role) (via : Via) (i k : Nat) (s : State) : roleSt role (dropWrite via i k s) = roleSt role s := by
  cases role <;> rfl

/-- A WRITE_BLOCK outside the image that comes to an answer with no value. -/
theorem exec_writeBlock_of_object {via : Via} {m : DictMsg} {r : OdRow} {st : Status} {s t : State} (h : Request via m s)
    (hop : m.op = 4) (htyp : m.typ.toNat = r.ty.code)
    (hp : writeBlockObject via none r.ty.code m.index.toNat m.sub.toNat m.block.toNat m.value s = ofPair (st, t)) :
    exec (.writeBlock via m) s = .next (answered via m st 0 [] t) := by
  refine congrArg _ (serveIf_eq_answered (by simp [hop]) h.toAsks ?_)
  rw [perform_run h, hop, htyp]
  exact hp

theorem exec_writeBlock_first {via : Via} {m : DictMsg} {r : OdRow} {s : State} (h : Request via m s) (hop : m.op = 4)
    (hblock : m.block = 0) (himage : m.index ≠ 0xC040) (hw : writeCheck (Via.role via) s m.index.toNat m.sub.toNat = .ok r)
    (hlong : 1024 < r.size) (htyp : m.typ.toNat = r.ty.code) (hfull : m.value.length = 1024)
    (hp : (roleSt (Via.role via) s).pend = none) :
    exec (.writeBlock via m) s = .next (answered via m .ok 0 [] (keepBlocks via m.index.toNat m.sub.toNat 0 m.value s)) := by
  have hindex : m.index.toNat ≠ 0xC040 := fun he => himage (BitVec.eq_of_toNat_eq he)
  have hzero : m.block.toNat = 0 := by simp [hblock]
  refine exec_writeBlock_of_object h hop htyp ?_
  rw [writeBlockObject_take hw hlong hindex (by omega) (by omega) hp, hzero,
    takeBlock_first (by simpa [wholeLength, hindex] using hlong) hfull]
  rfl

theorem exec_writeBlock_last {via : Via} {m : DictMsg} {r : OdRow} {b : BlockWrite} {s : State} (h : Request via m s)
    (hop : m.op = 4) (hblock : m.block ≠ 0) (himage : m.index ≠ 0xC040)
    (hw : writeCheck (Via.role via) s m.index.toNat m.sub.toNat = .ok r) (hlong : 1024 < r.size) (htyp : m.typ.toNat = r.ty.code)
    (hsome : 1 ≤ m.value.length) (hfit : m.value.length ≤ 1024) (hp : (roleSt (Via.role via) s).pend = none)
    (hb : s.mgmt.blocks.find? (sameWrite via m.index.toNat m.sub.toNat) = some b) (hnext : b.next = m.block.toNat)
    (hall : b.bytes.length + m.value.length = r.size)
    (hspecial : specialOk s m.index.toNat m.sub.toNat 0 (b.bytes ++ m.value) = true)
    (hroom : (insertKey (odKey m.index.toNat m.sub.toNat) (leNat (b.bytes ++ m.value))
      (roleSt (Via.role via) s).staged).length ≤ 512) :
    exec (.writeBlock via m) s = .next (answered via m .ok 0 []
      (setRole (Via.role via) (fun x => { x with
        staged := insertKey (odKey m.index.toNat m.sub.toNat) (leNat (b.bytes ++ m.value)) (roleSt (Via.role via) s).staged })
        (dropWrite via m.index.toNat m.sub.toNat s))) := by
  have hindex : m.index.toNat ≠ 0xC040 := fun he => himage (BitVec.eq_of_toNat_eq he)
  have hstage := stage_room (role := Via.role via) (s := dropWrite via m.index.toNat m.sub.toNat s)
    (i := m.index.toNat) (k := m.sub.toNat) (v := leNat (b.bytes ++ m.value))
    (by rw [roleSt_dropWrite]; exact hp) (by rw [roleSt_dropWrite]; exact hroom)
  rw [roleSt_dropWrite] at hstage
  refine exec_writeBlock_of_object h hop htyp ?_
  rw [writeBlockObject_take hw hlong hindex hsome hfit hp, takeBlock_last hindex (toNat_ne_zero hblock) hb hnext hall]
  simp only [hspecial, Bool.not_true, Bool.false_eq_true, if_false, hstage]

/-- The blocks of a requester that no other has followed for 1 s (R31). -/
theorem blockTimeout_plain {via : Via} {s : State}
    (h : s.mgmt.blocks.any (fun b => b.via == requester via && b.index == 0xC040) = false) :
    blockTimeout via s = { s with mgmt := { s.mgmt with
      blocks := s.mgmt.blocks.filter (fun b => !(b.via == requester via && decide (b.lastAt + 1000000000 ≤ s.now))) } } := by
  refine if_neg fun himage => ?_
  obtain ⟨b, hb, hstale⟩ := List.any_eq_true.1 himage
  rw [List.any_eq_false] at h
  simp only [Bool.and_eq_true] at hstale
  exact h b hb (by rw [hstale.1.1, hstale.2]; rfl)

/-- With those of an image its update has failed (R464). -/
theorem blockTimeout_image {via : Via} {b : BlockWrite} {s : State} (hb : b ∈ s.mgmt.blocks) (hvia : b.via = requester via)
    (hindex : b.index = 0xC040) (hlate : b.lastAt + 1000000000 ≤ s.now) :
    blockTimeout via s = odSet 0xC040 0x03 Status.aborted.code (odSet 0xC040 0x02 5 { s with mgmt := { s.mgmt with
      blocks := s.mgmt.blocks.filter (fun b => !(b.via == requester via && decide (b.lastAt + 1000000000 ≤ s.now))) } }) :=
  if_pos (List.any_eq_true.2 ⟨b, hb, by simp [hvia, hindex, hlate]⟩)

/-- Settles O13: a block write is kept until its bytes are the object's size, and then staged; what is stale is dropped. -/
theorem blockWritesGather : Obligations.BlockWritesGather :=
  ⟨fun _ _ _ _ h hop hblock himage hw hlong htyp hfull hp =>
      exec_writeBlock_first h hop hblock himage hw hlong htyp hfull hp,
    fun _ _ _ _ _ h hop hblock himage hw hlong htyp hsome hfit hp hb hnext hall hspecial hroom =>
      exec_writeBlock_last h hop hblock himage hw hlong htyp hsome hfit hp hb hnext hall hspecial hroom,
    fun _ _ h => congrArg _ (blockTimeout_plain h),
    fun _ _ _ hb hvia hindex hlate => congrArg _ (blockTimeout_image hb hvia hindex hlate)⟩

/-! ## Commits -/

theorem setRole_setRole (role : Role) (f g : RoleState → RoleState) (s : State) :
    setRole role f (setRole role g s) = setRole role (fun x => f (g x)) s := by
  cases role <;> rfl

/-- Position 0 applies the set (R24). -/
theorem commitWrite_now {role : Role} {load : Option (Nat × Option PlanSlot)} {s : State} (hp : (roleSt role s).pend = none)
    (hc : checkCommit role (roleSt role s).staged 0 s = .ok load) :
    commitWrite role 0 s = (.ok, applyCommit role [] (roleSt role s).staged load
      (setRole role (fun x => { x with resSeq := x.resSeq + 1, staged := [], conflict := 0 }) s)) := by
  simp only [commitWrite, hp, hc, setRole_setRole, Option.isSome_none, Bool.false_eq_true, if_false, if_true]

/-- Any other keeps it for its position. -/
theorem commitWrite_later {role : Role} {pos : WPos} {load : Option (Nat × Option PlanSlot)} {s : State} (hpos : pos ≠ 0)
    (hp : (roleSt role s).pend = none) (hc : checkCommit role (roleSt role s).staged pos s = .ok load) :
    commitWrite role pos s = (.ok, setRole role (fun x => { x with
      resSeq := x.resSeq + 1, staged := [], conflict := 0, resState := 1, resStatus := 0
      pend := some { pos := pos, content := (roleSt role s).staged, pool := drawsComp s pos, load := load,
                     units := setUnits s (roleSt role s).staged } }) s) := by
  simp only [commitWrite, hp, hc, setRole_setRole, Option.isSome_none, Bool.false_eq_true, if_false, if_neg hpos]

theorem exec_commit_of_write {via : Via} {m : DictMsg} {r : OdRow} {st : Status} {s t : State} (h : Writes via m 0x1F00 1 r s)
    (hc : commitWrite (Via.role via) (BitVec.ofNat 64 (leNat m.value)) s = (st, t)) :
    exec (.commit via m) s = .next (answered via m st 0 [] t) := by
  have hperf : perform none via m s = ofPair (st, t) := by rw [perform_commitWrite h, hc]
  exact congrArg _ (serveIf_eq_answered (commits_eq_true h) h.request.toAsks hperf)

/-- Settles O14: what the check's success leaves of a commit at position 0 and at any other. -/
theorem commitsApplyOrWait : Obligations.CommitsApplyOrWait :=
  ⟨fun _ _ _ _ _ h hzero hp hc => exec_commit_of_write h (by rw [hzero]; exact commitWrite_now hp hc),
    fun _ _ _ _ _ _ h hpos hne hp hc => exec_commit_of_write h (by rw [← hpos]; exact commitWrite_later hne hp hc)⟩

/-! ## Images -/

/-- A block write of the image names OD 0xC040:01. -/
theorem writesImage_fields {m : DictMsg} (h : writesImage m = true) : m.op = 4 ∧ m.index = 0xC040 ∧ m.sub = 1 := by
  unfold writesImage at h
  simp only [Bool.and_eq_true, beq_iff_eq] at h
  obtain ⟨⟨hop, hindex⟩, hsub⟩ := h
  exact ⟨hop, BitVec.eq_of_toNat_eq hindex, hsub⟩

/-- A request of the image that its transport delivers reaches `imageBlock`, in recovery too (R466). -/
theorem perform_image {via : Via} {sig : Option Bool} {m : DictMsg} {r : OdRow} {s : State} (h : Asks via m s)
    (hm : writesImage m = true) (hw : writeCheck (Via.role via) s 0xC040 1 = .ok r) (hlong : 1024 < r.size)
    (htyp : m.typ.toNat = r.ty.code) (hsome : 1 ≤ m.value.length) (hfit : m.value.length ≤ 1024) :
    perform sig via m s = imageBlock via sig m.block.toNat m.value s := by
  obtain ⟨hop, hindex, hsub⟩ := writesImage_fields hm
  have hserves : recoveryServes m = true := by simp [recoveryServes, hop, hindex, hsub]
  have hne : m.value ≠ [] := List.ne_nil_of_length_pos hsome
  have hblock : writeBlockObject via sig r.ty.code 0xC040 1 m.block.toNat m.value s =
      imageBlock via sig m.block.toNat m.value s := by
    unfold writeBlockObject
    rw [hw]
    simp [Nat.not_le.2 hlong, Nat.not_lt.2 hfit, hne]
  rw [← hblock]
  simp [perform, hserves, h.whole, hop, hindex, hsub, htyp]

theorem imageBlock_first {via : Via} {sig : Option Bool} {bs : Bytes} {s : State} (hidle : updating s = false)
    (hfree : s.sec.tenancy = .unowned) (hfull : bs.length = 1024) (hmore : 1024 < fieldAt bs 8 4) :
    imageBlock via sig 0 bs s = ofPair (.ok, odSet 0xC040 0x02 1 (keepBlocks via 0xC040 1 0 bs s)) := by
  have hwhole : 1024 < wholeLength 0xC040 16777216 bs := by
    rw [wholeLength, if_pos rfl]
    omega
  simp [imageBlock, hidle, hfree, takeBlock_first hwhole hfull, ofPair]

/-- A whole image that verifies is programmed, its slot erased first (R464). -/
theorem updateWhole_valid {all : Bytes} (h : imageFields all = true) (s : State) :
    updateWhole all true s = odSet 0xC040 0x03 0 (odSet 0xC040 0x02 3 { s with power := { s.power with
      update := all, nor := { s.power.nor with slotValid := false } } }) :=
  if_pos (by rw [h]; rfl)

theorem imageBlock_last {via : Via} {block : Nat} {bs all : Bytes} {s : State} (hrun : s.power.dev ≠ .recovery)
    (hidle : updating s = false) (hblock : block ≠ 0) (ht : takeBlock via 0xC040 1 16777216 block bs s = some (all, true)) :
    imageBlock via (some true) block bs s = ofPair (.ok, updateWhole all true (dropWrite via 0xC040 1 s)) := by
  simp [imageBlock, hrun, hidle, hblock, ht, ofPair]

theorem imageBlock_recovery {via : Via} {block : Nat} {bs all : Bytes} {s : State} (hrec : s.power.dev = .recovery)
    (ht : takeBlock via 0xC040 1 16777216 block bs s = some (all, true)) :
    imageBlock via (some true) block bs s =
      { st := .ok, state := dropWrite via 0xC040 1 s, after := recoveryWhole all true } := by
  simp [imageBlock, hrec, ht]

theorem execFirmwareUpdate_own {via : Via} {m : DictMsg} {ok : Bool} {s : State} (h : Request via m s)
    (hm : writesImage m = true) : exec (.firmwareUpdate via m ok) s = .next (serveNew (some ok) via m s) := by
  have hown : (writesImage m && s.power.dev != .recovery) = true := by simp [hm, h.running]
  exact congrArg _ ((if_pos hown).trans (serve_request h.toAsks))

theorem execRecoveryBlockWrite_own {via : Via} {m : DictMsg} {ok : Bool} {s : State} (h : Asks via m s)
    (hrec : s.power.dev = .recovery) (hm : writesImage m = true) :
    exec (.recoveryBlockWrite via m ok) s = .next (serveNew (some ok) via m s) := by
  have hown : (writesImage m && s.power.dev == .recovery) = true := by simp [hm, hrec]
  exact congrArg _ ((if_pos hown).trans (serve_request h))

/-- Answering leaves power and boot as they are. -/
theorem answered_power (via : Via) (m : DictMsg) (st : Status) (typ : Nat) (value : Bytes) (s : State) :
    (answered via m st typ value s).power = s.power :=
  (deliver_kept (Laws.Sub.refl _) (keepTag_kept (by decide) (Kept.refl _ s))).powerSame rfl

/-- Settles O19: the first block is kept, the last is verified with its image and programmed, or in recovery booted from. -/
theorem imagesArriveInBlocks : Obligations.ImagesArriveInBlocks := by
  refine ⟨fun via m r ok s h hm hw hlong htyp hblock hfull hmore hidle hfree => ?_,
    fun via m r all s h hm hw hlong htyp hblock hsome hfit hidle ht hfields => ?_,
    fun via m r all s h hrec hm hw hlong htyp hsome hfit ht hfields => ?_⟩
  · rw [execFirmwareUpdate_own h hm]
    refine congrArg _ (serveNew_plain ?_)
    rw [perform_image h.toAsks hm hw hlong htyp (by omega) (by omega), hblock]
    exact imageBlock_first hidle hfree hfull hmore
  · rw [execFirmwareUpdate_own h hm]
    refine congrArg _ (serveNew_plain ?_)
    rw [perform_image h.toAsks hm hw hlong htyp hsome hfit, imageBlock_last h.running hidle (toNat_ne_zero hblock) ht]
    rw [updateWhole_valid hfields]
    rfl
  · have hperf : perform (some true) via m s =
        { st := .ok, state := dropWrite via 0xC040 1 s, after := recoveryWhole all true } := by
      rw [perform_image h hm hw hlong htyp hsome hfit]
      exact imageBlock_recovery hrec ht
    rw [execRecoveryBlockWrite_own h hrec hm, serveNew_later hperf, recoveryWhole, hfields]
    simp only [Bool.and_self, if_true, answered_power]
    rfl

end Sys2Proof.Proofs
end

section
/-! PROOFS. Requests that the dictionary starts (08_prefix_store.md, R289; 10_heath_media.md, R335, R348; 11_peer_transport.md, R363 to
R365; 13_security.md, R440, R445; 14_management_power.md, R482; 15_counters.md, R494; 17_faults_status.md, R522): which row of the
dictionary's writes an object reaches, and what the request comes to there. -/

namespace Sys2Proof.Proofs
open Sys2Proof Sys2Proof.Machine Sys2Proof.Laws

/-! ## Accesses of listings -/

/-- Every listing that has an object with an index from `lo` to `hi` and a subindex from `klo` to `khi` has access `a`. -/
def accessWithin (a : OdAcc) (lo hi klo khi : Nat) : Bool :=
  odTable.all (fun r => r.acc == a || decide (hi < r.base) || decide (r.base + r.count * r.stride ≤ lo) || decide (khi < r.sub0) ||
    decide (r.sub1 < klo))

theorem odFind_acc_of_within {a : OdAcc} {lo hi klo khi i k : Nat} {r : OdRow} (h : accessWithin a lo hi klo khi = true)
    (hr : odFind i k = some r) (hi : lo ≤ i ∧ i ≤ hi) (hk : klo ≤ k ∧ k ≤ khi) : r.acc = a := by
  have hhas := List.find?_some hr
  have hrow := List.all_eq_true.1 h r (List.mem_of_find?_eq_some hr)
  simp only [OdRow.has, Bool.and_eq_true, Bool.or_eq_true, decide_eq_true_eq, beq_iff_eq] at hhas hrow
  obtain ((((hacc | habove) | hbelow) | hover) | hunder) := hrow
  · exact hacc
  all_goals omega

theorem writes_acc_of_within {a : OdAcc} {via : Via} {m : DictMsg} {lo hi klo khi i k : Nat} {r : OdRow} {s : State}
    (h : accessWithin a lo hi klo khi = true) (hw : Writes via m i k r s) (hi : lo ≤ i ∧ i ≤ hi) (hk : klo ≤ k ∧ k ≤ khi) :
    r.acc = a :=
  odFind_acc_of_within h (writes_listed hw) hi hk

/-- A WRITE names its object. -/
theorem writes_fields {via : Via} {m : DictMsg} {i k : Nat} {r : OdRow} {s : State} (h : Writes via m i k r s) (hop : m.op = 2) :
    m.index.toNat = i ∧ m.sub.toNat = k := by
  obtain ⟨-, hi, hk⟩ | ⟨hcommit, -, -⟩ := h.target
  · exact ⟨hi, hk⟩
  · rw [hop] at hcommit
    exact absurd hcommit (by decide)

theorem writes_of_op {via : Via} {m : DictMsg} {i k : Nat} {r : OdRow} {s : State} (h : Writes via m i k r s) (hop : m.op = 2) :
    writes m i k = true := by
  obtain ⟨hi, hk⟩ := writes_fields h hop
  simp [writes, hop, hi, hk]

/-- An admitted write of a WO object comes to what its row of `writeWo` comes to. -/
theorem serveIf_wo {b : Bool} {via : Via} {m : DictMsg} {i k : Nat} {r : OdRow} {st : Status} {s t : State} (hb : b = true)
    (h : Writes via m i k r s) (hacc : r.acc = .wo) (hw : writeWo (Via.role via) i k (leNat m.value) m.value s = ofPair (st, t)) :
    serveIf b via m s = answered via m st 0 [] t := by
  refine serveIf_eq_answered hb h.request.toAsks ?_
  rw [perform_write h, hacc]
  exact hw

theorem isNone_eq_false {α : Type} {o : Option α} (h : o ≠ none) : o.isNone = false :=
  Option.isNone_eq_false_iff.2 (Option.isSome_iff_ne_none.2 h)

/-! ## Log, counters and the kiln -/

theorem exec_clearTheLog {via : Via} {m : DictMsg} {r : OdRow} {s : State} (h : Writes via m 0xD000 5 r s) (hop : m.op = 2) :
    exec (.clearTheLog via m) s = .next (answered via m .ok 0 [] (fault .logCleared unitDevice
      (s.log.ring.length + s.log.tail.length) none { s with log := { s.log with ring := [], tail := [], oldest := s.log.head } })) :=
  congrArg _ (serveIf_wo (writes_of_op h hop) h
    (writes_acc_of_within (lo := 0xD000) (hi := 0xD000) (klo := 5) (khi := 5) (by decide +kernel) h (by decide) (by decide)) rfl)

/-- A held save is discarded (R482). -/
theorem discardSave_held {s : State} (h : s.power.kiln.held = true) :
    discardSave s = event .media none 0 0 0 { s with
      pfx := { s.pfx with ring := [] }
      shelves := s.shelves.map (fun x => { x with sealed := [] })
      power := { s.power with kiln := { s.power.kiln with held := false, save := none } } } :=
  if_neg (by simp [h])

theorem exec_discardHeldSave {via : Via} {m : DictMsg} {r : OdRow} {s : State} (h : Writes via m 0xC030 8 r s) (hop : m.op = 2) :
    exec (.discardHeldSave via m) s = .next (answered via m .ok 0 [] (discardSave s)) :=
  congrArg _ (serveIf_wo (writes_of_op h hop) h
    (writes_acc_of_within (lo := 0xC030) (hi := 0xC030) (klo := 8) (khi := 8) (by decide +kernel) h (by decide) (by decide)) rfl)

/-- The records of counters stand at 0xA100 and above. -/
theorem ctrLocOf_bounds {i : Nat} {l : CtrLoc} (h : ctrLocOf i = some l) : 0xA100 ≤ i ∧ i < 0xA330 := by
  unfold ctrLocOf at h
  split_ifs at h <;> simp_all <;> omega

/-- No row of `writeRw` but the last names an object among the counters' records. -/
theorem writeRw_counter {role : Role} {i k v : Nat} {l : CtrLoc} (h : ctrLocOf i = some l) (s : State) :
    writeRw role i k v s =
      if 1 ≤ k && k ≤ l.count then writeCtrConfig l (k - 1) v s
      else if l.valSub 0 ≤ k then (.ok, clearCounter l (k - l.valSub 0) s)
      else (.ok, putRw i k v s) := by
  obtain ⟨hlow, hhigh⟩ := ctrLocOf_bounds h
  unfold writeRw
  split
  · omega
  · omega
  · omega
  · omega
  · omega
  · omega
  · rw [h]

/-- A counter that is not the low half of a pair. -/
theorem clearCounter_single {l : CtrLoc} {j : Nat} {s : State} (h : bitOf (od s l.index (l.cfgSub j)) 54 = false) :
    clearCounter l j s = odSet l.index (l.valSub j) 0 s := by
  simp [clearCounter, h]

theorem writeRw_counterValue {role : Role} {l : CtrLoc} {j v : Nat} {s : State} (h : ctrLocOf l.index = some l)
    (hplain : bitOf (od s l.index (l.cfgSub j)) 54 = false) :
    writeRw role l.index (l.valSub j) v s = (.ok, odSet l.index (l.valSub j) 0 s) := by
  have hconfig : (decide (1 ≤ l.valSub j) && decide (l.valSub j ≤ l.count)) = false := by
    have hbeyond : ¬ l.valSub j ≤ l.count := by
      unfold CtrLoc.valSub
      omega
    simp [hbeyond]
  have hvalue : l.valSub 0 ≤ l.valSub j := by simp [CtrLoc.valSub]
  have hj : l.valSub j - l.valSub 0 = j := by simp [CtrLoc.valSub]
  rw [writeRw_counter h, hconfig, if_pos hvalue, hj, clearCounter_single hplain]
  rfl

theorem counterValues_rw : accessWithin .rw 0xA100 0xA15F 0x11 0x18 = true ∧ accessWithin .rw 0xA200 0xA217 0x11 0x18 = true ∧
    accessWithin .rw 0xA300 0xA32F 0x09 0x0C = true := by
  decide +kernel

theorem ctrLocOf_core {n : Nat} (h : ctrLocOf (0xA100 + n) = some (.core n)) : n < 0x60 := by
  simp only [ctrLocOf, Bool.and_eq_true, decide_eq_true_eq] at h
  split_ifs at h <;> simp at h
  omega

theorem ctrLocOf_cluster {n : Nat} (h : ctrLocOf (0xA200 + n) = some (.cluster n)) : n < 0x18 := by
  simp only [ctrLocOf, Bool.and_eq_true, decide_eq_true_eq] at h
  split_ifs at h <;> simp at h
  omega

theorem ctrLocOf_port {n : Nat} (h : ctrLocOf (0xA300 + n) = some (.port n)) : n < 0x30 := by
  simp only [ctrLocOf, Bool.and_eq_true, decide_eq_true_eq] at h
  split_ifs at h <;> simp at h
  omega

/-- Where the value of a programmable counter stands, by the kind of its location (R502). -/
theorem counterValue_place {l : CtrLoc} {j : Nat} (h : ctrLocOf l.index = some l) (hj : j < l.count) :
    (0xA100 ≤ l.index ∧ l.index ≤ 0xA15F ∧ 0x11 ≤ l.valSub j ∧ l.valSub j ≤ 0x18) ∨
    (0xA200 ≤ l.index ∧ l.index ≤ 0xA217 ∧ 0x11 ≤ l.valSub j ∧ l.valSub j ≤ 0x18) ∨
    (0xA300 ≤ l.index ∧ l.index ≤ 0xA32F ∧ 0x09 ≤ l.valSub j ∧ l.valSub j ≤ 0x0C) := by
  cases l with
  | core n =>
    have hn := ctrLocOf_core h
    simp only [CtrLoc.index, CtrLoc.count, CtrLoc.valSub] at hj ⊢
    omega
  | cluster n =>
    have hn := ctrLocOf_cluster h
    simp only [CtrLoc.index, CtrLoc.count, CtrLoc.valSub] at hj ⊢
    omega
  | port n =>
    have hn := ctrLocOf_port h
    simp only [CtrLoc.index, CtrLoc.count, CtrLoc.valSub] at hj ⊢
    omega

theorem counterValue_access {via : Via} {m : DictMsg} {l : CtrLoc} {j : Nat} {r : OdRow} {s : State}
    (h : Writes via m l.index (l.valSub j) r s) (hl : ctrLocOf l.index = some l) (hj : j < l.count) : r.acc = .rw := by
  obtain ⟨hcore, hcluster, hport⟩ := counterValues_rw
  obtain ⟨hlow, hhigh, klow, khigh⟩ | ⟨hlow, hhigh, klow, khigh⟩ | ⟨hlow, hhigh, klow, khigh⟩ := counterValue_place hl hj
  · exact writes_acc_of_within hcore h ⟨hlow, hhigh⟩ ⟨klow, khigh⟩
  · exact writes_acc_of_within hcluster h ⟨hlow, hhigh⟩ ⟨klow, khigh⟩
  · exact writes_acc_of_within hport h ⟨hlow, hhigh⟩ ⟨klow, khigh⟩

theorem isCounterValue_valSub {l : CtrLoc} {j : Nat} (hl : ctrLocOf l.index = some l) (hj : j < l.count) :
    isCounterValue l.index (l.valSub j) = true := by
  simp only [isCounterValue, Bool.or_eq_true, Bool.and_eq_true, decide_eq_true_eq]
  have hplace := counterValue_place hl hj
  omega

theorem exec_counterValueWrite {via : Via} {m : DictMsg} {l : CtrLoc} {j : Nat} {r : OdRow} {s : State}
    (h : Writes via m l.index (l.valSub j) r s) (hop : m.op = 2) (hl : ctrLocOf l.index = some l) (hj : j < l.count)
    (hplain : bitOf (od s l.index (l.cfgSub j)) 54 = false) :
    exec (.counterValueWrite via m) s = .next (answered via m .ok 0 [] (odSet l.index (l.valSub j) 0 s)) := by
  obtain ⟨hi, hk⟩ := writes_fields h hop
  have hperf : perform none via m s = ofPair (.ok, odSet l.index (l.valSub j) 0 s) := by
    rw [perform_write h, counterValue_access h hl hj]
    exact congrArg ofPair (writeRw_counterValue hl hplain)
  refine congrArg _ (serveIf_eq_answered ?_ h.request.toAsks hperf)
  rw [hi, hk, writes_of_op h hop, isCounterValue_valSub hl hj]
  rfl

/-! ## Shelves and the store of prefixes -/

theorem startFullScan_unowned {s : State} (h : owned s = false) (mask : Nat) :
    startFullScan mask s = (.ok, forEach (fun h t =>
      if bitOf mask h && (shelfOf t h).state == 4 then startScan h 2 t else t) (List.range 16) s) :=
  if_neg (by simp [h])

theorem startFormat_refused {h : Nat} {s : State} (hfree : owned s = false) (hstate : (shelfOf s h).state = 6)
    (hgeom : (shelfOf s h).geom ≠ none) (hup : heathUp s h = true) : startFormat h s = (.ok, beginFormat h s) := by
  have hsome : (shelfOf s h).geom.isNone = false := isNone_eq_false hgeom
  exact if_neg (by simp [hfree, hstate, hsome, hup])

theorem rebuildWrite_idle {s : State} (hkey : s.sec.tenSecret ≠ none) (hidle : s.pfx.rebuildState ≠ 1) :
    rebuildWrite s = (.ok, { s with pfx := { s.pfx with
      nextRec := (logRecs s).foldl (fun n x => max n (x.recNo + 1)) s.pfx.nextRec
      rebuildState := 1, rebuildRead := 0, rebuildLeft := logRecs s, rebuilt := [] } }) := by
  have hsome : s.sec.tenSecret.isNone = false := isNone_eq_false hkey
  simp only [rebuildWrite, hsome, rebuildStart, if_neg hidle, Bool.false_eq_true, if_false]

theorem rebuildWrite_running {s : State} (hkey : s.sec.tenSecret ≠ none) (hrun : s.pfx.rebuildState = 1) :
    rebuildWrite s = (.conflict, s) := by
  have hsome : s.sec.tenSecret.isNone = false := isNone_eq_false hkey
  simp only [rebuildWrite, hsome, rebuildStart, if_pos hrun, Bool.false_eq_true, if_false]

theorem exec_startFullScan {via : Via} {m : DictMsg} {r : OdRow} {st : Status} {s t : State} (h : Writes via m 0x6000 0x11 r s)
    (hop : m.op = 2) (hs : startFullScan (leNat m.value) s = (st, t)) :
    exec (.startFullScan via m) s = .next (answered via m st 0 [] t) :=
  congrArg _ (serveIf_wo (writes_of_op h hop) h
    (writes_acc_of_within (lo := 0x6000) (hi := 0x6000) (klo := 0x11) (khi := 0x11) (by decide +kernel) h (by decide) (by decide))
    (congrArg ofPair hs))

/-- The objects that format a shelf, one of each (R335). -/
theorem writeWo_format {role : Role} {h v : Nat} {bs : Bytes} {s : State} (hh : h < 16) :
    writeWo role (0x6100 + h) 0x0E v bs s = ofPair (startFormat h s) := by
  have hrow : (decide (0x6100 ≤ 0x6100 + h) && decide (0x6100 + h < 0x6110)) = true := by simp; omega
  have hsub : 0x6100 + h - 0x6100 = h := by omega
  unfold writeWo
  split <;> simp_all

theorem exec_formatShelf {via : Via} {m : DictMsg} {h : Nat} {r : OdRow} {st : Status} {s t : State}
    (hw : Writes via m (0x6100 + h) 0x0E r s) (hop : m.op = 2) (hh : h < 16) (hs : startFormat h s = (st, t)) :
    exec (.formatShelf via m) s = .next (answered via m st 0 [] t) := by
  obtain ⟨hi, -⟩ := writes_fields hw hop
  refine congrArg _ (serveIf_wo ?_ hw (writes_acc_of_within (lo := 0x6100) (hi := 0x610F) (klo := 0x0E) (khi := 0x0E)
    (by decide +kernel) hw ⟨by omega, by omega⟩ (by decide)) ?_)
  · rw [hi, writes_of_op hw hop]
    simp
    omega
  · rw [writeWo_format hh, hs]

theorem exec_startRebuild {via : Via} {m : DictMsg} {r : OdRow} {st : Status} {s t : State} (h : Writes via m 0x4020 0x0A r s)
    (hop : m.op = 2) (hs : rebuildWrite s = (st, t)) :
    exec (.startRebuild via m) s = .next (answered via m st 0 [] t) :=
  congrArg _ (serveIf_wo (writes_of_op h hop) h
    (writes_acc_of_within (lo := 0x4020) (hi := 0x4020) (klo := 0x0A) (khi := 0x0A) (by decide +kernel) h (by decide) (by decide))
    (congrArg ofPair hs))

/-- Settles O15: each object reaches its row, and the row's guard is what the clause asks for. -/
theorem controlAndStoreRequestsAct : Obligations.ControlAndStoreRequestsAct :=
  ⟨fun _ _ _ _ h hop => exec_clearTheLog h hop,
    fun _ _ _ _ _ _ h hop hl hj hplain => exec_counterValueWrite h hop hl hj hplain,
    fun _ _ _ _ h hop hheld => by rw [exec_discardHeldSave h hop, discardSave_held hheld],
    fun _ _ _ _ h hop hfree => exec_startFullScan h hop (startFullScan_unowned hfree _),
    fun _ _ _ _ _ hw hop hh hfree hstate hgeom hup => exec_formatShelf hw hop hh (startFormat_refused hfree hstate hgeom hup),
    fun _ _ _ _ h hop hkey hidle => exec_startRebuild h hop (rebuildWrite_idle hkey hidle),
    fun _ _ _ _ h hop hkey hrun => exec_startRebuild h hop (rebuildWrite_running hkey hrun)⟩

/-! ## Queue pairs -/

/-- The first byte of a value is its number's lowest (R7). -/
theorem reqField_zero_one (bs : Bytes) : reqField (leNat bs) 0 1 = fieldAt bs 0 1 := by
  cases bs with
  | nil => rfl
  | cons b bs =>
    have hb := b.isLt
    simp only [reqField, fieldAt, leNat, List.drop_zero, List.take_succ_cons, List.take_zero, Nat.pow_zero, Nat.div_one,
      Nat.pow_one]
    omega

theorem qpRequest_configure {v : Nat} {s : State} (hop : reqField v 0 1 = 1) (hc : configureCheck s v = .ok) :
    qpRequest v s = (.ok, qpResult (reqField v 2 2) 1 .ok (configurePair v s)) := by
  simp [qpRequest, hop, hc]

/-- A request other than CONFIGURE on a pair of its partition. -/
theorem qpRequest_pair {v op : Nat} {q : Qp} {st : Status} {s t : State} (hop : reqField v 0 1 = op) (hrange : 2 ≤ op ∧ op ≤ 5)
    (hn : 64 ≤ reqField v 2 2) (hq : findQp s (reqField v 2 2) = some q) (hpart : q.part = reqField v 1 1)
    (hr : pairRequest op (reqField v 2 2) q s = (st, t)) :
    qpRequest v s = (.ok, qpResult (reqField v 2 2) op st t) := by
  have hone : op ≠ 1 := by omega
  have hbad : (decide (op = 0) || decide (5 < op) || decide (reqField v 2 2 < 64)) = false := by simp; omega
  simp only [qpRequest, hop, if_neg hone, hbad, hq, hpart, bne_self_eq_false, Bool.false_eq_true, if_false, hr]

theorem pairRequest_connect {n : Nat} {q : Qp} {s : State} (hstate : q.state = .configured) (hsecret : s.sec.setSecret ≠ none) :
    pairRequest 2 n q s = (.ok, sendConnect n ptConnect (setQp { q with state := .connecting, connectAt := some s.now } s)) := by
  have hsome : s.sec.setSecret.isNone = false := isNone_eq_false hsecret
  simp [pairRequest, hstate, hsome]

theorem pairRequest_drain {n : Nat} {q : Qp} {s : State} (hstate : q.state = .ready) :
    pairRequest 3 n q s = (.ok, tendQp n (setQp { q with state := .draining, ending := true } s)) := by
  simp [pairRequest, hstate]

theorem pairRequest_release {n : Nat} {q : Qp} {s : State} (hstate : q.state = .configured ∨ q.state = .error) :
    pairRequest 5 n q s = (.ok, freePair n s) := by
  rcases hstate with h | h <;> simp [pairRequest, h]

/-- A queue-pair request that is the row's own. -/
theorem serveIf_pair {op : Nat} {via : Via} {m : DictMsg} {r : OdRow} {s t : State} (h : Writes via m 0x7020 1 r s)
    (hop : m.op = 2) (hcode : fieldAt m.value 0 1 = op) (hr : qpRequest (leNat m.value) s = (.ok, t)) :
    serveIf (qpWrites m op) via m s = answered via m .ok 0 [] t := by
  refine serveIf_wo ?_ h (writes_acc_of_within (lo := 0x7020) (hi := 0x7020) (klo := 1) (khi := 1) (by decide +kernel) h (by decide)
    (by decide)) (congrArg ofPair hr)
  rw [qpWrites, writes_of_op h hop, hcode]
  simp

/-- With no packet held for it a pair goes with its place on die alone. -/
theorem freePair_unheld {n : Nat} {s : State} (h : ∀ k ∈ s.peer.heldPkts, k.dstQp.toNat ≠ n) :
    freePair n s = { s with peer := { s.peer with
      qps := s.peer.qps.filter (fun x => x.num != n), onDie := s.peer.onDie.filter (fun x => x != n) } } := by
  have hheld : s.peer.heldPkts.filter (fun k => k.dstQp.toNat != n) = s.peer.heldPkts :=
    List.filter_eq_self.2 fun k hk => by simpa using h k hk
  simp only [freePair, dropHeld, hheld]

/-- Settles O16: the opcode is the value's first byte, and each opcode's guard is what its clause asks for. -/
theorem pairRequestsAct : Obligations.PairRequestsAct :=
  ⟨fun _ m _ _ h hop hcode hc =>
      congrArg _ (serveIf_pair h hop hcode (qpRequest_configure ((reqField_zero_one m.value).trans hcode) hc)),
    fun _ m _ _ _ h hop hcode hn hq hpart hstate hsecret =>
      congrArg _ (serveIf_pair h hop hcode (qpRequest_pair ((reqField_zero_one m.value).trans hcode) (by decide) hn hq hpart
        (pairRequest_connect hstate hsecret))),
    fun _ m _ _ _ h hop hcode hn hq hpart hstate =>
      congrArg _ (serveIf_pair h hop hcode (qpRequest_pair ((reqField_zero_one m.value).trans hcode) (by decide) hn hq hpart
        (pairRequest_drain hstate))),
    fun _ m _ _ _ h hop hcode hn hq hpart =>
      congrArg _ (serveIf_pair h hop hcode (qpRequest_pair ((reqField_zero_one m.value).trans hcode) (by decide) hn hq hpart rfl)),
    fun _ m _ _ _ h hop hcode hn hq hpart hstate =>
      congrArg _ (serveIf_pair h hop hcode (qpRequest_pair ((reqField_zero_one m.value).trans hcode) (by decide) hn hq hpart
        (pairRequest_release hstate))),
    fun _ _ h => freePair_unheld h⟩

/-! ## The owner's requests -/

theorem exec_releaseRequest {via : Via} {m : DictMsg} {r : OdRow} {s : State} (h : Writes via m 0x9000 2 r s) (hop : m.op = 2)
    (howned : owned s = true) :
    exec (.releaseRequest via m) s = .next (answered via m .ok 0 []
      (releaseStep 1 { s with sec := { s.sec with tenancy := .releasing } })) :=
  congrArg _ (serveIf_wo (writes_of_op h hop) h
    (writes_acc_of_within (lo := 0x9000) (hi := 0x9000) (klo := 2) (khi := 2) (by decide +kernel) h (by decide) (by decide))
    (congrArg ofPair (if_pos howned)))

theorem exec_weightKeyWrite {via : Via} {m : DictMsg} {k : Nat} {r : OdRow} {st : Status} {s t : State}
    (h : Writes via m 0x9020 k r s) (hop : m.op = 2) (hk : k ≠ 0) (hs : writeWeightKey k m.value s = (st, t)) :
    exec (.weightKeyWrite via m) s = .next (answered via m st 0 [] t) := by
  obtain ⟨-, hsub⟩ := writes_fields h hop
  have hbound := m.sub.isLt
  refine congrArg _ (serveIf_wo ?_ h (writes_acc_of_within (lo := 0x9020) (hi := 0x9020) (klo := 1) (khi := 255) (by decide +kernel) h
    (by decide) ⟨by omega, by omega⟩) (congrArg ofPair hs))
  have hne : m.sub ≠ 0 := fun he => hk (by rw [← hsub, he]; rfl)
  rw [hsub, writes_of_op h hop]
  simpa using hne

/-- A value of zeros empties the slot. -/
theorem writeWeightKey_zero {k : Nat} {v : Bytes} (h : ∀ b ∈ v, b = 0) (s : State) :
    writeWeightKey k v s = (.ok, { s with sec := { s.sec with weightKeys := s.sec.weightKeys.filter (fun w => w.slot != k) } }) :=
  if_pos (List.all_eq_true.2 fun b hb => by simpa using h b hb)

/-- Any other is opened under the key derived from the set secret (R444, R445). -/
theorem writeWeightKey_wrapped {k : Nat} {v : Bytes} {secret : BitVec 256} {s : State} (h : ∃ b ∈ v, b ≠ 0)
    (hsecret : s.sec.setSecret = some secret) (hset : fieldAt v 0 8 = od s 0x9000 0x04) (hrest : fieldAt v 72 8 = 0) :
    writeWeightKey k v s = match Config.gcmOpen (wrapKey secret (od s 0x9000 0x04)) ((v.drop 12).take 12) (v.take 12)
        ((v.drop 24).take 32) ((v.drop 56).take 16) with
      | some key => (.ok, { s with sec := { s.sec with
          weightKeys := s.sec.weightKeys.filter (fun w => w.slot != k) ++ [{ slot := k, label := fieldAt v 8 4, key := key }] } })
      | none => (.integrity, { s with sec := { s.sec with weightKeys := s.sec.weightKeys.filter (fun w => w.slot != k) } }) := by
  obtain ⟨b, hb, hne⟩ := h
  have hall : v.all (fun b => b == 0) = false := List.all_eq_false.2 ⟨b, hb, by simpa using hne⟩
  simp only [writeWeightKey, hall, hsecret, hset, hrest, bne_self_eq_false, Bool.false_eq_true, if_false]
  cases Config.gcmOpen (wrapKey secret (od s 0x9000 0x04)) ((v.drop 12).take 12) (v.take 12) ((v.drop 24).take 32)
    ((v.drop 56).take 16) <;> rfl

/-- Settles O17: a release starts in OWNED, and a weight key write goes as far as its tag lets it. -/
theorem ownerRequestsAct : Obligations.OwnerRequestsAct := by
  refine ⟨fun _ _ _ _ h hop howned => exec_releaseRequest h hop howned,
    fun _ _ _ _ _ h hop hk hzero => exec_weightKeyWrite h hop hk (writeWeightKey_zero hzero _),
    fun via m k r secret s h hop hk hsome hsecret hset hrest => ?_⟩
  have hw := writeWeightKey_wrapped (k := k) hsome hsecret hset hrest
  change _ = Host.Outcome.next (match Config.gcmOpen (wrapKey secret (od s 0x9000 0x04)) _ _ _ _ with | some key => _ | none => _)
  split at hw
  · exact exec_weightKeyWrite h hop hk hw
  · exact exec_weightKeyWrite h hop hk hw

end Sys2Proof.Proofs
end

section
/-! PROOFS. Sessions, attestation and ownership (02_host_attach.md, R48, R49; 13_security.md, R426, R429 to R433, R437 to R439): what each
message of an operator session, of the SPDM responder and of the tenancy does under the conditions that let it. -/

namespace Sys2Proof.Proofs
open Sys2Proof Sys2Proof.Machine Sys2Proof.Laws

/-! ## Operator sessions -/

theorem answers_of_ready {s : State} (h : ready s = true) : answers s = true := by
  unfold ready at h
  simp [answers, h]

/-- Of five numbers in a row one is not among at most four. -/
theorem freshSid_not_mem {used : List U32} (h : used.length < 4) (v : U32) : freshSid used v ∉ used := by
  have hnodup : ((List.range (used.length + 1)).map (fun i => v + BitVec.ofNat 32 i)).Nodup := by
    refine List.Nodup.map_on (fun i hi j hj hij => ?_) List.nodup_range
    have hi' := List.mem_range.1 hi
    have hj' := List.mem_range.1 hj
    have hnat := congrArg BitVec.toNat (add_left_cancel hij)
    simp only [BitVec.toNat_ofNat] at hnat
    omega
  unfold freshSid
  cases hfind : ((List.range (used.length + 1)).map (fun i => v + BitVec.ofNat 32 i)).find? (fun x => !used.contains x) with
  | some x => simpa using List.find?_some hfind
  | none =>
    have hsub : (List.range (used.length + 1)).map (fun i => v + BitVec.ofNat 32 i) ⊆ used := fun x hx => by
      simpa using List.find?_eq_none.1 hfind x hx
    have hlen := (hnodup.subperm hsub).length_le
    simp at hlen

theorem hello_opens {s : State} (hready : ready s = true) (hid : s.sec.identity ≠ none) (hanchor : od s 0x9010 0x01 ≠ 0)
    (hroom : s.mgmt.sessions.length < 4) :
    hello s = { s with
      fresh := s.fresh + 2
      tx := s.tx ++ [.helloRsp (freshSid (s.mgmt.sessions.map (fun x => x.id)) (freeOf 32 s))]
      mgmt := { s.mgmt with sessions := s.mgmt.sessions ++
        [{ id := freshSid (s.mgmt.sessions.map (fun x => x.id)) (freeOf 32 s), up := false, helloAt := s.now, lastAt := s.now,
           rxCtr := none, secret := Config.free 256 (s.fresh + 1) }] } } := by
  have hguard : (!ready s || s.sec.identity.isNone || decide (od s 0x9010 0x01 = 0) || decide (4 ≤ s.mgmt.sessions.length)) =
      false := by
    simp [hready, isNone_eq_false hid, hanchor, hroom]
  simp only [hello, answers_of_ready hready, hguard, Bool.not_true, Bool.false_eq_true, if_false]
  rfl

theorem auth_accepted {sid : U32} {cert : OpCert} {x : OpSession} {s : State} (hready : ready s = true)
    (hx : s.mgmt.sessions.find? (fun y => y.id == sid && !y.up) = some x) (hsoon : s.now ≤ x.helloAt + 5000000000)
    (hcert : certOk s cert = true) :
    auth sid cert true s = { s with
      fresh := s.fresh + 1
      tx := s.tx ++ [.authRsp sid .ok]
      mgmt := { s.mgmt with sessions := s.mgmt.sessions.map (fun y =>
        if y.id == sid then { y with up := true, lastAt := s.now, keys := operatorKeys x.secret (freeOf 256 s) } else y) } } := by
  have hlate : ¬ x.helloAt + setupBound < s.now := Nat.not_lt.2 hsoon
  simp only [auth, answers_of_ready hready, hx, hready, hlate, hcert, Bool.not_true, Bool.false_eq_true, if_false, if_true,
    decide_false, Bool.or_self, Bool.and_self]
  rfl

/-- The state once the counter of a session's record has been taken (R431). -/
def heard (sid : U32) (ctr : U64) (x : OpSession) (s : State) : State :=
  { s with mgmt := { s.mgmt with sessions := s.mgmt.sessions.map (fun y =>
      if y.id == sid then { x with rxCtr := some ctr.toNat, lastAt := s.now } else y) } }

/-- What an authentic record with a rising counter comes to, before it is looked at whether it is empty. -/
theorem record_authentic {sid : U32} {ctr : U64} {x : OpSession} {s : State} (hready : ready s = true)
    (hx : s.mgmt.sessions.find? (fun y => y.id == sid && y.up) = some x) (hctr : ∀ c, x.rxCtr = some c → c < ctr.toNat)
    (body : Option DictMsg) :
    record sid ctr true body s = body.elim (endSession sid) (fun m => serve none (.session sid) m) (heard sid ctr x s) := by
  have hrises : x.rxCtr.any (fun c => decide (ctr.toNat ≤ c)) = false := by
    cases hc : x.rxCtr with
    | none => rfl
    | some c => simpa using hctr c hc
  unfold record
  simp only [answers_of_ready hready, hx, hrises, Bool.not_true, Bool.false_eq_true, if_false, Bool.or_self]
  cases body <;> rfl

theorem endSession_heard_onlyIn (sid : U32) (ctr : U64) (x : OpSession) (s : State) :
    OnlyIn [.mgmt] s (endSession sid (heard sid ctr x s)) := by
  refine ⟨rfl, rfl, fun p hp => ?_⟩
  cases p with
  | mgmt => simp at hp
  | _ => rfl

/-- No session that is open once one has ended has its number. -/
theorem endSession_ids {sid : U32} {y : OpSession} {s : State} (h : y ∈ (endSession sid s).mgmt.sessions) : y.id ≠ sid := by
  simpa using (List.mem_filter.1 h).2

/-- Another session is open as before. -/
theorem mem_endSession_heard {sid : U32} {ctr : U64} {x y : OpSession} {s : State} (hy : y ∈ s.mgmt.sessions) (hne : y.id ≠ sid) :
    y ∈ (endSession sid (heard sid ctr x s)).mgmt.sessions := by
  refine List.mem_filter.2 ⟨List.mem_map.2 ⟨y, hy, ?_⟩, by simpa using hne⟩
  simp [hne]

theorem setupTimeout_late {sid : U32} {s : State}
    (h : ∃ x ∈ s.mgmt.sessions, x.id = sid ∧ x.up = false ∧ x.helloAt + 5000000000 ≤ s.now) :
    setupTimeout sid s = endSession sid s := by
  obtain ⟨x, hx, hid, hup, hlate⟩ := h
  exact if_pos (List.any_eq_true.2 ⟨x, hx, by simp [hid, hup, setupBound, hlate]⟩)

theorem idleTimeout_late {sid : U32} {s : State}
    (h : ∃ x ∈ s.mgmt.sessions, x.id = sid ∧ x.up = true ∧ x.lastAt + od s 0x1100 0x03 * 1000000 ≤ s.now) :
    idleTimeout sid s = endSession sid s := by
  obtain ⟨x, hx, hid, hup, hlate⟩ := h
  exact if_pos (List.any_eq_true.2 ⟨x, hx, by simp [hid, hup, hlate]⟩)

/-- Settles O20: each message under its guard, and an ended session is no longer among those that are open. -/
theorem operatorSessionsOpenAndEnd : Obligations.OperatorSessionsOpenAndEnd :=
  ⟨fun _ _ _ hready hid hanchor hroom => ⟨_, freshSid_not_mem (by simpa using hroom) _,
      congrArg Host.Outcome.next (hello_opens hready hid hanchor hroom)⟩,
    fun _ _ _ _ hready hx hsoon hcert => congrArg _ (auth_accepted hready hx hsoon hcert),
    fun _ _ _ _ hready hx hctr => ⟨_, congrArg Host.Outcome.next (record_authentic hready hx hctr none),
      endSession_heard_onlyIn _ _ _ _, fun _ => endSession_ids, fun _ => mem_endSession_heard⟩,
    fun _ _ _ _ _ hready hx hctr => congrArg _ (record_authentic hready hx hctr (some _)),
    fun _ _ h => congrArg _ (setupTimeout_late h),
    fun _ _ h => congrArg _ (idleTimeout_late h)⟩

/-! ## The mailbox -/

theorem mbxSubmit_free {slot : Nat} {m : DictMsg} {s : State} (hcxl : cxlServes s = true) (hslot : slot < 16)
    (hfree : (s.mgmt.mbx.getD slot {}).req = none) :
    mbxSubmit slot m s = { s with mgmt := { s.mgmt with
      mbx := s.mgmt.mbx.set slot { s.mgmt.mbx.getD slot {} with req := some m, rsp := none }
      mbxOrder := s.mgmt.mbxOrder ++ [slot] } } := by
  have hguard : (!cxlServes s || decide (16 ≤ slot)) = false := by simp [hcxl, hslot]
  simp only [mbxSubmit, hguard, hfree, Option.isSome_none, Bool.false_eq_true, if_false]

theorem mbxSubmit_busy {slot : Nat} {m : DictMsg} {s : State} (hcxl : cxlServes s = true) (hslot : slot < 16)
    (hbusy : (s.mgmt.mbx.getD slot {}).req ≠ none) :
    mbxSubmit slot m s = { s with mgmt := { s.mgmt with mbxIgnored := s.mgmt.mbxIgnored + 1 } } := by
  have hguard : (!cxlServes s || decide (16 ≤ slot)) = false := by simp [hcxl, hslot]
  simp only [mbxSubmit, hguard, Option.isSome_iff_ne_none.2 hbusy, Bool.false_eq_true, if_false, if_true]

theorem mbxDone_serving {bits : Nat} {s : State} (hcxl : cxlServes s = true) :
    mbxDone bits s = { s with mgmt := { s.mgmt with
      mbx := s.mgmt.mbx.mapIdx (fun i x => if bitOf bits i then { x with done := false } else x) } } :=
  if_neg (by simp [hcxl])

theorem onlyIn_mgmt (f : Mgmt) (s : State) : OnlyIn [.mgmt] s { s with mgmt := f } := by
  refine ⟨rfl, rfl, fun p hp => ?_⟩
  cases p with
  | mgmt => simp at hp
  | _ => rfl

/-- A slot after MBX_DONE: where its bit was written the done bit is clear, and nothing else of it changes. -/
theorem mbxDone_slot (bits : Nat) (l : List MbxSlot) (i : Nat) :
    (l.mapIdx (fun i x => if bitOf bits i then { x with done := false } else x))[i]? =
      l[i]?.map (fun x => if bitOf bits i then { x with done := false } else x) :=
  List.getElem?_mapIdx

/-- Settles O21: a slot's request stands in the way of another, and MBX_DONE maps every slot on its own. -/
theorem mailboxSlotsTakeRequests : Obligations.MailboxSlotsTakeRequests := by
  refine ⟨fun _ _ _ hcxl hslot hfree => congrArg _ (mbxSubmit_free hcxl hslot hfree),
    fun _ _ _ hcxl => congrArg _ (if_pos (by simp [hcxl])),
    fun _ _ _ hcxl hslot hbusy => congrArg _ (mbxSubmit_busy hcxl hslot hbusy),
    fun bits s hcxl => ⟨_, congrArg Host.Outcome.next (mbxDone_serving hcxl), onlyIn_mgmt _ s, List.length_mapIdx,
      fun i hbit _ => ?_, fun i hbit => ?_, fun i => ?_⟩⟩
  · have hwritten : bitOf bits.toNat i = true := hbit
    rw [List.getD_eq_getElem?_getD, mbxDone_slot, hwritten]
    cases s.mgmt.mbx[i]? <;> rfl
  · have hkept : bitOf bits.toNat i = false := hbit
    rw [mbxDone_slot, hkept]
    cases s.mgmt.mbx[i]? <;> rfl
  · simp only [List.getD_eq_getElem?_getD, mbxDone_slot]
    cases s.mgmt.mbx[i]? with
    | none => exact ⟨rfl, rfl⟩
    | some x => cases hb : bitOf bits.toNat i <;> simp

/-! ## The SPDM responder -/

/-- A device in READY with an identity refuses no request as such. -/
theorem spdmRefused_ready {s : State} (hready : ready s = true) (hid : s.sec.identity ≠ none) (idNeeded : Bool) :
    spdmRefused s idNeeded = false := by
  have hdev : s.power.dev = .ready := by simpa [ready] using hready
  simp [spdmRefused, hdev, isNone_eq_false hid]

theorem spdmRequest_keyExchange {id : Nat} {s : State} (hready : ready s = true) (hid : s.sec.identity ≠ none)
    (hroom : s.sec.sessions.length < 2) (hnew : findSpdm s id = none) :
    spdmRequest (.keyExchange id) s = { s with
      fresh := s.fresh + 1
      tx := s.tx ++ [.spdm (some id) false [] false]
      sec := { s.sec with sessions := s.sec.sessions ++ [{ id := id, secret := freeOf 256 s }] } } := by
  have hguard : (decide (2 ≤ s.sec.sessions.length) || (findSpdm s id).isSome) = false := by simp [hnew, hroom]
  simp only [spdmRequest, answers_of_ready hready, spdmRefused_ready hready hid, hguard, Bool.not_true, Bool.false_eq_true, if_false]
  rfl

theorem spdmRequest_getDigests {s : State} (hready : ready s = true) (hid : s.sec.identity ≠ none) :
    spdmRequest .getDigests s = { s with tx := s.tx ++ [.spdmDigest (Config.sha256 s.power.nor.chain)] } := by
  simp only [spdmRequest, answers_of_ready hready, spdmRefused_ready hready hid, Bool.not_true, Bool.false_eq_true, if_false]
  rfl

theorem spdmRequest_getCertificate {off len : Nat} {s : State} (hready : ready s = true) (hid : s.sec.identity ≠ none)
    (hoff : off ≤ s.power.nor.chain.length) :
    spdmRequest (.getCertificate 0 off len) s = { s with tx := s.tx ++ [.spdmChain ((s.power.nor.chain.drop off).take len)
      (s.power.nor.chain.length - min s.power.nor.chain.length (off + len))] } := by
  have hguard : (((0 : Nat) != 0) || decide (s.power.nor.chain.length < off)) = false := by simp [hoff]
  have hleft : s.power.nor.chain.length - off - len =
      s.power.nor.chain.length - min s.power.nor.chain.length (off + len) := by omega
  simp only [spdmRequest, answers_of_ready hready, spdmRefused_ready hready hid, certAnswer, hguard, hleft, Bool.not_true,
    Bool.false_eq_true, if_false]
  rfl

theorem spdmFinish_candidate {id : Nat} {leaf : Bytes} {s : State} (hready : ready s = true) (hid : s.sec.identity ≠ none)
    (hopen : ∃ x ∈ s.sec.sessions, x.id = id ∧ x.finished = false) (hfree : s.sec.tenancy = .unowned) :
    spdmFinish id true leaf s = { bump64 0x9050 0x03 s with
      tx := s.tx ++ [.spdm (some id) false [] false]
      sec := { s.sec with
        sessions := s.sec.sessions.map (fun x => if x.id == id then { x with finished := true, leafKey := leaf } else x)
        tenancy := .attesting, candidate := some id, attestSince := s.now } } := by
  obtain ⟨x, hx, hxid, hxopen⟩ := hopen
  have hany : s.sec.sessions.any (fun x => x.id == id && !x.finished) = true :=
    List.any_eq_true.2 ⟨x, hx, by simp [hxid, hxopen]⟩
  have hfirst : (true && ready s && s.sec.tenancy == .unowned) = true := by simp [hready, hfree]
  simp only [spdmFinish, answers_of_ready hready, spdmRefused_ready hready hid, hany, hfirst, Bool.not_true, Bool.false_eq_true,
    Bool.or_self, if_false, if_true]
  rfl

theorem getMeasurements_one {i : Nat} {sign : Bool} {s : State} (hready : ready s = true) (hid : s.sec.identity ≠ none)
    (hlow : 1 ≤ i) (hhigh : i ≤ 8) :
    getMeasurements none i sign s = { s with tx := s.tx ++ [.spdm none false [(i, measurement s i)] sign] } := by
  have hblocks : measurementBlocks s i = some [(i, measurement s i)] := by
    rw [measurementBlocks, if_neg (by omega), if_pos hhigh]
  simp only [getMeasurements, answers_of_ready hready, spdmRefused_ready hready hid, hblocks, Option.any_none, Bool.not_true,
    Bool.false_eq_true, Bool.or_self, if_false]
  rfl

theorem spdmEnd_other {id : Nat} {s : State} (h : s.sec.candidate ≠ some id) :
    spdmEnd id s = { s with sec := { s.sec with sessions := s.sec.sessions.filter (fun x => x.id != id) } } :=
  if_neg (by simpa using h)

theorem spdmEnd_candidate {id : Nat} {s : State} (h : s.sec.candidate = some id) (hten : s.sec.tenancy = .attesting) :
    spdmEnd id s = { s with sec := { s.sec with
      sessions := s.sec.sessions.filter (fun x => x.id != id), tenancy := .unowned, candidate := none } } := by
  have hcand : (s.sec.candidate == some id) = true := by simp [h]
  have hatt : (s.sec.tenancy == .attesting) = true := by simp [hten]
  simp only [spdmEnd, hcand, unattest, hatt, if_true]

theorem ownershipWait_over {s : State} (hten : s.sec.tenancy = .attesting)
    (hlate : s.sec.attestSince + od s 0x9000 0x07 * 1000000 ≤ s.now) :
    ownershipWait s = { s with sec := { s.sec with tenancy := .unowned, candidate := none } } := by
  have hatt : (s.sec.tenancy == .attesting) = true := by simp [hten]
  simp only [ownershipWait, hlate, unattest, hatt, if_true]

theorem exec_spdmSessionEnd {id : Nat} {s : State} (hready : ready s = true) :
    exec (.spdmSessionEnd id) s = .next (spdmEnd id s) :=
  congrArg _ (if_pos (answers_of_ready hready))

/-- Settles O22: a ready device with an identity refuses none of these requests, and each then does its own. -/
theorem spdmSessionsAttest : Obligations.SpdmSessionsAttest :=
  ⟨fun _ _ hready hid hroom hnew => congrArg _ (spdmRequest_keyExchange hready hid hroom hnew),
    fun _ hready hid => congrArg _ (spdmRequest_getDigests hready hid),
    fun _ _ _ hready hid hoff => congrArg _ (spdmRequest_getCertificate hready hid hoff),
    fun _ _ _ hready hid hopen hfree => congrArg _ (spdmFinish_candidate hready hid hopen hfree),
    fun _ _ _ hready hid hlow hhigh => congrArg _ (getMeasurements_one hready hid hlow hhigh),
    fun _ _ hready hother => (exec_spdmSessionEnd hready).trans (congrArg _ (spdmEnd_other hother)),
    fun _ _ hready hcand hten => (exec_spdmSessionEnd hready).trans (congrArg _ (spdmEnd_candidate hcand hten)),
    fun _ hten hlate => congrArg _ (ownershipWait_over hten hlate)⟩

/-! ## A tenancy secret with keys to trim -/

/-- A ready device that is owned by the leaf key of session 1, with a shelf that still has a key to trim (R443). -/
def trimmingOwned : State := { State.reset with
  power := { dev := .ready }
  sec := { tenancy := .owned, sessions := [{ id := 1, finished := true }], ownerDigest := Config.sha256 [] }
  shelves := [{ state := 5, trims := [7] }] }

theorem isOwner_trimmingOwned : isOwner trimmingOwned 1 = true := by
  simp [isOwner, findSpdm, trimmingOwned]

/-- The shelf's keys are trimmed with the secret that comes. -/
theorem tenancySecret_trims : (shelfOf (tenancySecret 1 0 trimmingOwned) 0).trims = [] := by
  have howner : (owned trimmingOwned && isOwner trimmingOwned 1) = true := by rw [isOwner_trimmingOwned]; rfl
  simp only [tenancySecret, howner]
  decide +kernel

/-- Refutes O23: the clause of the tenancy secret asks nothing of the keys that shelves still have to trim, and these are trimmed
with it (R357), so the shelves change too. -/
theorem not_theOwnerTakesAndKeepsTheDevice : ¬ Obligations.TheOwnerTakesAndKeepsTheDevice := by
  intro h
  obtain ⟨-, -, -, -, -, htenancy, -⟩ := h
  have hexec := htenancy 1 0 trimmingOwned rfl rfl isOwner_trimmingOwned rfl (fun h _ => .inl ?_)
  · have hstate : tenancySecret 1 0 trimmingOwned = _ := Host.Outcome.next.inj hexec
    have htrims := tenancySecret_trims
    rw [hstate] at htrims
    exact absurd htrims (by decide)
  · cases h <;> rfl

end Sys2Proof.Proofs
end

section
/-! PROOFS. Command doorbells (02_host_attach.md, R50, R51): a tail that asks for nothing stops no queue, however many descriptors
wait. -/

namespace Sys2Proof.Proofs
open Sys2Proof Sys2Proof.Machine Sys2Proof.Laws

/-- A ready device whose queue 0 of partition 0 has a ring of 16 and 17 descriptors that wait. -/
def crowded : State := { State.reset with
  power := { dev := .ready }
  od := [(odKey 0x1300 1, 16), (odKey 0x1300 5, 0)]
  queues := { qs := (List.replicate 129 {}).set 0 { waiting := List.replicate 17 0x61 } } }

/-- The doorbell writes the tail that stands: it asks for no slot, of which none is free. -/
theorem commandTail_crowded_goes_on :
    (queueOf (commandTail (.part 0 0) 0 [] (rang (tailBell (.part 0 0)) 0 crowded)) (.part 0 0)).stopped = false := by
  decide +kernel

theorem stopQueue_crowded_stops : (queueOf (stopQueue (.part 0 0) (rang (tailBell (.part 0 0)) 0 crowded)) (.part 0 0)).stopped = true := by
  decide +kernel

/-- Refutes O24: its second clause counts more descriptors than the ring holds as a doorbell that asks for too much, but a doorbell
that asks for none takes none and leaves its queue going. -/
theorem not_doorbellsSubmitAndFree : ¬ Obligations.DoorbellsSubmitAndFree := by
  intro h
  obtain ⟨-, hstops, -⟩ := h
  have hexec := hstops (.part 0 0) 0 [] crowded (by decide +kernel) rfl (by decide +kernel) (.inr (by decide +kernel))
  have hstate : commandTail (.part 0 0) 0 [] (rang (tailBell (.part 0 0)) 0 crowded) =
      stopQueue (.part 0 0) (rang (tailBell (.part 0 0)) 0 crowded) := Host.Outcome.next.inj hexec
  have hgoes := commandTail_crowded_goes_on
  rw [hstate, stopQueue_crowded_stops] at hgoes
  cases hgoes

end Sys2Proof.Proofs
end

section
/-! PROOFS. Closing a sequence (04_kv_memory_model.md, R141, R156; 09_tiers_and_pool.md, R301): a column that is freed gives up its
tier copy, and a command that this ends has then used the columns that it read. -/

namespace Sys2Proof.Proofs
open Sys2Proof Sys2Proof.Machine Sys2Proof.Laws

/-- In step 1, a COL_MOVE of sequence 2 has read its column 6, and the one copy it still waits for is that of column 5, of
sequence 1. -/
def movingAcross : State := { State.reset with
  wheel := { cur := 0x1000000 }
  kv := {
    seqs := [{ id := 1, part := 0, model := 0, cols := [5] }, { id := 2, part := 0, model := 0, cols := [6] }]
    cols := [{ slot := 5, gen := 0, part := 0, model := 0, home := { tier := .meadow } },
      { slot := 6, gen := 0, part := 0, model := 0, home := { tier := .meadow } }] }
  objs := { moves := [{ id := 1, since := 0, item := .col 5, part := 0, units := 0, dest := { tier := .meadow },
                        image := false, cause := .cmd 1 }] }
  queues := { cmds := [{ id := 1, since := 0, q := .part 0 0, part := 0, desc := 0x2_0000000000000012, work := .moves [1] 0 none [6] }] } }

/-- Closing sequence 1 ends the command, and with it the last use of sequence 2 is the current step. -/
theorem closeSeq_movingAcross_lastUsed :
    (findSeq (closeSeq { id := 1, part := 0, model := 0, cols := [5] } movingAcross) 2).map (fun q => q.lastUsed) = some 1 ∧
    (findSeq movingAcross 2).map (fun q => q.lastUsed) = some 0 := by
  decide +kernel

/-- Refutes O26: its fourth clause has every other sequence as it was, but a command that loses its last copy with a freed column
leaves its sequence used in the current step (R156). -/
theorem not_sequencesOpenForkAndClose : ¬ Obligations.SequencesOpenForkAndClose := by
  intro h
  obtain ⟨-, -, -, hclose, -, -⟩ := h
  have hother := (hclose { id := 1, part := 0, model := 0, cols := [5] } movingAcross).2 2 (by decide)
  obtain ⟨hafter, hbefore⟩ := closeSeq_movingAcross_lastUsed
  rw [hother, hbefore] at hafter
  cases hafter

end Sys2Proof.Proofs
end

section
/-! PROOFS. Commands on sequences and columns (04_kv_memory_model.md, R140 to R150; 09_tiers_and_pool.md, R300 to R302): appends from a
column's first row, and the column commands. -/

namespace Sys2Proof.Proofs
open Sys2Proof Sys2Proof.Machine Sys2Proof.Laws

/-! ## Parts that change -/

theorem same_refl (p : Part) (s : State) : p.Same s s := by cases p <;> rfl

theorem same_trans {p : Part} {r s t : State} (h : p.Same r s) (k : p.Same s t) : p.Same r t := by
  cases p <;> exact Eq.trans k h

theorem onlyIn_refl (l : List Part) (s : State) : OnlyIn l s s := ⟨rfl, rfl, fun p _ => same_refl p s⟩

theorem onlyIn_trans {l : List Part} {r s t : State} (h : OnlyIn l r s) (k : OnlyIn l s t) : OnlyIn l r t :=
  ⟨k.1.trans h.1, k.2.1.trans h.2.1, fun p hp => same_trans (h.2.2 p hp) (k.2.2 p hp)⟩

theorem onlyIn_mono {l l' : List Part} {s t : State} (h : OnlyIn l s t) (hl : l ⊆ l') : OnlyIn l' s t :=
  ⟨h.1, h.2.1, fun p hp => h.2.2 p fun hm => hp (hl hm)⟩

/-! ## Front commands that complete -/

theorem popCmd_onlyIn (q : QRef) (d : Desc) (ds : List Desc) (s : State) : OnlyIn [.queues] s (popCmd q d ds s) := by
  refine ⟨rfl, rfl, fun p hp => ?_⟩
  cases p with
  | queues => simp at hp
  | _ => rfl

theorem complete_onlyIn (c : Cmd) (st : Status) (v : Nat) (s : State) : OnlyIn [.host, .queues, .peer] s (complete c st v s) := by
  refine (complete_parts c st v s).onlyIn fun p hp => ?_
  cases p with
  | host => simp at hp
  | queues => simp at hp
  | peer => simp at hp
  | _ => rfl

/-- A command that runs at the front of its queue and completes on a state that differs in the parts `l` alone. -/
theorem completes_front {op : Nat} {q : QRef} {d : Desc} {ds : List Desc} {s t : State} {st : Status} {v : Nat} {l : List Part}
    (h : Front op q d ds s) (hl : OnlyIn l (popCmd q d ds s) t)
    (hout : Part.host ∉ l ∧ Part.queues ∉ l ∧ Part.od ∉ l ∧ Part.wheel ∉ l) :
    Completes q d st v l s (complete (takenCmd q d s) st v t) := by
  obtain ⟨hhost, hqueues, hod, hwheel⟩ := hout
  have hodSame : t.od = s.od := hl.2.2 .od hod
  refine ⟨front_reports h (hl.2.2 .host hhost) (hl.2.2 .queues hqueues) (fun i k => by rw [od, hodSame]; rfl) (hl.2.2 .wheel hwheel),
    ?_⟩
  refine onlyIn_trans (onlyIn_mono (popCmd_onlyIn q d ds s) (by simp)) (onlyIn_trans (onlyIn_mono hl ?_)
    (onlyIn_mono (complete_onlyIn _ _ _ _) (by simp)))
  exact fun p hp => by simp [hp]

/-- The same where the command changes nothing. -/
theorem completes_front_unchanged {op : Nat} {q : QRef} {d : Desc} {ds : List Desc} {s : State} {st : Status} {v : Nat}
    (h : Front op q d ds s) : Completes q d st v [] s (complete (takenCmd q d s) st v (popCmd q d ds s)) :=
  completes_front h (onlyIn_refl _ _) (by simp)

/-- Completing a command changes no sequence, column or other part of the KV model. -/
theorem complete_kv (c : Cmd) (st : Status) (v : Nat) (s : State) : (complete c st v s).kv = s.kv :=
  (complete_onlyIn c st v s).2.2 .kv (by simp)

theorem onlyIn_kv (f : Kv) (s : State) : OnlyIn [.kv] s { s with kv := f } := by
  refine ⟨rfl, rfl, fun p hp => ?_⟩
  cases p with
  | kv => simp at hp
  | _ => rfl

/-! ## Sequences and columns as they are found -/

theorem findSeq_id {s : State} {id : Nat} {x : Seq} (h : findSeq s id = some x) : x.id = id := by
  simpa using List.find?_some h

theorem findCol_slot {s : State} {k : Nat} {x : Col} (h : findCol s k = some x) : x.slot = k := by
  simpa using List.find?_some h

/-- Replacing every element with a key by `y`, which has that key: what is found under a key is then `y` or as before. -/
theorem find?_map_replace {α : Type} (key : α → Nat) (y : α) (l : List α) (k : Nat) :
    (l.map (fun x => if key x == key y then y else x)).find? (fun x => key x == k) =
      if k = key y then (l.find? (fun x => key x == k)).map (fun _ => y) else l.find? (fun x => key x == k) := by
  induction l with
  | nil => simp
  | cons x xs ih =>
    rw [List.map_cons, List.find?_cons, List.find?_cons, ih]
    by_cases hx : key x = key y
    · by_cases hk : k = key y
      · simp [hx, hk]
      · have hk' : (key y == k) = false := by simpa using fun h => hk h.symm
        simp [hx, hk, hk']
    · by_cases hk : k = key y
      · have hxy : (key x == key y) = false := by simpa using hx
        simp [hk, hxy]
      · simp [hx, hk]

theorem findSeq_setSeq (s : State) (y : Seq) (k : Nat) :
    findSeq (setSeq y s) k = if k = y.id then (findSeq s k).map (fun _ => y) else findSeq s k :=
  find?_map_replace (fun x : Seq => x.id) y s.kv.seqs k

theorem findCol_setCol (s : State) (y : Col) (k : Nat) :
    findCol (setCol y s) k = if k = y.slot then (findCol s k).map (fun _ => y) else findCol s k :=
  find?_map_replace (fun x : Col => x.slot) y s.kv.cols k

/-- A sequence that is found is found as it is set. -/
theorem findSeq_setSeq_of_some {s : State} {id : Nat} {x y : Seq} (h : findSeq s id = some x) (hy : y.id = id) :
    findSeq (setSeq y s) id = some y := by
  rw [findSeq_setSeq, if_pos hy.symm, h]
  rfl

/-- What no act on the state changes, a repetition of acts does not change. -/
theorem forEach_keeps {α β : Type} {f : α → State → State} (g : State → β) (h : ∀ x t, g (f x t) = g t) (l : List α) (s : State) :
    g (forEach f l s) = g s := by
  induction l generalizing s with
  | nil => rfl
  | cons x xs ih => rw [forEach_cons, ih, h]

/-! ## Changing columns -/

theorem editCols_onlyIn (f : Col → Col) (cs : List Col) (s : State) : OnlyIn [.kv] s (editCols f cs s) := by
  unfold editCols
  induction cs generalizing s with
  | nil => exact onlyIn_refl _ _
  | cons c cs ih =>
    rw [forEach_cons]
    refine onlyIn_trans ?_ (ih _)
    split
    · exact onlyIn_kv _ s
    · exact onlyIn_refl _ s

theorem editCols_cons (f : Col → Col) (c : Col) (cs : List Col) (s : State) :
    editCols f (c :: cs) s = editCols f cs (editCols f [c] s) := rfl

theorem findCol_editCols_one {f : Col → Col} (hslot : ∀ x, (f x).slot = x.slot) (c : Col) {s : State} {k : Nat} {x : Col}
    (h : findCol s k = some x) : findCol (editCols f [c] s) k = some (if c.slot = k then f x else x) := by
  unfold editCols
  rw [forEach_cons, forEach_nil]
  split
  · rename_i y hy
    rw [findCol_setCol, hslot, findCol_slot hy]
    by_cases hc : c.slot = k
    · rw [hc, h] at hy
      rw [if_pos hc.symm, if_pos hc, h, Option.some.inj hy]
      rfl
    · rw [if_neg (Ne.symm hc), if_neg hc, h]
  · rename_i hnone
    rw [if_neg (fun hc => by rw [hc, h] at hnone; cases hnone), h]

/-- A change that does not move columns and has no further effect a second time reaches the columns it is for. -/
theorem findCol_editCols {f : Col → Col} (hslot : ∀ x, (f x).slot = x.slot) (htwice : ∀ x, f (f x) = f x) (cs : List Col)
    {s : State} {k : Nat} {x : Col} (h : findCol s k = some x) :
    findCol (editCols f cs s) k = some (if cs.any (fun c => c.slot == k) then f x else x) := by
  induction cs generalizing s x with
  | nil => exact h
  | cons c cs ih =>
    rw [editCols_cons, ih (findCol_editCols_one hslot c h)]
    by_cases hc : c.slot = k <;> simp [hc, htwice]

/-! ## Column commands -/

theorem exec_colSeal {q : QRef} {d : Desc} {ds : List Desc} {cs : List Col} {s : State} (h : Front 0x11 q d ds s)
    (hcs : targetCols (takenCmd q d s).part d s = .ok cs) (hseal : cs.all (canSeal s) = true) :
    exec (.colSeal q) s = .next (complete (takenCmd q d s) .ok cs.length
      (editCols (fun c => { c with isSealed := true }) cs (popCmd q d ds s))) := by
  have hcs' : targetCols (takenCmd q d s).part d (popCmd q d ds s) = .ok cs := hcs
  have hseal' : cs.all (canSeal (popCmd q d ds s)) = true := hseal
  have hrun : colSeal (takenCmd q d s).part d (popCmd q d ds s) =
      .ok (cs.length, editCols (fun c => { c with isSealed := true }) cs (popCmd q d ds s)) := by
    unfold colSeal
    rw [hcs']
    simp only [Except.bind, bind, need, hseal', if_true]
    rfl
  refine congrArg _ ((startCmd_front h runColSeal).trans ?_)
  exact congrArg (fun r => finish (takenCmd q d s) r (popCmd q d ds s)) hrun

theorem colSetPin_ok {v : Bool} {p : Nat} {d : Desc} {cs : List Col} {s : State} (hcs : targetCols p d s = .ok cs) :
    colSetPin v p d s = .ok (cs.length,
      if v then abandonSweepOf (fun i => cs.any (fun c => isColItem c.slot i)) (editCols (fun c => { c with pinned := v }) cs s)
      else editCols (fun c => { c with pinned := v }) cs s) := by
  unfold colSetPin
  rw [hcs]
  rfl

theorem exec_colPin {q : QRef} {d : Desc} {ds : List Desc} {cs : List Col} {s : State} (h : Front 0x13 q d ds s)
    (hcs : targetCols (takenCmd q d s).part d s = .ok cs) :
    exec (.colPin q) s = .next (complete (takenCmd q d s) .ok cs.length
      (abandonSweepOf (fun i => cs.any (fun c => isColItem c.slot i))
        (editCols (fun c => { c with pinned := true }) cs (popCmd q d ds s)))) := by
  have hcs' : targetCols (takenCmd q d s).part d (popCmd q d ds s) = .ok cs := hcs
  refine congrArg _ ((startCmd_front h runColPin).trans ?_)
  exact congrArg (fun r => finish (takenCmd q d s) r (popCmd q d ds s)) (colSetPin_ok hcs')

theorem exec_colUnpin {q : QRef} {d : Desc} {ds : List Desc} {cs : List Col} {s : State} (h : Front 0x14 q d ds s)
    (hcs : targetCols (takenCmd q d s).part d s = .ok cs) :
    exec (.colUnpin q) s = .next (complete (takenCmd q d s) .ok cs.length
      (editCols (fun c => { c with pinned := false }) cs (popCmd q d ds s))) := by
  have hcs' : targetCols (takenCmd q d s).part d (popCmd q d ds s) = .ok cs := hcs
  refine congrArg _ ((startCmd_front h runColUnpin).trans ?_)
  exact congrArg (fun r => finish (takenCmd q d s) r (popCmd q d ds s)) (colSetPin_ok hcs')

/-- A command that changes each column it names, and answers how many: in the columns that is all it changes. -/
theorem editCols_completes {op : Nat} {q : QRef} {d : Desc} {ds : List Desc} {cs : List Col} {f : Col → Col} {s : State}
    (h : Front op q d ds s) (hslot : ∀ x, (f x).slot = x.slot) (htwice : ∀ x, f (f x) = f x) :
    Completes q d .ok cs.length [.kv] s (complete (takenCmd q d s) .ok cs.length (editCols f cs (popCmd q d ds s))) ∧
    ∀ k x, findCol s k = some x →
      findCol (complete (takenCmd q d s) .ok cs.length (editCols f cs (popCmd q d ds s))) k =
        some (if cs.any (fun c => c.slot == k) then f x else x) := by
  refine ⟨completes_front h (editCols_onlyIn f cs _) (by simp), fun k x hx => ?_⟩
  have hfound : findCol (popCmd q d ds s) k = some x := hx
  rw [findCol, complete_kv]
  exact findCol_editCols hslot htwice cs hfound

/-- COL_MOVE past its checks (R300). -/
theorem runColMove_moves {c : Cmd} {cs : List Col} {ms : List Nat} {s t : State} (hcs : targetCols c.part c.desc s = .ok cs)
    (hclean : cs.any (fun k => k.poisoned) = false) (htier : dfield c.desc 20 1 ≤ 2) (hmode : dfield c.desc 21 1 ≤ 2)
    (hallowed : cs.findSome? (colRefusal (tierOf (dfield c.desc 20 1)) (dfield c.desc 21 1) true) = none)
    (hstill : cs.any (fun k => k.moving) = false)
    (hports : cs.findSome? (needsPort s (tierOf (dfield c.desc 20 1)) (dfield c.desc 21 1)) = none)
    (hmoves : moveEach (moveCol (tierOf (dfield c.desc 20 1)) (dfield c.desc 21 1) (.cmd c.id)) cs s = .ok (ms, t)) :
    runColMove c s = if ms = [] then complete c .ok cs.length t else setWork c.id (.moves ms cs.length none []) t := by
  have hform : (decide (2 < dfield c.desc 20 1) || decide (2 < dfield c.desc 21 1)) = false := by simp [htier, hmode]
  simp only [runColMove, hcs, hclean, hform, hallowed, hstill, hports, hmoves, Bool.false_eq_true, if_false]
  cases ms <;> simp [afterMoves]

theorem runColMove_poisoned {c : Cmd} {cs : List Col} {s : State} (hcs : targetCols c.part c.desc s = .ok cs)
    (hbad : cs.any (fun k => k.poisoned) = true) : runColMove c s = complete c .poisoned 0 s := by
  simp only [runColMove, hcs, hbad, if_true]

/-- COL_DISCARD of full columns of a sequence without windows (R145). -/
theorem colDiscard_ok {p : Nat} {d : Desc} {cs : List Col} {x : Seq} {s : State} (hcs : targetCols p d s = .ok cs)
    (hflag : bitOf (dFlags d) 0 = false) (hx : openSeq s p (dSeq d) = .ok x) (hfull : cs.all (fun c => c.fill == 16) = true)
    (hplain : (windowGroups s x.model).isEmpty = true) :
    colDiscard p d s = .ok (dfield d 16 4, forEach (fun (c : Col) t => dropRef c.slot (dropSlices c.slot t)) cs
      (fitList x.id (setSeq { x with
        cols := x.cols.take (dfield d 12 4) ++ x.cols.drop (dfield d 12 4 + dfield d 16 4)
        length := x.length - 16 * dfield d 16 4 } s))) := by
  unfold colDiscard
  rw [hcs]
  simp only [Except.bind, bind, need, hflag, hx, hfull, hplain, Bool.not_false, Bool.and_self, if_true]
  rfl

/-- Settles O28: each command's checks are the clause's hypotheses, and its columns are found before it starts as it finds them. -/
theorem columnCommandsAct : Obligations.ColumnCommandsAct := by
  refine ⟨fun q d ds cs s h hcs hseal => ⟨_, exec_colSeal h hcs hseal, editCols_completes h (fun _ => rfl) (fun _ => rfl)⟩,
    fun _ _ _ _ _ h hcs => exec_colPin h hcs,
    fun q d ds cs t ms s h hcs hclean htier hmode hallowed hstill hports hmoves => ?_,
    fun q d ds cs s h hcs hbad => ⟨_, ?_, completes_front_unchanged h⟩,
    fun q d ds cs s h hcs => ⟨_, exec_colUnpin h hcs, editCols_completes h (fun _ => rfl) (fun _ => rfl)⟩,
    fun q d ds cs x s h hcs hflag hx hfull hplain => ?_⟩
  · exact congrArg _ ((startCmd_front h runColMove).trans
      (runColMove_moves (c := takenCmd q d s) (s := popCmd q d ds s) hcs hclean htier hmode hallowed hstill hports hmoves))
  · exact congrArg _ ((startCmd_front h runColMove).trans
      (runColMove_poisoned (c := takenCmd q d s) (s := popCmd q d ds s) hcs hbad))
  · refine congrArg _ ((startCmd_front h runColDiscard).trans ?_)
    exact congrArg (fun r => finish (takenCmd q d s) r (popCmd q d ds s))
      (colDiscard_ok (s := popCmd q d ds s) hcs hflag hx hfull hplain)

end Sys2Proof.Proofs
end

section
/-! PROOFS. KV_APPEND (04_kv_memory_model.md, R146 to R148; 09_tiers_and_pool.md, R301, R302): what a run that starts at a column's first
row waits for and adds, and what its last layer makes of the sequence. -/

namespace Sys2Proof.Proofs
open Sys2Proof Sys2Proof.Machine Sys2Proof.Laws

/-! ## The checks of a run -/

/-- The first step of a check that succeeds has succeeded. -/
theorem except_bind_ok {α β : Type} {e : Except Status α} {f : α → Except Status β} {b : β} (h : (e >>= f) = .ok b) :
    ∃ a, e = .ok a ∧ f a = .ok b := by
  cases e with
  | error st => cases h
  | ok a => exact ⟨a, rfl, h⟩

/-- The sequence of a run is the one that its descriptor names, as it stands. -/
theorem appendArgs_seq {p : Nat} {d : Desc} {a : Append} {s : State} (h : appendArgs p d s = .ok a) :
    findSeq s a.seq.id = some a.seq := by
  obtain ⟨q, hq, h⟩ := except_bind_ok h
  have hseq : a.seq = q := by
    obtain ⟨-, -, h⟩ := except_bind_ok h
    obtain ⟨-, -, h⟩ := except_bind_ok h
    obtain ⟨-, -, h⟩ := except_bind_ok h
    obtain ⟨-, -, h⟩ := except_bind_ok h
    obtain ⟨-, -, h⟩ := except_bind_ok h
    obtain ⟨-, -, h⟩ := except_bind_ok h
    obtain ⟨-, -, h⟩ := except_bind_ok h
    cases h
    rfl
  have hfound : findSeq s (dSeq d) = some q := by
    unfold openSeq anySeq at hq
    split at hq
    · rename_i x hx
      split at hx
      · rename_i y hy
        split_ifs at hx hq
        cases hx
        cases hq
        exact hy
      · cases hx
    · cases hq
  rw [hseq, findSeq_id hfound, hfound]

theorem appendArgs_failed {p : Nat} {d : Desc} {x : Seq} {s : State} (hx : findSeq s (dSeq d) = some x) (hpart : x.part = p)
    (hfailed : x.failed = true) : appendArgs p d s = .error .poisoned := by
  have hopen : openSeq s p (dSeq d) = .error .poisoned := by simp [openSeq, anySeq, hx, hpart, hfailed]
  unfold appendArgs
  rw [hopen]
  rfl

/-- Without a partial last column there is none to copy (R150). -/
theorem privateLast_whole {id : Nat} {x : Seq} {s : State} (hx : findSeq s id = some x) (hlen : x.length % 16 = 0) :
    privateLast false id s = .ok (0, s) := by
  simp [privateLast, hx, hlen]

theorem map_snd_indexed {α : Type} (l : List α) : (indexed l).map (fun x => x.2) = l :=
  List.map_snd_zip (by simp)

theorem any_drop_indexed {α : Type} (l : List α) (n : Nat) (p : α → Bool) :
    ((indexed l).drop n).any (fun x => p x.2) = (l.drop n).any p := by
  conv_rhs => rw [← map_snd_indexed l, ← List.map_drop, List.any_map]
  rfl

/-- The columns of a run, with their list indices, one of which `p` picks. -/
abbrev runCols (a : Append) (p : Col → Bool) (s : State) : Bool :=
  (a.seq.cols.drop (a.seq.length / 16)).any (fun k => (findCol s k).any p)

/-! ## A run from a column's first row -/

/-- The run waits for a column that a copy moves (R301). -/
theorem appendGo_moving {c : Cmd} {a : Append} {s : State} (ha : appendArgs c.part c.desc s = .ok a) (hlen : a.seq.length % 16 = 0)
    (hmoving : runCols a (fun k => k.moving) s = true) : appendGo 0 c s = setWork c.id .deferred s := by
  have hx := appendArgs_seq ha
  have hany : ((indexed a.seq.cols).drop (a.seq.length / 16)).any (fun x => (findCol s x.2).any (fun k => k.moving)) = true :=
    (any_drop_indexed _ _ _).trans hmoving
  simp only [appendGo, ha, privateLast_whole hx hlen, hx, Option.elim_some, hany, if_true]

/-- With its columns in meadow and still, it adds the columns it needs and writes its rows. -/
theorem appendGo_writes {c : Cmd} {a : Append} {s t : State} (ha : appendArgs c.part c.desc s = .ok a) (hlen : a.seq.length % 16 = 0)
    (hmoving : runCols a (fun k => k.moving) s = false) (hmeadow : runCols a (fun k => k.home.tier != .meadow) s = false)
    (hadd : addCols false a.seq.id (ceilDiv (a.seq.length + a.count) 16 -
      (findSeq s a.seq.id).elim 0 (fun x => x.cols.length)) s = .ok t) :
    appendGo 0 c s = complete c .ok (appendWrite a c.part 0 t).1
      (forEach (fun i u => touchRead c.part (a.src + i * a.stride) (a.count * recordBytes u a.seq.model (a.first + i) a.fmt) u)
        (List.range a.layers) (appendWrite a c.part 0 t).2) := by
  have hx := appendArgs_seq ha
  have hany : ((indexed a.seq.cols).drop (a.seq.length / 16)).any (fun x => (findCol s x.2).any (fun k => k.moving)) = false :=
    (any_drop_indexed _ _ _).trans hmoving
  have hfar : ((indexed a.seq.cols).drop (a.seq.length / 16)).find?
      (fun x => (findCol s x.2).any (fun k => k.home.tier != .meadow)) = none := by
    rw [List.find?_eq_none, ← List.any_eq_false]
    exact (any_drop_indexed _ _ _).trans hmeadow
  rw [hx] at hadd
  simp only [appendGo, ha, privateLast_whole hx hlen, hx, Option.elim_some, hany, hfar, Bool.false_eq_true, if_false]
  simp only [Option.elim_some] at hadd
  rw [hadd]

/-- Columns that are still and in meadow are neither moving nor elsewhere. -/
theorem runCols_ready {a : Append} {s : State} (h : (a.seq.cols.drop (a.seq.length / 16)).all (fun k =>
      (findCol s k).all (fun c => !c.moving && c.home.tier == .meadow)) = true) :
    runCols a (fun k => k.moving) s = false ∧ runCols a (fun k => k.home.tier != .meadow) s = false := by
  rw [List.all_eq_true] at h
  constructor <;>
  · refine List.any_eq_false.2 fun k hk => ?_
    have hc := h k hk
    cases hf : findCol s k with
    | none => simp
    | some c =>
      rw [hf] at hc
      simp only [Option.all_some, Bool.and_eq_true, Bool.not_eq_true', beq_iff_eq] at hc
      simp [hc.1, hc.2]

/-! ## What the rows leave of the sequence -/

/-- A sequence that is found with a length is found with that length. -/
def HasLength (id len : Nat) (s : State) : Prop := ∃ y, findSeq s id = some y ∧ y.length = len

theorem hasLength_of_seqs {id len : Nat} {s t : State} (h : t.kv.seqs = s.kv.seqs) (hs : HasLength id len s) : HasLength id len t := by
  unfold HasLength findSeq
  rw [h]
  exact hs

theorem writeToken_hasLength {id len layer pos : Nat} {tok : TokRec} {s : State} (h : HasLength id len s) :
    HasLength id len (writeToken id layer pos tok s) := by
  obtain ⟨x, hx, hlen⟩ := h
  have hid := findSeq_id hx
  unfold writeToken
  rw [hx]
  dsimp only
  split
  · exact ⟨x, hx, hlen⟩
  · split
    · exact hasLength_of_seqs rfl ⟨_, findSeq_setSeq_of_some hx hid, hlen⟩
    · split
      · exact ⟨x, hx, hlen⟩
      · exact hasLength_of_seqs rfl ⟨x, hx, hlen⟩

theorem appendLayer_hasLength {a : Append} {p i len : Nat} {acc : Nat × Nat × State} (h : HasLength a.seq.id len acc.2.2) :
    HasLength a.seq.id len (appendLayer a p i acc).2.2 := by
  unfold appendLayer
  dsimp only
  split
  · exact h
  · refine List.foldlRecOn (motive := fun x : Nat × Nat × State => HasLength a.seq.id len x.2.2) _ _ h fun x hx t _ => ?_
    exact writeToken_hasLength hx

/-- The rows of every layer of a run, and the counts of what could not be written as it was. -/
def appendedRows (a : Append) (p : Nat) (s : State) : Nat × Nat × State :=
  (List.range a.layers).foldl (fun acc i => appendLayer a p i acc) (0, 0, s)

theorem appendedRows_hasLength {a : Append} {p len : Nat} {s : State} (h : HasLength a.seq.id len s) :
    HasLength a.seq.id len (appendedRows a p s).2.2 :=
  List.foldlRecOn (motive := fun x : Nat × Nat × State => HasLength a.seq.id len x.2.2) _ _ h fun _ hx _ _ => appendLayer_hasLength hx

/-- Setting a length finds its sequence with that length and otherwise as it was. -/
theorem findSeq_setLength {id len i : Nat} {x : Seq} {s : State} (h : findSeq s id = some x) :
    findSeq (setLength id len i s) id = some { x with length := len } := by
  have hid := findSeq_id h
  unfold setLength
  rw [h]
  dsimp only
  rw [findSeq, forEach_keeps (fun t => t.kv.seqs)]
  · exact findSeq_setSeq_of_some (y := { x with length := len }) h hid
  · intro y t
    split
    · split <;> rfl
    · rfl

/-- The last step of a run, on the sequence as the rows have left it. -/
theorem findSeq_appendWrite {a : Append} {p n : Nat} {x : Seq} {s : State} (h : findSeq s a.seq.id = some x) :
    ∃ y, findSeq (appendWrite a p n s).2 a.seq.id = some y ∧
      (a.first + a.layers = modelLayers s a.seq.model → y.length = a.seq.length + a.count ∧ y.pendCount = 0 ∧ y.pendLayer = 0) ∧
      (a.first + a.layers ≠ modelLayers s a.seq.model →
        y.length = x.length ∧ y.pendCount = a.count ∧ y.pendLayer = a.first + a.layers) := by
  obtain ⟨z, hz, hlen⟩ := appendedRows_hasLength (p := p) (len := x.length) ⟨x, h, rfl⟩
  have hid := findSeq_id hz
  have hcounted : findSeq (odAdd 0x4000 0x08 64 (appendedRows a p s).2.1 (odAdd 0x4000 0x07 64 (appendedRows a p s).1
      (appendedRows a p s).2.2)) a.seq.id = some z := hz
  unfold appendedRows at hcounted
  have hslices : ∀ (l : List Nat) (t : State), findSeq (forEach (fun k t => dropWritten k t) l t) a.seq.id = findSeq t a.seq.id :=
    forEach_keeps (fun t => findSeq t a.seq.id) fun _ _ => rfl
  unfold appendWrite
  simp only [hcounted]
  by_cases hdone : a.first + a.layers = modelLayers s a.seq.model
  · simp only [hdone, if_true]
    refine ⟨_, findSeq_setLength ((hslices _ _).trans (findSeq_setSeq_of_some hcounted hid)), ?_, ?_⟩
    · exact fun _ => ⟨rfl, rfl, rfl⟩
    · exact fun hne => absurd rfl hne
  · simp only [hdone, if_false]
    refine ⟨_, (hslices _ _).trans (findSeq_setSeq_of_some hcounted hid), ?_, ?_⟩
    · exact fun he => absurd he (by simp)
    · exact fun _ => ⟨hlen, rfl, rfl⟩

/-- Settles O27: a run from a column's first row copies no column, so that only its own columns can hold it up. -/
theorem appendsExtendASequence : Obligations.AppendsExtendASequence := by
  refine ⟨fun q d ds a t s h ha hlen hready hadd => ?_, fun q d ds a s h ha hlen hmoving => ?_,
    fun q d ds x s h hx hpart hfailed => ⟨_, ?_, completes_front_unchanged h⟩, fun a p n s x hx hlast => ?_,
    fun a p n s x hx hmore => ?_⟩
  · obtain ⟨hstill, hmeadow⟩ := runCols_ready hready
    exact congrArg _ ((startCmd_front h runKvAppend).trans
      (appendGo_writes (c := takenCmd q d s) (s := popCmd q d ds s) ha hlen hstill hmeadow hadd))
  · exact congrArg _ ((startCmd_front h runKvAppend).trans
      (appendGo_moving (c := takenCmd q d s) (s := popCmd q d ds s) ha hlen hmoving))
  · refine congrArg Host.Outcome.next ((startCmd_front h runKvAppend).trans ?_)
    have hargs : appendArgs (takenCmd q d s).part (takenCmd q d s).desc (popCmd q d ds s) = .error .poisoned :=
      appendArgs_failed (x := x) hx hpart hfailed
    simp only [runKvAppend, appendGo, hargs]
  · obtain ⟨y, hy, hdone, -⟩ := findSeq_appendWrite (p := p) (n := n) hx
    exact ⟨y, hy, hdone hlast⟩
  · obtain ⟨y, hy, -, hopen⟩ := findSeq_appendWrite (p := p) (n := n) hx
    exact ⟨y, hy, hopen hmore⟩

end Sys2Proof.Proofs
end

section
/-! PROOFS. Resets and the steps of a release (13_security.md, Tenancy; 14_management_power.md, Resets). -/

namespace Sys2Proof.Proofs
open Sys2Proof Sys2Proof.Machine Sys2Proof.Laws

/-- A fault enters the log and leaves tenancy as it is. -/
theorem fault_sec (c : FaultCode) (u d : Nat) (p : Option Nat) (s : State) : (fault c u d p s).sec = s.sec :=
  (fault_kept (Sub.refl _) (Kept.refl _ s)).secSame rfl

/-! ## Requests for a warm reset (R443) -/

theorem requestWarm_owned {s : State} (h : s.sec.tenancy = .owned) :
    requestWarm s = startRelease { s with sec := { s.sec with releaseThenReset := true } } := by
  simp only [requestWarm, h]

theorem requestWarm_free {s : State} (howned : s.sec.tenancy ≠ .owned) (hreleasing : s.sec.tenancy ≠ .releasing) :
    requestWarm s = warmReset s := by
  unfold requestWarm
  split
  · exact absurd ‹_› howned
  · exact absurd ‹_› hreleasing
  · rfl

theorem mgpFault_runs {a : Nat} {s : State} (hrun : s.sec.rtp = .run) (hsaving : s.power.dev ≠ .saving)
    (hsaved : s.power.dev ≠ .saved) : mgpFault a s = requestWarm (fault .mgp unitMgp a none s) :=
  if_neg (by simp [hrun, hsaving, hsaved])

/-! ## Steps of a release (R441) -/

/-- What a release's steps keep of tenancy until the last: the state, and which step runs. -/
structure Releasing (n : Nat) (s : State) : Prop where
  tenancy : s.sec.tenancy = .releasing
  step : s.sec.releaseStep = n

theorem Releasing.of_sec {n : Nat} {s t : State} (h : Releasing n s) (hsec : t.sec = s.sec) : Releasing n t :=
  ⟨hsec ▸ h.tenancy, hsec ▸ h.step⟩

theorem releasing_releaseTwo {n : Nat} {s : State} (h : Releasing n s) : Releasing n (releaseTwo s) :=
  h.of_sec ((releaseTwo_kept (Sub.refl _) (Kept.refl _ s)).secSame rfl)

/-- The records of the tenancy key's trim do not touch tenancy; the secrets go behind them. -/
theorem releasing_releaseThree {n : Nat} {s : State} (h : Releasing n s) : Releasing n (releaseThree s) := by
  have hdrop : ∀ t : State, Releasing n t → Releasing n (dropSecrets t) := fun _ ht => ⟨ht.tenancy, ht.step⟩
  have htrim : ∀ t : State, (forEach (trimShelf s.sec.heathKeyId) (List.range 16) t).sec = t.sec :=
    forEach_keeps (fun t => t.sec) (fun h t => (trimShelf_kept (Sub.refl _) (Kept.refl _ t)).secSame rfl) _
  refine hdrop _ ?_
  split
  · exact ⟨h.tenancy, h.step⟩
  · exact (show Releasing n { s with pfx := _ } from ⟨h.tenancy, h.step⟩).of_sec (htrim _)

/-- Ports lose their gates, and the dictionary its tenant's values; of tenancy only the sealed weights go. -/
theorem releasing_releaseSix {n : Nat} {s : State} (h : Releasing n s) : Releasing n (releaseSix s) := by
  have hqueues : (resetTenantQueues s).sec = s.sec :=
    (resetTenantQueues_kept (Sub.refl _) (Kept.refl _ s)).secSame rfl
  have hports : ∀ (f : Port → Port) (l : List Nat) (t : State), (forEach (fun n => editPort n f) l t).sec = t.sec :=
    fun f => forEach_keeps (fun t => t.sec) fun _ _ => rfl
  have hmasks : ∀ (l : List Nat) (t : State), (forEach (fun n => setMask n 0xF) l t).sec = t.sec :=
    forEach_keeps (fun t => t.sec) fun _ _ => rfl
  have hsec : (releaseSix s).sec = { s.sec with sealedWeights := [] } := by
    simp only [releaseSix, odKeep, hmasks, hports, hqueues]
  exact ⟨(congrArg Sec.tenancy hsec).trans h.tenancy, (congrArg Sec.releaseStep hsec).trans h.step⟩

/-- Every step after the first leaves the release in progress, at that step. -/
theorem releasing_releaseStep {n : Nat} {s : State} (hn : 2 ≤ n) (h : s.sec.tenancy = .releasing) :
    Releasing n (releaseStep n s) := by
  have hset : Releasing n { s with sec := { s.sec with releaseStep := n } } := ⟨h, rfl⟩
  match n, hn with
  | 2, _ => exact releasing_releaseTwo hset
  | 3, _ => exact releasing_releaseThree hset
  | 4, _ => exact ⟨h, rfl⟩
  | 5, _ => exact ⟨h, rfl⟩
  | 6, _ => exact releasing_releaseSix hset
  | _ + 7, _ => exact ⟨h, rfl⟩

/-- Where the step in progress can end, what follows is told by its number. -/
theorem releaseStepEnd_over {s : State} (h : s.sec.tenancy = .releasing) (hstep : s.sec.releaseStep ≠ 0) (hover : stepOver s = true) :
    releaseStepEnd s =
      if s.sec.releaseStep = 7 then released s
      else if s.sec.releaseStep = 6 && s.sec.releaseThenReset then warmReset s
      else releaseStep (s.sec.releaseStep + 1) s :=
  if_neg (by simp [h, hstep, hover])

/-- Only the second step and the third wait. -/
theorem stepOver_of_step {s : State} (htwo : s.sec.releaseStep ≠ 2) (hthree : s.sec.releaseStep ≠ 3) : stepOver s = true := by
  simp [stepOver, htwo, hthree]

theorem stepOver_lent {s : State} (htwo : s.sec.releaseStep = 2) (hlent : (s.pasture.leases.any fun l => l.lent) = true) :
    stepOver s = false := by
  obtain ⟨l, hl, hout⟩ := List.any_eq_true.1 hlent
  have hwait : (s.pasture.leases.all fun l => !l.lent) = false :=
    List.all_eq_false.2 ⟨l, hl, by simp [hout]⟩
  simp [stepOver, htwo, hwait]

theorem releaseStepEnd_next {s : State} (h : s.sec.tenancy = .releasing) (hstep : s.sec.releaseStep ≠ 0)
    (hmore : s.sec.releaseStep ≤ 5 ∨ (s.sec.releaseStep = 6 ∧ s.sec.releaseThenReset = false)) (hover : stepOver s = true) :
    releaseStepEnd s = releaseStep (s.sec.releaseStep + 1) s := by
  rw [releaseStepEnd_over h hstep hover, if_neg (by omega), if_neg ?_]
  rcases hmore with hlow | ⟨-, hplain⟩
  · simp only [Bool.and_eq_true, decide_eq_true_eq]
    omega
  · simp [hplain]

theorem releaseStepEnd_waits {s : State} (hover : stepOver s = false) : releaseStepEnd s = s := if_pos (by simp [hover])

theorem releaseStepEnd_resets {s : State} (h : s.sec.tenancy = .releasing) (hsix : s.sec.releaseStep = 6)
    (hreset : s.sec.releaseThenReset = true) : releaseStepEnd s = warmReset s := by
  rw [releaseStepEnd_over h (by omega) (stepOver_of_step (by omega) (by omega)), if_neg (by omega), if_pos (by simp [hsix, hreset])]

theorem releaseStepEnd_last {s : State} (h : s.sec.tenancy = .releasing) (hlast : s.sec.releaseStep = 7) :
    releaseStepEnd s = released s := by
  rw [releaseStepEnd_over h (by omega) (stepOver_of_step (by omega) (by omega)), if_pos hlast]

/-! ## Cold resets (R467, R534) -/

theorem coldReset_takesEffect {c : ColdCause} {s : State} (h : c = .powerOn ∨ (c = .rstN ∧ s.power.dev ≠ .saving) ∨
    (c = .recoveryImage ∧ s.power.dev = .recovery ∧ s.power.nor.slotValid = true)) : coldReset c s = doCold c s := by
  obtain rfl | ⟨rfl, hidle⟩ | ⟨rfl, hrec, hvalid⟩ := h
  · rfl
  · exact if_neg (by simp [hidle])
  · exact if_pos (by simp [hrec, hvalid])

theorem coldReset_saving {s : State} (h : s.power.dev = .saving) :
    coldReset .rstN s = { s with power := { s.power with resetHeld := true } } :=
  if_pos (by simp [h])

/-- Settles O54: resets by what they rebuild from the reset state, and a release by its steps. -/
theorem resetsAndReleasesFollowTheirSteps : Obligations.ResetsAndReleasesFollowTheirSteps := by
  refine ⟨fun c s hc => ⟨doCold c s, congrArg Host.Outcome.next (coldReset_takesEffect hc),
    rfl, rfl, rfl, rfl, rfl, rfl, rfl, rfl, rfl, rfl, rfl, rfl, rfl,
      rfl, rfl, rfl, rfl⟩,
    fun s => ⟨rfl, rfl, rfl, rfl, rfl, rfl, rfl, rfl, rfl, rfl, rfl, rfl, rfl, rfl, rfl⟩,
    fun s hsaving => congrArg _ (coldReset_saving hsaving),
    fun a s hrun hsaving hsaved howned hreleasing => ?_, fun a s hrun hready howned => ?_,
    fun s hrel hstep hmore hover => ?_,
    fun s _ htwo hlent => congrArg _ (releaseStepEnd_waits (stepOver_lent htwo hlent)),
    fun s hrel hsix hreset => congrArg _ (releaseStepEnd_resets hrel hsix hreset),
    fun s hrel hlast => ?_⟩
  · have hsec := fault_sec .mgp unitMgp a.toNat none s
    exact congrArg _ ((mgpFault_runs hrun hsaving hsaved).trans (requestWarm_free (hsec ▸ howned) (hsec ▸ hreleasing)))
  · have hsec := fault_sec .mgp unitMgp a.toNat none s
    refine congrArg Host.Outcome.next ((mgpFault_runs hrun (by simp [hready]) (by simp [hready])).trans ?_)
    rw [requestWarm_owned (hsec ▸ howned), hsec]
  · have hnext := releasing_releaseStep (n := s.sec.releaseStep + 1) (by omega) hrel
    exact ⟨_, congrArg Host.Outcome.next (releaseStepEnd_next hrel hstep hmore hover), hnext.step, hnext.tenancy⟩
  · have hsec := (notify_kept (a0 := 0x9000) (a1 := 0x01) (Sub.refl _)
      (Kept.refl _ { s with sec := { s.sec with tenancy := .unowned, releaseStep := 0, ownerDigest := 0 } })).secSame rfl
    exact ⟨_, congrArg Host.Outcome.next (releaseStepEnd_last hrel hlast), congrArg Sec.tenancy hsec, congrArg Sec.releaseStep hsec⟩

end Sys2Proof.Proofs
end

section
/-! PROOFS. Self-test, failed blocks, the link test's checkers and SAFE (16_self_test.md; 06_cores_and_operand_path.md, Soft repair). -/

namespace Sys2Proof.Proofs
open Sys2Proof Sys2Proof.Machine Sys2Proof.Laws

/-! ## What an operation keeps, by the parts' names -/

def everyPart : List Part :=
  [.mem, .mgmt, .host, .queues, .wheel, .sheets, .jobs, .kv, .objs, .pfx, .tables, .pasture, .shelves, .peer, .links, .sec, .power,
    .log, .samplers, .od, .tx, .fresh]

theorem mem_everyPart (p : Part) : p ∈ everyPart := by
  cases p <;> decide

/-- What is kept outside the parts of a number stays, where the number's parts are among those named. -/
theorem onlyIn_of_kept {W : Nat} {l : List Part} {s t : State} (h : Kept W s t)
    (hl : everyPart.all (fun p => decide (p ∈ l) || !W.testBit (Part.bit p)) = true) : OnlyIn l s t := by
  refine h.onlyIn fun p hp => ?_
  have hbit := List.all_eq_true.1 hl p (mem_everyPart p)
  simpa [hp] using hbit

/-! ## Starting and ending a test (R504 to R508) -/

/-- TRIG is claimed as the start input of a test. -/
theorem trigEdge_started {s t : State} (hclaim : od s 0xB000 0x02 = 1) (hready : s.power.dev = .ready)
    (hstart : startTest (od s 0xB000 0x03) s = (.ok, t)) : trigEdge s = t := by
  unfold trigEdge
  rw [if_neg (by simp [hclaim, ready, hready]), hstart]

theorem trigEdge_refused {s t : State} {st : Status} (hclaim : od s 0xB000 0x02 = 1) (hready : s.power.dev = .ready)
    (hstart : startTest (od s 0xB000 0x03) s = (st, t)) (hst : st ≠ .ok) : trigEdge s = bump32 0xB000 0x04 s := by
  unfold trigEdge
  rw [if_neg (by simp [hclaim, ready, hready]), hstart]
  split
  · rename_i heq
    exact absurd (Prod.mk.inj heq).1 hst
  · rfl

/-- No test runs any more. -/
def testOver (s : State) : State := { s with power := { s.power with test := none } }

theorem testOver_onlyIn (s : State) : OnlyIn [.power, .od] s (testOver s) := by
  refine ⟨rfl, rfl, fun p hp => ?_⟩
  cases p with
  | power => simp at hp
  | _ => rfl

theorem od_testOver (i k : Nat) (s : State) : od (testOver s) i k = od s i k := rfl

theorem odSet_onlyIn (i k v : Nat) (s : State) : OnlyIn [.power, .od] s (odSet i k v s) := by
  refine ⟨rfl, rfl, fun p hp => ?_⟩
  cases p with
  | od => simp at hp
  | _ => rfl

/-- The four objects that show a test's end, and no test in progress. -/
def testShown (good : Bool) (sig micros : Nat) (x : Test) (s : State) : State :=
  testOver (odSet 0xB010 0x04 (micros % 2 ^ 32) (odSet 0xB010 0x03 (Config.misrExpected x.kind).toNat (odSet 0xB010 0x02 sig
    (odSet 0xB010 0x01 (testRecord x.kind x.unit (if good then 2 else 3)) s))))

theorem testShown_onlyIn (good : Bool) (sig micros : Nat) (x : Test) (s : State) :
    OnlyIn [.power, .od] s (testShown good sig micros x s) :=
  onlyIn_trans (odSet_onlyIn ..) (onlyIn_trans (odSet_onlyIn ..) (onlyIn_trans (odSet_onlyIn ..)
    (onlyIn_trans (odSet_onlyIn ..) (testOver_onlyIn _))))

theorem testShown_record (good : Bool) (sig micros : Nat) (x : Test) (s : State) :
    od (testShown good sig micros x s) 0xB010 0x01 = testRecord x.kind x.unit (if good then 2 else 3) := by
  rw [testShown, od_testOver, od_odSet_other (by decide), od_odSet_other (by decide), od_odSet_other (by decide), od_odSet_same]

theorem testShown_signature (good : Bool) (sig micros : Nat) (x : Test) (s : State) :
    od (testShown good sig micros x s) 0xB010 0x02 = sig := by
  rw [testShown, od_testOver, od_odSet_other (by decide), od_odSet_other (by decide), od_odSet_same]

theorem testComplete_match {sig micros : Nat} {x : Test} {s : State} (hx : s.power.test = some x)
    (hsig : sig = (Config.misrExpected x.kind).toNat) :
    testComplete sig micros s = runCores (testPassed x.kind x.unit (testShown true sig micros x s)) := by
  have hgood : (sig == (Config.misrExpected x.kind).toNat) = true := by simp [hsig]
  simp only [testComplete, hx, hgood, if_true, testShown, testOver]

theorem testComplete_mismatch {sig micros : Nat} {x : Test} {s : State} (hx : s.power.test = some x)
    (hsig : sig ≠ (Config.misrExpected x.kind).toNat) :
    testComplete sig micros s = testFailed x.kind x.unit (faultEvent .bistFail (testUnitId x.kind x.unit) (sig + x.kind * 2 ^ 64) none
      .media sig (bump32 0xB010 0x06 (testShown false sig micros x s))) := by
  have hbad : (sig == (Config.misrExpected x.kind).toNat) = false := by simp [hsig]
  simp only [testComplete, hx, hbad, Bool.false_eq_true, if_false, testShown, testOver]

theorem bump32_failed_onlyIn (s : State) : OnlyIn [.power, .od] s (bump32 0xB010 0x06 s) :=
  onlyIn_of_kept (bump32_kept (Sub.refl _) (Kept.refl _ s)) (by decide)

/-! ## Cores that fail (R235) -/

/-- Work that ends with its core, and what starts on the others, leaves the record of failed cores as it is. -/
theorem coreFails_power {n : Nat} {s : State} (hready : s.power.dev = .ready) (hup : coreUp s n = true) :
    (coreFails n s).power = { s.power with failedCores := s.power.failedCores ++ [physOf s n] } := by
  unfold coreFails
  rw [if_neg (by simp [hup, ready, hready])]
  exact ((runCores_kept (Sub.refl _) (Kept.refl _ _)).powerSame rfl).trans
    ((loseCore_kept (Sub.refl _) (Kept.refl _ _)).powerSame rfl)

theorem coreUp_failed {n : Nat} {s : State} (h : physOf s n ∈ s.power.failedCores) : coreUp s n = false := by
  have hfailed : s.power.failedCores.contains (physOf s n) = true := List.contains_iff_mem.2 h
  simp only [coreUp, hfailed, Bool.not_true, Bool.and_false, Bool.false_and]

/-! ## Checkers of the link test (R510) -/

theorem editChecker_onlyIn (l : Nat) (f : Checker → Checker) (s : State) : OnlyIn [.power] s (editChecker l f s) := by
  refine ⟨rfl, rfl, fun p hp => ?_⟩
  cases p with
  | power => simp at hp
  | _ => rfl

theorem checker_editChecker {l : Nat} {s : State} (f : Checker → Checker) (h : l < s.power.checkers.length) :
    (editChecker l f s).power.checkers.getD l {} = f (s.power.checkers.getD l {}) := by
  simp [editChecker, List.getD_eq_getElem?_getD, h]

/-- A checker that is locked counts the bits up to the error, and the error. -/
def errorCounted (n : Nat) (c : Checker) : Checker := { c with bits := c.bits + n, errors := c.errors + 1 }

theorem checkerError_locked {l n : Nat} {s : State} (h : checkerThere s l = true) (hlocked : (s.power.checkers.getD l {}).locked = true) :
    checkerError l n s =
      if od s 0xB040 0x05 = 1 && s.power.trigAt ≤ s.now then
        send .trigLow { editChecker l (errorCounted n) s with
          power := { (editChecker l (errorCounted n) s).power with trigAt := s.now + 1000 } }
      else editChecker l (errorCounted n) s :=
  if_neg (by simp only [h, hlocked, Bool.not_true, Bool.or_self, Bool.false_eq_true, not_false_eq_true])

theorem checkerError_output_onlyIn (l n : Nat) (s : State) : OnlyIn [.power, .tx] s
    (send .trigLow { editChecker l (errorCounted n) s with
      power := { (editChecker l (errorCounted n) s).power with trigAt := s.now + 1000 } }) := by
  refine ⟨rfl, rfl, fun p hp => ?_⟩
  cases p with
  | power => simp at hp
  | tx => simp at hp
  | _ => rfl

/-- Settles O57: tests by their signature, and the rest by the block that each command names. -/
theorem testsAndFailuresTakeBlocksOut : Obligations.TestsAndFailuresTakeBlocksOut := by
  refine ⟨fun s t hclaim hready hstart => congrArg Host.Outcome.next (trigEdge_started hclaim hready hstart),
    fun s st t hclaim hready hstart hst => congrArg Host.Outcome.next (trigEdge_refused hclaim hready hstart hst),
    fun sig us x s hx hsig => ⟨testShown true sig.toNat us x s, congrArg Host.Outcome.next (testComplete_match hx hsig), rfl,
      testShown_record .., testShown_signature .., testShown_onlyIn ..⟩,
    fun sig us x s hx hsig => ⟨bump32 0xB010 0x06 (testShown false sig.toNat us x s),
      congrArg Host.Outcome.next (testComplete_mismatch hx hsig), rfl, ?_,
      onlyIn_trans (testShown_onlyIn ..) (bump32_failed_onlyIn _)⟩,
    fun sig us s hnone => ?_, fun n s hready hup => ⟨_, rfl, ?_, ?_⟩,
    fun l s hthere hlane => ⟨_, congrArg Host.Outcome.next (if_pos hthere), ?_, editChecker_onlyIn ..⟩,
    fun l s hthere hlane => ⟨_, congrArg Host.Outcome.next (if_pos hthere), ?_, editChecker_onlyIn ..⟩,
    fun l n s hthere hlane hlocked => ?_,
    fun k s hrun => ⟨enterSafe s, congrArg Host.Outcome.next (if_pos (by simp [hrun])), rfl, rfl, rfl, rfl, rfl, rfl, rfl, rfl⟩,
    fun k s hrun => congrArg Host.Outcome.next (if_neg (by simp [hrun]))⟩
  · exact (od_odSet_other (by decide)).trans (testShown_record false sig.toNat us x s)
  · show Host.Outcome.next (testComplete _ _ s) = _
    simp only [testComplete, hnone]
  · rw [coreFails_power hready hup]
    simp
  · refine coreUp_failed ?_
    rw [physOf, coreFails_power hready hup]
    simp [physOf]
  · exact congrArg Checker.locked (checker_editChecker _ hlane)
  · exact congrArg Checker.locked (checker_editChecker _ hlane)
  · have hcounted := checker_editChecker (errorCounted n) hlane
    by_cases hout : od s 0xB040 0x05 = 1 ∧ s.power.trigAt ≤ s.now
    · exact ⟨_, congrArg Host.Outcome.next ((checkerError_locked hthere hlocked).trans (if_pos (by simpa using hout))),
        congrArg Checker.bits hcounted, congrArg Checker.errors hcounted, checkerError_output_onlyIn l n s, fun _ => rfl⟩
    · exact ⟨_, congrArg Host.Outcome.next ((checkerError_locked hthere hlocked).trans (if_neg (by simpa using hout))),
        congrArg Checker.bits hcounted, congrArg Checker.errors hcounted,
        onlyIn_mono (editChecker_onlyIn ..) (by simp), fun hin => absurd hin hout⟩

end Sys2Proof.Proofs
end

section
/-! PROOFS. The kiln: sags, isolation and the end of a save (14_management_power.md, Supply sag, Kiln store layout). -/

namespace Sys2Proof.Proofs
open Sys2Proof Sys2Proof.Machine Sys2Proof.Laws

/-! ## The start of a save (R475, R476) -/

/-- The fault has entered the log, and the gates of the heath ports are open. -/
def sagLogged (c : SagCause) (v : Nat) (s : State) : State :=
  forEach (fun n => setMask n 0xF) ((List.range 16).map (fun h => 32 + h))
    (fault .supplySag unitKiln (SagCause.code c + v * 2 ^ 16) none s)

/-- A test in progress shows that the sag stopped it. -/
def sagShown (s u : State) : State :=
  if s.power.test.isSome then odSet 0xB010 0x01 (od s 0xB010 0x01 / 256 * 256 + 4) u else u

/-- What a sag in `s` leaves of `w`, whose fault has entered the log in `u`. -/
def sagLeft (c : SagCause) (v : Nat) (s u w : State) : State :=
  { w with
    power := { u.power with
      dev := .saving, test := none
      kiln := { s.power.kiln with vinMv := v, sag := some { t0 := s.now, cause := c, vinMv := v } } }
    jobs := { u.jobs with jobs := [], leaving := [], slices := [], halves := [] }
    queues := { u.queues with qs := List.replicate 129 {}, cmds := [] }
    peer := { u.peer with qps := u.peer.qps.map (fun q => { q with waiting := [], started := [] }), heldPkts := [] }
    objs := { u.objs with moves := [], heldWrites := [], bring := [] }
    wheel := { u.wheel with held := [], blocked := [] }
    sheets := {}
    host := { u.host with
      retraining := 0, unacked := [], held0 := [], held1 := [], heldSubmits := [], vectorsHeld := [], cxlWaiting := [] } }

/-- The admin event leaves while a streaming module serves. -/
def sagTold (s : State) : State :=
  if (streamModules s).isEmpty then s else event .aborted none FaultCode.supplySag.num unitKiln 0 s

theorem sagStart_eq (c : SagCause) (v : Nat) (s : State) :
    sagStart c v s = sagTold (sagLeft c v s (sagLogged c v s) (sagShown s (sagLogged c v s))) := rfl

/-- What a sag abandons: jobs, commands, copies and the host's messages that were held. -/
structure Abandoned (s : State) : Prop where
  jobs : s.jobs.jobs = []
  leaving : s.jobs.leaving = []
  commands : s.queues.cmds = []
  moves : s.objs.moves = []
  writes : s.objs.heldWrites = []
  beats : s.host.held0 = []
  sheets : s.host.held1 = []

theorem abandoned_sagLeft (c : SagCause) (v : Nat) (s u w : State) : Abandoned (sagLeft c v s u w) :=
  ⟨rfl, rfl, rfl, rfl, rfl, rfl, rfl⟩

theorem pumpTx_held (s : State) : (pumpTx s).host.held0 = s.host.held0 ∧ (pumpTx s).host.held1 = s.host.held1 := by
  unfold pumpTx
  split <;> exact ⟨rfl, rfl⟩

/-- An event enters its ring and leaves to the host; it starts nothing and brings nothing back. -/
theorem abandoned_pushEvent {r : Nat} {e : Event} {s : State} (h : Abandoned s) : Abandoned (pushEvent r e s) := by
  have hk := pushEvent_kept (a0 := r) (a1 := e) (Sub.refl _) (Kept.refl _ s)
  have hjobs := hk.jobsSame rfl
  have hobjs := hk.objsSame rfl
  have hqueues : (pushEvent r e s).queues.cmds = s.queues.cmds ∧ (pushEvent r e s).host.held0 = s.host.held0 ∧
      (pushEvent r e s).host.held1 = s.host.held1 := by
    unfold pushEvent
    dsimp only
    split
    · have hpump := pumpTx_held
      refine ⟨?_, (hpump _).1, (hpump _).2⟩
      exact (congrArg Queues.cmds ((sendClass2_kept (W := 4) (Sub.refl _) (Kept.refl _ (setEvRing r _ s))).queuesSame rfl)).trans rfl
    · split <;> exact ⟨rfl, rfl, rfl⟩
  obtain ⟨hcmds, hheld0, hheld1⟩ := hqueues
  exact ⟨hjobs ▸ h.jobs, hjobs ▸ h.leaving, hcmds.trans h.commands, hobjs ▸ h.moves, hobjs ▸ h.writes, hheld0.trans h.beats,
    hheld1.trans h.sheets⟩

theorem abandoned_sagStart (c : SagCause) (v : Nat) (s : State) : Abandoned (sagStart c v s) := by
  rw [sagStart_eq]
  have hleft := abandoned_sagLeft c v s (sagLogged c v s) (sagShown s (sagLogged c v s))
  unfold sagTold
  split
  · exact hleft
  · exact abandoned_pushEvent hleft

theorem sagTold_power (s : State) : (sagTold s).power = s.power := by
  unfold sagTold
  split
  · rfl
  · exact (event_kept (Sub.refl _) (Kept.refl _ s)).powerSame rfl

theorem sagStart_power (c : SagCause) (v : Nat) (s : State) : (sagStart c v s).power =
    { (sagLogged c v s).power with
      dev := .saving, test := none
      kiln := { s.power.kiln with vinMv := v, sag := some { t0 := s.now, cause := c, vinMv := v } } } :=
  (sagTold_power _).trans rfl

/-- A droop that is not below OD 0xC030:03 is no sag (R475). -/
theorem supplySag_true {c : SagCause} {v : Nat} {s : State} (h : c ≠ .vinDroop ∨ v < od s 0xC030 0x03) :
    (c == .vinDroop && decide (od s 0xC030 0x03 ≤ v)) = false := by
  rcases h with hc | hv
  · simp [hc]
  · simp [hv]

theorem supplySag_ready {c : SagCause} {v : Nat} {s : State} (hready : s.power.dev = .ready)
    (h : c ≠ .vinDroop ∨ v < od s 0xC030 0x03) : supplySag c v s = sagStart c v s := by
  simp only [supplySag, supplySag_true h, hready, Bool.false_eq_true, if_false]

theorem supplySag_early {c : SagCause} {v : Nat} {s : State}
    (hdev : s.power.dev = .booting ∨ s.power.dev = .rom ∨ s.power.dev = .recovery)
    (h : c ≠ .vinDroop ∨ v < od s 0xC030 0x03) : supplySag c v s = sagEarly c v s := by
  obtain hdev | hdev | hdev := hdev <;> simp only [supplySag, supplySag_true h, hdev, Bool.false_eq_true, if_false]

/-! ## Isolation and the end of a save (R477, R478, R482) -/

/-- The whole save, before its sections are written. -/
def saveOf (g : Sag) (s : State) : KilnSave :=
  { saveNo := s.power.kiln.saveNo + 1, wpos := s.wheel.cur, timeNs := g.t0, tenancy := s.sec.tenancy, cause := g.cause, vinMv := g.vinMv
    heathKeyId := s.sec.heathKeyId, tails := s.shelves.map (fun x => x.tail), pages := s.shelves.map (fun x => x.sealed)
    rcTail := s.pfx.rcTail, ring := s.pfx.ring.filter (ringWhole s.pfx.ring), logTail := s.log.tail
    bytes := saveBytes (s.shelves.map (fun x => x.tail)) (s.pfx.ring.filter (ringWhole s.pfx.ring)), trailer := false }

/-- The state once the kiln domain stands alone, with `k` in it. -/
def isolated (k : Kiln) (s : State) : State :=
  { s with
    power := { s.power with kiln := k }
    shelves := s.shelves.map (fun x => { x with ops := [], waiting := [] })
    peer := {}
    links := { s.links with ports := s.links.ports.map (fun p => { failed := p.failed }) } }

theorem isolate_saves {g : Sag} {s : State} (hsaving : s.power.dev = .saving) (hg : s.power.kiln.sag = some g)
    (hopen : g.isolated = false) (hfree : s.power.kiln.held = false) (hmram : s.power.kiln.mramOk = true) :
    isolate s = isolated { s.power.kiln with
      sag := some { g with isolated := true }
      save := some { saveOf g s with image := saveImage (kilnKey s) (saveOf g s) }, saveNo := s.power.kiln.saveNo + 1 } s := by
  have hgo : (s.power.dev != .saving || g.isolated) = false := by simp [hsaving, hopen]
  simp only [isolate, hg, hgo, hfree, hmram, Bool.false_eq_true, if_false, if_true]
  rfl

theorem isolate_held {g : Sag} {s : State} (hsaving : s.power.dev = .saving) (hg : s.power.kiln.sag = some g)
    (hopen : g.isolated = false) (hheld : s.power.kiln.held = true) :
    isolate s = isolated { s.power.kiln with
      sag := some { g with isolated := true, partialSave := true }, reserve := s.log.tail } s := by
  have hgo : (s.power.dev != .saving || g.isolated) = false := by simp [hsaving, hopen]
  simp only [isolate, hg, hgo, hheld, Bool.false_eq_true, if_false, if_true]
  rfl

/-- Data of a column without its record are not whole (R283). -/
theorem ringWhole_data {ring : List RingEntry} {e : RingEntry} {k n : Nat} {l : Loc} (he : e.item = .data k l n)
    (h : ∀ x ∈ ring, ∀ r, x.item ≠ .publish k r) : ringWhole ring e = false := by
  unfold ringWhole
  rw [he]
  refine List.any_eq_false.2 fun x hx => ?_
  split
  · rename_i j r hitem
    have hother : j ≠ k := fun hj => h x hx r (hj ▸ hitem)
    simp [hother]
  · simp

theorem saveEnd_whole {m : Nat} {g : Sag} {v : KilnSave} {s : State} (hsaving : s.power.dev = .saving)
    (hg : s.power.kiln.sag = some g) (hiso : g.isolated = true) (hwhole : g.partialSave = false) (hv : s.power.kiln.save = some v)
    (hrun : s.power.resetHeld = false) :
    saveEnd m s = { s with power := { s.power with
      dev := .saved, kiln := { s.power.kiln with
        save := some (withTrailer (kilnKey s) m v), lastNo := s.power.kiln.saveNo, lastMicros := m, lastBytes := v.bytes } } } := by
  have hgo : (s.power.dev != .saving || !g.isolated) = false := by simp [hsaving, hiso]
  simp only [saveEnd, hg, hgo, hwhole, hv, hrun, Bool.false_eq_true, if_false]
  rfl

/-- Settles O56: a sag by the device's state, isolation by what the kiln holds. -/
theorem sagsAreSaved : Obligations.SagsAreSaved := by
  refine ⟨fun c v s hready hsag => ⟨sagStart c v s, congrArg Host.Outcome.next (supplySag_ready hready hsag), ?_⟩,
    fun v s hhigh => congrArg Host.Outcome.next (if_pos (by simp [hhigh])),
    fun c v s hdev hsag => ⟨sagEarly c v s, congrArg Host.Outcome.next (supplySag_early hdev hsag), rfl, rfl⟩,
    fun s g hsaving hg hopen hfree hmram => ⟨_, _, congrArg Host.Outcome.next (isolate_saves hsaving hg hopen hfree hmram), rfl, rfl,
      rfl, rfl, rfl, rfl, rfl, rfl, rfl, rfl, rfl⟩,
    fun ring k l n b e hnone he => ringWhole_data (congrArg RingEntry.item he) hnone,
    fun s g hsaving hg hopen hheld => ⟨_, congrArg Host.Outcome.next (isolate_held hsaving hg hopen hheld), rfl, rfl⟩,
    fun m s g v hsaving hg hiso hwhole hv hrun => congrArg Host.Outcome.next (saveEnd_whole hsaving hg hiso hwhole hv hrun)⟩
  have hgone := abandoned_sagStart c v s
  have hpower := sagStart_power c v s
  have hkept := sagStart_kept (a0 := c) (a1 := v) (Sub.refl _) (Kept.refl _ s)
  exact ⟨congrArg Power.dev hpower, congrArg (fun p : Power => p.kiln.sag) hpower, hgone.jobs, hgone.leaving, hgone.commands,
    hgone.moves, hgone.writes, hgone.beats, hgone.sheets, hkept.pfxSame rfl, hkept.secSame rfl, hkept.kvSame rfl⟩

end Sys2Proof.Proofs
end

section
/-! PROOFS. A shelf's start-up, from its root areas to ready (10_heath_media.md, Power loss and start-up, Layout on flash). -/

namespace Sys2Proof.Proofs
open Sys2Proof Sys2Proof.Machine Sys2Proof.Laws

/-! ## Phases that go through blocks -/

theorem bootNext_over {h : Nat} {s : State} (hdone : cursorsDone (shelfOf s h) = true) :
    ((shelfOf s h).boot.phase = .roots → bootNext h s = rootsRead h s) ∧
    ((shelfOf s h).boot.phase = .format → bootNext h s = formatted h s) ∧
    ((shelfOf s h).boot.phase = .opened → bootNext h s = finishBoot h s) ∧
    ((shelfOf s h).boot.phase = .scan → bootNext h s = scanned h s) := by
  refine ⟨fun hphase => ?_, fun hphase => ?_, fun hphase => ?_, fun hphase => ?_⟩ <;>
    simp only [bootNext, hdone, hphase, Bool.not_true, Bool.false_eq_true, if_false]

theorem bootNext_reading {h : Nat} {s : State} (hdone : cursorsDone (shelfOf s h) = false) : bootNext h s = pump h s :=
  if_pos (by simp [hdone])

/-- What asking for blocks keeps of a shelf: whether it serves, and why it starts. -/
structure SameStart (x y : Shelf) : Prop where
  state : y.state = x.state
  phase : y.boot.phase = x.boot.phase
  cause : y.boot.cause = x.boot.cause

theorem sameStart_askCursor (x : Shelf) (c : Cursor) : SameStart x (askCursor x c) := by
  unfold askCursor
  split <;> exact ⟨rfl, rfl, rfl⟩

theorem sameStart_foldl (cs : List Cursor) (x : Shelf) : SameStart x (cs.foldl askCursor x) := by
  induction cs generalizing x with
  | nil => exact ⟨rfl, rfl, rfl⟩
  | cons c cs ih =>
    have hc := sameStart_askCursor x c
    have hcs := ih (askCursor x c)
    exact ⟨hcs.state.trans hc.state, hcs.phase.trans hc.phase, hcs.cause.trans hc.cause⟩

/-- A full scan starts with its cause recorded (R348). -/
theorem startScan_scans {h c : Nat} {g : ShelfRec} {s : State} (hg : (shelfOf s h).geom = some g) :
    ∃ x, startScan h c s = pump h (setShelf h x (fault .heathScan (unitHeathPort h) c none (bump32 0x6000 0x0F s))) ∧
      x.state = 3 ∧ x.boot.phase = .scan ∧ x.boot.cause = c := by
  unfold startScan
  simp only [hg]
  refine ⟨_, rfl, ?_⟩
  have hsame := sameStart_foldl
  exact ⟨(hsame _ _).state, (hsame _ _).phase, (hsame _ _).cause⟩

/-! ## The start of a shelf (R335, R356) -/

theorem shelfStartup_ready {h : Nat} {found : List SbFound} {g : ShelfRec} {s : State} (hg : (shelfOf s h).geom = some g)
    (hstate : (shelfOf s h).state = 1) (hphase : (shelfOf s h).boot.phase = .none)
    (hbad : g.channels * g.luns ≤ (shelfOf s h).badSeen) (hparams : g.channels * g.luns ≤ (shelfOf s h).params.length)
    (hup : heathUp s h = true) : shelfStartup h found s = pump h (setShelf h (startRoots found (shelfOf s h)) s) := by
  unfold shelfStartup
  simp only [hg]
  exact if_neg (by simp [hstate, hphase, hbad, hparams, hup])

theorem shelfStartup_idle {h : Nat} {found : List SbFound} {s : State} (hidle : (shelfOf s h).geom = none ∨ (shelfOf s h).state ≠ 1) :
    shelfStartup h found s = s := by
  unfold shelfStartup
  dsimp only
  split
  · rfl
  · rename_i g hg
    have hstate : (shelfOf s h).state ≠ 1 := hidle.resolve_left (by simp [hg])
    exact if_pos (by simp [hstate])

/-! ## What the root areas say (R348) -/

theorem rootsRead_foreign {h q : Nat} {d : Bytes} {g : ShelfRec} {s : State} (hroot : (shelfOf s h).boot.root = some (q, d))
    (hg : (shelfOf s h).geom = some g) (hname : rootNames s.sec.unitId g d = false) :
    rootsRead h s = setShelf h { shelfOf s h with state := 6, boot := {} } s := by
  simp only [rootsRead, hroot, hg, hname, Bool.not_false, if_true]

theorem rootsRead_own {h q : Nat} {d : Bytes} {g : ShelfRec} {x : Shelf} {s : State} (hroot : (shelfOf s h).boot.root = some (q, d))
    (hg : (shelfOf s h).geom = some g) (hname : rootNames s.sec.unitId g d = true)
    (hx : x = { shelfOf s h with keyId := rootKeyId d, reserve := rootReserve d, capSum := rootSum d, named := rootCkpt d }) :
    rootsRead h s = if s.power.tailsLost = true
      then startScan h 1 (setShelf h { x with sbs := withFound x.boot.found (rootMetas d) } s)
      else startMetas h d (setShelf h x s) := by
  subst hx
  simp only [rootsRead, hroot, hg, hname, Bool.not_true, Bool.false_eq_true, if_false]

theorem rootsRead_marked {h : Nat} {g : ShelfRec} {s : State} (hroot : (shelfOf s h).boot.root = none)
    (hg : (shelfOf s h).geom = some g) (hmarked : (shelfOf s h).boot.marked = true) :
    rootsRead h s = startScan h 0 (setShelf h { shelfOf s h with
      keyId := bootKey s (shelfOf s h), sbs := withFound (shelfOf s h).boot.found [], reserve := od s 0x6000 0x03 } s) := by
  simp only [rootsRead, hroot, hg, hmarked, if_true]

theorem rootsRead_erased {h : Nat} {g : ShelfRec} {s : State} (hroot : (shelfOf s h).boot.root = none)
    (hg : (shelfOf s h).geom = some g) (hmarked : (shelfOf s h).boot.marked = false) : rootsRead h s = beginFormat h s := by
  simp only [rootsRead, hroot, hg, hmarked, Bool.false_eq_true, if_false]

/-- Settles O53: each phase of the start-up by what it has read. -/
theorem shelvesStartUp : Obligations.ShelvesStartUp := by
  refine ⟨fun h found g s hg hstate hphase hbad hparams hup =>
      congrArg Host.Outcome.next (shelfStartup_ready hg hstate hphase hbad hparams hup),
    fun h found s hidle => congrArg Host.Outcome.next (shelfStartup_idle hidle), fun h s hdone => bootNext_over hdone,
    fun h s hdone => bootNext_reading hdone, fun h q d g s hroot hg hname => rootsRead_foreign hroot hg hname,
    fun h q d g x s hroot hg hname hx => rootsRead_own hroot hg hname hx,
    fun h g s hroot hg hmarked => rootsRead_marked hroot hg hmarked,
    fun h g s hroot hg hmarked => rootsRead_erased hroot hg hmarked, fun h s => rfl, fun h g s htodo hg => ?_,
    fun h c g s _ hg => startScan_scans hg, fun h s hphase => if_pos (by simp [hphase])⟩
  cases himage : ckptImage (shelfOf s h) <;> simp only [nextMeta, htodo, hg, himage]

end Sys2Proof.Proofs
end

section
/-! PROOFS. Answers of a heath bridge (10_heath_media.md, The bridge, Maps, Failures). -/

namespace Sys2Proof.Proofs
open Sys2Proof Sys2Proof.Machine Sys2Proof.Laws

/-! ## What every answer comes to (R328 to R331) -/

/-- An answer to an operation that was asked, of the length that it should have, is acted on. -/
theorem answer_acts {h code : Nat} {b : BridgeHdr} {ok : Bool} {act : BridgeOp → State → State} {o : BridgeOp} {s : State}
    (ha : Answers h code b o s) (hok : ok = true) : answer h code b ok act s = act o (taken h o s) := by
  obtain ⟨hasked, hup, hmarked, hfive, hsix⟩ := ha
  have hfive' : b.status ≠ 5 := fun he => hfive (by rw [he]; rfl)
  have hsix' : b.status ≠ 6 := fun he => hsix (by rw [he]; rfl)
  simp only [answer, hasked, hup, hmarked, hok, hfive', hsix', Bool.not_true, Bool.or_false, Bool.false_eq_true, if_false,
    decide_false, Bool.false_and]
  rfl

/-- A failure brings no data, and a success as many as it says. -/
theorem bringsData_of {b : BridgeHdr} {n actual : Nat} (h : b.status ≠ 0 ∨ (b.length.toNat = n ∧ actual = n)) :
    bringsData b n actual = true := by
  simpa [bringsData] using h

/-- The same for an answer without data. -/
theorem bringsData_none {b : BridgeHdr} (h : b.status ≠ 0 ∨ b.length = 0) : bringsData b 0 0 = true :=
  bringsData_of (h.imp_right fun hlen => ⟨by rw [hlen]; rfl, rfl⟩)

/-! ## Discovery (R326, R332) -/

theorem identified_meets {h : Nat} {b : BridgeHdr} {r : ShelfRec} {s : State} (hstate : (shelfOf s h).state = 1)
    (hstatus : b.status = 0) (hrec : shelfRecOk r = true) :
    identified h b r s = pump h (setShelf h (askLuns r { shelfOf s h with
      geom := some r, capability := b.capability.toNat, params := [], badSeen := 0 }) s) := by
  unfold identified
  rw [if_neg (by simp [hstate]), if_neg (by simp [hstatus, hrec])]

theorem identified_refused {h : Nat} {b : BridgeHdr} {r : ShelfRec} {s : State} (hstate : (shelfOf s h).state = 1)
    (hbad : b.status ≠ 0 ∨ shelfRecOk r = false) :
    identified h b r s = setShelf h { shelfOf s h with state := 6, geom := none } s := by
  unfold identified
  rw [if_neg (by simp [hstate]), if_pos (by simpa using hbad)]

/-! ## Pages read (R351 to R353) -/

/-- A page that a host's reader asked for, by whether it is the one. -/
theorem readDone_host {h u : Nat} {b : BridgeHdr} {o : BridgeOp} {p : PageRec} {t s : State} (ho : o.use = .read (.host u))
    (ht : t = setShelf h (noteRead s o b.corrected.toNat (shelfOf s h)) s) :
    readDone h b p o s =
      if pageFits (shelfOf t h) (.host u) b.status.toNat p then pageHere h (.host u) p t else startRebuild h (.host u) t := by
  subst ht
  have hnoboot : (ReadFor.host u == ReadFor.boot) = false := rfl
  simp only [readDone, pageRead, ho, hnoboot, Bool.false_and, Bool.false_eq_true, if_false]

theorem pageFits_host {x : Shelf} {u st : Nat} {p : PageRec} : pageFits x (.host u) st p = true ↔
    st = 0 ∧ hcrcOk p.spare = true ∧ (hdrOf p.spare).unit = unitNo x u ∧ (hdrOf p.spare).kind ≤ 1 := by
  simp [pageFits, namesWanted, and_assoc]

/-! ## Maps (R342) -/

/-- An entry that is changed, and still answers to what it is looked up by, is found as it was changed. -/
theorem find?_mapIf {α : Type} {p : α → Bool} {f : α → α} {l : List α} {e : α} (h : l.find? p = some e) (hf : p (f e) = true) :
    (mapIf p f l).find? p = some (f e) := by
  induction l with
  | nil => simp at h
  | cons x xs ih =>
    rw [mapIf, List.map_cons]
    rw [List.find?_cons] at h
    cases hx : p x with
    | true =>
      rw [hx] at h
      obtain rfl : x = e := Option.some.inj h
      rw [if_pos rfl, List.find?_cons, hf]
    | false =>
      rw [hx] at h
      rw [if_neg (by simp), List.find?_cons, hx]
      exact ih h

theorem fineEnt_mapTo {x : Shelf} {u sb slot seq key : Nat} {copy : Bool} {e : MapEnt} (he : fineEnt x u = some e) :
    fineEnt (mapTo u false sb slot seq key copy x) u = some { e with state := 2, sb := sb, slot := slot, keyId := key } := by
  have hkey := List.find?_some he
  simp only [mapTo, he, Bool.false_eq_true, if_false]
  exact find?_mapIf (p := fun b : MapEnt => b.key == u) he hkey

/-! ## Blocks (R343) -/

/-- Where one entry answers to `p`, and `b` does, putting `b` in place of all that do lets `b` be found. -/
theorem find?_map_put {α : Type} {p : α → Bool} {b : α} {l : List α} (hl : l.any p = true) (hb : p b = true) :
    (l.map fun y => if p y then b else y).find? p = some b := by
  induction l with
  | nil => simp at hl
  | cons y ys ih =>
    rw [List.map_cons, List.find?_cons]
    cases hy : p y with
    | true => rw [if_pos rfl, hb]
    | false =>
      rw [List.any_cons, hy, Bool.false_or] at hl
      rw [if_neg (by simp), hy]
      exact ih hl

/-- The table's entry for a block is the one set last. -/
theorem blockEnt_setBlock (b : BlockEnt) (x : Shelf) : blockEnt (setBlock b x) b.channel b.lun b.block = b := by
  have hself : (b.channel == b.channel && b.lun == b.lun && b.block == b.block) = true := by simp
  unfold blockEnt setBlock
  dsimp only
  split
  · rename_i hany
    rw [find?_map_put (p := fun y : BlockEnt => y.channel == b.channel && y.lun == b.lun && y.block == b.block) hany hself]
    rfl
  · rename_i hnone
    rw [List.find?_append, List.find?_eq_none.2 fun y hy hsame => hnone (List.any_eq_true.2 ⟨y, hy, hsame⟩)]
    simp

theorem blockEnt_place (x : Shelf) (c l n : Nat) :
    (blockEnt x c l n).channel = c ∧ (blockEnt x c l n).lun = l ∧ (blockEnt x c l n).block = n := by
  unfold blockEnt
  cases hfound : x.blocks.find? (fun b => b.channel == c && b.lun == l && b.block == n) with
  | none => exact ⟨rfl, rfl, rfl⟩
  | some b =>
    have hb := List.find?_some hfound
    simpa [and_assoc] using hb

theorem shelfOf_setShelf_same {h : Nat} {x : Shelf} {s : State} (hlt : h < s.shelves.length) : shelfOf (setShelf h x s) h = x := by
  simp [shelfOf, setShelf, List.getD_eq_getElem?_getD, hlt]

theorem retire_state {st h : Nat} {o : BridgeOp} {s : State} (hlt : h < s.shelves.length) :
    (blockEnt (shelfOf (retire st o h s) h) o.channel o.lun o.block).state = st := by
  obtain ⟨hchannel, hlun, hblock⟩ := blockEnt_place (shelfOf s h) o.channel o.lun o.block
  have hset := blockEnt_setBlock { blockEnt (shelfOf s h) o.channel o.lun o.block with state := st } (shelfOf s h)
  have hshelf : shelfOf (retire st o h s) h =
      setBlock { blockEnt (shelfOf s h) o.channel o.lun o.block with state := st } (shelfOf s h) := shelfOf_setShelf_same hlt
  rw [hshelf]
  simp only [hchannel, hlun, hblock] at hset ⊢
  rw [hset]

/-- Settles O51: an answer asked for is acted on by its operation. -/
theorem bridgeAnswersAct : Obligations.BridgeAnswersAct := by
  refine ⟨fun h b r o s ha hstate hstatus hlen hrec => ?_, fun h b r o s ha hstate hbad => ?_,
    fun h b o s ha hdata => congrArg Host.Outcome.next (answer_acts ha hdata),
    fun h b o bad s ha hdata => congrArg Host.Outcome.next (answer_acts ha (bringsData_of (hdata.imp_right fun hl => ⟨hl, rfl⟩))),
    fun h b o p s ha hdata => congrArg Host.Outcome.next (answer_acts ha (bringsData_of (hdata.imp_right fun hl => ?_))),
    fun h b o p u t s ho ht hfits htag => ?_, fun h b o p u t s ho ht hfits htag => ?_, fun h b o p u t s ho ht hfits => ?_,
    fun x u st p => pageFits_host,
    fun h b o p s ha hdata => congrArg Host.Outcome.next (answer_acts ha (bringsData_of hdata)),
    fun h b o s ha hdata => congrArg Host.Outcome.next (answer_acts ha (bringsData_none hdata)),
    fun h b o sb s ha hdata ho => congrArg Host.Outcome.next ((answer_acts ha (bringsData_none hdata)).trans ?_),
    fun h b o s ha hdata ho => congrArg Host.Outcome.next ((answer_acts ha (bringsData_none hdata)).trans ?_),
    fun h b o s ha hdata => congrArg Host.Outcome.next (answer_acts ha (bringsData_none hdata)),
    fun u sb slot seq key copy x e he => fineEnt_mapTo he, fun st o h s hlt => retire_state hlt⟩
  · exact congrArg Host.Outcome.next ((answer_acts ha (bringsData_of (Or.inr ⟨hlen, rfl⟩))).trans
      (identified_meets hstate hstatus hrec))
  · exact congrArg Host.Outcome.next ((answer_acts ha (bringsData_of (hbad.imp_right fun hl => ⟨hl.1, rfl⟩))).trans
      (identified_refused hstate (hbad.imp_right fun hl => hl.2)))
  · obtain ⟨hlen, hdata, hspare⟩ := hl
    exact ⟨hlen, (if_pos hdata).trans (by rw [hspare]; rfl)⟩
  · rw [readDone_host ho ht, if_pos hfits]
    exact if_pos htag
  · rw [readDone_host ho ht, if_pos hfits]
    exact if_neg (by simp [htag])
  · rw [readDone_host ho ht, if_neg (by simp [hfits])]
  · simp only [eraseAnswer, ho]
  · simp only [eraseAnswer, ho]

end Sys2Proof.Proofs
end

section
/-! PROOFS. Housekeeping of a ready shelf, and bridges and ports that are silent (10_heath_media.md, Garbage collection, Journal,
checkpoints and rebuild, The bridge, Failures). -/

namespace Sys2Proof.Proofs
open Sys2Proof Sys2Proof.Machine Sys2Proof.Laws

/-! ## Sorted lists -/

theorem mem_insertBy {α : Type} {lt : α → α → Bool} {x c : α} {l : List α} : c ∈ insertBy lt x l ↔ c = x ∨ c ∈ l := by
  induction l with
  | nil => simp [insertBy]
  | cons y ys ih =>
    rw [insertBy]
    split
    · rw [List.mem_cons]
    · rw [List.mem_cons, ih, List.mem_cons]
      exact or_left_comm

/-- The first element of a list has none before it. -/
def FirstLeast {α : Type} (lt : α → α → Bool) (l : List α) : Prop := ∀ b, l.head? = some b → ∀ c ∈ l, lt c b = false

/-- An order that puts nothing before itself, and follows itself. -/
structure Strict {α : Type} (lt : α → α → Bool) : Prop where
  irrefl : ∀ a, lt a a = false
  trans : ∀ a b c, lt a b = true → lt b c = true → lt a c = true

theorem firstLeast_insertBy {α : Type} {lt : α → α → Bool} (hlt : Strict lt) {x : α} {l : List α} (h : FirstLeast lt l) :
    FirstLeast lt (insertBy lt x l) := by
  intro b hb c hc
  rw [mem_insertBy] at hc
  cases l with
  | nil =>
    obtain rfl : x = b := Option.some.inj hb
    obtain rfl | hmem := hc
    · exact hlt.irrefl _
    · simp at hmem
  | cons y ys =>
    rw [insertBy] at hb
    split at hb
    · rename_i hxy
      obtain rfl : x = b := Option.some.inj hb
      obtain rfl | hmem := hc
      · exact hlt.irrefl _
      · refine Bool.eq_false_iff.2 fun hcx => ?_
        exact absurd (hlt.trans _ _ _ hcx hxy) (by simp [h y rfl c hmem])
    · rename_i hxy
      obtain rfl : y = b := Option.some.inj hb
      obtain rfl | hmem := hc
      · exact Bool.eq_false_iff.2 hxy
      · exact h y rfl c hmem

theorem sorted_foldl {α : Type} {lt : α → α → Bool} (hlt : Strict lt) (l acc : List α) (h : FirstLeast lt acc) :
    FirstLeast lt (l.foldl (fun acc x => insertBy lt x acc) acc) ∧
    ∀ c, c ∈ l.foldl (fun acc x => insertBy lt x acc) acc ↔ c ∈ l ∨ c ∈ acc := by
  induction l generalizing acc with
  | nil => simpa using h
  | cons x xs ih =>
    obtain ⟨hfirst, hmem⟩ := ih (insertBy lt x acc) (firstLeast_insertBy hlt h)
    refine ⟨hfirst, fun c => ?_⟩
    rw [List.foldl_cons, hmem, mem_insertBy, List.mem_cons, or_left_comm, or_assoc]

theorem mem_sortBy {α : Type} {lt : α → α → Bool} (hlt : Strict lt) {l : List α} {c : α} : c ∈ sortBy lt l ↔ c ∈ l :=
  ((sorted_foldl hlt l [] (by simp [FirstLeast])).2 c).trans (by simp)

/-- The first of a sorted list is one of the list's, with none before it. -/
theorem sortBy_head {α : Type} {lt : α → α → Bool} (hlt : Strict lt) {l : List α} {b : α} (h : (sortBy lt l).head? = some b) :
    b ∈ l ∧ ∀ c ∈ l, lt c b = false :=
  ⟨(mem_sortBy hlt).1 (List.mem_of_head? h), fun c hc =>
    (sorted_foldl hlt l [] (by simp [FirstLeast])).1 b h c ((mem_sortBy hlt).2 hc)⟩

theorem sortBy_head_none {α : Type} {lt : α → α → Bool} (hlt : Strict lt) {l : List α} (h : (sortBy lt l).head? = none) : l = [] := by
  refine List.eq_nil_iff_forall_not_mem.2 fun c hc => ?_
  have hmem := (mem_sortBy (lt := lt) hlt).2 hc
  rw [List.head?_eq_none_iff.1 h] at hmem
  simp at hmem

/-! ## Victims (R350) -/

theorem strict_ids : Strict fun a b : Nat => decide (a < b) :=
  ⟨fun a => by simp, fun a b c hab hbc => by simp at *; omega⟩

/-- Fewest valid slots first, and the lowest ID among those with as many. -/
theorem strict_fewest : Strict fun a b : Superblock =>
    decide (a.uses.length < b.uses.length) || (a.uses.length == b.uses.length && decide (a.id < b.id)) :=
  ⟨fun a => by simp, fun a b c hab hbc => by simp at *; omega⟩

theorem firstId_some {l : List Superblock} {v : Nat} (h : firstId l = some v) : ∃ b ∈ l, b.id = v :=
  List.mem_map.1 (sortBy_head strict_ids h).1

theorem firstId_none {l : List Superblock} (h : firstId l = none) : l = [] :=
  List.map_eq_nil_iff.1 (sortBy_head_none strict_ids h)

theorem victim_order {x : Shelf} {v : Nat} (h : victim x = some v) : ∃ b, b ∈ candidates x ∧ b.id = v ∧
    (b.state = 3 ∨ (∀ c ∈ candidates x, c.state ≠ 3) ∧
      (x.relocate.contains v = true ∨ ∀ c ∈ candidates x, x.relocate.contains c.id = false ∧ b.uses.length ≤ c.uses.length)) := by
  unfold victim at h
  dsimp only at h
  split at h
  · rename_i w hearly
    obtain rfl : w = v := Option.some.inj h
    obtain ⟨b, hb, hid⟩ := firstId_some hearly
    obtain ⟨hcand, hstate⟩ := List.mem_filter.1 hb
    exact ⟨b, hcand, hid, Or.inl (by simpa using hstate)⟩
  · rename_i hearly
    have hnone : ∀ c ∈ candidates x, c.state ≠ 3 := fun c hc => by
      simpa using List.filter_eq_nil_iff.1 (firstId_none hearly) c hc
    split at h
    · rename_i w hqueued
      obtain rfl : w = v := Option.some.inj h
      obtain ⟨b, hb, hid⟩ := firstId_some hqueued
      obtain ⟨hcand, hreloc⟩ := List.mem_filter.1 hb
      exact ⟨b, hcand, hid, Or.inr ⟨hnone, Or.inl (hid ▸ hreloc)⟩⟩
    · rename_i hqueued
      obtain ⟨b, hhead, hid⟩ := Option.map_eq_some_iff.1 h
      obtain ⟨hcand, hleast⟩ := sortBy_head strict_fewest hhead
      refine ⟨b, hcand, hid, Or.inr ⟨hnone, Or.inr fun c hc => ⟨?_, ?_⟩⟩⟩
      · simpa using List.filter_eq_nil_iff.1 (firstId_none hqueued) c hc
      · have hc := hleast c hc
        simp at hc
        omega

/-! ## Collection (R350) -/

/-- What no act on a value changes, a repetition of acts does not change. -/
theorem foldl_keeps {α β γ : Type} {f : α → β → α} (g : α → γ) (h : ∀ x b, g (f x b) = g x) (l : List β) (x : α) :
    g (l.foldl f x) = g x := by
  induction l generalizing x with
  | nil => rfl
  | cons b bs ih => exact (ih _).trans (h x b)

theorem readStripe_collecting (sb slot : Nat) (w : ReadFor) (x : Shelf) : (readStripe sb slot w x).collecting = x.collecting := by
  unfold readStripe
  split
  · dsimp only
    split
    · rfl
    · refine foldl_keeps Shelf.collecting ?_ _ _
      exact fun _ _ => rfl
  · rfl

theorem readSlot_collecting (sb slot : Nat) (w : ReadFor) (x : Shelf) : (readSlot sb slot w x).collecting = x.collecting := by
  unfold readSlot
  split
  · dsimp only
    split
    · exact readStripe_collecting _ _ _ _
    · rfl
  · rfl

theorem readUnit_collecting (u : Nat) (w : ReadFor) (x : Shelf) : (readUnit u w x).collecting = x.collecting := by
  unfold readUnit
  split
  · exact readSlot_collecting _ _ _ _
  · rfl

theorem gcReads_collecting (v : Nat) (i : Nat × Bool) (x : Shelf) : (gcReads v i x).collecting = x.collecting :=
  foldl_keeps Shelf.collecting (fun _ _ => readUnit_collecting _ _ _) _ _

theorem startVictim_collecting {v : Nat} {x : Shelf} (h : inSb x v ≠ []) : (startVictim v x).collecting = some v := by
  have hitems : (inSb x v).isEmpty = false := by simpa using h
  simp only [startVictim, hitems, Bool.false_eq_true, if_false]
  exact foldl_keeps Shelf.collecting (fun _ _ => gcReads_collecting _ _ _) _ _

theorem collect_collecting {mark n v : Nat} {x : Shelf} (h : x.collecting = some v) : collect mark n x = (x, 0) := by
  cases n with
  | zero => rfl
  | succ n => simp only [collect, h, Option.isSome_some, if_true]

/-- Collection reads a victim that holds units before it goes on to the next. -/
theorem collect_starts {mark n v : Nat} {x : Shelf} (hidle : x.collecting = none) (hv : nextVictim x mark = some v)
    (hunits : inSb x v ≠ []) :
    collect mark (n + 1) x = (startVictim v x, if x.relocate.contains v && !x.lunMoves.contains v then 1 else 0) := by
  simp only [collect, hidle, hv, collect_collecting (startVictim_collecting hunits), Option.isSome_none, Bool.false_eq_true, if_false,
    Nat.add_zero]

theorem gcStart_starts {h v : Nat} {x : Shelf} {s : State} (hx : x = shelfOf s h) (hstate : x.state = 4) (hidle : x.collecting = none)
    (hsag : s.power.kiln.sag = none) (hwants : wantsGc x (od s 0x6000 0x01) = true) (hv : nextVictim x (od s 0x6000 0x02) = some v)
    (hunits : inSb x v ≠ []) :
    gcStart h s = tend h (odAdd 0x6000 0x0E 64
      (if x.relocate.contains v && !x.lunMoves.contains v then 1 else 0) (setShelf h (startVictim v x) s)) := by
  subst hx
  unfold gcStart
  rw [if_neg (by simp [hstate, hidle, hsag, hwants])]
  simp only [collect_starts hidle hv hunits]

theorem gcStart_above {h : Nat} {s : State} (hwants : wantsGc (shelfOf s h) (od s 0x6000 0x01) = false) : gcStart h s = s :=
  if_pos (by simp [hwants])

/-! ## Journal and checkpoints (R345, R346) -/

theorem journalHalf_due {h : Nat} {s : State} (hjournals : shelfJournals (shelfOf s h) = true)
    (hhalf : 512 ≤ (shelfOf s h).tail.length) (hfree : journalBusy (shelfOf s h) = false) (hsag : s.power.kiln.sag = none) :
    journalHalf h s = pump h (setShelf h (journalPage (shelfOf s h)) s) :=
  if_neg (by simp [hjournals, hhalf, hfree, hsag])

theorem journalHalf_early {h : Nat} {s : State} (hshort : (shelfOf s h).tail.length < 512) : journalHalf h s = s :=
  if_pos (by simp [hshort])

theorem checkpointDue_due {h : Nat} {s : State} (hstate : (shelfOf s h).state = 4)
    (hpages : od s 0x6000 0x07 ≤ (shelfOf s h).journalPages) (hckpt : (shelfOf s h).ckpt = none)
    (hroot : anyUse (shelfOf s h) isRootUse = false) (hsag : s.power.kiln.sag = none) :
    checkpointDue h s = pump h (setShelf h (startCkpt (shelfOf s h)) s) :=
  if_neg (by simp [hstate, hpages, hckpt, hroot, hsag])

/-! ## Ports that stay down (R354) -/

theorem portDownWait_up {h : Nat} {s : State} (hup : heathUp s h = true) : portDownWait h s = s := if_pos hup

theorem with_cxlWaiting {s : State} {l : List CxlWait} (h : s.host.cxlWaiting = l) :
    { s with host := { s.host with cxlWaiting := l } } = s := by
  subst h
  rfl

theorem portDownWait_command {h : Nat} {c : Cmd} {s : State} (hdown : heathUp s h = false) (hcmds : s.queues.cmds = [c])
    (hwork : c.work = .stalled h) (hover : portWaitOver s c.since = true) (hreads : s.host.cxlWaiting = [])
    (hmoves : s.objs.moves = []) : portDownWait h s = flushHeld (complete c .media 0 s) := by
  unfold portDownWait
  rw [if_neg (by simp [hdown])]
  simp only [hcmds, hreads, List.filter_cons, hwork, hover, beq_self_eq_true, Bool.and_self, if_true, List.filter_nil,
    with_cxlWaiting hreads, forEach_nil, forEach_cons, hmoves]

theorem event_objs (st : Status) (p : Option Nat) (f u d : Nat) (s : State) : (event st p f u d s).objs = s.objs :=
  (event_kept (Sub.refl _) (Kept.refl _ s)).objsSame rfl

theorem portDownWait_read {h : Nat} {w : CxlWait} {s : State} (hdown : heathUp s h = false) (hcmds : s.queues.cmds = [])
    (hreads : s.host.cxlWaiting = [w]) (hshelf : w.shelf = h) (hover : portWaitOver s w.since = true) (hmoves : s.objs.moves = [])
    (hwrites : s.objs.heldWrites = []) (hbring : s.objs.bring = []) :
    portDownWait h s = event .media (some w.part) 0 0 (64 * w.line)
      (cxlAnswer w.part w.line true { s with host := { s.host with cxlWaiting := [] } }) := by
  have hobjs : (event .media (some w.part) 0 0 (64 * w.line)
      (cxlAnswer w.part w.line true { s with host := { s.host with cxlWaiting := [] } })).objs = s.objs := event_objs ..
  unfold portDownWait
  rw [if_neg (by simp [hdown])]
  simp only [hcmds, hreads, List.filter_cons, hshelf, hover, beq_self_eq_true, Bool.and_self, if_true, List.filter_nil,
    Bool.not_true, Bool.false_eq_true, if_false, forEach_nil, forEach_cons, hobjs, hmoves]
  exact flushHeld_idle (by rw [hobjs, hwrites]) (by rw [hobjs, hbring])

/-! ## Answers and silence (R328, R331) -/

theorem answer_unasked {h code : Nat} {b : BridgeHdr} {ok : Bool} {act : BridgeOp → State → State} {s : State}
    (hops : (shelfOf s h).ops = []) : answer h code b ok act s = s := by
  simp only [answer, hops, List.find?_nil]

/-- The answer to a program names an operation that is one. -/
theorem programmed_op {h : Nat} {b : BridgeHdr} {o : BridgeOp} {s : State}
    (hasked : (shelfOf s h).ops.find? (fun x => x.tag == b.tag.toNat && x.op == 0x20) = some o) : o.op = 0x20 := by
  have hfound := List.find?_some hasked
  simpa using (Bool.and_eq_true_iff.1 hfound).2

theorem exec_program_silent {h : Nat} {b : BridgeHdr} {o : BridgeOp} {s : State}
    (hasked : (shelfOf s h).ops.find? (fun x => x.tag == b.tag.toNat && x.op == 0x20) = some o)
    (hup : heathUp s h = true) (hmarked : b.flags.getLsbD 0 = true) (hstatus : b.status = 5) :
    exec (.program h b) s = .next (lunSilent h o (setShelf h { shelfOf s h with
      ops := (shelfOf s h).ops.filter (fun y => y.tag != o.tag) } s)) := by
  have hdata : bringsData b 0 0 = true := bringsData_none (Or.inl (by simp [hstatus]))
  have hop : (o.op != brIdentify) = true := by simp [programmed_op hasked, brIdentify]
  have hsix : ¬ b.status = 6 := by simp [hstatus]
  refine congrArg Host.Outcome.next (?_ : answer h brProgram b _ _ s = _)
  unfold answer
  simp only [brProgram, hasked]
  rw [if_neg (by simp [hup, hmarked, hdata]), if_neg hsix, if_pos (by simp [hstatus, hop])]

theorem exec_program_faulty {h : Nat} {b : BridgeHdr} {o : BridgeOp} {s : State}
    (hasked : (shelfOf s h).ops.find? (fun x => x.tag == b.tag.toNat && x.op == 0x20) = some o)
    (hup : heathUp s h = true) (hmarked : b.flags.getLsbD 0 = true) (hstatus : b.status = 6) :
    exec (.program h b) s = .next (pump h (setShelf h { shelfOf s h with
      ops := (shelfOf s h).ops.filter (fun y => y.tag != o.tag), waiting := o :: (shelfOf s h).waiting }
      (fault .heathBridge (unitHeathPort h) (o.op + o.channel * 2 ^ 8 + o.lun * 2 ^ 16 + o.tag * 2 ^ 24) none s))) := by
  have hdata : bringsData b 0 0 = true := bringsData_none (Or.inl (by simp [hstatus]))
  refine congrArg Host.Outcome.next (?_ : answer h brProgram b _ _ s = _)
  unfold answer
  simp only [brProgram, hasked]
  rw [if_neg (by simp [hup, hmarked, hdata]), if_pos hstatus]

theorem responseLate_silent {h tag : Nat} {o : BridgeOp} {s : State}
    (hlate : (shelfOf s h).ops.find? (fun x => x.tag == tag && x.at_ + 50000000 ≤ s.now) = some o)
    (hup : heathUp s h = true) (hop : o.op ≠ 1) :
    responseLate h tag s = lunSilent h o (setShelf h { shelfOf s h with
      ops := (shelfOf s h).ops.filter (fun y => y.tag != tag) } s) := by
  have hnoid : (o.op == brIdentify) = false := by simpa [brIdentify] using hop
  unfold responseLate
  simp only [hlate]
  rw [if_neg (by simp [hup]), if_neg (by simp [hnoid])]

theorem responseLate_none {h tag : Nat} {s : State} (hops : (shelfOf s h).ops = []) : responseLate h tag s = s := by
  simp only [responseLate, hops, List.find?_nil]

/-- Settles O52: housekeeping by what is due, a port's silence by what waits for it, and a LUN's by its operation. -/
theorem shelvesKeepHouseAndNoticeSilence : Obligations.ShelvesKeepHouseAndNoticeSilence := by
  refine ⟨fun h s hj hhalf hfree hsag => congrArg Host.Outcome.next (journalHalf_due hj hhalf hfree hsag),
    fun h s hshort => congrArg Host.Outcome.next (journalHalf_early hshort),
    fun h s hstate hpages hckpt hroot hsag => congrArg Host.Outcome.next (checkpointDue_due hstate hpages hckpt hroot hsag),
    fun h s _ _ hwants => congrArg Host.Outcome.next (gcStart_above hwants),
    fun h s => ⟨_, rfl, onlyIn_of_kept (gcStart_kept (Sub.refl _) (Kept.refl _ s)) (by decide)⟩,
    fun h v x s hx hstate hidle hsag hwants hv hunits =>
      congrArg Host.Outcome.next (gcStart_starts hx hstate hidle hsag hwants hv hunits),
    fun x m => rfl, fun x v hv => victim_order hv, fun h s hup => congrArg Host.Outcome.next (portDownWait_up hup),
    fun h c s hdown hcmds hwork hover hreads hmoves =>
      congrArg Host.Outcome.next (portDownWait_command hdown hcmds hwork hover hreads hmoves),
    fun h w s hdown hcmds hreads hshelf hover hmoves hwrites hbring =>
      congrArg Host.Outcome.next (portDownWait_read hdown hcmds hreads hshelf hover hmoves hwrites hbring),
    fun c h b s hc hops => ?_, fun h b o s hasked hup hmarked hstatus => exec_program_silent hasked hup hmarked hstatus,
    fun h b o s hasked hup hmarked hstatus => exec_program_faulty hasked hup hmarked hstatus,
    fun h tag o s hlate hup hop => congrArg Host.Outcome.next (responseLate_silent hlate hup hop),
    fun h tag s hops => congrArg Host.Outcome.next (responseLate_none hops)⟩
  obtain ⟨r, rfl⟩ | rfl | ⟨l, rfl⟩ | ⟨p, rfl⟩ | ⟨p, rfl⟩ | rfl | rfl | rfl := hc <;>
    exact congrArg Host.Outcome.next (answer_unasked hops)

end Sys2Proof.Proofs
end

section
/-! PROOFS. Bring-up of a port and its key agreement (12_optical_links.md, Bring-up; 13_security.md, Links and connections). -/

namespace Sys2Proof.Proofs
open Sys2Proof Sys2Proof.Machine Sys2Proof.Laws

/-! ## Steps of bring-up (R395) -/

theorem portOf_editPort_same {n : Nat} {f : Port → Port} {s : State} (h : n < s.links.ports.length) :
    portOf (editPort n f s) n = f (portOf s n) := by
  simp [portOf, editPort, List.getD_eq_getElem?_getD, h]

/-- A port that is in some step is a port of the device. -/
theorem port_lt_of_step {n : Nat} {s : State} (h : (portOf s n).step ≠ 0) : n < s.links.ports.length := by
  by_contra hge
  have hnone : s.links.ports[n]? = none := List.getElem?_eq_none (by omega)
  exact h (by simp [portOf, List.getD_eq_getElem?_getD, hnone])

/-- Nothing stands against a port's bring-up. -/
theorem bringUp_allowed {n : Nat} {s : State} (h : Trains n s) :
    (portUp s n || (portOf s n).failed || s.power.linkTest == some n || underTest s n || !ready s) = false := by
  simp [h.down, h.sound, h.free, h.untested, h.runs, underTest]

theorem bringUp_begin {n : Nat} {caps : LinkCaps} {s : State} (h : Trains n s) (hstep : (portOf s n).step = 0) :
    bringUp n caps s = atStep 1 n s := by
  simp only [bringUp, bringUp_allowed h, hstep, Bool.false_eq_true, if_false]

theorem bringUp_light {n : Nat} {caps : LinkCaps} {s : State} (h : Trains n s) (hstep : (portOf s n).step = 1)
    (hlit : minLanes s n ≤ laneCount (litLanes s n)) : bringUp n caps s = atStep 2 n s := by
  simp only [bringUp, bringUp_allowed h, hstep, hlit, Bool.false_eq_true, if_false, if_true]

theorem bringUp_align {n : Nat} {caps : LinkCaps} {s : State} (h : Trains n s) (hstep : (portOf s n).step = 2) :
    bringUp n caps s = atStep 3 n s := by
  simp only [bringUp, bringUp_allowed h, hstep, Bool.false_eq_true, if_false]

theorem bringUp_tell {n : Nat} {caps : LinkCaps} {s : State} (h : Trains n s) (hstep : (portOf s n).step = 3) :
    bringUp n caps s = send (.linkCaps n (ownCaps n s)) (atStep 4 n s) := by
  simp only [bringUp, bringUp_allowed h, hstep, Bool.false_eq_true, if_false]

/-- A step whose end is not there yet goes on. -/
theorem bringUp_waits {n : Nat} {caps : LinkCaps} {s : State}
    (hstep : (portOf s n).step = 1 ∧ laneCount (litLanes s n) < minLanes s n ∨ (portOf s n).step = 4 ∧ capsFit n caps s = false)
    (h : Trains n s) : bringUp n caps s = s := by
  obtain ⟨hone, hdark⟩ | ⟨hfour, hunfit⟩ := hstep
  · simp only [bringUp, bringUp_allowed h, hone, Bool.false_eq_true, if_false]
    exact if_neg (by omega)
  · simp only [bringUp, bringUp_allowed h, hfour, hunfit, Bool.false_eq_true, if_false, Bool.not_false, if_true]

/-! ## Capabilities and key agreement (R395, R447) -/

theorem capsFit_of {n : Nat} {caps : LinkCaps} {s : State} (hkind : caps.heath = isHeathPort n)
    (hgrants : isHeathPort n = true → caps.grants.length = 4 ∧ ∀ g ∈ caps.grants, 64 ≤ g)
    (hlanes : minLanes s n ≤ laneCount (agreedLanes n caps s)) : capsFit n caps s = true := by
  have hgranted : (isHeathPort n && (caps.grants.length != 4 || caps.grants.any fun g => g < 64)) = false := by
    cases hheath : isHeathPort n with
    | false => rfl
    | true =>
      obtain ⟨hfour, hleast⟩ := hgrants hheath
      simpa [hfour] using hleast
  simp only [capsFit, hgranted, hkind, beq_self_eq_true, hlanes, decide_true, Bool.not_false, Bool.and_self]

/-- The port of step 5 at the end that sends LINK_KEY first. -/
def agrees (caps : LinkCaps) (lanes now : Nat) (x : Port) : Port :=
  { x with
    state := 1, step := 5, stepAt := now, txLanes := lanes, rxLanes := lanes, neighbour := caps.unit, node := caps.node.toNat
    grants := caps.grants, keySent := true, secret := none, proofSent := false, peerPub := [], keyIn := none }

/-- A LINK_KEY that came early is none of this end's, which has sent its own (R447). -/
theorem linkKeyIn_lower {n lanes now : Nat} {caps : LinkCaps} {unit : BitVec 128} {pub : Bytes} {s : State}
    (hn : n < s.links.ports.length) (hlow : s.sec.unitId.toNat < caps.unit.toNat) :
    linkKeyIn n unit pub (send (.linkMsg n 1) (editPort n (agrees caps lanes now) s)) =
      send (.linkMsg n 1) (editPort n (agrees caps lanes now) s) := by
  have hport : portOf (send (.linkMsg n 1) (editPort n (agrees caps lanes now) s)) n = agrees caps lanes now (portOf s n) :=
    portOf_editPort_same hn
  unfold linkKeyIn
  rw [hport]
  dsimp only [agrees]
  split
  · rfl
  · rw [if_neg (by simp)]
    exact if_pos (Bool.or_eq_true_iff.2 (Or.inl (decide_eq_true hlow)))

theorem bringUp_agree {n lanes : Nat} {caps : LinkCaps} {s : State} (h : Trains n s) (hstep : (portOf s n).step = 4)
    (hfit : capsFit n caps s = true) (hlanes : lanes = agreedLanes n caps s) (hid : s.sec.identity ≠ none)
    (hlow : s.sec.unitId.toNat < caps.unit.toNat) :
    bringUp n caps s = send (.linkMsg n 1) (editPort n (agrees caps lanes s.now) s) := by
  subst hlanes
  have hn : n < s.links.ports.length := port_lt_of_step (by omega)
  have hfirst : (s.sec.identity.isSome && decide (s.sec.unitId.toNat < caps.unit.toNat)) = true := by
    simp [Option.isSome_iff_ne_none.2 hid, hlow]
  simp only [bringUp, bringUp_allowed h, hstep, hfit, hfirst, Bool.false_eq_true, if_false, Bool.not_true, onlyIf, if_true]
  split
  · exact linkKeyIn_lower hn hlow
  · rfl

theorem linkKeyIn_early {n : Nat} {unit : BitVec 128} {pub : Bytes} {s : State} (hstate : (portOf s n).state = 1)
    (hstep : (portOf s n).step = 4) (hid : s.sec.identity ≠ none) :
    linkKeyIn n unit pub s = editPort n (fun x => { x with keyIn := some (unit, pub) }) s := by
  unfold linkKeyIn
  dsimp only
  rw [if_neg (by simp [agreeing, hstate, hstep, hid]), if_pos (by simp [hstep])]

theorem linkKeyIn_higher {n : Nat} {unit : BitVec 128} {pub : Bytes} {s : State} (hstate : (portOf s n).state = 1)
    (hstep : (portOf s n).step = 5) (hid : s.sec.identity ≠ none) (hhigh : (portOf s n).neighbour.toNat ≤ s.sec.unitId.toNat)
    (hunit : unit = (portOf s n).neighbour) :
    linkKeyIn n unit pub s = drawn (send (.linkMsg n 3) (send (.linkMsg n 2) (editPort n (fun x => { x with
      peerPub := pub, secret := some (freeOf 256 s), proofSent := true }) s))) := by
  unfold linkKeyIn
  dsimp only
  rw [if_neg (by simp [agreeing, hstate, hstep, hid]), if_neg (by simp [hstep]), if_neg (by simp [hunit, hhigh])]

theorem linkCtIn_answers {n : Nat} {unit : BitVec 128} {pub : Bytes} {s : State} (hagree : agreeing (portOf s n) = true)
    (hid : s.sec.identity ≠ none) (hsent : (portOf s n).keySent = true) (hunit : unit = (portOf s n).neighbour) :
    linkCtIn n unit pub s = drawn (send (.linkMsg n 3) (editPort n (fun x => { x with
      peerPub := pub, secret := some (freeOf 256 s), proofSent := true }) s)) :=
  if_neg (by simp [hagree, hid, hsent, hunit])

theorem linkProofIn_accepted {n : Nat} {s : State} (hagree : agreeing (portOf s n) = true) (hsecret : (portOf s n).secret ≠ none)
    (hkey : keyIsOf (portOf s n).peerPub (portOf s n).neighbour = true) (hallowed : allowed s (portOf s n).neighbour = true) :
    linkProofIn n true s = linkUp n s := by
  unfold linkProofIn
  dsimp only
  rw [if_neg (by simp [hagree, hsecret]), if_pos (by simp [hkey, hallowed])]

theorem linkProofIn_fails {n : Nat} {ok : Bool} {s : State} (hagree : agreeing (portOf s n) = true)
    (hsecret : (portOf s n).secret ≠ none) (hbad : ok = false ∨ allowed s (portOf s n).neighbour = false) :
    linkProofIn n ok s = retrain n (fault .isverLink (unitPort n) (5 + heathBit n 8) none s) := by
  unfold linkProofIn
  dsimp only
  rw [if_neg (by simp [hagree, hsecret]), if_neg ?_]
  rcases hbad with hok | hforeign
  · simp [hok]
  · simp [hforeign]

theorem stepTimeout_over {n : Nat} {s : State} (hstate : (portOf s n).state = 1) (hstep : (portOf s n).step ≠ 0)
    (hover : (portOf s n).stepAt + stepBound (portOf s n).step ≤ s.now) :
    stepTimeout n s = retrain n (fault .isverLink (unitPort n) ((portOf s n).step + heathBit n 8) none s) :=
  if_neg (by simp [hstate, hstep, hover])

/-- Without an identity no key is agreed on (R425). -/
theorem linkKeyIn_anonymous {n : Nat} {unit : BitVec 128} {pub : Bytes} {s : State} (hid : s.sec.identity = none) :
    linkKeyIn n unit pub s = s ∧ linkCtIn n unit pub s = s :=
  ⟨if_pos (by simp [hid]), if_pos (by simp [hid])⟩

/-- Settles O47: bring-up by its step, key agreement by its message. -/
theorem portsComeUp : Obligations.PortsComeUp := by
  refine ⟨fun n caps s h hstep => congrArg Host.Outcome.next (bringUp_begin h hstep),
    fun n caps s h hstep hlit => congrArg Host.Outcome.next (bringUp_light h hstep hlit),
    fun n caps s h hstep => congrArg Host.Outcome.next (bringUp_align h hstep),
    fun n caps s h hstep => congrArg Host.Outcome.next (bringUp_tell h hstep),
    fun n caps lanes s h hstep hkind hgrants hlanes hleast hid hlow => congrArg Host.Outcome.next
      (bringUp_agree h hstep (capsFit_of hkind hgrants (by rw [agreedLanes, ← hlanes]; exact hleast)) hlanes hid hlow),
    fun n caps s h hstep => congrArg Host.Outcome.next (bringUp_waits hstep h),
    fun n k s hn => portOf_editPort_same hn,
    fun n s hstate hstep hover => congrArg Host.Outcome.next (stepTimeout_over hstate hstep hover),
    fun n unit pub ek s hstate hstep hid => congrArg Host.Outcome.next (linkKeyIn_early hstate hstep hid),
    fun n unit pub ek s hstate hstep hid hhigh hunit => congrArg Host.Outcome.next (linkKeyIn_higher hstate hstep hid hhigh hunit),
    fun n unit pub ct s hagree hid hsent hunit => congrArg Host.Outcome.next (linkCtIn_answers hagree hid hsent hunit),
    fun n s hagree hsecret hkey hallowed => congrArg Host.Outcome.next (linkProofIn_accepted hagree hsecret hkey hallowed),
    fun n ok s hagree hsecret hbad => congrArg Host.Outcome.next (linkProofIn_fails hagree hsecret hbad),
    fun n unit pub x s hid => ⟨congrArg Host.Outcome.next (linkKeyIn_anonymous hid).1,
      congrArg Host.Outcome.next (linkKeyIn_anonymous hid).2⟩⟩

end Sys2Proof.Proofs
end

section
/-! PROOFS. Frames that arrive whole, and frames that do not (12_optical_links.md, Frames, Credits, Encryption, Lane degrade). -/

namespace Sys2Proof.Proofs
open Sys2Proof Sys2Proof.Machine Sys2Proof.Laws

/-! ## Frames that arrive whole (R400 to R403) -/

/-- A whole frame is counted, and then acted on. -/
theorem frameIn_whole {n t : Nat} {f : Frame} {act : Nat → State → State} {s : State} (h : Arrives n t f s) :
    frameIn n t f act s = act (frameCtr (portOf s n) f.ctrLo.toNat) (received n f s) := by
  obtain ⟨hup, hkind, hfec, hauth, horder⟩ := h
  have hnext : (isHeathPort n && frameCtr (portOf s n) f.ctrLo.toNat != expectedCtr (portOf s n)) = false := by
    cases hheath : isHeathPort n with
    | false => rfl
    | true => simp [horder hheath]
  have hgo : (!portUp s n || f.ftype.toNat != t) = false := by simp [hup, hkind]
  simp only [frameIn, hgo, hfec, hauth, hnext, Bool.not_true, Bool.false_eq_true, if_false]
  rfl

/-- What DATA does to its class's counts (R405). -/
def dataCounted (n : Nat) (f : Frame) : State → State :=
  editPort n (fun p => { p with
    rcvd := addAt p.rcvd (bitsOf f.flags.toNat 3 2) 1, freed := addAt p.freed (bitsOf f.flags.toNat 3 2) 1 })

theorem dataFrame_eq (n : Nat) (f : Frame) (s : State) : dataFrame n f s = frameIn n 1 f (fun _ => dataCounted n f) s := rfl

theorem nakIn_replays {n : Nat} {f : Frame} {s : State} (h : Arrives n 3 f s) (hheath : isHeathPort n = true) :
    nakIn_ n f s = odAdd (portIx n) 0x0A 64
      ((portOf (received n f s) n).sentTo.filter (fun x => fieldAt f.payload 0 8 ≤ x.ctr)).length
      (forEach (fun (x : SentFrame) => send (.replay n x.ctr x.wire))
        ((portOf (received n f s) n).sentTo.filter (fun x => fieldAt f.payload 0 8 ≤ x.ctr)) (received n f s)) :=
  (frameIn_whole h).trans (if_neg (by simp [hheath]))

theorem laneIn_ahead {n : Nat} {f : Frame} {s : State} (h : Arrives n 4 f s)
    (hahead : (portOf (received n f s) n).txCtr ≤ fieldAt f.payload 8 8) :
    laneIn n f s = editPort n (fun p => { p with
      laneSwitch := some (bothLanes (fieldAt f.payload 0 1) (allLanes n), fieldAt f.payload 8 8) }) (received n f s) :=
  (frameIn_whole h).trans (if_pos hahead)

/-- Settles O48: a frame that has been counted acts by its type. -/
theorem framesAct : Obligations.FramesAct :=
  ⟨fun n f s h => congrArg Host.Outcome.next ((dataFrame_eq n f s).trans (frameIn_whole h)),
    fun _ _ _ h => congrArg Host.Outcome.next (frameIn_whole h),
    fun _ _ _ h => congrArg Host.Outcome.next (frameIn_whole h),
    fun _ _ _ h hheath => ⟨_, rfl, congrArg Host.Outcome.next (nakIn_replays h hheath)⟩,
    fun _ _ _ h hahead => congrArg Host.Outcome.next (laneIn_ahead h hahead)⟩

/-! ## Frames that do not arrive whole (R396, R403, R409) -/

/-- The commands that a frame of a kind arrives by. -/
def FrameOf (c : Instr) (n t : Nat) (f : Frame) : Prop :=
  c = .dataFrame n f ∧ t = 1 ∨ c = .idleFrame n f ∧ t = 0 ∨ c = .creditFrame n f ∧ t = 2 ∨ c = .nakFrame n f ∧ t = 3 ∨
    c = .lane n f ∧ t = 4

/-- Whatever its kind, a frame is received first, and then acted on. -/
theorem exec_frame {c : Instr} {n t : Nat} {f : Frame} (h : FrameOf c n t f) (s : State) :
    ∃ act, exec c s = .next (frameIn n t f act s) := by
  obtain ⟨rfl, rfl⟩ | ⟨rfl, rfl⟩ | ⟨rfl, rfl⟩ | ⟨rfl, rfl⟩ | ⟨rfl, rfl⟩ := h
  · exact ⟨_, congrArg Host.Outcome.next (dataFrame_eq n f s)⟩
  all_goals exact ⟨_, rfl⟩

theorem frameIn_uncorrected {n t : Nat} {f : Frame} {act : Nat → State → State} {s : State} (hup : portUp s n = true)
    (hkind : f.ftype.toNat = t) (hfec : f.fecOk = false) : frameIn n t f act s = badFrame n 0x07 0 false s := by
  have hgo : (!portUp s n || f.ftype.toNat != t) = false := by simp [hup, hkind]
  simp only [frameIn, hgo, hfec, Bool.not_false, Bool.false_eq_true, if_false, if_true]

theorem frameIn_unauthentic {n t : Nat} {f : Frame} {act : Nat → State → State} {s : State} (hup : portUp s n = true)
    (hkind : f.ftype.toNat = t) (hfec : f.fecOk = true) (hauth : f.authOk = false) :
    frameIn n t f act s = badFrame n 0x08 (frameCtr (portOf s n) f.ctrLo.toNat) true (odAdd (portIx n) 0x09 64 f.corrected s) := by
  have hgo : (!portUp s n || f.ftype.toNat != t) = false := by simp [hup, hkind]
  simp only [frameIn, hgo, hfec, hauth, Bool.not_false, Bool.not_true, Bool.false_eq_true, if_false, if_true]

theorem frameIn_unexpected {n t : Nat} {f : Frame} {act : Nat → State → State} {s : State} (hup : portUp s n = true)
    (hkind : f.ftype.toNat = t) (hfec : f.fecOk = true) (hauth : f.authOk = true) (hheath : isHeathPort n = true)
    (hctr : frameCtr (portOf s n) f.ctrLo.toNat ≠ expectedCtr (portOf s n)) :
    frameIn n t f act s = askReplay n (editPort n (fun p => { p with bad := 0 }) (odAdd (portIx n) 0x09 64 f.corrected s)) := by
  have hgo : (!portUp s n || f.ftype.toNat != t) = false := by simp [hup, hkind]
  have hlost : (isHeathPort n && frameCtr (portOf s n) f.ctrLo.toNat != expectedCtr (portOf s n)) = true := by simp [hheath, hctr]
  simp only [frameIn, hgo, hfec, hauth, hlost, Bool.not_true, Bool.false_eq_true, if_false, if_true]

theorem frameIn_down {n t : Nat} {f : Frame} {act : Nat → State → State} {s : State} (hdown : portUp s n = false) :
    frameIn n t f act s = s :=
  if_pos (by simp [hdown])

theorem badFrame_run {n sub ctr : Nat} {auth : Bool} {s : State} (hrun : (portOf s n).bad < 1023) :
    badFrame n sub ctr auth s = askReplay n (count (.port n) 0x0204 1 {} (bump64 (portIx n) sub
      (editPort n (fun p => { p with bad := (portOf s n).bad + 1 }) s))) :=
  if_neg (by omega)

/-- The 1,024th in a row. -/
theorem badFrame_last {n sub ctr : Nat} {s : State} (hrun : 1023 ≤ (portOf s n).bad) :
    badFrame n sub ctr false s = portDown n (count (.port n) 0x0204 1 {} (bump64 (portIx n) sub
      (editPort n (fun p => { p with bad := (portOf s n).bad + 1 }) s))) :=
  if_pos (by omega)

theorem badFrame_lastAuth {n sub ctr : Nat} {s : State} (hrun : 1023 ≤ (portOf s n).bad) :
    badFrame n sub ctr true s = portDown n (fault .isverAuth (unitPort n) (ctr + heathBit n 64) none
      (count (.port n) 0x0204 1 {} (bump64 (portIx n) sub (editPort n (fun p => { p with bad := (portOf s n).bad + 1 }) s)))) :=
  if_pos (by omega)

theorem askReplay_once {n : Nat} {s : State} (hheath : isHeathPort n = true) (hfirst : (portOf s n).rxLost = false) :
    askReplay n s = controlOut n 3 (nakPayload (expectedCtr (portOf s n)))
      (editPort n (fun x => { x with rxLost := true, nakAt := some s.now, nakFirst := s.now }) s) :=
  if_neg (by simp [hheath, hfirst])

theorem askReplay_peer {n : Nat} {s : State} (hpeer : n < 32) : askReplay n s = s :=
  if_pos (by simp [isHeathPort, hpeer])

/-- Settles O49: by what is wrong with the frame, and how long its run is. -/
theorem badFramesAreDropped : Obligations.BadFramesAreDropped := by
  refine ⟨fun c n t f s hc hup hkind hfec hrun => ?_, fun c n t f s hc hup hkind hfec hrun => ?_,
    fun c n t f s hc hup hkind hfec hauth hheath hctr => ?_, fun c n t f s hc hup hkind hfec hauth hrun => ?_,
    fun c n t f s hc hup hkind hfec hauth hrun => ?_, fun n s hheath hfirst => askReplay_once hheath hfirst,
    fun n s hpeer => askReplay_peer hpeer, fun c n f s hc hdown => ?_⟩
  · obtain ⟨act, hexec⟩ := exec_frame hc s
    rw [hexec, frameIn_uncorrected hup hkind hfec, badFrame_run hrun]
  · obtain ⟨act, hexec⟩ := exec_frame hc s
    rw [hexec, frameIn_uncorrected hup hkind hfec, badFrame_last hrun]
  · obtain ⟨act, hexec⟩ := exec_frame hc s
    rw [hexec, frameIn_unexpected hup hkind hfec hauth hheath hctr]
  · obtain ⟨act, hexec⟩ := exec_frame hc s
    rw [hexec, frameIn_unauthentic hup hkind hfec hauth]
    exact congrArg Host.Outcome.next (badFrame_run (s := odAdd (portIx n) 0x09 64 f.corrected s) hrun)
  · obtain ⟨act, hexec⟩ := exec_frame hc s
    rw [hexec, frameIn_unauthentic hup hkind hfec hauth]
    exact congrArg Host.Outcome.next (badFrame_lastAuth (s := odAdd (portIx n) 0x09 64 f.corrected s) hrun)
  · have hkind : ∃ t, FrameOf c n t f := by
      obtain rfl | rfl | rfl | rfl | rfl := hc
      · exact ⟨1, Or.inl ⟨rfl, rfl⟩⟩
      · exact ⟨0, Or.inr (Or.inl ⟨rfl, rfl⟩)⟩
      · exact ⟨2, Or.inr (Or.inr (Or.inl ⟨rfl, rfl⟩))⟩
      · exact ⟨3, Or.inr (Or.inr (Or.inr (Or.inl ⟨rfl, rfl⟩)))⟩
      · exact ⟨4, Or.inr (Or.inr (Or.inr (Or.inr ⟨rfl, rfl⟩)))⟩
    obtain ⟨t, hframe⟩ := hkind
    obtain ⟨act, hexec⟩ := exec_frame hframe s
    rw [hexec, frameIn_down hdown]

end Sys2Proof.Proofs
end

section
/-! PROOFS. Timers of a queue pair, packets that pass through, and contexts on die (11_peer_transport.md, Windows and retransmission,
Encryption, Relaying, Contexts on die). -/

namespace Sys2Proof.Proofs
open Sys2Proof Sys2Proof.Machine Sys2Proof.Laws

/-! ## Bringing a context on die (R382) -/

/-- It changes neither the pairs nor what waits for contexts. -/
theorem bringOn_qps (n : Nat) (s : State) : (bringOn n s).peer.qps = s.peer.qps := by
  unfold bringOn
  split
  · rfl
  · split
    · rfl
    · split <;> rfl

theorem findQp_bringOn {n m : Nat} {s : State} : findQp (bringOn m s) n = findQp s n := by
  rw [findQp, bringOn_qps]
  rfl

theorem bringOn_onDie {n : Nat} {s : State}
    (h : s.peer.onDie.contains n = true ∨ s.peer.onDie.length < 4096 ∨ s.peer.onDie.any (evictable s) = true) :
    (bringOn n s).peer.onDie.contains n = true := by
  unfold bringOn
  split
  · simp
  · rename_i hoff
    split
    · simp
    · rename_i hfull
      have hany : s.peer.onDie.any (evictable s) = true := (h.resolve_left hoff).resolve_left hfull
      obtain ⟨m, hm, hev⟩ := List.any_eq_true.1 hany
      have hfound : s.peer.onDie.find? (evictable s) ≠ none := fun hnone => List.find?_eq_none.1 hnone m hm hev
      split
      · simp
      · rename_i hnone
        exact absurd hnone hfound

/-- What leaves a list shortens it. -/
theorem length_filter_ne_lt {n : Nat} {l : List Nat} (h : n ∈ l) : (l.filter (fun m => m != n)).length < l.length :=
  List.length_filter_lt_length_iff_exists.2 ⟨n, h, by simp⟩

theorem bringOn_room {n : Nat} {s : State} (h : s.peer.onDie.length ≤ 4096) : (bringOn n s).peer.onDie.length ≤ 4096 := by
  unfold bringOn
  split
  · rename_i hon
    have hlt := length_filter_ne_lt (List.contains_iff_mem.1 hon)
    simp only [List.length_append, List.length_singleton]
    omega
  · split
    · rename_i hroom
      show (s.peer.onDie ++ [n]).length ≤ 4096
      simp only [List.length_append, List.length_singleton]
      omega
    · split
      · rename_i m hm
        have hlt := length_filter_ne_lt (List.mem_of_find?_eq_some hm)
        show (s.peer.onDie.filter (fun x => x != m) ++ [n]).length ≤ 4096
        simp only [List.length_append, List.length_singleton]
        omega
      · exact h

/-! ## Timers (R365, R379, R383, R386) -/

/-- A connection that has waited for 5 ms. -/
theorem connectTimeout_over {n t : Nat} {q : Qp} {s : State} (hq : findQp s n = some q) (hstate : q.state = .connecting)
    (hat : q.connectAt = some t) (hover : t + 5000000 ≤ s.now) :
    connectTimeout n s = if n < 64 && portUp s (n % 32)
      then sendConnect n ptConnect (setQp { q with connectAt := some s.now } (bringOn n s)) else connectFails n (bringOn n s) := by
  unfold connectTimeout
  rw [hq]
  exact if_pos (by rw [hstate, hat, Option.any_some, decide_eq_true hover]; rfl)

theorem connectFails_pair {n : Nat} {q : Qp} {s : State} (hq : findQp s n = some q) :
    connectFails n s = qpResult n 2 .peerUnreachable (setQp { q with state := .configured, connectAt := none } s) := by
  simp only [connectFails, hq]

theorem connectTimeout_tenant {n t : Nat} {q : Qp} {s : State} (hq : findQp s n = some q) (hstate : q.state = .connecting)
    (hat : q.connectAt = some t) (hover : t + 5000000 ≤ s.now) (hdown : 64 ≤ n ∨ portUp s (n % 32) = false) :
    connectTimeout n s =
      qpResult n 2 .peerUnreachable (setQp { q with state := .configured, connectAt := none } (bringOn n s)) := by
  rw [connectTimeout_over hq hstate hat hover, if_neg ?_, connectFails_pair (findQp_bringOn.trans hq)]
  rcases hdown with hn | hport
  · simp [hn]
  · simp [hport]

theorem connectTimeout_device {n t : Nat} {q : Qp} {s : State} (hq : findQp s n = some q) (hstate : q.state = .connecting)
    (hat : q.connectAt = some t) (hover : t + 5000000 ≤ s.now) (hn : n < 64) (hup : portUp s (n % 32) = true) :
    connectTimeout n s = sendConnect n ptConnect (setQp { q with connectAt := some s.now } (bringOn n s)) :=
  (connectTimeout_over hq hstate hat hover).trans (if_pos (by simp [hn, hup]))

theorem connectTimeout_none {n : Nat} {q : Qp} {s : State} (hq : findQp s n = some q) (hstate : q.state ≠ .connecting) :
    connectTimeout n s = s := by
  simp only [connectTimeout, hq]
  exact if_neg (by simp [hstate])

/-- A pair whose acknowledgement has not come in time. -/
theorem timerOut_over {n t : Nat} {q : Qp} {k : Pkt} {ks : List Pkt} {s : State} (hq : findQp s n = some q) (ht : q.timer = some t)
    (hout : q.unacked = k :: ks) (hover : t + timeoutNs s q ≤ s.now) :
    timerOut n s = if od s 0x7010 0x02 + 1 ≤ q.runs + 1 then qpUnanswered n (bringOn n s)
      else resendFrom n k.psn.toNat (setQp { q with runs := q.runs + 1 } (bringOn n s)) := by
  have hgo : (q.unacked.isEmpty || decide (s.now < t + timeoutNs s q)) = false := by simp [hout, hover]
  simp only [timerOut, hq, ht, hgo, Bool.false_eq_true, if_false]
  rw [hout]
  rfl

theorem busyOver_resends {n t psn : Nat} {q : Qp} {later : List (Nat × Nat)} {s : State} (hq : findQp s n = some q)
    (hbusy : q.busy = (t, psn) :: later) (hover : t + 2000 ≤ s.now) :
    busyOver n s = resendFrom n psn (setQp { q with busy := later } (bringOn n s)) := by
  simp only [busyOver, hq, hbusy]
  exact if_neg (by omega)

theorem peerRekey_due {n : Nat} {q : Qp} {s : State} (hq : findQp s n = some q) (hdue : od s 0x7010 0x05 ≤ q.counter)
    (hleft : q.epoch + 1 < 2 ^ 32 - 1) :
    peerRekey n s = bump64 0x7030 0x08 (setQp { q with epoch := q.epoch + 1, counter := 0 } (bringOn n s)) := by
  have hgo : (findQp s n).any (rekeyDue s) = true := by simp [hq, rekeyDue, hdue]
  rw [peerRekey, if_pos hgo]
  simp only [nextEpoch, findQp_bringOn.trans hq]
  exact if_neg (by omega)

theorem peerRekey_early {n : Nat} {q : Qp} {s : State} (hq : findQp s n = some q) (hearly : q.counter < od s 0x7010 0x05) :
    peerRekey n s = s :=
  if_neg (by simp [hq, rekeyDue, hearly])

/-- Settles O44: each timer by what has run out. -/
theorem pairTimersAct : Obligations.PairTimersAct :=
  ⟨fun _ _ _ _ hq hstate hat hover hdown => congrArg Host.Outcome.next (connectTimeout_tenant hq hstate hat hover hdown),
    fun _ _ _ _ hq hstate hat hover hn hup => congrArg Host.Outcome.next (connectTimeout_device hq hstate hat hover hn hup),
    fun _ _ _ hq hstate => congrArg Host.Outcome.next (connectTimeout_none hq hstate),
    fun _ _ _ _ _ _ hq ht hout hover hruns => congrArg Host.Outcome.next
      ((timerOut_over hq ht hout hover).trans (if_neg (by omega))),
    fun _ _ _ _ _ _ hq ht hout hover hruns => congrArg Host.Outcome.next
      ((timerOut_over hq ht hout hover).trans (if_pos (by omega))),
    fun _ _ _ _ _ _ hq hbusy hover => congrArg Host.Outcome.next (busyOver_resends hq hbusy hover),
    fun _ _ _ hq hdue hleft => congrArg Host.Outcome.next (peerRekey_due hq hdue hleft),
    fun _ _ _ hq hearly => congrArg Host.Outcome.next (peerRekey_early hq hearly)⟩

/-! ## Relaying and parking (R360, R383, R388) -/

theorem relayedIn_foreign {port : Nat} {k : Pkt} {s : State} (hup : portUp s port = true) (hnode : ownNode s ≠ 0xFFFF)
    (hforeign : k.dstNode.toNat ≠ ownNode s) : relayedIn port k s = relay port k s :=
  if_neg (by simp [hup, hnode, hforeign])

theorem relay_goes {port n : Nat} {k : Pkt} {s : State} (hhops : k.hops ≠ 0) (hroute : routePort s k.dstNode.toNat = some n) :
    relay port k s = bump64 0x7000 0x04 (enqueue n (k.sched.toNat % 128)
      { len := pktLen k, pkt := some { k with hops := k.hops - 1 }
        wire := pktHdrBytes { k with hops := k.hops - 1 } ++
          (if k.ptype.toNat = ptBusy then [] else Config.relayedBody (packetAad k) k.body)
        transit := if od s 0x7003 (port + 1) = 1 then some port else none } s) := by
  simp only [relay, hhops, if_false, hroute]

theorem relay_dropped {port : Nat} {k : Pkt} {s : State} (hhops : k.hops = 0) : relay port k s = bump64 0x7000 0x05 s := if_pos hhops

/-- Only handshakes look at the port that they come through. -/
theorem atPort_write {port : Nat} {k : Pkt} (h : k.ptype = 1) : atPort port k = k :=
  if_neg (by simp [h, ptConnect, ptConnectAck])

theorem peerWrite_parked {port : Nat} {k : Pkt} {s : State} (htype : k.ptype = 1) (hup : portUp s port = true)
    (hnode : ownNode s ≠ 0xFFFF) (hhere : k.dstNode.toNat = ownNode s) (hoff : s.peer.onDie.contains k.dstQp.toNat = false)
    (hmode : od s 0x7002 (port + 1) = 1) (hroom : (s.peer.parked.filter (fun x => x.1 == port)).length < 128) :
    kindIn ptWrite port k s = count (.port port) 0x0206 1 { part := some (k.sched.toNat / 4 % 32), cls := 3 }
      (bump64 0x7030 0x03 { s with peer := { s.peer with parked := s.peer.parked ++ [(port, k)] } }) := by
  have hkind : k.ptype.toNat = ptWrite := by simp [htype, ptWrite]
  rw [kindIn, if_pos hkind, packetIn]
  dsimp only
  rw [atPort_write htype, if_neg (by simp [hup, hnode]), if_neg (by simp [hhere]), if_neg (by simp only [hoff]; decide), park,
    if_pos (by simp only [hmode, hroom, decide_true, Bool.and_self])]

theorem forEach_eq_foldl {α : Type} (f : α → State → State) (l : List α) (s : State) :
    forEach f l s = l.foldl (fun t x => f x t) s := by
  induction l generalizing s with
  | nil => rfl
  | cons x xs ih => exact ih _

theorem contextFetch_lands {n : Nat} {s : State} (hparked : s.peer.parked.any (fun x => x.2.dstQp.toNat == n) = true)
    (hland : (bringOn n s).peer.onDie.contains n = true) :
    contextFetch n s = (s.peer.parked.filter (fun x => x.2.dstQp.toNat == n)).foldl (fun t x => packetHere x.2 t)
      (bringOn n { s with peer := { s.peer with parked := s.peer.parked.filter (fun x => x.2.dstQp.toNat != n) } }) := by
  have hsome : (s.peer.parked.filter (fun x => x.2.dstQp.toNat == n)).isEmpty = false := by
    obtain ⟨x, hx, hmine⟩ := List.any_eq_true.1 hparked
    exact List.isEmpty_eq_false_iff.2 (List.ne_nil_of_mem (List.mem_filter.2 ⟨hx, hmine⟩))
  unfold contextFetch
  dsimp only
  rw [if_neg (by simp only [hsome, hland]; decide)]
  exact forEach_eq_foldl _ _ _

theorem contextFetch_none {n : Nat} {s : State} (hparked : s.peer.parked.any (fun x => x.2.dstQp.toNat == n) = false) :
    contextFetch n s = s := by
  have hnone : (s.peer.parked.filter (fun x => x.2.dstQp.toNat == n)).isEmpty = true := by
    rw [List.isEmpty_iff, List.filter_eq_nil_iff]
    exact List.any_eq_false.1 hparked
  exact if_pos (by simp only [hnone, Bool.true_or])

/-- Settles O46: by the node that a packet is for, and whether its pair's context is on die. -/
theorem packetsAreRelayedAndParked : Obligations.PacketsAreRelayedAndParked :=
  ⟨fun _ _ _ _ hup hnode hforeign hhops hroute => congrArg Host.Outcome.next
      ((relayedIn_foreign hup hnode hforeign).trans (relay_goes hhops hroute)),
    fun _ _ _ hup hnode hforeign hhops => congrArg Host.Outcome.next ((relayedIn_foreign hup hnode hforeign).trans (relay_dropped hhops)),
    fun _ _ _ htype hup hnode hhere hoff hmode hroom => congrArg Host.Outcome.next
      (peerWrite_parked htype hup hnode hhere hoff hmode hroom),
    fun _ _ hparked hland => congrArg Host.Outcome.next (contextFetch_lands hparked hland),
    fun _ _ hparked => congrArg Host.Outcome.next (contextFetch_none hparked), fun _ _ h => bringOn_onDie h,
    fun _ _ h => bringOn_room h⟩

end Sys2Proof.Proofs
end

section
/-! PROOFS. Leases that are lent, recalled and returned (09_tiers_and_pool.md, Pasture). -/

namespace Sys2Proof.Proofs
open Sys2Proof Sys2Proof.Machine Sys2Proof.Laws

/-! ## Fields of a record (R7) -/

theorem length_natLe (n v : Nat) : (natLe n v).length = n := by
  induction n generalizing v with
  | zero => rfl
  | succ n ih => rw [natLe, List.length_cons, ih]

/-- The little-endian bytes of a number give it back, as far as they hold it. -/
theorem leNat_natLe (n v : Nat) : leNat (natLe n v) = v % 256 ^ n := by
  induction n generalizing v with
  | zero => simp [natLe, leNat, Nat.mod_one]
  | succ n ih =>
    have hbyte : (BitVec.ofNat 8 v).toNat = v % 256 := rfl
    rw [natLe, leNat, ih, hbyte, Nat.pow_succ', Nat.mod_mul]

theorem natLe_add (a b v : Nat) : natLe (a + b) v = natLe a v ++ natLe b (v / 256 ^ a) := by
  induction a generalizing v with
  | zero => simp [natLe]
  | succ a ih => rw [Nat.succ_add, natLe, natLe, ih, List.cons_append, Nat.div_div_eq_div_mul, Nat.pow_succ']

theorem length_recordOf (fs : List (Nat × Nat)) : (recordOf fs).length = (fs.map Prod.fst).sum := by
  induction fs with
  | nil => rfl
  | cons f fs ih =>
    rw [recordOf, List.flatMap_cons, List.length_append, length_natLe, List.map_cons, List.sum_cons, ← ih]
    rfl

/-- A field of a record, by the widths of those before it. -/
theorem fieldAt_recordOf {fs : List (Nat × Nat)} {off n v : Nat} (pre : List (Nat × Nat)) (post : List (Nat × Nat))
    (hfs : fs = pre ++ (n, v) :: post) (hoff : (pre.map Prod.fst).sum = off) : fieldAt (recordOf fs) off n = v % 256 ^ n := by
  subst hfs
  subst hoff
  have hsplit : recordOf (pre ++ (n, v) :: post) = recordOf pre ++ (natLe n v ++ recordOf post) := by
    simp [recordOf, List.flatMap_append, List.flatMap_cons]
  rw [hsplit, ← length_recordOf, fieldAt, List.drop_left, List.take_left' (length_natLe n v), leNat_natLe]

/-! ## Lease messages (R315) -/

/-- The fields of a lease message; the base, of 64 bits, has 16 bytes. -/
def leaseFields (kind : Nat) (m : LeaseMsg) : List (Nat × Nat) :=
  [(2, kind), (2, m.lease.toNat), (4, m.notice.toNat), (8, m.bytes.toNat), (16, m.lender.toNat), (16, m.borrower.toNat),
    (8, m.base.toNat), (8, m.base.toNat / 256 ^ 8)]

theorem leaseBytes_eq_recordOf (kind : Nat) (m : LeaseMsg) : leaseBytes kind m = recordOf (leaseFields kind m) := by
  simp only [leaseBytes, natLe_add 8 8, leaseFields, recordOf, List.flatMap_cons, List.flatMap_nil, List.append_assoc, List.append_nil]

theorem length_leaseBytes (kind : Nat) (m : LeaseMsg) : (leaseBytes kind m).length = 64 := by
  rw [leaseBytes_eq_recordOf, length_recordOf]
  rfl

theorem fieldAt_leaseBytes_kind (kind : Nat) (m : LeaseMsg) : fieldAt (leaseBytes kind m) 0 2 = kind % 65536 := by
  rw [leaseBytes_eq_recordOf]
  exact fieldAt_recordOf [] _ rfl rfl

/-- A number of `w` bits comes back whole from bytes that hold it. -/
theorem ofNat_toNat_mod {w n : Nat} (x : BitVec w) (h : 2 ^ w ≤ 256 ^ n) : BitVec.ofNat w (x.toNat % 256 ^ n) = x := by
  rw [Nat.mod_eq_of_lt (Nat.lt_of_lt_of_le x.isLt h), BitVec.ofNat_toNat, BitVec.setWidth_eq]

/-- A message is read as it was written. -/
theorem leaseOf_leaseBytes (kind : Nat) (m : LeaseMsg) : leaseOf (leaseBytes kind m) = m := by
  have hlease : fieldAt (leaseBytes kind m) 2 2 = m.lease.toNat % 256 ^ 2 := by
    rw [leaseBytes_eq_recordOf]
    exact fieldAt_recordOf [(2, kind)] _ rfl rfl
  have hnotice : fieldAt (leaseBytes kind m) 4 4 = m.notice.toNat % 256 ^ 4 := by
    rw [leaseBytes_eq_recordOf]
    exact fieldAt_recordOf [(2, kind), (2, _)] _ rfl rfl
  have hbytes : fieldAt (leaseBytes kind m) 8 8 = m.bytes.toNat % 256 ^ 8 := by
    rw [leaseBytes_eq_recordOf]
    exact fieldAt_recordOf [(2, kind), (2, _), (4, _)] _ rfl rfl
  have hlender : fieldAt (leaseBytes kind m) 16 16 = m.lender.toNat % 256 ^ 16 := by
    rw [leaseBytes_eq_recordOf]
    exact fieldAt_recordOf [(2, kind), (2, _), (4, _), (8, _)] _ rfl rfl
  have hborrower : fieldAt (leaseBytes kind m) 32 16 = m.borrower.toNat % 256 ^ 16 := by
    rw [leaseBytes_eq_recordOf]
    exact fieldAt_recordOf [(2, kind), (2, _), (4, _), (8, _), (16, _)] _ rfl rfl
  have hbase : fieldAt (leaseBytes kind m) 48 8 = m.base.toNat % 256 ^ 8 := by
    rw [leaseBytes_eq_recordOf]
    exact fieldAt_recordOf [(2, kind), (2, _), (4, _), (8, _), (16, _), (16, _)] _ rfl rfl
  unfold leaseOf
  rw [hlease, hnotice, hbytes, hlender, hborrower, hbase, ofNat_toNat_mod _ (by decide), ofNat_toNat_mod _ (by decide),
    ofNat_toNat_mod _ (by decide), ofNat_toNat_mod _ (by decide), ofNat_toNat_mod _ (by decide), ofNat_toNat_mod _ (by decide)]

/-! ## Arrival (R360, R376, R389) -/

theorem leaseIn_acts {kind port : Nat} {m : LeaseMsg} {q : Qp} {s : State} (hup : portUp s port = true) (hnode : ownNode s ≠ 0xFFFF)
    (hq : findQp s port = some q) (hlinked : linked q = true) :
    leaseIn kind port m s = tendLeases (settleAll (sendAck port (leaseAct kind port m (setQp { q with
      expPsn := (q.expPsn + 1) % 2 ^ 24, nakFor := none, sinceAck := (q.sinceAck + 1) % 64, count := q.count + 1 } s)))) := by
  have hgo : (!portUp s port || decide (ownNode s = 0xFFFF)) = false := by
    rw [hup, decide_eq_false hnode]
    rfl
  simp only [leaseIn, hgo, hq, Option.filter_some, hlinked, if_true, Bool.false_eq_true, if_false]

theorem leaseIn_none {kind port : Nat} {m : LeaseMsg} {s : State}
    (h : portUp s port = false ∨ ownNode s = 0xFFFF ∨ ∀ q, findQp s port = some q → linked q = false) :
    leaseIn kind port m s = s := by
  unfold leaseIn
  split
  · rfl
  · rename_i hgo
    have hpair : ∀ q, findQp s port = some q → linked q = false := by
      obtain hdown | hnode | hpair := h
      · exact absurd (by rw [hdown]; rfl) hgo
      · exact absurd (by rw [decide_eq_true hnode, Bool.or_true]) hgo
      · exact hpair
    have hnone : (findQp s port).filter linked = none := by
      cases hq : findQp s port with
      | none => rfl
      | some q => simp [Option.filter_some, hpair q hq]
    rw [hnone]

/-! ## What a message does (R316, R317) -/

theorem leaseAct_request (port : Nat) (m : LeaseMsg) (s : State) : leaseAct 1 port m s = leaseRequest port m s := by
  unfold leaseAct
  split
  · rfl
  all_goals simp_all

theorem leaseRequest_refused {port : Nat} {m : LeaseMsg} {s : State} (h : lendable s = 0) :
    leaseAct 1 port m s = sendLease port 3 { m with lender := s.sec.unitId } s := by
  rw [leaseAct_request]
  exact if_pos (by rw [h, Nat.min_zero])

/-- The lease of a grant, in the lender's hands. -/
def lentLease (port n : Nat) (m : LeaseMsg) (s : State) : Lease :=
  { id := s.pasture.lastLease % 65535 + 1, port := port, lent := true, bytes := n, notice := od s 0x5010 0x02
    lender := s.sec.unitId, borrower := m.borrower, base := (freeOf 64 s).toNat }

def leaseLent (port n : Nat) (m : LeaseMsg) (s : State) : State :=
  drawn { s with pasture :=
    { leases := s.pasture.leases ++ [lentLease port n m s], lastLease := s.pasture.lastLease % 65535 + 1 } }

theorem leaseLent_onlyIn (port n : Nat) (m : LeaseMsg) (s : State) :
    OnlyIn [.pasture, .peer, .tx, .fresh] s (leaseLent port n m s) := by
  refine ⟨rfl, rfl, fun p hp => ?_⟩
  cases p with
  | pasture => simp at hp
  | fresh => simp at hp
  | _ => rfl

theorem sendLease_onlyIn (port kind : Nat) (m : LeaseMsg) (s : State) :
    OnlyIn [.pasture, .peer, .tx, .fresh] s (sendLease port kind m s) := by
  refine ⟨rfl, rfl, fun p hp => ?_⟩
  cases p with
  | peer => simp at hp
  | tx => simp at hp
  | _ => rfl

theorem sendLease_pasture (port kind : Nat) (m : LeaseMsg) (s : State) : (sendLease port kind m s).pasture = s.pasture := rfl

theorem leaseLent_pasture (port n : Nat) (m : LeaseMsg) (s : State) : (leaseLent port n m s).pasture =
    { leases := s.pasture.leases ++ [lentLease port n m s], lastLease := s.pasture.lastLease % 65535 + 1 } := rfl

theorem leaseRequest_grants {port n : Nat} {m : LeaseMsg} {s : State} (hn : n = min (m.bytes.toNat / gib * gib) (lendable s))
    (hsome : n ≠ 0) : ∃ r, leaseAct 1 port m s = sendLease port 2 r (leaseLent port n m s) := by
  subst hn
  rw [leaseAct_request]
  exact ⟨_, if_neg hsome⟩

/-- A recall that meets neither an image nor a home in the lease leaves only the recall itself (R317). -/
theorem leaseRecall_empty {port : Nat} {m : LeaseMsg} {l : Lease} {s : State}
    (hl : s.pasture.leases.find? (fun x => !x.lent && x.id == leaseKey port m.lease.toNat) = some l)
    (himages : leaseImages s (leaseKey port m.lease.toNat) = []) (hhomes : leaseHomes s (leaseKey port m.lease.toNat) = []) :
    leaseRecall port m s = tendRecall (leaseKey port m.lease.toNat) { s with pasture := { s.pasture with
      leases := s.pasture.leases.map (fun x => if !x.lent && x.id == leaseKey port m.lease.toNat then
        { l with recalls := l.recalls ++ [{ bytes := m.bytes.toNat, due := Pos.mk (Pos.step s.wheel.cur + m.notice.toNat) 0 0,
                                            late := false }] } else x) } } := by
  have hid : l.id = leaseKey port m.lease.toNat := by
    have hfound := List.find?_some hl
    simpa using (Bool.and_eq_true_iff.1 hfound).2
  have hno : ∀ (x : Lease) (f : List Lease → List Lease), x.id = leaseKey port m.lease.toNat →
      recalledHomes (setLeases f s) x = [] := by
    intro x f hx
    have hgone : leaseHomes (setLeases f s) x.id = [] := hx ▸ hhomes
    simp only [recalledHomes, hgone, List.filter_nil, List.append_nil, takeUnits]
  have hold : ∀ f, recalledHomes (setLeases f s) l = [] := fun f => hno l f hid
  have hnew : ∀ rs f, recalledHomes (setLeases f s) { l with recalls := rs } = [] := fun rs f => hno { l with recalls := rs } f hid
  have hdrop : ∀ f, leaseImages (setLeases f s) (leaseKey port m.lease.toNat) = [] := fun _ => himages
  simp only [leaseRecall, hl, hdrop, forEach_nil, hold, hnew, List.filter_nil, List.map_nil, List.dedup_nil]
  rfl

theorem leaseRecall_unknown {port : Nat} {m : LeaseMsg} {s : State}
    (hnone : s.pasture.leases.find? (fun x => !x.lent && x.id == leaseKey port m.lease.toNat) = none) : leaseRecall port m s = s := by
  simp only [leaseRecall, hnone]

/-! ## Requests of the borrower (R316) -/

theorem borrow_enabled {port : Nat} {bytes : U64} {s : State} (h : od s 0x5010 0x04 ≠ 0) :
    borrow port bytes.toNat s = sendLease port 1
      { bytes := bytes, lender := (s.links.ports.getD port {}).neighbour, borrower := s.sec.unitId } s := by
  unfold borrow
  rw [if_neg h, BitVec.ofNat_toNat, BitVec.setWidth_eq]

/-- Settles O45: arrival once for all messages, then each by its kind. -/
theorem leasesAreLentAndReturned : Obligations.LeasesAreLentAndReturned := by
  refine ⟨fun c kind port m q s hc hup hnode hq hlinked => ?_, fun c port m s hc hnone => ?_,
    fun port kind m s => ⟨_, rfl, length_leaseBytes kind m, fieldAt_leaseBytes_kind kind m, leaseOf_leaseBytes kind m⟩,
    fun port m s h => leaseRequest_refused h, fun port m n s hn hsome => ?_, fun port m s => rfl, fun port m s => rfl,
    fun port m s => rfl, fun port m s => rfl, fun lease s => rfl,
    fun port m l s hl himages hhomes => ⟨_, rfl, leaseRecall_empty hl himages hhomes⟩,
    fun port m s hnone => leaseRecall_unknown hnone,
    fun port bytes s h => congrArg (fun t => Host.Outcome.next (tendLeases t)) (borrow_enabled h),
    fun port bytes s h => congrArg (fun t => Host.Outcome.next (tendLeases t)) (if_pos h)⟩
  · obtain ⟨rfl, rfl⟩ | ⟨rfl, rfl⟩ | ⟨rfl, rfl⟩ | ⟨rfl, rfl⟩ | ⟨rfl, rfl⟩ | ⟨rfl, rfl⟩ := hc <;>
      exact congrArg Host.Outcome.next (leaseIn_acts hup hnode hq hlinked)
  · obtain rfl | rfl | rfl | rfl | rfl | rfl := hc <;> exact congrArg Host.Outcome.next (leaseIn_none hnone)
  · obtain ⟨r, hr⟩ := leaseRequest_grants (port := port) hn hsome
    refine ⟨_, hr, onlyIn_trans (leaseLent_onlyIn ..) (sendLease_onlyIn ..), ?_, (freeOf 64 s).toNat, ?_⟩
    · rw [sendLease_pasture, leaseLent_pasture]
    · rw [sendLease_pasture, leaseLent_pasture, lentLease]

end Sys2Proof.Proofs
end

section
/-! PROOFS. Doorbells of queue pairs and the start of work requests (11_peer_transport.md, Queue pairs, Work requests). -/

namespace Sys2Proof.Proofs
open Sys2Proof Sys2Proof.Machine Sys2Proof.Laws

/-! ## Doorbells (R366) -/

theorem rang_serving {off v : Nat} {s : State} (h : cxlServes s = true) :
    rang off v s = { s with host := { s.host with doorbells := insertKey off v s.host.doorbells } } :=
  if_pos h

/-- The value that a doorbell reads back tells nothing else. -/
theorem cxlServes_rang (off v : Nat) (s : State) : cxlServes (rang off v s) = cxlServes s := by
  unfold rang
  split <;> rfl

theorem owned_rang (off v : Nat) (s : State) : owned (rang off v s) = owned s := by
  unfold rang
  split <;> rfl

theorem doorbellPair_rang (off v p value : Nat) (s : State) : doorbellPair (rang off v s) p value = doorbellPair s p value := by
  unfold rang
  split <;> rfl

theorem wheel_rang (off v : Nat) (s : State) : (rang off v s).wheel = s.wheel := by
  unfold rang
  split <;> rfl

/-- A send doorbell of an owned device, by the pair that it names. -/
theorem sendTail_pair {p value : Nat} {q : Qp} {s : State} (hcxl : cxlServes s = true) (howned : owned s = true)
    (hkind : bitsOf value 15 14 = 0) (hq : doorbellPair s p value = some q) (hstate : q.state ≠ .error) :
    sendTail p value s =
      if q.ring ≤ bitsOf value 11 0 || q.ring - q.waiting.length < modSub (bitsOf value 11 0) q.tail q.ring then
        qpError q.num .badDescriptor .aborted (bringOn q.num s)
      else tendQp q.num (setQp { q with
        tail := bitsOf value 11 0
        waiting := q.waiting ++ wrRing (bringOn q.num s) q q.tail (modSub (bitsOf value 11 0) q.tail q.ring) } (bringOn q.num s)) := by
  have hgo : (!cxlServes s || bitsOf value 15 14 != 0) = false := by simp [hcxl, hkind]
  have herr : (q.state == .error) = false := by simp [hstate]
  simp only [sendTail, hgo, howned, hq, herr, Bool.not_true, Bool.false_eq_true, if_false]

theorem peerHead_pair {p value : Nat} {q : Qp} {s : State} (hcxl : cxlServes s = true) (howned : owned s = true)
    (hkind : bitsOf value 15 14 = 1) (hq : doorbellPair s p value = some q) (hstate : q.state ≠ .error) :
    peerHead p value s = tendQp q.num (setQp { q with
      compHead := headAdvance q.compHead q.written q.ring (bitsOf value 11 0) } (bringOn q.num s)) := by
  have hgo : (!cxlServes s || bitsOf value 15 14 != 1) = false := by simp [hcxl, hkind]
  have herr : (q.state == .error) = false := by simp [hstate]
  simp only [peerHead, hgo, howned, hq, herr, Bool.not_true, Bool.false_eq_true, if_false]

/-- The two doorbells of a pair, each with the value that it takes. -/
def PairBell (c : Instr) (p : Nat) (v : U32) : Prop :=
  c = .peerSendTailDoorbell p v ∧ bitsOf v.toNat 15 14 = 0 ∨ c = .peerCompletionHeadDoorbell p v ∧ bitsOf v.toNat 15 14 = 1

theorem exec_pairBell_foreign {c : Instr} {p : Nat} {v : U32} {s : State} (hc : PairBell c p v) (hcxl : cxlServes s = true)
    (howned : owned s = true) (hq : doorbellPair s p v.toNat = none) :
    exec c s = .next (doorbellIgnored p (rang (peerBell p) v.toNat s)) := by
  have hcxl' := (cxlServes_rang (peerBell p) v.toNat s).trans hcxl
  have howned' := (owned_rang (peerBell p) v.toNat s).trans howned
  have hq' := (doorbellPair_rang (peerBell p) v.toNat p v.toNat s).trans hq
  obtain ⟨rfl, hkind⟩ | ⟨rfl, hkind⟩ := hc
  · have hgo : (!cxlServes (rang (peerBell p) v.toNat s) || bitsOf v.toNat 15 14 != 0) = false := by simp [hcxl', hkind]
    refine congrArg Host.Outcome.next (?_ : sendTail p v.toNat _ = _)
    simp only [sendTail, hgo, howned', hq', Bool.not_true, Bool.false_eq_true, if_false]
  · have hgo : (!cxlServes (rang (peerBell p) v.toNat s) || bitsOf v.toNat 15 14 != 1) = false := by simp [hcxl', hkind]
    refine congrArg Host.Outcome.next (?_ : peerHead p v.toNat _ = _)
    simp only [peerHead, hgo, howned', hq', Bool.not_true, Bool.false_eq_true, if_false]

theorem exec_pairBell_refused {c : Instr} {p : Nat} {v : U32} {s : State} (hc : PairBell c p v) (hcxl : cxlServes s = true)
    (howned : owned s = false) : exec c s = .next (refuseOnce p (Pos.step s.wheel.cur) (rang (peerBell p) v.toNat s)) := by
  have hcxl' := (cxlServes_rang (peerBell p) v.toNat s).trans hcxl
  have howned' := (owned_rang (peerBell p) v.toNat s).trans howned
  have hwheel := wheel_rang (peerBell p) v.toNat s
  obtain ⟨rfl, hkind⟩ | ⟨rfl, hkind⟩ := hc
  · have hgo : (!cxlServes (rang (peerBell p) v.toNat s) || bitsOf v.toNat 15 14 != 0) = false := by simp [hcxl', hkind]
    refine congrArg Host.Outcome.next (?_ : sendTail p v.toNat _ = _)
    simp only [sendTail, hgo, howned', hwheel, Bool.not_false, Bool.false_eq_true, if_false, if_true]
  · have hgo : (!cxlServes (rang (peerBell p) v.toNat s) || bitsOf v.toNat 15 14 != 1) = false := by simp [hcxl', hkind]
    refine congrArg Host.Outcome.next (?_ : peerHead p v.toNat _ = _)
    simp only [peerHead, hgo, howned', hwheel, Bool.not_false, Bool.false_eq_true, if_false, if_true]

/-- Without a CXL module no doorbell arrives (R79). -/
theorem exec_pairBell_unreached {c : Instr} {p : Nat} {v : U32} {s : State}
    (hc : c = .peerSendTailDoorbell p v ∨ c = .peerCompletionHeadDoorbell p v) (hcxl : cxlServes s = false) :
    exec c s = .next s := by
  have hrang : rang (peerBell p) v.toNat s = s := if_neg (by simp [hcxl])
  obtain rfl | rfl := hc
  · exact congrArg Host.Outcome.next ((congrArg (sendTail p v.toNat) hrang).trans (if_pos (by simp [hcxl])))
  · exact congrArg Host.Outcome.next ((congrArg (peerHead p v.toNat) hrang).trans (if_pos (by simp [hcxl])))

/-- Settles O40: a doorbell by the pair that it names. -/
theorem pairDoorbellsSubmitAndFree : Obligations.PairDoorbellsSubmitAndFree := by
  have hserves := fun p (v : U32) s => cxlServes_rang (peerBell p) v.toNat s
  have howns := fun p (v : U32) s => owned_rang (peerBell p) v.toNat s
  have hpair := fun p (v : U32) s => doorbellPair_rang (peerBell p) v.toNat p v.toNat s
  refine ⟨fun p v q s hcxl howned hkind hq hready htail hroom => ?_, fun p v q s hcxl howned hkind hq hstate hover => ?_,
    fun p v q s hcxl howned hkind hq hstate => congrArg Host.Outcome.next
      (peerHead_pair ((hserves p v s).trans hcxl) ((howns p v s).trans howned) hkind ((hpair p v s).trans hq) hstate),
    fun c p v s hc hcxl howned hq => exec_pairBell_foreign hc hcxl howned hq,
    fun c p v s hc hcxl howned => exec_pairBell_refused hc hcxl howned, fun c p v s hc hcxl => exec_pairBell_unreached hc hcxl⟩
  · refine congrArg Host.Outcome.next ((sendTail_pair ((hserves p v s).trans hcxl) ((howns p v s).trans howned) hkind
      ((hpair p v s).trans hq) (by simp [hready])).trans (if_neg ?_))
    simp only [Bool.or_eq_true, decide_eq_true_eq]
    omega
  · refine congrArg Host.Outcome.next ((sendTail_pair ((hserves p v s).trans hcxl) ((howns p v s).trans howned) hkind
      ((hpair p v s).trans hq) hstate).trans (if_pos ?_))
    simpa using hover

/-! ## Work requests (R367 to R370) -/

/-- The commands that start a work request, with its opcode. -/
def StartsWr (c : Instr) (op n : Nat) : Prop :=
  c = .wrWrite n ∧ op = 0x70 ∨ c = .wrWriteImm n ∧ op = 0x71 ∨ c = .wrRead n ∧ op = 0x72 ∨ c = .wrWaitCount n ∧ op = 0x60

theorem exec_startsWr {c : Instr} {op n : Nat} (h : StartsWr c op n) (s : State) : exec c s = .next (startWr op n s) := by
  obtain ⟨rfl, rfl⟩ | ⟨rfl, rfl⟩ | ⟨rfl, rfl⟩ | ⟨rfl, rfl⟩ := h <;> rfl

theorem startWr_starts {n : Nat} {q : Qp} {d : Desc} {ds : List Desc} {s : State} (hq : findQp s n = some q)
    (hwaiting : q.waiting = d :: ds) (hmay : wrMayStart q d = true) : startWr (wrOp d) n s = tendQp n (beginWr n s) := by
  simp only [startWr, hq, hwaiting, beq_self_eq_true, hmay, Bool.and_self, if_true]

theorem beginWr_front {n : Nat} {q : Qp} {d : Desc} {ds : List Desc} {s : State} (hq : findQp s n = some q)
    (hwaiting : q.waiting = d :: ds) (hmay : wrMayStart q d = true) :
    beginWr n s = setQp { q with
      waiting := ds
      started := q.started ++ [{ desc := d, psn := q.nextPsn, pkts := if wrCheck s q d == .ok then wrPkts d else 0
                                 done := wrCheck s q d != .ok, status := wrCheck s q d }]
      nextPsn := (q.nextPsn + if wrCheck s q d == .ok then wrPkts d else 0) % 2 ^ 24 } s := by
  simp only [beginWr, hq, hwaiting, hmay, Bool.not_true, Bool.false_eq_true, if_false]

theorem startWr_held {op n : Nat} {q : Qp} {d : Desc} {ds : List Desc} {s : State} (hq : findQp s n = some q)
    (hwaiting : q.waiting = d :: ds) (hmay : wrMayStart q d = false) : startWr op n s = s := by
  simp only [startWr, hq, hwaiting, hmay, Bool.and_false, Bool.false_eq_true, if_false]

/-- Settles O41: the front request starts whole or fails at its check. -/
theorem workRequestsStart : Obligations.WorkRequestsStart := by
  refine ⟨fun c op n q d ds s hc hq hwaiting hop hmay hok => ?_, fun c op n q d ds st s hc hq hwaiting hop hmay hst hbad => ?_,
    fun c n q d ds s hc hq hwaiting hmay => ?_⟩
  · have hgood : (wrCheck s q d == .ok) = true := by simp [hok]
    have hdone : (wrCheck s q d != .ok) = false := by simp [hok]
    rw [exec_startsWr hc, ← hop, startWr_starts hq hwaiting hmay, beginWr_front hq hwaiting hmay, hgood, hdone, hok, if_pos rfl]
  · have hfails : (wrCheck s q d == .ok) = false := by simp [hst, hbad]
    have hdone : (wrCheck s q d != .ok) = true := by simp [hst, hbad]
    rw [exec_startsWr hc, ← hop, startWr_starts hq hwaiting hmay, beginWr_front hq hwaiting hmay, hfails, hdone, hst,
      if_neg (by simp), Nat.add_zero]
  · have hstarts : ∃ op, StartsWr c op n := by
      obtain rfl | rfl | rfl | rfl := hc
      · exact ⟨_, .inl ⟨rfl, rfl⟩⟩
      · exact ⟨_, .inr (.inl ⟨rfl, rfl⟩)⟩
      · exact ⟨_, .inr (.inr (.inl ⟨rfl, rfl⟩))⟩
      · exact ⟨_, .inr (.inr (.inr ⟨rfl, rfl⟩))⟩
    obtain ⟨op, hop⟩ := hstarts
    rw [exec_startsWr hop, startWr_held hq hwaiting hmay]

end Sys2Proof.Proofs
end

section
/-! PROOFS. Packets that reach a pair of this node, and the answers to requests (11_peer_transport.md, Packets, Placement at the
responder, Encryption). -/

namespace Sys2Proof.Proofs
open Sys2Proof Sys2Proof.Machine Sys2Proof.Laws

/-! ## Arrival (R360, R375, R383) -/

theorem bringOn_here {n : Nat} {s : State} (h : s.peer.onDie.contains n = true) : bringOn n s =
    { s with peer := { s.peer with onDie := s.peer.onDie.filter (fun m => m != n) ++ [n] } } :=
  if_pos h

/-- What a packet of each kind does, once its context is on die and nothing is before it. -/
def kindActs (k : Pkt) (s : State) : State :=
  match k.ptype.toNat with
  | 0x01 => requestIn k s
  | 0x02 => requestIn k s
  | 0x03 => requestIn k s
  | 0x04 => respIn k s
  | 0x05 => ackIn k s
  | 0x06 => nakIn k s
  | 0x07 => connectIn k s
  | 0x08 => connectAckIn k s
  | 0x09 => disconnectIn k s
  | 0x0A => busyIn k s
  | _ => s

theorem packetIn_reaches {port : Nat} {k : Pkt} {q : Qp} {s : State} (h : Reaches port k q s) :
    packetIn port k s = kindActs k (bringOn k.dstQp.toNat s) := by
  obtain ⟨hup, hnode, hhere, hdie, hdirect, hfirst, hbehind, -⟩ := h
  have hfetch : contextFetch k.dstQp.toNat s = s := if_pos (by rw [hfirst]; rfl)
  have hfree : (inOrder k && (bringOn k.dstQp.toNat s).peer.heldPkts.any fun x => x.dstQp == k.dstQp) = false := by
    rw [bringOn_here hdie]
    cases hin : inOrder k with
    | false => rfl
    | true => exact hbehind hin
  unfold packetIn
  dsimp only
  rw [hdirect, if_neg (by simp [hup, hnode]), if_neg (by simp [hhere]), if_pos hdie, hfetch, packetHere]
  simp only [hfree, Bool.false_eq_true, if_false]
  rfl

theorem findQp_here {port : Nat} {k : Pkt} {q : Qp} {s : State} (h : Reaches port k q s) :
    findQp (bringOn k.dstQp.toNat s) k.dstQp.toNat = some q :=
  findQp_bringOn.trans h.pair

theorem findQp_num {n : Nat} {q : Qp} {s : State} (h : findQp s n = some q) : q.num = n := by
  simpa using List.find?_some h

/-- The commands by which a packet arrives, with its kind. -/
def PacketOf (c : Instr) (port : Nat) (k : Pkt) (t : Byte) : Prop :=
  c = .peerWrite port k ∧ t = 1 ∨ c = .peerWriteImm port k ∧ t = 2 ∨ c = .readReq port k ∧ t = 3 ∨ c = .readResp port k ∧ t = 4 ∨
    c = .ack port k ∧ t = 5 ∨ c = .nak port k ∧ t = 6 ∨ c = .connect port k ∧ t = 7 ∨ c = .connectAck port k ∧ t = 8 ∨
    c = .disconnect port k ∧ t = 9 ∨ c = .busy port k ∧ t = 10

theorem exec_packet {c : Instr} {port : Nat} {k : Pkt} {q : Qp} {s : State} (hc : PacketOf c port k k.ptype)
    (h : Reaches port k q s) : exec c s = .next (kindActs k (bringOn k.dstQp.toNat s)) := by
  have hin : ∀ t : Byte, k.ptype = t → kindIn t.toNat port k s = kindActs k (bringOn k.dstQp.toNat s) := fun t ht =>
    (if_pos (congrArg BitVec.toNat ht)).trans (packetIn_reaches h)
  obtain ⟨rfl, ht⟩ | ⟨rfl, ht⟩ | ⟨rfl, ht⟩ | ⟨rfl, ht⟩ | ⟨rfl, ht⟩ | ⟨rfl, ht⟩ | ⟨rfl, ht⟩ | ⟨rfl, ht⟩ | ⟨rfl, ht⟩ | ⟨rfl, ht⟩ := hc <;>
    exact congrArg Host.Outcome.next (hin _ ht)

/-! ## Authentic packets (R386, R387) -/

theorem authentic_accepted {port : Nat} {k : Pkt} {q : Qp} {s : State} (h : Accepts port k q s) (act : Qp → State → State) :
    authentic k act (bringOn k.dstQp.toNat s) = act (epochKept k q) (setQp (epochKept k q) (bringOn k.dstQp.toNat s)) := by
  have hgood : (!k.authentic || !epochFits q k) = false := by simp [h.tag, h.epoch]
  simp only [authentic, findQp_here h.toReaches, hgood, Bool.false_eq_true, if_false]
  rfl

theorem authentic_dropped {port : Nat} {k : Pkt} {q : Qp} {s : State} (h : Reaches port k q s) (htag : k.authentic = false)
    (act : Qp → State → State) : authentic k act (bringOn k.dstQp.toNat s) = bump64 0x7000 0x06 (bringOn k.dstQp.toNat s) := by
  have hbad : (!k.authentic || !epochFits q k) = true := by simp [htag]
  simp only [authentic, findQp_here h, hbad, if_true]

/-! ## Requests by the state of their pair (R363) -/

/-- The kinds of request: WRITE, WRITE_IMM and READ_REQ. -/
def IsRequest (k : Pkt) : Prop := k.ptype = 1 ∨ k.ptype = 2 ∨ k.ptype = 3

theorem kindActs_request {k : Pkt} (h : IsRequest k) (s : State) : kindActs k s = requestIn k s := by
  obtain h | h | h := h <;> simp [kindActs, h]

theorem linked_iff {q : Qp} : linked q = true ↔ q.state = .ready ∨ q.state = .draining := by
  simp [linked]

theorem requestIn_linked {port : Nat} {k : Pkt} {q : Qp} {s : State} (h : Reaches port k q s) (hlinked : linked q = true) :
    requestIn k (bringOn k.dstQp.toNat s) = authentic k (requestAt k) (bringOn k.dstQp.toNat s) := by
  obtain hstate | hstate := linked_iff.1 hlinked <;> simp only [requestIn, findQp_here h, Option.elim, hstate]

theorem requestIn_error {port : Nat} {k : Pkt} {q : Qp} {s : State} (h : Reaches port k q s) (hstate : q.state = .error) :
    requestIn k (bringOn k.dstQp.toNat s) = authentic k (fun _ => nakState k) (bringOn k.dstQp.toNat s) := by
  simp only [requestIn, findQp_here h, Option.elim, hstate]

theorem requestIn_unlinked {port : Nat} {k : Pkt} {q : Qp} {s : State} (h : Reaches port k q s) (hlinked : linked q = false)
    (hstate : q.state ≠ .error) : requestIn k (bringOn k.dstQp.toNat s) = nakState k (bringOn k.dstQp.toNat s) := by
  have hnone : ¬ (q.state = .ready ∨ q.state = .draining) := fun hl => by simp [linked_iff.2 hl] at hlinked
  unfold requestIn
  simp only [findQp_here h, Option.elim]
  split
  · exact absurd (Or.inl ‹_›) hnone
  · exact absurd (Or.inr ‹_›) hnone
  · exact absurd ‹_› hstate
  · rfl

/-- A request that a connection takes. -/
theorem exec_request {c : Instr} {port : Nat} {k : Pkt} {q : Qp} {b s : State} (hc : PacketOf c port k k.ptype) (hk : IsRequest k)
    (h : Accepts port k q s) (hlinked : linked q = true) (hb : b = setQp (epochKept k q) (bringOn k.dstQp.toNat s)) :
    exec c s = .next (requestAt k (epochKept k q) b) := by
  rw [exec_packet hc h.toReaches, kindActs_request hk, requestIn_linked h.toReaches hlinked, authentic_accepted h, hb]

/-! ## Requests by their number (R374 to R376) -/

theorem modSub_self {n m : Nat} (h : n < m) : modSub n n m = 0 := by
  rw [modSub, Nat.mod_eq_of_lt h, Nat.add_sub_cancel_left, Nat.mod_self]

theorem expected_psn {k : Pkt} {q : Qp} (h : k.psn.toNat = q.expPsn) : modSub q.expPsn k.psn.toNat (2 ^ 24) = 0 := by
  rw [← h]
  exact modSub_self k.psn.isLt

theorem requestAt_refused {k : Pkt} {q : Qp} {st : Status} {b : State} (hpsn : k.psn.toNat = q.expPsn)
    (hchk : reqCheck b (epochKept k q) k = st) (hbad : st ≠ .ok) :
    requestAt k (epochKept k q) b = emit q.num ptNak 3 q.expPsn false (nakBody q.expPsn 3 st.code) b := by
  have hd : modSub (epochKept k q).expPsn k.psn.toNat (2 ^ 24) = 0 := expected_psn hpsn
  have hrefused : (reqCheck b (epochKept k q) k != .ok) = true := by simp [hchk, hbad]
  unfold requestAt
  dsimp only
  rw [if_pos hd, if_pos hrefused, hchk]
  rfl

theorem requestAt_placed {k : Pkt} {q : Qp} {b : State} (hpsn : k.psn.toNat = q.expPsn)
    (hchk : reqCheck b (epochKept k q) k = .ok)
    (hgo : k.ptype.toNat = ptReadReq ∨ q.num < 64 ∨ spanWaits b q.part (bodyOff k) (reqLen k) = false) :
    requestAt k (epochKept k q) b = placeRequest k (epochKept k q) b := by
  have hd : modSub (epochKept k q).expPsn k.psn.toNat (2 ^ 24) = 0 := expected_psn hpsn
  have hok : (reqCheck b (epochKept k q) k != .ok) = false := by simp [hchk]
  have hfree : (!decide (k.ptype.toNat = ptReadReq) && decide (64 ≤ q.num) && spanWaits b q.part (bodyOff k) (reqLen k)) = false := by
    obtain hread | hdevice | hspan := hgo
    · simp [hread]
    · simp [hdevice]
    · simp [hspan]
  unfold requestAt
  dsimp only
  rw [if_pos hd, if_neg (by rw [hok]; simp)]
  exact if_neg (by rw [Bool.not_eq_true]; exact hfree)

theorem requestAt_held {k : Pkt} {q : Qp} {b : State} (hpsn : k.psn.toNat = q.expPsn) (hchk : reqCheck b (epochKept k q) k = .ok)
    (hwrite : k.ptype.toNat ≠ ptReadReq) (htenant : 64 ≤ q.num) (hspan : spanWaits b q.part (bodyOff k) (reqLen k) = true) :
    requestAt k (epochKept k q) b = holdPkt k b := by
  have hd : modSub (epochKept k q).expPsn k.psn.toNat (2 ^ 24) = 0 := expected_psn hpsn
  have hok : (reqCheck b (epochKept k q) k != .ok) = false := by simp [hchk]
  have hwait : (!decide (k.ptype.toNat = ptReadReq) && decide (64 ≤ q.num) && spanWaits b q.part (bodyOff k) (reqLen k)) = true := by
    simp [hwrite, htenant, hspan]
  unfold requestAt
  dsimp only
  rw [if_pos hd, if_neg (by rw [hok]; simp)]
  exact if_pos hwait

theorem requestAt_again {k : Pkt} {q : Qp} {b : State} (hwrite : k.ptype.toNat ≠ ptReadReq)
    (hback : 0 < modSub q.expPsn k.psn.toNat (2 ^ 24)) (hnear : modSub q.expPsn k.psn.toNat (2 ^ 24) ≤ 2 ^ 23) :
    requestAt k (epochKept k q) b = sendAck q.num (bump64 0x7030 0x05 b) := by
  have hd : modSub (epochKept k q).expPsn k.psn.toNat (2 ^ 24) ≠ 0 := Nat.pos_iff_ne_zero.1 hback
  have hle : modSub (epochKept k q).expPsn k.psn.toNat (2 ^ 24) ≤ 2 ^ 23 := hnear
  unfold requestAt
  dsimp only
  rw [if_neg hd, if_pos hle, if_pos (by simp [hwrite])]
  rfl

theorem requestAt_ahead {k : Pkt} {q : Qp} {b : State} (hfar : 2 ^ 23 < modSub q.expPsn k.psn.toNat (2 ^ 24)) :
    requestAt k (epochKept k q) b = if q.nakFor = some q.expPsn then b
      else emit q.num ptNak 3 q.expPsn false (nakBody q.expPsn 1 0) (setQp { epochKept k q with nakFor := some q.expPsn } b) := by
  have hfar' : 2 ^ 23 < modSub (epochKept k q).expPsn k.psn.toNat (2 ^ 24) := hfar
  unfold requestAt
  dsimp only
  rw [if_neg (by omega), if_neg (by omega)]
  by_cases hasked : q.nakFor = some q.expPsn
  · rw [if_pos hasked]
    exact if_pos (beq_iff_eq.2 hasked)
  · rw [if_neg hasked]
    exact if_neg (fun he => hasked (beq_iff_eq.1 he))

/-! ## Placement (R375, R376, R380, R389) -/

/-- A pair whose expected number a request has moved on, with `count` requests with an immediate. -/
def requestTaken (k : Pkt) (count : Nat) (q : Qp) : Qp :=
  { epochKept k q with
    expPsn := (q.expPsn + 1) % 2 ^ 24, nakFor := none, sinceAck := (q.sinceAck + 1) % 64, count := count }

theorem placeRequest_write {k : Pkt} {q : Qp} {b : State} (hk : k.ptype = 1) :
    placeRequest k (epochKept k q) b = settleAll (onlyIf (bitOf k.flags.toNat 1 || q.sinceAck + 1 == 64) (sendAck q.num)
      (placeBytes none q.part (bodyOff k) (k.body.drop 24) (setQp (requestTaken k q.count q) b))) := by
  have hread : ¬ k.ptype.toNat = ptReadReq := by simp [hk, ptReadReq]
  have himm : decide (k.ptype.toNat = ptWriteImm) = false := by simp [hk, ptWriteImm]
  have hlease : isLease (epochKept k q) k = false := by simp [isLease, hk, ptWriteImm]
  unfold placeRequest
  simp only [hread, himm, hlease, onlyIf, Bool.false_and, Bool.false_eq_true, if_false]
  rfl

theorem placeRequest_writeImm {k : Pkt} {q : Qp} {b : State} (hk : k.ptype = 2) (htenant : 64 ≤ q.num) :
    placeRequest k (epochKept k q) b = settleAll (onlyIf (bitOf k.flags.toNat 1 || q.sinceAck + 1 == 64) (sendAck q.num)
      (onlyIf (bitOf k.flags.toNat 1) (event .ok (some q.part) 0 0 (q.num * 2 ^ 48 + fieldAt k.body 20 4))
        (placeBytes none q.part (bodyOff k) (k.body.drop 24)
          (setQp (requestTaken k (if bitOf k.flags.toNat 1 = true then q.count + 1 else q.count) q) b)))) := by
  have hread : ¬ k.ptype.toNat = ptReadReq := by simp [hk, ptReadReq]
  have himm : decide (k.ptype.toNat = ptWriteImm) = true := by simp [hk, ptWriteImm]
  have hlease : isLease (epochKept k q) k = false := by
    have hnum : decide ((epochKept k q).num < 32) = false := decide_eq_false (show ¬ q.num < 32 by omega)
    simp only [isLease, hnum, Bool.false_and]
  unfold placeRequest
  simp only [hread, himm, hlease, Bool.true_and, Bool.false_eq_true, if_false]
  rfl

theorem final_of_lease {k : Pkt} {q : Qp} (h : isLease q k = true) : bitOf k.flags.toNat 1 = true := by
  simp only [isLease, Bool.and_eq_true, beq_iff_eq] at h
  obtain ⟨⟨-, hflags⟩, -⟩ := h
  have hbit := Nat.testBit_mod_two_pow k.flags.toNat 2 1
  rw [show k.flags.toNat % 2 ^ 2 = 3 from hflags] at hbit
  exact hbit.symm.trans (by decide)

theorem placeRequest_lease {k : Pkt} {q : Qp} {b : State} (hk : k.ptype = 2) (hlease : isLease q k = true) :
    placeRequest k (epochKept k q) b = settleAll (sendAck q.num (leaseAct (fieldAt (k.body.drop 24) 0 1) q.num
      (leaseOf (k.body.drop 24)) (setQp (requestTaken k (q.count + 1) q) b))) := by
  have hread : ¬ k.ptype.toNat = ptReadReq := by simp [hk, ptReadReq]
  have himm : decide (k.ptype.toNat = ptWriteImm) = true := by simp [hk, ptWriteImm]
  have hlease' : isLease (epochKept k q) k = true := hlease
  unfold placeRequest
  simp only [hread, himm, hlease', final_of_lease hlease, onlyIf, Bool.true_and, Bool.true_or, if_false, if_true]
  rfl

theorem placeRequest_read {k : Pkt} {q : Qp} {b : State} (hk : k.ptype = 3) :
    placeRequest k (epochKept k q) b = sendResponses q.num k.psn.toNat q.part (bodyOff k) (fieldAt k.body 16 4)
      (setQp { epochKept k q with expPsn := (q.expPsn + 1) % 2 ^ 24, nakFor := none } b) :=
  if_pos (by simp [hk, ptReadReq])

/-- A span that lies in one object goes there. -/
theorem placeBytes_one {p off : Nat} {bs : Bytes} {o : Obj} {s : State} (hspan : spanObjs s p off bs.length = [o])
    (hlow : o.off ≤ off) (hhigh : off + bs.length ≤ o.off + o.size) : placeBytes none p off bs s = objWrite o.id (off - o.off) bs s := by
  have hmax : max off o.off = off := by omega
  have hlen : spanIn o off bs.length = bs.length := by
    unfold spanIn
    omega
  rw [placeBytes, hspan, forEach_cons, forEach_nil, hmax, hlen, Nat.sub_self, List.drop_zero, List.take_length]
  rfl

/-- A control pair takes lease messages (R389). -/
theorem reqCheck_lease {k : Pkt} {q : Qp} {b : State} (h : isLease q k = true) : reqCheck b (epochKept k q) k = .ok := by
  have hcontrol : q.num < 64 := by
    simp only [isLease, Bool.and_eq_true, decide_eq_true_eq] at h
    omega
  have hlease : isLease (epochKept k q) k = true := h
  unfold reqCheck
  rw [if_pos (show (epochKept k q).num < 64 from hcontrol), if_pos hlease]

/-- The three kinds of request, and the two that carry bytes. -/
def RequestOf (c : Instr) (port : Nat) (k : Pkt) : Prop :=
  c = .peerWrite port k ∧ k.ptype = 1 ∨ c = .peerWriteImm port k ∧ k.ptype = 2 ∨ c = .readReq port k ∧ k.ptype = 3

theorem packetOf_request {c : Instr} {port : Nat} {k : Pkt} (h : RequestOf c port k) :
    PacketOf c port k k.ptype ∧ IsRequest k := by
  obtain ⟨rfl, hk⟩ | ⟨rfl, hk⟩ | ⟨rfl, hk⟩ := h
  · exact ⟨.inl ⟨rfl, hk⟩, .inl hk⟩
  · exact ⟨.inr (.inl ⟨rfl, hk⟩), .inr (.inl hk)⟩
  · exact ⟨.inr (.inr (.inl ⟨rfl, hk⟩)), .inr (.inr hk)⟩

theorem requestOf_write {c : Instr} {port : Nat} {k : Pkt}
    (h : c = .peerWrite port k ∧ k.ptype = 1 ∨ c = .peerWriteImm port k ∧ k.ptype = 2) :
    RequestOf c port k ∧ k.ptype.toNat ≠ ptReadReq := by
  obtain ⟨rfl, hk⟩ | ⟨rfl, hk⟩ := h
  · exact ⟨.inl ⟨rfl, hk⟩, by simp [hk, ptReadReq]⟩
  · exact ⟨.inr (.inl ⟨rfl, hk⟩), by simp [hk, ptReadReq]⟩

theorem exec_requestOf {c : Instr} {port : Nat} {k : Pkt} {q : Qp} {b s : State} (hc : RequestOf c port k)
    (h : Accepts port k q s) (hlinked : linked q = true) (hb : b = setQp (epochKept k q) (bringOn k.dstQp.toNat s)) :
    exec c s = .next (requestAt k (epochKept k q) b) :=
  exec_request (packetOf_request hc).1 (packetOf_request hc).2 h hlinked hb

/-- Settles O42: a request by its pair's state, its number and its check. -/
theorem requestPacketsAreAnswered : Obligations.RequestPacketsAreAnswered := by
  refine ⟨fun port k q b u s hk h hlinked hpsn hb hchk hspan hu => ?_,
    fun port k q b u s hk h hlinked htenant hpsn hb hchk hspan hu => ?_,
    fun port k q b s hk h hlinked hlease hpsn hb => ?_, fun port k q b s hk h hlinked hpsn hb hchk => ?_,
    fun c port k q b st s hc h hlinked hpsn hb hchk hbad => ?_, fun c port k q b s hc h hlinked htenant hpsn hb hchk hspan => ?_,
    fun c port k q b s hc h hlinked hback hnear hb => ?_, fun c port k q b s hc h hlinked hfar hb => ?_,
    fun c port k q s hc h hstate htag => ?_, fun c port k q s hc h hlinked hstate => ?_,
    fun p off bs o s hspan hlow hhigh => placeBytes_one hspan hlow hhigh⟩
  · rw [exec_requestOf (.inl ⟨rfl, hk⟩) h hlinked hb, requestAt_placed hpsn hchk (.inr (.inr hspan)), placeRequest_write hk]
    have hu' : u = placeBytes none q.part (bodyOff k) (k.body.drop 24) (setQp (requestTaken k q.count q) b) := hu
    simp only [onlyIf, Bool.or_eq_true, beq_iff_eq, ← hu']
  · rw [exec_requestOf (.inr (.inl ⟨rfl, hk⟩)) h hlinked hb, requestAt_placed hpsn hchk (.inr (.inr hspan)),
      placeRequest_writeImm hk htenant]
    have hu' : u = placeBytes none q.part (bodyOff k) (k.body.drop 24)
      (setQp (requestTaken k (if bitOf k.flags.toNat 1 = true then q.count + 1 else q.count) q) b) := hu
    rw [← hu']
    by_cases hfinal : bitOf k.flags.toNat 1 = true
    · simp only [onlyIf, hfinal, Bool.true_or, if_true]
    · simp only [onlyIf, hfinal, Bool.false_or, beq_iff_eq, Bool.false_eq_true, if_false]
  · rw [exec_requestOf (.inr (.inl ⟨rfl, hk⟩)) h hlinked hb, requestAt_placed hpsn (reqCheck_lease hlease) (.inr (.inl ?_)),
      placeRequest_lease hk hlease]
    · rfl
    · simp only [isLease, Bool.and_eq_true, decide_eq_true_eq] at hlease
      omega
  · rw [exec_requestOf (.inr (.inr ⟨rfl, hk⟩)) h hlinked hb, requestAt_placed hpsn hchk (.inl (by simp [hk, ptReadReq])),
      placeRequest_read hk]
  · rw [exec_requestOf hc h hlinked hb, requestAt_refused hpsn hchk hbad]
  · obtain ⟨hrequest, hwrite⟩ := requestOf_write hc
    rw [exec_requestOf hrequest h hlinked hb, requestAt_held hpsn hchk hwrite htenant hspan]
  · obtain ⟨hrequest, hwrite⟩ := requestOf_write hc
    rw [exec_requestOf hrequest h hlinked hb, requestAt_again hwrite hback hnear]
  · rw [exec_requestOf hc h hlinked hb, requestAt_ahead hfar]
  · obtain ⟨hpacket, hrequest⟩ := packetOf_request hc
    rw [exec_packet hpacket h, kindActs_request hrequest]
    obtain hlinked | herror := hstate
    · rw [requestIn_linked h hlinked, authentic_dropped h htag]
    · rw [requestIn_error h herror, authentic_dropped h htag]
  · obtain ⟨hpacket, hrequest⟩ := packetOf_request hc
    rw [exec_packet hpacket h, kindActs_request hrequest, requestIn_unlinked h hlinked hstate]

end Sys2Proof.Proofs
end

section
/-! PROOFS. Answers at the requester and the handshake (11_peer_transport.md, Windows and retransmission, Queue pairs). -/

namespace Sys2Proof.Proofs
open Sys2Proof Sys2Proof.Machine Sys2Proof.Laws

/-! ## What a context on die tells of a pair -/

/-- Bringing on die a context that is there changes nothing that a handshake looks at. -/
theorem bringOn_tells {n : Nat} {s : State} (h : s.peer.onDie.contains n = true) (k : Pkt) :
    connectTag (bringOn n s) k = connectTag s k ∧ connectFits (bringOn n s) k = connectFits s k ∧
    ownNode (bringOn n s) = ownNode s ∧ (bringOn n s).now = s.now := by
  rw [bringOn_here h]
  exact ⟨rfl, rfl, rfl, rfl⟩

/-! ## Answers (R370, R379, R383) -/

theorem exec_readResp {port : Nat} {k : Pkt} {q : Qp} {s : State} (hk : k.ptype = 4) (h : Reaches port k q s) :
    exec (.readResp port k) s = .next (respIn k (bringOn k.dstQp.toNat s)) := by
  rw [exec_packet (.inr (.inr (.inr (.inl ⟨rfl, hk⟩)))) h, kindActs, hk]
  rfl

theorem exec_ack {port : Nat} {k : Pkt} {q : Qp} {s : State} (hk : k.ptype = 5) (h : Reaches port k q s) :
    exec (.ack port k) s = .next (ackIn k (bringOn k.dstQp.toNat s)) := by
  rw [exec_packet (.inr (.inr (.inr (.inr (.inl ⟨rfl, hk⟩))))) h, kindActs, hk]
  rfl

theorem exec_nak {port : Nat} {k : Pkt} {q : Qp} {s : State} (hk : k.ptype = 6) (h : Reaches port k q s) :
    exec (.nak port k) s = .next (nakIn k (bringOn k.dstQp.toNat s)) := by
  rw [exec_packet (.inr (.inr (.inr (.inr (.inr (.inl ⟨rfl, hk⟩)))))) h, kindActs, hk]
  rfl

theorem exec_connect {port : Nat} {k : Pkt} {q : Qp} {s : State} (hk : k.ptype = 7) (h : Reaches port k q s) :
    exec (.connect port k) s = .next (connectIn k (bringOn k.dstQp.toNat s)) := by
  rw [exec_packet (.inr (.inr (.inr (.inr (.inr (.inr (.inl ⟨rfl, hk⟩))))))) h, kindActs, hk]
  rfl

theorem exec_connectAck {port : Nat} {k : Pkt} {q : Qp} {s : State} (hk : k.ptype = 8) (h : Reaches port k q s) :
    exec (.connectAck port k) s = .next (connectAckIn k (bringOn k.dstQp.toNat s)) := by
  rw [exec_packet (.inr (.inr (.inr (.inr (.inr (.inr (.inr (.inl ⟨rfl, hk⟩)))))))) h, kindActs, hk]
  rfl

theorem exec_disconnect {port : Nat} {k : Pkt} {q : Qp} {s : State} (hk : k.ptype = 9) (h : Reaches port k q s) :
    exec (.disconnect port k) s = .next (disconnectIn k (bringOn k.dstQp.toNat s)) := by
  rw [exec_packet (.inr (.inr (.inr (.inr (.inr (.inr (.inr (.inr (.inl ⟨rfl, hk⟩))))))))) h, kindActs, hk]
  rfl

theorem exec_busy {port : Nat} {k : Pkt} {q : Qp} {s : State} (hk : k.ptype = 10) (h : Reaches port k q s) :
    exec (.busy port k) s = .next (busyIn k (bringOn k.dstQp.toNat s)) := by
  rw [exec_packet (.inr (.inr (.inr (.inr (.inr (.inr (.inr (.inr (.inr ⟨rfl, hk⟩))))))))) h, kindActs, hk]
  rfl

theorem ackIn_linked {port : Nat} {k : Pkt} {q : Qp} {s : State} (h : Accepts port k q s) (hlinked : linked q = true) :
    ackIn k (bringOn k.dstQp.toNat s) = tendQp q.num (setQp { ackTo (fieldAt k.body 0 3) (epochKept k q) with
        runs := 0
        timer := if (ackTo (fieldAt k.body 0 3) q).unacked = [] then none
          else if psnBefore q.acked (fieldAt k.body 0 3) then some s.now else q.timer
        acked := if psnBefore q.acked (fieldAt k.body 0 3) then fieldAt k.body 0 3 else q.acked }
      (setQp (epochKept k q) (bringOn k.dstQp.toNat s))) := by
  have hlinked' : linked (epochKept k q) = true := hlinked
  have hnow : (setQp (epochKept k q) (bringOn k.dstQp.toNat s)).now = s.now := (bringOn_tells h.onDie k).2.2.2
  rw [ackIn, authentic_accepted h]
  simp only [hlinked', hnow, Bool.not_true, Bool.false_eq_true, if_false, List.isEmpty_iff]
  rfl

theorem nakIn_resends {port : Nat} {k : Pkt} {q : Qp} {s : State} (h : Accepts port k q s) (hlinked : linked q = true)
    (hreason : fieldAt k.body 3 1 = 1) :
    nakIn k (bringOn k.dstQp.toNat s) =
      resendFrom q.num (fieldAt k.body 0 3) (setQp (epochKept k q) (bringOn k.dstQp.toNat s)) := by
  have hlinked' : linked (epochKept k q) = true := hlinked
  rw [nakIn, authentic_accepted h]
  simp only [hlinked', hreason, Bool.not_true, Bool.false_eq_true, if_false, if_true]
  rfl

/-- The READ that a response belongs to. -/
def readOf (k : Pkt) (q : Qp) : Option Wr :=
  q.started.find? (fun x => !x.done && wrOp x.desc == 0x72 && x.out == 1 && x.psn == k.psn.toNat)

/-- The bytes that a response brings to a READ. -/
def respBytes (k : Pkt) (w : Wr) : Bytes := (k.body.drop 8).take (wrLen w.desc - 4096 * fieldAt k.body 0 4)

theorem respIn_placed {port : Nat} {k : Pkt} {q : Qp} {w : Wr} {all : Bool} {s : State} (h : Accepts port k q s)
    (hw : readOf k q = some w) (hnew : w.got.contains (fieldAt k.body 0 4) = false) (hin : fieldAt k.body 0 4 < readPkts w.desc)
    (hall : (w.got.length + 1 == readPkts w.desc) = all)
    (hspan : spanWaits (setQp (epochKept k q) (bringOn k.dstQp.toNat s)) q.part (wrLocal w.desc + 4096 * fieldAt k.body 0 4)
      (respBytes k w).length = false) :
    respIn k (bringOn k.dstQp.toNat s) = tendQp q.num (placeBytes none q.part (wrLocal w.desc + 4096 * fieldAt k.body 0 4)
      (respBytes k w) (setQp { epochKept k q with
          started := q.started.map (fun x => if x == w then
            { w with got := w.got ++ [fieldAt k.body 0 4], done := all, moved := if all then wrLen w.desc else 0 } else x)
          unacked := if all then q.unacked.filter (fun x => !(x.ptype.toNat == ptReadReq && x.psn == k.psn)) else q.unacked
          timer := if (if all then q.unacked.filter (fun x => !(x.ptype.toNat == ptReadReq && x.psn == k.psn))
            else q.unacked).isEmpty then none else q.timer }
        (setQp (epochKept k q) (bringOn k.dstQp.toNat s)))) := by
  have hw' : (epochKept k q).started.find? (fun x => !x.done && wrOp x.desc == 0x72 && x.out == 1 && x.psn == k.psn.toNat) = some w := hw
  have hgo : (w.got.contains (fieldAt k.body 0 4) || decide (readPkts w.desc ≤ fieldAt k.body 0 4)) = false := by
    rw [hnew, decide_eq_false (by omega)]
    rfl
  have hall' : ((w.got ++ [fieldAt k.body 0 4]).length == readPkts w.desc) = all := by simpa using hall
  have hspan' : spanWaits (setQp (epochKept k q) (bringOn k.dstQp.toNat s)) (epochKept k q).part
      (wrLocal w.desc + 4096 * fieldAt k.body 0 4) ((k.body.drop 8).take (wrLen w.desc - 4096 * fieldAt k.body 0 4)).length = false := hspan
  rw [respIn, authentic_accepted h]
  simp only [hw', hgo, hspan', hall', Bool.false_eq_true, if_false]
  rfl

/-! ## The handshake (R365, R448) -/

/-- A CONNECT that is taken: it is answered, and the pair is ready. -/
theorem connectIn_taken {port : Nat} {k : Pkt} {q x : Qp} {b s : State} (h : Reaches port k q s) (hfits : connectFits s k = true)
    (hremote : fromRemote q k = true)
    (hstate : q.state = .configured ∨ (q.state = .connecting ∧ k.srcNode.toNat ≤ ownNode s))
    (hb : b = sendConnect q.num ptConnectAck (setQp { q with remoteQp := k.srcQp.toNat } (bringOn k.dstQp.toNat s)))
    (hx : findQp b q.num = some x) :
    connectIn k (bringOn k.dstQp.toNat s) = tendQp q.num (onlyIf (q.state == .connecting) (qpResult q.num 2 .ok)
      (drawn (setQp (withSecret k b (qpReady x)) (dropHeld q.num b)))) := by
  obtain ⟨htag, hfit, hown, -⟩ := bringOn_tells h.onDie k
  have htrue : connectTag s k = true := (Bool.and_eq_true_iff.1 hfits).1
  have hmine : (q.state == .connecting && decide (ownNode s < k.srcNode.toNat)) = false := by
    obtain hconf | ⟨-, hlow⟩ := hstate
    · simp [hconf]
    · simp [hlow]
  have hfree : (q.state != .configured && q.state != .connecting) = false := by
    obtain hconf | ⟨hconn, -⟩ := hstate
    · simp [hconf]
    · simp [hconn]
  subst hb
  simp only [connectIn, findQp_here h, htag, hfit, hown, htrue, hfits, hremote, hmine, hfree, hx, Bool.not_true, Bool.or_self,
    Bool.false_eq_true, if_false]

/-- Of two handshakes at once, that of the lower node completes. -/
theorem connectIn_yields {port : Nat} {k : Pkt} {q : Qp} {s : State} (h : Reaches port k q s) (hfits : connectFits s k = true)
    (hstate : q.state = .connecting) (hlow : ownNode s < k.srcNode.toNat) :
    connectIn k (bringOn k.dstQp.toNat s) = bringOn k.dstQp.toNat s := by
  obtain ⟨htag, hfit, hown, -⟩ := bringOn_tells h.onDie k
  have htrue : connectTag s k = true := (Bool.and_eq_true_iff.1 hfits).1
  have hmine : (q.state == .connecting && decide (ownNode s < k.srcNode.toNat)) = true := by simp [hstate, hlow]
  simp only [connectIn, findQp_here h, htag, hfit, hown, htrue, hfits, hmine, Bool.not_true, Bool.or_true, Bool.true_or,
    Bool.false_eq_true, if_false, if_true]

theorem connectAckIn_taken {port : Nat} {k : Pkt} {q : Qp} {s : State} (h : Reaches port k q s) (hfits : connectFits s k = true)
    (hremote : fromRemote q k = true) (hstate : q.state = .connecting) :
    connectAckIn k (bringOn k.dstQp.toNat s) = tendQp q.num (qpResult q.num 2 .ok
      (drawn (setQp (withSecret k (bringOn k.dstQp.toNat s) (qpReady q)) (dropHeld q.num (bringOn k.dstQp.toNat s))))) := by
  obtain ⟨htag, hfit, -, -⟩ := bringOn_tells h.onDie k
  have htrue : connectTag s k = true := (Bool.and_eq_true_iff.1 hfits).1
  have hgo : (q.state != .connecting) = false := by simp [hstate]
  simp only [connectAckIn, findQp_here h, htag, hfit, htrue, hfits, hremote, hgo, Bool.not_true, Bool.or_self, Bool.false_eq_true,
    if_false]

theorem connectAckIn_foreign {port : Nat} {k : Pkt} {q : Qp} {s : State} (h : Reaches port k q s) (hfits : connectFits s k = true)
    (hremote : fromRemote q k = false) (hstate : q.state = .connecting) :
    connectAckIn k (bringOn k.dstQp.toNat s) = qpResult q.num 2 .peerUnreachable
      (setQp { q with state := .configured, connectAt := none } (bringOn k.dstQp.toNat s)) := by
  obtain ⟨htag, hfit, -, -⟩ := bringOn_tells h.onDie k
  have htrue : connectTag s k = true := (Bool.and_eq_true_iff.1 hfits).1
  have hgo : (q.state != .connecting) = false := by simp [hstate]
  have hpair : findQp (bringOn k.dstQp.toNat s) q.num = some q := (findQp_num h.pair).symm ▸ findQp_here h
  simp only [connectAckIn, findQp_here h, htag, hfit, htrue, hfits, hremote, hgo, Bool.not_true, Bool.not_false, Bool.or_self,
    Bool.false_eq_true, if_false, if_true]
  exact connectFails_pair hpair

/-- The two packets of a handshake. -/
def HandshakeOf (c : Instr) (port : Nat) (k : Pkt) : Prop :=
  c = .connect port k ∧ k.ptype = 7 ∨ c = .connectAck port k ∧ k.ptype = 8

theorem exec_handshake_untagged {c : Instr} {port : Nat} {k : Pkt} {q : Qp} {s : State} (hc : HandshakeOf c port k)
    (h : Reaches port k q s) (htag : connectTag s k = false) : exec c s = .next (bump64 0x7000 0x06 (bringOn k.dstQp.toNat s)) := by
  have htells := (bringOn_tells h.onDie k).1
  obtain ⟨rfl, hk⟩ | ⟨rfl, hk⟩ := hc
  · rw [exec_connect hk h]
    simp only [connectIn, findQp_here h, htells, htag, Bool.not_false, if_true]
  · rw [exec_connectAck hk h]
    simp only [connectAckIn, findQp_here h, htells, htag, Bool.not_false, if_true]

theorem exec_handshake_unfit {c : Instr} {port : Nat} {k : Pkt} {q : Qp} {s : State} (hc : HandshakeOf c port k)
    (h : Reaches port k q s) (htag : connectTag s k = true) (hfits : connectFits s k = false) :
    exec c s = .next (bringOn k.dstQp.toNat s) := by
  obtain ⟨htells, hfit, -, -⟩ := bringOn_tells h.onDie k
  obtain ⟨rfl, hk⟩ | ⟨rfl, hk⟩ := hc
  · rw [exec_connect hk h]
    simp only [connectIn, findQp_here h, htells, hfit, htag, hfits, Bool.not_true, Bool.not_false, Bool.true_or, Bool.false_eq_true,
      if_false, if_true]
  · rw [exec_connectAck hk h]
    simp only [connectAckIn, findQp_here h, htells, hfit, htag, hfits, Bool.not_true, Bool.not_false, Bool.true_or,
      Bool.false_eq_true, if_false, if_true]

theorem disconnectIn_ready {port : Nat} {k : Pkt} {q : Qp} {s : State} (h : Accepts port k q s) (hstate : q.state = .ready) :
    disconnectIn k (bringOn k.dstQp.toNat s) = tendQp q.num (setQp { epochKept k q with state := .draining, ending := false }
      (setQp (epochKept k q) (bringOn k.dstQp.toNat s))) := by
  rw [disconnectIn, authentic_accepted h]
  exact if_pos (beq_iff_eq.2 hstate)

theorem busyIn_waits {port : Nat} {k : Pkt} {q : Qp} {s : State} (h : Reaches port k q s) (hout : q.unacked ≠ []) :
    busyIn k (bringOn k.dstQp.toNat s) = setQp { q with busy := q.busy ++ [(s.now, k.psn.toNat)] } (bringOn k.dstQp.toNat s) := by
  have hnow := (bringOn_tells h.onDie k).2.2.2
  have hsome : q.unacked.isEmpty = false := List.isEmpty_eq_false_iff.2 hout
  simp only [busyIn, findQp_here h, hsome, hnow, Bool.false_eq_true, if_false]

/-- Settles O43: an answer by its kind, and a handshake by what it finds. -/
theorem answerPacketsAct : Obligations.AnswerPacketsAct := by
  refine ⟨fun c port k q s hc h htag => ?_, fun port k q psn s hk h hlinked hpsn => ?_, fun port k q s hk h hlinked hreason => ?_,
    fun port k q w i s hk h hw hi hnew hin hmore hout hspan => ?_, fun port k q w i kept s hk h hw hi hnew hin hlast hkept hspan => ?_,
    fun port k q s hk h hout => ?_, fun port k q s b x hk h hfits hremote hstate hb hx => ?_,
    fun port k q s b x hk h hfits hremote hstate hlow hb hx => ?_, fun port k q s hk h hfits hstate hlow => ?_,
    fun port k q s b hk h hfits hremote hstate hb => ?_, fun port k q s hk h hfits hremote hstate => ?_, fun k s q => rfl,
    fun c port k q s hc h htag => exec_handshake_untagged hc h htag,
    fun c port k q s hc h htag hfits => exec_handshake_unfit hc h htag hfits, fun port k q s hk h hstate => ?_⟩
  · obtain ⟨rfl, hk⟩ | ⟨rfl, hk⟩ | ⟨rfl, hk⟩ | ⟨rfl, hk⟩ := hc
    · rw [exec_readResp hk h, respIn, authentic_dropped h htag]
    · rw [exec_ack hk h, ackIn, authentic_dropped h htag]
    · rw [exec_nak hk h, nakIn, authentic_dropped h htag]
    · rw [exec_disconnect hk h, disconnectIn, authentic_dropped h htag]
  · rw [exec_ack hk h.toReaches, ackIn_linked h hlinked, hpsn]
  · rw [exec_nak hk h.toReaches, nakIn_resends h hlinked hreason]
  · subst hi
    have hsome : q.unacked.isEmpty = false := List.isEmpty_eq_false_iff.2 hout
    rw [exec_readResp hk h.toReaches, respIn_placed (all := false) h hw hnew hin (by simpa using hmore) hspan]
    simp only [Bool.false_eq_true, if_false, hsome]
    rfl
  · subst hi
    subst hkept
    rw [exec_readResp hk h.toReaches, respIn_placed (all := true) h hw hnew hin (by simpa using hlast) hspan]
    simp only [if_true, List.isEmpty_iff]
    rfl
  · rw [exec_busy hk h, busyIn_waits h hout]
  · have hidle : (q.state == .connecting) = false := by simp [hstate]
    rw [exec_connect hk h, connectIn_taken h hfits hremote (.inl hstate) hb hx, hidle]
    rfl
  · have hasked : (q.state == .connecting) = true := by simp [hstate]
    rw [exec_connect hk h, connectIn_taken h hfits hremote (.inr ⟨hstate, hlow⟩) hb hx, hasked, onlyIf, if_pos rfl]
  · rw [exec_connect hk h, connectIn_yields h hfits hstate hlow]
  · rw [exec_connectAck hk h, connectAckIn_taken h hfits hremote hstate, hb]
  · rw [exec_connectAck hk h, connectAckIn_foreign h hfits hremote hstate]
  · rw [exec_disconnect hk h.toReaches, disconnectIn_ready h hstate]

end Sys2Proof.Proofs
end

section
/-! PROOFS. Messages of the host in the order of their numbers (02_host_attach.md, Tile Push Protocol). -/

namespace Sys2Proof.Proofs
open Sys2Proof Sys2Proof.Machine Sys2Proof.Laws

/-! ## Credit -/

theorem useCredit_rx (c n : Nat) (s : State) : (useCredit c n s).host.rx0 = s.host.rx0 ∧
    (useCredit c n s).host.rx1 = s.host.rx1 ∧ (useCredit c n s).host.held0 = s.host.held0 ∧
    (useCredit c n s).host.held1 = s.host.held1 := by
  unfold useCredit
  split <;> exact ⟨rfl, rfl, rfl, rfl⟩

/-- Units are used and return within the class of the message (R67). -/
theorem credit_grants (n : Nat) (s : State) :
    (useCredit 0 n s).host.grant0 = s.host.grant0 - n ∧ (useCredit 1 n s).host.grant1 = s.host.grant1 - n ∧
    (giveCredit 0 n s).host.grant0 = min 64 (s.host.grant0 + n) ∧
    (giveCredit 1 n s).host.grant1 = min 8192 (s.host.grant1 + n) :=
  ⟨rfl, rfl, rfl, rfl⟩

/-! ## Receiving in order -/

/-- A message of class 0 in its turn, with none held, is acknowledged and handed on. -/
theorem arrive0_inTurn {m : TppMsg} {s : State} (h : tppServes s = true) (hh : s.host.held0 = [])
    (hm : m.msgSeq = s.host.rx0) : arrive0 m s = runCores (handOn m (giveCredit 0 (creditUnits m.payload.length)
      { useCredit 0 (creditUnits m.payload.length) s with host := { (useCredit 0 (creditUnits m.payload.length) s).host with
        rx0 := (useCredit 0 (creditUnits m.payload.length) s).host.rx0 + 1, held0 := [] } })) := by
  obtain ⟨hrx, -, hheld, -⟩ := useCredit_rx 0 (creditUnits m.payload.length) s
  have hnear : ¬ 32768 ≤ (m.msgSeq - s.host.rx0).toNat := by simp [hm]
  have hnext : (m.msgSeq == s.host.rx0) = true := by simpa using hm
  simp only [arrive0, h, hrx, hheld, hh, Bool.not_true, Bool.false_eq_true, if_false, if_neg hnear, List.filter_nil,
    List.nil_append, List.length_singleton, pump0, List.find?_cons, hnext, List.filter_cons, bne_self_eq_false]

/-- A message of class 0 ahead of its turn is held. -/
theorem arrive0_ahead {m : TppMsg} {s : State} (h : tppServes s = true) (hh : s.host.held0 = [])
    (hm : m.msgSeq ≠ s.host.rx0) (hnear : (m.msgSeq - s.host.rx0).toNat < 32768) :
    arrive0 m s = runCores { useCredit 0 (creditUnits m.payload.length) s with
      host := { (useCredit 0 (creditUnits m.payload.length) s).host with held0 := [m] } } := by
  obtain ⟨hrx, -, hheld, -⟩ := useCredit_rx 0 (creditUnits m.payload.length) s
  have hne : (m.msgSeq == s.host.rx0) = false := by simpa using hm
  simp only [arrive0, h, hrx, hheld, hh, Bool.not_true, Bool.false_eq_true, if_false, if_neg (Nat.not_le.2 hnear),
    List.filter_nil, List.nil_append, List.length_singleton, pump0, List.find?_cons, List.find?_nil, hne]

/-- A message of class 0 that has come before is acknowledged again. -/
theorem arrive0_again {m : TppMsg} {s : State} (h : tppServes s = true)
    (hfar : 32768 ≤ (m.msgSeq - s.host.rx0).toNat) : arrive0 m s =
      giveCredit 0 (creditUnits m.payload.length) (useCredit 0 (creditUnits m.payload.length) s) := by
  obtain ⟨hrx, -⟩ := useCredit_rx 0 (creditUnits m.payload.length) s
  simp only [arrive0, h, hrx, Bool.not_true, Bool.false_eq_true, if_false, if_pos hfar]

/-- A message of class 1 in its turn, with none held, is acknowledged and handed on, and what waited for it goes on (R70). -/
theorem arrive1_inTurn {m : TppMsg} {s t : State} (h : tppServes s = true) (hh : s.host.held1 = [])
    (hm : m.msgSeq = s.host.rx1) (ht : t = handOn m (giveCredit 1 (creditUnits m.payload.length)
      { useCredit 1 (creditUnits m.payload.length) s with host := { (useCredit 1 (creditUnits m.payload.length) s).host with
        rx1 := (useCredit 1 (creditUnits m.payload.length) s).host.rx1 + 1, held1 := [] } })) :
    arrive1 m s = runCores (unblock t.wheel.blocked.length t) := by
  obtain ⟨-, hrx, -, hheld⟩ := useCredit_rx 1 (creditUnits m.payload.length) s
  have hnear : ¬ 32768 ≤ (m.msgSeq - s.host.rx1).toNat := by simp [hm]
  have hnext : (m.msgSeq == s.host.rx1) = true := by simpa using hm
  subst ht
  simp only [arrive1, h, hrx, hheld, hh, Bool.not_true, Bool.false_eq_true, if_false, if_neg hnear, List.filter_nil,
    List.nil_append, List.length_singleton, pump1, List.find?_cons, hnext, List.filter_cons, bne_self_eq_false]

/-- A message of class 1 that has come before is acknowledged again. -/
theorem arrive1_again {m : TppMsg} {s : State} (h : tppServes s = true)
    (hfar : 32768 ≤ (m.msgSeq - s.host.rx1).toNat) : arrive1 m s =
      giveCredit 1 (creditUnits m.payload.length) (useCredit 1 (creditUnits m.payload.length) s) := by
  obtain ⟨-, hrx, -⟩ := useCredit_rx 1 (creditUnits m.payload.length) s
  simp only [arrive1, h, hrx, Bool.not_true, Bool.false_eq_true, if_false, if_pos hfar]

/-- Sheets, submissions and windows arrive in class 1. -/
theorem exec_class1 {c : Instr} {m : TppMsg} (hc : c = .sheet m ∨ c = .submit m ∨ c = .window m) (s : State) :
    exec c s = .next (arrive1 m s) := by
  obtain rfl | rfl | rfl := hc <;> rfl

/-- With no streaming module in service none arrives (R78). -/
theorem exec_unserved {c : Instr} {m : TppMsg} {s : State}
    (hc : c = .beat m ∨ c = .sheet m ∨ c = .submit m ∨ c = .window m ∨ c = .credit m ∨ c = .sync m)
    (h : tppServes s = false) : exec c s = .next s := by
  have hclass1 : arrive1 m s = s := by simp only [arrive1, h, Bool.not_false, if_true]
  obtain rfl | rfl | rfl | rfl | rfl | rfl := hc
  · refine congrArg Host.Outcome.next (?_ : arrive0 m s = s)
    simp only [arrive0, h, Bool.not_false, if_true]
  · exact congrArg Host.Outcome.next hclass1
  · exact congrArg Host.Outcome.next hclass1
  · exact congrArg Host.Outcome.next hclass1
  · refine congrArg Host.Outcome.next (?_ : creditIn m s = s)
    simp only [creditIn, h, Bool.not_false, if_true]
  · refine congrArg Host.Outcome.next (?_ : syncIn m s = s)
    simp only [syncIn, h, Bool.not_false, if_true]

/-! ## Consumers -/

theorem headerFine_typ {m : TppMsg} {t : Nat} (h : headerFine m t = true) : m.typ.toNat = t := by
  simp only [headerFine, Bool.and_eq_true, beq_iff_eq] at h
  exact h.1.1.1.1.1

/-- A well-formed beat in its turn is refused outside OWNED and else judged or held (R80, R14). -/
theorem handOn_beat {m : TppMsg} {s : State} (h : headerFine m 0x01 = true) (hp : m.partition = 0xFF) (hl : m.length = 0)
    (ha : argsZeroBut m [(16, 2)] = true) : handOn m s = if owned s then beatIn m.wpos (BitVec.ofNat 16 (argField m 16 2)) s
      else refuseOnce 32 (Pos.step m.wpos) s := by
  simp only [handOn, headerFine_typ h, h, hp, hl, ha]
  cases owned s <;> rfl

/-- A sheet that one message carries whole is judged (R99). -/
theorem sheetIn_whole {m : TppMsg} {s : State} (h : headerFine m 0x02 = true) (hp : m.partition.toNat < 32) (hw : m.wpos = 0)
    (ha : argsZeroBut m [(16, 8)] = true) (hf : bitOf m.flags.toNat 0 = true) (ho : argField m 20 4 = 0)
    (ht : argField m 16 4 = m.payload.length) (hn : m.payload.length ≤ 2 ^ 20) :
    sheetIn m s = judgeSheet m.partition.toNat m.payload { s with sheets := { s.sheets with
      arriving := s.sheets.arriving.filter (fun a => a.partition != m.partition.toNat) } } := by
  simp only [sheetIn, h, hp, hw, ha, hf, ho, ht, hn, decide_true, beq_self_eq_true, Bool.true_and, Nat.zero_add, le_refl,
    if_true, List.length_nil, Bool.true_or, Bool.not_true, Bool.false_eq_true, if_false, List.nil_append, lt_self_iff_false]

/-- A submission in its turn whose buffer is free reaches it (R105). -/
theorem submitIn_fine {m : TppMsg} {ps : PlanSlot} {s : State} (h : headerFine m 0x03 = true) (hp : m.partition.toNat < 32)
    (ha : argsZeroBut m [(16, 8)] = true) (hs : subPlan m s = some ps) (hb : argField m 16 4 < 2 * ps.plan.layers)
    (hn : argField m 20 4 + m.payload.length ≤ (ps.plan.parts.getD m.partition.toNat default).subBytes)
    (ho : owned s = true) (hfree : bufferBusy ps.half m s = false) : submitIn m s = putSub ps.half m s := by
  simp only [submitIn, h, hp, ha, hs, hb, hn, ho, hfree, decide_true, Bool.and_self, Bool.not_true, Bool.false_eq_true, if_false]

/-- A window none of whose messages is out is registered (R66). -/
theorem windowIn_fine {m : TppMsg} {s : State} (h : headerFine m 0x04 = true) (hl : m.length = 0) (hw : m.wpos = 0)
    (ha : argsZeroBut m [(16, 3), (20, 4)] = true) (hid : argField m 16 2 < 256)
    (hc : argField m 18 1 = 2 ∨ argField m 18 1 = 3) (hb : argField m 20 4 % 64 = 0) (ho : owned s = true)
    (hfree : windowBusy (argField m 16 2) s = false) :
    windowIn m s = setWindow { id := argField m 16 2, cls := argField m 18 1, bytes := argField m 20 4 } s := by
  have hc' : (argField m 18 1 == 2 || argField m 18 1 == 3) = true := by simpa using hc
  simp only [windowIn, h, hl, hw, ha, hid, hc', hb, ho, hfree, decide_true, beq_self_eq_true, Bool.and_self, Bool.not_true,
    Bool.false_eq_true, if_false]

/-- A window that is registered is the one found. -/
theorem findWindow_setWindow (w : Window) (s : State) : findWindow w.id (setWindow w s) = some w := by
  have hnone : (s.host.windows.filter (fun x => x.id != w.id)).find? (fun x => x.id == w.id) = none :=
    List.find?_eq_none.2 fun x hx => by
      have := (List.mem_filter.1 hx).2
      simpa using this
  simp only [findWindow, setWindow, List.find?_append, hnone, Option.none_or, List.find?_cons, beq_self_eq_true]

/-- Settles O35: in its turn a message is acknowledged and handed on to the consumer of its type. -/
theorem messagesActInTheirOrder : Obligations.MessagesActInTheirOrder := by
  unfold Obligations.MessagesActInTheirOrder
  refine ⟨?_, ?_, ?_, ?_, ?_, fun c m s hc h => exec_unserved hc h, credit_grants, ?_, ?_, ?_, ?_, ?_, ?_, ?_, ?_, ?_,
    findWindow_setWindow⟩
  · intro m s u h hu hh hm
    subst hu
    exact congrArg Host.Outcome.next (arrive0_inTurn h hh hm)
  · intro m s u h hu hh hm hnear
    subst hu
    exact congrArg Host.Outcome.next (arrive0_ahead h hh hm hnear)
  · intro m s u h hu hfar
    subst hu
    exact congrArg Host.Outcome.next (arrive0_again h hfar)
  · intro c m s u hc h hu hh hm
    subst hu
    exact ⟨_, rfl, (exec_class1 hc s).trans (congrArg Host.Outcome.next (arrive1_inTurn h hh hm rfl))⟩
  · intro c m s u hc h hu hfar
    subst hu
    exact (exec_class1 hc s).trans (congrArg Host.Outcome.next (arrive1_again h hfar))
  · intro m s h hp hl ha ho hheld
    rw [handOn_beat h hp hl ha, if_pos ho, beatIn, hheld]
    rfl
  · intro m s h hp hl ha ho
    rw [handOn_beat h hp hl ha, ho]
    rfl
  · intro m s h hp hw ha hf ho ht hn
    simp only [handOn, headerFine_typ h]
    exact sheetIn_whole h hp hw ha hf ho ht hn
  · intro part bs s ho hform hfine
    simp only [judgeSheet, ho, hform, hfine, Bool.not_true, Bool.false_eq_true, if_false]
  · intro part bs r i s ho hform hfault
    simp only [judgeSheet, ho, hform, hfault, Bool.not_true, Bool.false_eq_true, if_false]
  · intro m ps s h hp ha hs hb hn ho hfree
    simp only [handOn, headerFine_typ h]
    exact submitIn_fine h hp ha hs hb hn ho hfree
  · intro m s h hl hw ha hid hc hb ho hfree
    simp only [handOn, headerFine_typ h]
    exact windowIn_fine h hl hw ha hid hc hb ho hfree
  · intro m s htyp ho
    simp only [handOn, htyp, submitIn, ho, Bool.not_false, if_true]
  · intro m s htyp ho
    simp only [handOn, htyp, windowIn, ho, Bool.not_false, if_true]

end Sys2Proof.Proofs
end

section
/-! PROOFS. CREDIT, SYNC, and modules that leave and return (02_host_attach.md, Credits and acknowledgement). -/

namespace Sys2Proof.Proofs
open Sys2Proof Sys2Proof.Machine Sys2Proof.Laws

/-! ## CREDIT and SYNC -/

/-- With no job whose outputs are leaving there is nothing to settle. -/
theorem outputsLeft_idle {s : State} (h : s.jobs.leaving = []) : outputsLeft s = s := by
  rw [outputsLeft, h, forEach_nil]

/-- What goes on once vectors have been sent reaches the host, the queues, the peers and what is sent. -/
theorem goOn_onlyIn {s t : State} (h : s.jobs.leaving = []) (ht : Kept 1048580 s t) :
    OnlyIn [.host, .queues, .peer, .tx] s (settleAll (outputsLeft (pumpTx (applyWindows t)))) := by
  have hsent : Kept 1048580 s (pumpTx (applyWindows t)) := pumpTx_kept (by decide) (applyWindows_kept (by decide) ht)
  rw [outputsLeft_idle ((congrArg Jobs.leaving (hsent.jobsSame rfl)).trans h)]
  exact onlyIn_of_kept (W := 1056780) (settleAll_kept (by decide) (hsent.mono (by decide))) (by decide)

/-- A CREDIT reaches no more than that, where no job's outputs are leaving. -/
theorem creditIn_onlyIn {m : TppMsg} {s : State} (h : s.jobs.leaving = []) :
    OnlyIn [.host, .queues, .peer, .tx] s (creditIn m s) := by
  unfold creditIn
  extract_lets fine f acked gone host s1
  split
  · exact onlyIn_of_kept (Kept.refl 0 s) (by decide)
  split
  · exact onlyIn_of_kept (discard_kept (Sub.refl _) (Kept.refl _ s)) (by decide)
  refine goOn_onlyIn h (forEach_kept (fun x t ht => ?_) (Kept.upd 4 (by decide) (Kept.refl _ s) rfl))
  cases x.vector with
  | none => exact ht
  | some v => exact sendVector_kept (Sub.refl _) ht

/-- What a well-formed SYNC does where no beat waits for class 1 messages (R72). -/
theorem syncIn_fine {m : TppMsg} {s : State} (h : tppServes s = true) (hm : headerFine m 0x0A = true) (hl : m.length = 0)
    (ha : m.args = 0) (hb : s.wheel.blocked = []) : syncIn m s =
      settleAll (event .aborted none 0 0 s.host.unacked.length (applyWindows (outputsLeft { s with
        host := { s.host with rx0 := 0, rx1 := 0, held0 := [], held1 := [], tx2 := 0, tx3 := 0, cred2 := 1024, cred3 := 2048,
                              unacked := [], grant0 := 64, grant1 := 8192 }
        sheets := { s.sheets with arriving := [] } }))) := by
  have hwheel : { s.wheel with blocked := ([] : List Blocked) } = s.wheel := by rw [← hb]
  simp only [syncIn, h, hm, hl, ha, hb, hwheel, beq_self_eq_true, Bool.and_self, Bool.not_true, Bool.false_eq_true, if_false,
    List.map_nil, List.length_nil, unblock]

/-! ## Modules (R77) -/

/-- Sending a vector leaves the modules' state as it is. -/
theorem sendVector_modules (v : Nat) (s : State) : (sendVector v s).host.modules = s.host.modules := by
  unfold sendVector flushVectors
  split
  · refine forEach_keeps (fun t => t.host.modules) (fun v t => ?_) _ _
    unfold fireVector
    split <;> rfl
  · rfl

theorem resendLost_modules (s : State) : (resendLost s).host.modules = s.host.modules := by
  unfold resendLost
  split <;> rfl

/-- What the loss of a module in service does (R77). -/
theorem moduleDown_inService {n : Nat} (b : Bool) {s u : State} (h : s.host.modules.getLsbD n = true)
    (hu : u = { s with host := { s.host with
      modules := s.host.modules &&& ~~~(1#48 <<< n), retraining := s.host.retraining &&& ~~~(1#48 <<< n) } }) :
    moduleDown n b s = resendLost (sendVector 259 (fault .ucieModule (unitModule n)
      ((if b then 1 else 0) + (if n < cxlSize s then (cxlModules u).length else (streamModules u).length) * 256) none
      (bump32 0x1200 0x04 u))) := by
  subst hu
  simp only [moduleDown, h, Bool.not_true, Bool.false_eq_true, if_false]

/-- The loss of a module takes its own bit alone. -/
theorem moduleDown_modules (n : Nat) (b : Bool) (s : State) {i : Nat} (hi : i < 48) (hne : i ≠ n) :
    (moduleDown n b s).host.modules.getLsbD i = s.host.modules.getLsbD i := by
  cases h : s.host.modules.getLsbD n with
  | false => rw [moduleDown, h]; rfl
  | true =>
    have hfault : ∀ d u, (fault .ucieModule (unitModule n) d none (bump32 0x1200 0x04 u)).host = u.host := fun d u =>
      (fault_kept (W := 1703936) (Sub.refl _) (bump32_kept (by decide) (Kept.refl _ u))).hostSame rfl
    rw [moduleDown_inService b h rfl, resendLost_modules, sendVector_modules, hfault]
    simp only [BitVec.getLsbD_and, BitVec.getLsbD_not, BitVec.getLsbD_shiftLeft, BitVec.getLsbD_one, hi, decide_true, Bool.true_and]
    have : i - n ≠ 0 ∨ i < n := by omega
    rcases this with hsub | hlt
    · simp [hsub]
    · simp [hlt]

/-- What a retrained module's return does (R39, R41). -/
theorem moduleUp_outOfService {n : Nat} (b : Bool) {s : State} (h : s.host.modules.getLsbD n = false) (hn : n < 48)
    (hf : s.power.failedModules.contains n = false) (ht : s.power.test = none) :
    moduleUp n b s = runCores (settleAll (outputsLeft (pumpTx (resendLost (sendVector 259 { s with
      host := { s.host with
        modules := s.host.modules ||| (1#48 <<< n)
        retraining := s.host.retraining &&& ~~~(1#48 <<< n)
        degraded := if b then s.host.degraded ||| (1#48 <<< n) else s.host.degraded &&& ~~~(1#48 <<< n) } }))))) := by
  have hout : moduleServes s n = false := by simp [moduleServes, h]
  have hn' : decide (48 ≤ n) = false := decide_eq_false (by omega)
  simp only [moduleUp, h, hout, hf, ht, Option.any_none, Bool.or_false, hn', Bool.false_eq_true, if_false]

/-- A module that serves, or that has failed, does not return. -/
theorem moduleUp_serves {n : Nat} (b : Bool) {s : State}
    (h : moduleServes s n = true ∨ s.power.failedModules.contains n = true) : moduleUp n b s = s := by
  unfold moduleUp
  refine if_pos ?_
  obtain h | h := h
  · rw [h, Bool.or_true, Bool.true_or]
  · rw [h, Bool.true_or, Bool.or_true]

/-- Settles O37: each message and each module's change has the state that its rules give. -/
theorem creditsSyncsAndModules : Obligations.CreditsSyncsAndModules := by
  unfold Obligations.CreditsSyncsAndModules
  refine ⟨?_, ?_, ?_, ?_, ?_, ?_, ?_, ?_⟩
  · intro m s h hm hl
    have hserves : ¬ (!tppServes s) = true := by simp only [h, Bool.not_true, Bool.false_eq_true, not_false_eq_true]
    have hfine : ¬ (!(headerFine m 0x09 && m.length == 0)) = true := by
      simp only [hm, hl, beq_self_eq_true, Bool.and_self, Bool.not_true, Bool.false_eq_true, not_false_eq_true]
    refine ⟨_, rfl, congrArg Host.Outcome.next (?_ : creditIn m s = _)⟩
    unfold creditIn
    exact (if_neg hserves).trans (if_neg hfine)
  · intro m s h hm hl ha hb
    exact congrArg Host.Outcome.next (syncIn_fine h hm hl ha hb)
  · intro m s t h hx
    obtain rfl := Host.Outcome.next.inj hx
    exact creditIn_onlyIn h
  · intro n b s h
    exact ⟨_, rfl, congrArg Host.Outcome.next (moduleDown_inService b h rfl)⟩
  · intro n b s t hx
    obtain rfl := Host.Outcome.next.inj hx
    exact ⟨onlyIn_of_kept (moduleDown_kept (Sub.refl _) (Kept.refl _ s)) (by decide),
      fun i hi hne => moduleDown_modules n b s hi hne⟩
  · intro n b s h hn hf ht
    exact congrArg Host.Outcome.next (moduleUp_outOfService b h hn hf ht)
  · intro n b s h
    exact congrArg Host.Outcome.next (moduleUp_serves b h)
  · intro n i s hsb hbest
    refine congrArg Host.Outcome.next (?_ : sidebandFails n s = _)
    simp only [sidebandFails, hbest, if_neg hsb, Option.getD_some]

end Sys2Proof.Proofs
end

section
/-! PROOFS. Jobs from their tiles to their end (05_attention.md, Jobs and head groups; 06_cores_and_operand_path.md). -/

namespace Sys2Proof.Proofs
open Sys2Proof Sys2Proof.Machine Sys2Proof.Laws

/-! ## Tiles -/

/-- A tile that a job waits for lands (R221, R229). -/
theorem landJobTile_awaited {id item p : Nat} {j : Job} {s : State} (h : findJob s id = some j)
    (hf : j.fetching.contains (item, p) = true) (hp : p ≠ weightTile) :
    landJobTile id item p .clean s = runCores (setJob (tileIn j (item, p)) (landPage j (j.items.getD item default) p s)) ∧
    landJobTile id item p .failed s = jobPageFailed j p (some (j, (item, p))) s := by
  have hclean : (ReadCheck.clean == .failed) = false := rfl
  simp only [landJobTile, h, hf, if_true, if_neg hp, hclean, Bool.false_eq_true, if_false, retried, beq_self_eq_true, and_self]

/-- A page whose home fails its check twice is poisoned, and the job that waits for it ends (R229). -/
theorem pageFailed_home (c : Col) (l : Loc) (off : Nat) (w : Option (Job × (Nat × Nat))) (s : State) :
    pageFailed c l false off w s = tileLost w (poisonCol c.slot (poisonFault
      (if l.tier = .meadow then 0 else if l.tier = .heath then 1 else 2) l off c.part (tagMismatch l true s))) := by
  simp only [pageFailed, Bool.false_eq_true, if_false]
  cases l.tier <;> rfl

/-- A page of a column, or of a coil, has failed (R229). -/
theorem jobPageFailed_col {j : Job} {p : Nat} {w : Option (Job × (Nat × Nat))} {c : Col} {l : Loc} {image : Bool} {s : State}
    (h : tilePlace s j p = some (c, l, image)) :
    jobPageFailed j p w s = pageFailed c l image (pageStart s c.model j.layer) w s := by
  simp only [jobPageFailed, h]

theorem jobPageFailed_coil {j : Job} {p : Nat} {w : Option (Job × (Nat × Nat))} {s : State} (h : tilePlace s j p = none) :
    jobPageFailed j p w s = coilFailed j.seq j.layer p w s := by
  simp only [jobPageFailed, h]

/-! ## Items -/

/-- A running item of a job that misses none of its tiles. -/
structure Runs (id item : Nat) (j : Job) (it : Item) (s : State) : Prop where
  found : findJob s id = some j
  there : j.items[item]? = some it
  running : it.state = .running
  landed : j.missing.any (fun m => m.1 == item) = false

/-- What an item of a job that has ended, or reads poison, does at its end: no cycle counts. -/
theorem itemComplete_ended {id item : Nat} {j : Job} {it : Item} {s : State} (h : Runs id item j it s)
    (hend : (j.status.isError = true ∧ isSherdStatus j.status = false) ∨ jobPoisoned s j = true) :
    itemComplete id item s = runCores (loadFirst j it (halfUsed true j it (setJob { j with
      lastCore := it.core
      items := j.items.set item { it with state := .done, cycles := 0 } }
      (dropItemSlices j it item (useSlices j it item s))))) := by
  have hor : (j.status.isError && !isSherdStatus j.status || jobPoisoned s j) = true := by simpa using hend
  simp only [itemComplete, h.found, h.there, h.running, h.landed, bne_self_eq_false, Bool.or_false, Bool.false_eq_true, if_false,
    hor, if_true]

/-- What an item does whose weights do not expand (R218). -/
theorem itemComplete_failed {id item : Nat} {j k : Job} {it : Item} {a : AttnIn} {f : AuxFail} {s t : State}
    (h : Runs id item j it s) (he : j.status.isError = false) (hp : jobPoisoned s j = false) (hv : jobView s j = some a)
    (hx : itemExpand j it a.g s = (t, .error f)) (hk : k = worsen f.status j) :
    itemComplete id item s = runCores (loadFirst k it (halfUsed true k it (setJob { k with
      lastCore := it.core
      items := k.items.set item { it with state := .done, cycles := 0 } }
      (dropItemSlices k it item (useSlices k it item (auxFailed f it.core t)))))) := by
  subst hk
  simp only [itemComplete, h.found, h.there, h.running, h.landed, bne_self_eq_false, Bool.or_false, Bool.false_eq_true, if_false,
    he, hp, hv, hx, Bool.false_and]

/-- What an item does that is expanded: its work counts (R214, R256). -/
theorem itemComplete_expanded {id item : Nat} {j k : Job} {it : Item} {a : AttnIn} {w : List (Nat × Bytes)} {s t : State}
    (h : Runs id item j it s) (he : j.status.isError = false) (hp : jobPoisoned s j = false) (hv : jobView s j = some a)
    (hx : itemExpand j it a.g s = (t, .ok w))
    (hk : k = { j with weights := j.weights.filter (fun x => !w.any (fun y => y.1 == x.1)) ++ w }) :
    itemComplete id item s = runCores (loadFirst k it (halfUsed true k it (setJob { k with
      lastCore := it.core
      items := j.items.set item { it with state := .done, cycles := (countItem j it a item t).2 } }
      (dropItemSlices k it item (useSlices k it item (countItem j it a item t).1))))) := by
  subst hk
  simp only [itemComplete, h.found, h.there, h.running, h.landed, bne_self_eq_false, Bool.or_false, Bool.false_eq_true, if_false,
    he, hp, hv, hx, Bool.false_and]

/-- An item that does not run, or that misses a tile, does not end. -/
theorem itemComplete_waits {id item : Nat} {j : Job} {it : Item} {s : State} (hj : findJob s id = some j)
    (hi : j.items[item]? = some it) (h : it.state ≠ .running ∨ j.missing.any (fun m => m.1 == item) = true) :
    itemComplete id item s = s := by
  have hor : (it.state != .running || j.missing.any (fun m => m.1 == item)) = true := by
    rw [Bool.or_eq_true, bne_iff_ne]
    exact h
  simp only [itemComplete, hj, hi, hor, if_true]

/-! ## Jobs -/

/-- A job that reads poison ends with an error status. -/
theorem worsen_poisoned_isError (j : Job) : (worsen .poisoned j).status.isError = true := by
  unfold worsen
  split
  · rfl
  · next hnot =>
    have herr : Status.isError .poisoned = true := rfl
    cases hj : j.status.isError with
    | true => rfl
    | false => simp [herr, hj] at hnot

/-- What a job whose items are all done does at its end (R110, R167). -/
theorem jobComplete_good {id : Nat} {j : Job} {a : AttnIn} {s : State} (h : findJob s id = some j)
    (hd : j.items.all (fun i => i.state == .done) = true) (he : j.status.isError = false) (hp : jobPoisoned s j = false)
    (ha : jobInput s j = .ok a) : jobComplete id s = runCores (pruneSheets (endJobGood j a s)) := by
  simp only [jobComplete, h, hd, he, hp, ha, Bool.not_true, Bool.false_eq_true, if_false]

theorem jobComplete_error {id : Nat} {j : Job} {st : Status} {s : State} (h : findJob s id = some j)
    (hd : j.items.all (fun i => i.state == .done) = true)
    (hst : (if jobPoisoned s j then (worsen .poisoned j).status else j.status) = st) (he : st.isError = true) :
    jobComplete id s = runCores (pruneSheets (endJobError j st s)) := by
  simp only [jobComplete, h, hd, hst, he, Bool.not_true, Bool.false_eq_true, if_false, if_true]

/-- Settles O38: what a tile that lands, an item that is done and a job that ends do, case by case. -/
theorem jobsRunToTheirEnd : Obligations.JobsRunToTheirEnd := by
  unfold Obligations.JobsRunToTheirEnd
  refine ⟨?_, fun _ _ => ⟨rfl, rfl⟩, ?_, ?_, ?_, ?_, ?_, ?_, ?_, ?_, ?_, ?_, ?_, ?_⟩
  · intro id item p j s h hf hp
    exact congrArg Host.Outcome.next (landJobTile_awaited h hf hp).1
  · intro id item p j s h hf hp
    exact congrArg Host.Outcome.next (landJobTile_awaited h hf hp).2
  · intro j p w c l s h
    rw [jobPageFailed_col h, pageFailed, if_pos rfl]
  · intro j p w c l s h
    rw [jobPageFailed_col h, pageFailed_home]
  · intro j p w s h
    exact jobPageFailed_coil h
  · intro id item j it a t w k s h hi hrun hm he hp hv hx hk
    exact congrArg Host.Outcome.next (itemComplete_expanded ⟨h, hi, hrun, hm⟩ he hp hv hx hk)
  · intro id item j it a f t k s h hi hrun hm he hp hv hx hk
    exact congrArg Host.Outcome.next (itemComplete_failed ⟨h, hi, hrun, hm⟩ he hp hv hx hk)
  · intro id item j it s h hi hrun hm hend
    exact congrArg Host.Outcome.next (itemComplete_ended ⟨h, hi, hrun, hm⟩ hend)
  · intro id item j it s h hi hw
    exact congrArg Host.Outcome.next (itemComplete_waits h hi hw)
  · intro id j a s h hd he hp ha
    exact congrArg Host.Outcome.next (jobComplete_good h hd he hp ha)
  · intro id j s h hd he hp
    exact congrArg Host.Outcome.next (jobComplete_error h hd (by rw [hp]; rfl) he)
  · intro id j s h hd hp
    exact congrArg Host.Outcome.next (jobComplete_error h hd (by rw [hp]; rfl) (worsen_poisoned_isError j))
  · intro id item s h
    refine congrArg Host.Outcome.next (?_ : itemComplete id item s = s)
    simp only [itemComplete, h]

end Sys2Proof.Proofs
end

section
/-! PROOFS. Tier copies that end, and the save ring (09_tiers_and_pool.md, Moves; 08_prefix_store.md, Durability). -/

namespace Sys2Proof.Proofs
open Sys2Proof Sys2Proof.Machine Sys2Proof.Laws

/-! ## Copies -/

/-- Dropping slices leaves the columns as they are. -/
theorem findCol_dropSlices (k : Nat) (s : State) (i : Nat) : findCol (dropSlices k s) i = findCol s i := by
  have hkv : (dropSlices k s).kv = s.kv := (dropSlices_kept (Sub.refl _) (Kept.refl _ s)).kvSame rfl
  rw [findCol, hkv, findCol]

/-- What is found after one column is put in place of itself. -/
theorem findCol_setCol_same {s : State} {k : Nat} {c y : Col} (h : findCol s k = some c) (hy : y.slot = k) :
    findCol (setCol y s) k = some y ∧ ∀ i, i ≠ k → findCol (setCol y s) i = findCol s i := by
  refine ⟨?_, fun i hi => ?_⟩
  · rw [findCol_setCol, if_pos hy.symm, h]
    rfl
  · rw [findCol_setCol, hy, if_neg hi]

/-- A copied column without an image has its new home (R301). -/
theorem applyMove_home {m : Move} {k : Nat} {c : Col} {s : State} (hm : m.item = .col k) (hc : findCol s k = some c)
    (himage : m.image = false) (hhome : c.home.tier ≠ .heath) (hnone : c.image = none) :
    applyMove m s = dropSlices k (setCol { c with home := m.dest } s) := by
  have hfree : (c.home.tier == Tier.heath) = false := by simpa using hhome
  simp only [applyMove, hm, hc, himage, hnone, keptImage, Option.filter_none, Option.isNone_none, freeOpt, freeLoc, hfree,
    Bool.false_eq_true, if_false, if_true]

/-- A copied image lies beside the home. -/
theorem applyMove_image {m : Move} {k : Nat} {c : Col} {s : State} (hm : m.item = .col k) (hc : findCol s k = some c)
    (himage : m.image = true) : applyMove m s = dropSlices k (setCol { c with image := some m.dest } s) := by
  simp only [applyMove, hm, hc, himage, if_true]

/-- How a copy's end goes by what its sides met (R301). -/
theorem moveCommit_applied {mv : Nat} {m : Move} {s : State} (h : s.objs.moves.find? (fun x => x.id == mv) = some m)
    (hd : m.dest.tier ≠ .heath) (hplain : ∀ o, m.item ≠ .plain o) (hp : sourcePoisoned s m = false) :
    moveCommit mv .done s = moveOver m (endMove m (applyMove m s)) := by
  have hheath : (m.dest.tier == Tier.heath) = false := by simpa using hd
  simp only [moveCommit, h, hp, hheath, Bool.false_and, Bool.false_eq_true, if_false]

theorem moveCommit_failed {mv : Nat} {m : Move} {s : State} (h : s.objs.moves.find? (fun x => x.id == mv) = some m) :
    moveCommit mv .dstFail s = failMove m .media s := by
  simp only [moveCommit, h]

theorem moveCommit_poisoned {mv : Nat} {m : Move} {s : State} (h : s.objs.moves.find? (fun x => x.id == mv) = some m)
    (hp : sourcePoisoned s m = true) : moveCommit mv .done s = copySourceLost m s := by
  simp only [moveCommit, h, hp, if_true]

theorem moveCommit_unknown {mv : Nat} {s : State} (h : s.objs.moves.find? (fun x => x.id == mv) = none) (res : CopyResult) :
    moveCommit mv res s = s := by
  simp only [moveCommit, h]

/-- Where nothing waits, nothing goes on after a copy. -/
theorem goOnAfterCopy_quiet {s : State} (h : Quiet s) : tendPeer (tendRecalls (flushHeld s)) = s := by
  rw [flushHeld_idle h.writes h.bring, tendRecalls_idle h.recalls, tendPeer_idle h.packets h.leases h.pairs]

/-! ## The save ring -/

section
variable {s t : State} (ho : ringOpen s = true) (ht : tendRing s = t)
include ho ht

/-- A withdrawal that waits enters once there is room for its record, and before any column (R280). -/
theorem saveRingCopyEnd_withdrawal {r : LogRec} {rs : List LogRec} (hr : t.pfx.rcTail = r :: rs) :
    saveRingCopyEnd s = if ringUsed t + 128 ≤ ringCap then drainAll { t with pfx := { t.pfx with
      rcTail := rs, ring := t.pfx.ring ++ [{ item := .withdraw r, bytes := 128 }] } } else t := by
  simp only [saveRingCopyEnd, ho, ht, hr, Bool.not_true, Bool.false_eq_true, if_false]

/-- The record of a column whose data enters, or has entered, follows its data once there is room for it (R280). -/
theorem saveRingCopyEnd_inCopy {c : Col} {e : RingEntry} {l : Loc} (hr : t.pfx.rcTail = []) (hc : inCopy t = some (c, e, l)) :
    saveRingCopyEnd s = if e.left = 0 ∧ ringUsed t + 128 ≤ ringCap then enterRecord c l t else t := by
  simp only [saveRingCopyEnd, ho, ht, hr, hc, Bool.not_true, Bool.false_eq_true, if_false, Bool.and_eq_true, decide_eq_true_eq]

/-- The CLASS records of a column that heath holds enter ahead of its record (R325). -/
theorem saveRingCopyEnd_inHeath {k : Nat} {ks : List Nat} {c : Col} (hr : t.pfx.rcTail = []) (hn : inCopy t = none)
    (hq : t.pfx.durQueue = k :: ks) (hc : findCol t k = some c) (hh : c.home.tier = .heath)
    (hroom : ringUsed t + 32 * (clsChanges c.home (columnUnits t c.model)).length + 128 ≤ ringCap) :
    saveRingCopyEnd s = enterRecord c c.home { t with pfx := { t.pfx with
      durQueue := ks
      ring := t.pfx.ring ++ [{ item := .cls k c.home (columnUnits t c.model)
                               bytes := 32 * (clsChanges c.home (columnUnits t c.model)).length }] } } := by
  simp only [saveRingCopyEnd, ho, ht, hr, hn, hq, hc, hh, hroom, beq_self_eq_true, decide_true, Bool.and_self, Bool.not_true,
    Bool.false_eq_true, if_false, if_true]

end

/-- A publish record has the next number, and is no withdrawal (R287). -/
theorem publishRec_fields {s : State} {c : Col} {l : Loc} {r : LogRec} (h : publishRec s c l = some r) :
    r.recNo = s.pfx.nextRec ∧ r.withdrawal = false ∧ r.units = columnUnits s c.model := by
  obtain ⟨e, -, rfl⟩ := Option.map_eq_some_iff.1 h
  exact ⟨rfl, rfl, rfl⟩

/-- Settles O39: a copy's end by what its sides met, and the save ring's by what is next to enter. -/
theorem copiesCommitAndEnterTheRing : Obligations.CopiesCommitAndEnterTheRing := by
  unfold Obligations.CopiesCommitAndEnterTheRing
  refine ⟨?_, ?_, ?_, ?_, ?_, ?_, fun _ => flushHeld_idle, fun _ => goOnAfterCopy_quiet, ?_, ?_, ?_, ?_, ?_, ?_,
    fun _ _ _ _ => publishRec_fields⟩
  · intro mv m s h hd hplain hp
    exact congrArg (fun t => Host.Outcome.next (tendPeer (tendRecalls (flushHeld t)))) (moveCommit_applied h hd hplain hp)
  · intro m k c s hm hc himage hhome hnone
    have hslot : c.slot = k := findCol_slot hc
    obtain ⟨hk, hi⟩ := findCol_setCol_same (y := { c with home := m.dest }) hc hslot
    refine ⟨_, applyMove_home hm hc himage hhome hnone, ?_, fun i hne => ?_⟩
    · rw [findCol_dropSlices, hk]
    · rw [findCol_dropSlices, hi i hne]
  · intro m k c s hm hc himage
    have hslot : c.slot = k := findCol_slot hc
    rw [applyMove_image hm hc himage, findCol_dropSlices]
    exact (findCol_setCol_same (y := { c with image := some m.dest }) hc hslot).1
  · intro mv m s h
    exact congrArg (fun t => Host.Outcome.next (tendPeer (tendRecalls (flushHeld t)))) (moveCommit_failed h)
  · intro mv m s h _ hp
    exact congrArg (fun t => Host.Outcome.next (tendPeer (tendRecalls (flushHeld t)))) (moveCommit_poisoned h hp)
  · intro mv res s h
    exact congrArg (fun t => Host.Outcome.next (tendPeer (tendRecalls (flushHeld t)))) (moveCommit_unknown h res)
  · intro r rs s t ho ht hr hroom
    exact congrArg (fun t => Host.Outcome.next (tendPrefix t)) ((saveRingCopyEnd_withdrawal ho ht hr).trans (if_pos hroom))
  · intro r rs s t ho ht hr hfull
    exact congrArg (fun t => Host.Outcome.next (tendPrefix t))
      ((saveRingCopyEnd_withdrawal ho ht hr).trans (if_neg (Nat.not_le.2 hfull)))
  · intro c e l s t ho ht hr hc hleft hroom
    exact congrArg (fun t => Host.Outcome.next (tendPrefix t)) ((saveRingCopyEnd_inCopy ho ht hr hc).trans (if_pos ⟨hleft, hroom⟩))
  · intro c e l s t ho ht hr hc hleft
    exact congrArg (fun t => Host.Outcome.next (tendPrefix t))
      ((saveRingCopyEnd_inCopy ho ht hr hc).trans (if_neg fun h => hleft h.1))
  · intro k ks c s t ho ht hr hn hq hc hh hroom
    exact congrArg (fun t => Host.Outcome.next (tendPrefix t)) (saveRingCopyEnd_inHeath ho ht hr hn hq hc hh hroom)
  · intro s ho
    refine congrArg (fun t => Host.Outcome.next (tendPrefix t)) (?_ : saveRingCopyEnd s = s)
    simp only [saveRingCopyEnd, ho, Bool.not_false, if_true]

end Sys2Proof.Proofs
end

section
/-! PROOFS. A queue number beyond those of the spec: its window object (01_programming_model.md, The object dictionary) is then an
object of another index, which a command may change. -/

namespace Sys2Proof.Proofs
open Sys2Proof Sys2Proof.Machine Sys2Proof.Laws

/-! ## One queue behind many empty ones -/

/-- `n` empty queues, and then one. -/
def behindEmpty (n : Nat) (k : Queue) : List Queue := List.replicate n ({} : Queue) ++ [k]

theorem queueOf_behindEmpty {n : Nat} {k : Queue} {q : QRef} {s : State} (hs : s.queues.qs = behindEmpty n k) (hq : qIdx q = n) :
    queueOf s q = k := by
  rw [queueOf, hs, hq, behindEmpty, List.getD_append_right _ _ _ _ (by simp)]
  simp

theorem queueOf_beforeLast {n : Nat} {k : Queue} {q : QRef} {s : State} (hs : s.queues.qs = behindEmpty n k) (hq : qIdx q < n) :
    queueOf s q = {} := by
  rw [queueOf, hs, behindEmpty, List.getD_append _ _ _ _ (by simpa using hq), List.getD_replicate _ hq]

theorem setQueue_behindEmpty {n : Nat} {k k' : Queue} {q : QRef} {s : State} (hs : s.queues.qs = behindEmpty n k)
    (hq : qIdx q = n) : (setQueue q k' s).queues.qs = behindEmpty n k' := by
  show s.queues.qs.set (qIdx q) k' = _
  rw [hs, hq, behindEmpty, List.set_append_right _ _ (by simp)]
  simp [behindEmpty]

theorem qIdx_allQueues {q : QRef} (h : q ∈ allQueues) : qIdx q ≤ 128 := by
  simp only [allQueues, List.mem_cons, List.mem_map, List.mem_range] at h
  obtain rfl | ⟨i, hi, rfl⟩ := h
  · decide
  · simp only [qIdx]
    omega

/-- With no command, pair or descriptor that could end there is nothing to settle. -/
theorem settle_behindEmpty {n : Nat} {k : Queue} {s : State} (hn : 128 < n) (hs : s.queues.qs = behindEmpty n k)
    (hc : s.queues.cmds.find? (waitOver s) = none) (hp : s.peer.qps = []) (fuel : Nat) : settle fuel s = s := by
  have hempty : ∀ q ∈ allQueues, queueOf s q = {} := fun q hq =>
    queueOf_beforeLast hs (Nat.lt_of_le_of_lt (qIdx_allQueues hq) hn)
  have habort : abortHead s = none := by
    rw [abortHead, List.head?_eq_none_iff, List.filterMap_eq_nil_iff]
    intro q hq
    rw [hempty q hq]
  have hunknown : unknownHead s = none := by
    rw [unknownHead, List.head?_eq_none_iff, List.filterMap_eq_nil_iff]
    intro q hq
    rw [hempty q hq]
  cases fuel with
  | zero => rfl
  | succ m => simp only [settle, hc, hp, List.find?_nil, habort, hunknown]

/-- A command of the last queue that completes there without a window sends nothing. -/
theorem complete_withoutWindow {n : Nat} {k : Queue} {c : Cmd} {s : State} (hn : 128 < n) (hs : s.queues.qs = behindEmpty n k)
    (hq : qIdx c.q = n) (hw : compWindow s c.q = 0xFFFF)
    (hc : ∀ t, (s.queues.cmds.filter (fun d => d.id != c.id)).find? (waitOver t) = none)
    (hp : s.peer.qps = []) (st : Status) (v : Nat) : (complete c st v s).host = s.host := by
  have hwin : ∀ cmds, compWindow { s with queues := { s.queues with cmds := cmds } } c.q = 0xFFFF := fun cmds => by
    cases hcq : c.q <;> rw [hcq] at hw <;> exact hw
  have hfinish : finishCmd c st v s = setQueue c.q
      { queueOf s c.q with completed := (queueOf s c.q).completed + 1 }
      { s with queues := { s.queues with cmds := s.queues.cmds.filter (fun d => d.id != c.id) } } := by
    rw [finishCmd, writeCompletion]
    simp only [hwin, beq_self_eq_true, if_true]
    rfl
  have hqs := setQueue_behindEmpty (s := { s with queues := { s.queues with cmds := s.queues.cmds.filter (fun d => d.id != c.id) } })
    (k' := { queueOf s c.q with completed := (queueOf s c.q).completed + 1 }) hs hq
  rw [complete, settleAll, hfinish, settle_behindEmpty hn hqs (hc _) hp]
  rfl

/-- Where nothing more has been sent, no completion is reported. -/
theorem not_reports_of_host {q : QRef} {d : Desc} {st : Status} {v : Nat} {s t : State} (h : t.host = s.host) :
    ¬ Reports q d st v s t := by
  rintro ⟨before, hpre⟩
  have hlen := hpre.length_le
  have hbodies : bodies t = bodies s := by rw [bodies, h, bodies]
  rw [hbodies] at hlen
  simp at hlen

/-! ## TABLE_LOAD on such a queue -/

/-- A TABLE_LOAD that empties slot 0. -/
def emptySlot0 : Desc := 0xFF0051

/-- A command queue whose window and ring size are OD 0x8000:06 and :02: with a COMPRESS that uses slot 0 under way on the admin
queue, it has a TABLE_LOAD to start. -/
def loadBehind : State := { State.reset with
  od := [(0x800002, 1), (0x800006, 0xFFFE)]
  power := { dev := .ready }
  sec := { tenancy := .owned }
  host := { windows := [{ id := 0xFFFE, cls := 2, bytes := 32 }] }
  queues := {
    qs := behindEmpty 111617 { waiting := [emptySlot0] }
    cmds := [{ id := 0, since := 0, q := .admin, part := 0, desc := 0x1 <<< 256 ||| 0x52
               work := .coding { total := 1, busy := [], done := [], gen := 0 } }] } }

theorem queueOf_loadBehind : queueOf loadBehind (.part 27904 1) = { waiting := [emptySlot0] } :=
  queueOf_behindEmpty rfl rfl

theorem front_loadBehind : Front 0x51 (.part 27904 1) emptySlot0 [] loadBehind where
  front := by rw [queueOf_loadBehind]
  code := by decide +kernel
  may := by
    have hroom : compRoom loadBehind (.part 27904 1) = true := by
      rw [compRoom, queueOf_loadBehind]
      decide +kernel
    rw [canStart, hroom, queueOf_loadBehind]
    decide +kernel
  lands := by
    rw [queueOf_loadBehind]
    decide +kernel
  own := by decide +kernel
  form := by decide +kernel
  soon := fun h => absurd h (by decide)
  clear := by
    unfold mustWait
    have : dOpcode emptySlot0 = 0x51 := by decide +kernel
    rw [this]
    rfl
  turn := by decide +kernel

/-- A load of a slot with sherds in flight is a conflict, and counts (R245, R252). -/
theorem runTableLoad_conflict {c : Cmd} {s : State} (hid : dfield c.desc 12 4 = 0) (hslot : dfield c.desc 8 1 < 16)
    (hoff : dfield c.desc 16 8 = 0) (hf : slotInFlight s (dfield c.desc 8 1) ≠ 0) :
    runTableLoad c s = complete c .conflict 0 (bump32 0x8000 0x06 s) := by
  have hload : tableLoad c.part c.desc s = .error .conflict := by
    have hok : (decide (dfield c.desc 8 1 < 16) && dfield c.desc 16 8 == 0) = true := by simp [hslot, hoff]
    have hbusy : (slotInFlight s (dfield c.desc 8 1) == 0) = false := by simpa using hf
    simp only [tableLoad, hid, if_true, hok, hbusy, need]
    rfl
  rw [runTableLoad, hload]
  rfl

/-- The count of conflicts that a load behind that COMPRESS raises closes its own queue's window. -/
theorem compWindow_loadBehind_after :
    compWindow (bump32 0x8000 0x06 (popCmd (.part 27904 1) emptySlot0 [] loadBehind)) (.part 27904 1) = 0xFFFF := by
  decide +kernel

theorem runTableLoad_loadBehind_host :
    (complete (takenCmd (.part 27904 1) emptySlot0 loadBehind) .conflict 0
      (bump32 0x8000 0x06 (popCmd (.part 27904 1) emptySlot0 [] loadBehind))).host = loadBehind.host := by
  refine complete_withoutWindow (n := 111617) (k := {}) (by decide) ?_ rfl compWindow_loadBehind_after (fun t => ?_) rfl _ _
  · rw [← show ({ queueOf loadBehind (.part 27904 1) with waiting := [] } : Queue) = {} by rw [queueOf_loadBehind]]
    exact setQueue_behindEmpty (s := loadBehind) (q := .part 27904 1) rfl rfl
  · rfl

/-- Refutes O33: its third clause reports the conflict for queues of every number, but where the queue's window is the count of
conflicts itself (OD 0x8000:06), that count closes the window and the command ends without a record. -/
theorem not_codingCommandsAct : ¬ Obligations.CodingCommandsAct := by
  intro h
  obtain ⟨-, -, hconflict, -⟩ := h
  have hflight : slotInFlight (popCmd (.part 27904 1) emptySlot0 [] loadBehind) (dfield emptySlot0 8 1) ≠ 0 := by
    decide +kernel
  have hid : dfield emptySlot0 12 4 = 0 := by decide +kernel
  have hslot : dfield emptySlot0 8 1 < 16 := by decide +kernel
  have hoff : dfield emptySlot0 16 8 = 0 := by decide +kernel
  obtain ⟨t, hx, hreports, -⟩ := hconflict _ _ _ _ front_loadBehind hid hslot hoff hflight
  have hrun : startCmd 0x51 runTableLoad (.part 27904 1) loadBehind = t := Host.Outcome.next.inj hx
  rw [startCmd_front front_loadBehind, runTableLoad_conflict (c := takenCmd (.part 27904 1) emptySlot0 loadBehind) hid hslot hoff
    hflight] at hrun
  exact not_reports_of_host (hrun ▸ runTableLoad_loadBehind_host) hreports

end Sys2Proof.Proofs
end

section
/-! PROOFS. A PREFIX_LOOKUP (08_prefix_store.md, R266 to R272) on a queue whose window object is the count of lookups. -/

namespace Sys2Proof.Proofs
open Sys2Proof Sys2Proof.Machine Sys2Proof.Laws

/-- A lookup of one token, less than a run of 16, for sequence 1. -/
def lookupOneToken : Desc := 0x1 <<< 96 ||| 0x1 <<< 64 ||| 0xFF0020

/-- The queue whose window is OD 0x4020:03, and whose ring size is OD 0x401F:FF. -/
def lookupQueue : QRef := .part 11551 254

/-- That queue has such a lookup to start, for an empty sequence of its partition. -/
def lookupBehind : State := { State.reset with
  od := [(0x401FFF, 1), (0x402003, 0xFFFE)]
  power := { dev := .ready }
  sec := { tenancy := .owned }
  host := { windows := [{ id := 0xFFFE, cls := 2, bytes := 32 }] }
  kv := { seqs := [{ id := 1, part := 11551, model := 0 }] }
  queues := { qs := behindEmpty 46458 { waiting := [lookupOneToken] } } }

theorem queueOf_lookupBehind : queueOf lookupBehind lookupQueue = { waiting := [lookupOneToken] } :=
  queueOf_behindEmpty rfl rfl

theorem front_lookupBehind : Front 0x20 lookupQueue lookupOneToken [] lookupBehind where
  front := by rw [queueOf_lookupBehind]
  code := by decide +kernel
  may := by
    have hroom : compRoom lookupBehind lookupQueue = true := by
      rw [compRoom, queueOf_lookupBehind]
      decide +kernel
    rw [canStart, hroom, queueOf_lookupBehind]
    decide +kernel
  lands := by
    rw [queueOf_lookupBehind]
    decide +kernel
  own := by decide +kernel
  form := by decide +kernel
  soon := fun h => absurd h (by decide)
  clear := by decide +kernel
  turn := by decide +kernel

/-- The lookup succeeds, and its count closes the queue's window. -/
theorem pfxLookup_lookupBehind : (pfxLookup 11551 lookupOneToken (popCmd lookupQueue lookupOneToken [] lookupBehind)).toOption.map
    (fun r => compWindow r.2 lookupQueue) = some 0xFFFF := by
  decide +kernel

/-- Outside a rebuild a lookup runs at once (R289). -/
theorem runPfxLookup_now {c : Cmd} {s : State} (h : s.pfx.rebuildState ≠ 1) :
    runPfxLookup c s = finish c (pfxLookup c.part c.desc s) s := if_neg h

/-- What succeeds has a value. -/
theorem ok_of_toOption_map {α β : Type} {e : Except Status α} {f : α → β} {b : β} (h : e.toOption.map f = some b) :
    ∃ a, e = .ok a ∧ f a = b := by
  cases e with
  | error st => cases h
  | ok a => exact ⟨a, rfl, Option.some.inj h⟩

/-- It completes without a record. -/
theorem exec_lookupBehind_host {t : State} (h : exec (.pfxLookup lookupQueue) lookupBehind = .next t) : t.host = lookupBehind.host := by
  have hrun : startCmd 0x20 runPfxLookup lookupQueue lookupBehind = t := Host.Outcome.next.inj h
  have hfront := startCmd_front front_lookupBehind runPfxLookup
  obtain ⟨⟨v, u⟩, hok, hwin⟩ := ok_of_toOption_map pfxLookup_lookupBehind
  have hkept : Kept 2622336 (popCmd lookupQueue lookupOneToken [] lookupBehind) u :=
    pfxLookup_kept (Sub.refl _) (Kept.refl _ _) _ hok
  have hcomplete : t = complete (takenCmd lookupQueue lookupOneToken lookupBehind) .ok v u := by
    have hargs : (takenCmd lookupQueue lookupOneToken lookupBehind).part = 11551 ∧
        (takenCmd lookupQueue lookupOneToken lookupBehind).desc = lookupOneToken := ⟨rfl, rfl⟩
    rw [← hrun, hfront, runPfxLookup_now (by decide +kernel), hargs.1, hargs.2, hok, finish]
  have hqueues := hkept.queuesSame rfl
  have hqs : u.queues.qs = behindEmpty 46458 {} := by
    rw [hqueues, ← show ({ queueOf lookupBehind lookupQueue with waiting := [] } : Queue) = {} by rw [queueOf_lookupBehind]]
    exact setQueue_behindEmpty (s := lookupBehind) (q := lookupQueue) rfl rfl
  rw [hcomplete, complete_withoutWindow (by decide) hqs rfl hwin (fun t => by rw [hqueues]; rfl) (hkept.peerSame rfl ▸ rfl),
    hkept.hostSame rfl]
  rfl

/-- Refutes O29: its first clause reports the lookup for queues of every number, but where the queue's window is the count of
lookups itself (OD 0x4020:03), that count closes the window and the command ends without a record. -/
theorem not_prefixCommandsMatchPublishAndEvict : ¬ Obligations.PrefixCommandsMatchPublishAndEvict := by
  intro h
  obtain ⟨hlookup, -⟩ := h
  have hargs : (lookupArgs 11551 lookupOneToken lookupBehind).toOption.map (fun a => (a.seq, a.runs)) =
      some (some { id := 1, part := 11551, model := 0 }, 0) := by
    decide +kernel
  obtain ⟨a, ha, hvalue⟩ := ok_of_toOption_map hargs
  obtain ⟨hseq, hruns⟩ := Prod.mk.inj hvalue
  have hwalk : (walk lookupBehind 11551 (modelTag lookupBehind a.model) a.src a.runs 0 0 0).1 = [] := by
    rw [hruns]
    rfl
  obtain ⟨t, y, hx, ⟨hreports, -⟩, -⟩ := hlookup lookupQueue lookupOneToken [] a _ [] lookupBehind front_lookupBehind
    (by decide) ha hseq rfl hwalk rfl
  exact not_reports_of_host (exec_lookupBehind_host hx) hreports

end Sys2Proof.Proofs
end

section
/-! PROOFS. Attention commands and confirms (05_attention.md, The ATTN descriptor, Backward, Speculative verification). -/

namespace Sys2Proof.Proofs
open Sys2Proof Sys2Proof.Machine Sys2Proof.Laws

/-! ## Jobs of commands -/

/-- Taking a command off its queue changes nothing that the checks of an attention command look at. -/
theorem attnCheck_popCmd (p : Nat) (d : Desc) (q : QRef) (e : Desc) (es : List Desc) (s : State) :
    attnCheck p d (popCmd q e es s) = attnCheck p d s := rfl

theorem bwdCheck_popCmd (p : Nat) (d : Desc) (q : QRef) (e : Desc) (es : List Desc) (s : State) :
    bwdCheck p d (popCmd q e es s) = bwdCheck p d s := rfl

/-- A job whose pages' heath ports all serve starts (R220, R354). -/
theorem startCmdJob_starts {kind : JobKind} {c : Cmd} {x : Seq} {g : MGroup} {s : State} {j : Job}
    (hj : j = cmdJob kind c x g s)
    (hup : ∀ p ∈ (List.range j.items.length).flatMap (itemPages s j), ∀ y, tilePlace s j p = some y → onDownPort s y.2.1 = false) :
    startCmdJob kind c x g s =
      runCores (abandonSweeps (fetchCols j (addJob j (g.kind == 2) (setWork c.id (.job j.id) s)))) := by
  have hdown : ((List.range j.items.length).flatMap (itemPages s j)).findSome? (fun p =>
      (tilePlace s j p).bind (fun x => if onDownPort s x.2.1 then some x.2.1.unit else none)) = none := by
    refine List.findSome?_eq_none_iff.2 fun p hp => ?_
    cases hy : tilePlace s j p with
    | none => rfl
    | some y => simp [hup p hp y hy]
  subst hj
  simp only [startCmdJob, hdown]

/-! ## Confirms -/

/-- A confirm of a step whose tail has gone is expired (R187). -/
theorem confirmStart_expired {c : Cmd} {x : Seq} {s : State} (hx : openSeq s c.part (dSeq c.desc) = .ok x)
    (hp : x.prov.filter (fun t => t.step == dfield c.desc 16 8) = none) : confirmStart c s = complete c .specExpired 0 s := by
  simp only [confirmStart, hx, hp]

/-- A confirm that accepts candidates waits for its compaction (R187, R188). -/
theorem confirmStart_accepted {c : Cmd} {x : Seq} {p : Tail} {s : State} (hx : openSeq s c.part (dSeq c.desc) = .ok x)
    (hp : x.prov = some p) (hs : p.step = dfield c.desc 16 8) (hf : p.failed = false) (hpath : pathOk p c.desc = true)
    (ha : dfield c.desc 11 1 ≠ 0) : confirmStart c s = setWork c.id .confirm s := by
  have hprov : x.prov.filter (fun t => t.step == dfield c.desc 16 8) = some p := by
    rw [hp]
    exact Option.filter_some_pos (by simpa using hs)
  simp only [confirmStart, hx, hprov, hf, hpath, if_neg ha, Bool.not_true, Bool.false_eq_true, if_false]

section
variable {id : Nat} {c : Cmd} {x : Seq} {p : Tail} {s : State} (hc : findCmd s id = some c) (hw : c.work = .confirm)
  (hx : findSeq s (dSeq c.desc) = some x) (hp : x.prov = some p) (hs : p.step = dfield c.desc 16 8)
include hc hw hx hp hs

/-- A compaction whose verify jobs have all ended writes the accepted path (R188). -/
theorem compaction_writes {t : State} (hl : p.left = []) (hf : p.failed = false) (hm : lastMoving s x = false)
    (ht : compactRows { x with prov := none } p ((List.range (dfield c.desc 11 1)).map (fun i => dfield c.desc (24 + i) 1))
      (dropTail x p.step s) = .ok t) :
    compaction id s = complete c .ok (x.length + dfield c.desc 11 1 + (p.count - dfield c.desc 11 1) * 2 ^ 32)
      (releaseHeld x.id (odAdd 0x3000 0x05 64 (dfield c.desc 11 1) (settleVerify x.id p.step (dfield c.desc 11 1) p.count t))) := by
  have hprov : x.prov.filter (fun t => t.step == dfield c.desc 16 8) = some p := by
    rw [hp]
    exact Option.filter_some_pos (by simpa using hs)
  simp only [compaction, hc, hw, hx, hprov, hl, hf, hm, ht, bne_self_eq_false, List.isEmpty_nil, Bool.not_true, Bool.not_false,
    Bool.and_false, Bool.or_self, Bool.false_eq_true, if_false]

/-- Until then it waits. -/
theorem compaction_waits (hl : p.left ≠ []) : compaction id s = s := by
  have hprov : x.prov.filter (fun t => t.step == dfield c.desc 16 8) = some p := by
    rw [hp]
    exact Option.filter_some_pos (by simpa using hs)
  have hleft : p.left.isEmpty = false := List.isEmpty_eq_false_iff.2 hl
  simp only [compaction, hc, hw, hx, hprov, hleft, bne_self_eq_false, Bool.not_false, Bool.true_or, Bool.false_eq_true, if_false,
    if_true]

end

/-- Settles O32: a checked attention command starts its job, and a confirm commits with its compaction. -/
theorem attentionCommandsAct : Obligations.AttentionCommandsAct := by
  unfold Obligations.AttentionCommandsAct
  refine ⟨?_, ?_, ?_, ?_, ?_, ?_⟩
  · intro q d ds x g j s h hok hj hup
    refine congrArg Host.Outcome.next ((startCmd_front h runAttn).trans ?_)
    rw [runAttn, attnCheck_popCmd, show (takenCmd q d s).desc = d from rfl, hok]
    exact startCmdJob_starts hj hup
  · intro q d ds x g j s h hok hj hup
    refine congrArg Host.Outcome.next ((startCmd_front h runAttnBwd).trans ?_)
    rw [runAttnBwd, bwdCheck_popCmd, show (takenCmd q d s).desc = d from rfl, hok]
    exact startCmdJob_starts hj hup
  · intro q d ds x s h hx hp
    exact ⟨_, congrArg Host.Outcome.next ((startCmd_front h runSpecConfirm).trans
      (confirmStart_expired (c := takenCmd q d s) (s := popCmd q d ds s) hx hp)), completes_front_unchanged h⟩
  · intro q d ds x p s h hx hp hs hf hpath ha
    exact congrArg Host.Outcome.next ((startCmd_front h runSpecConfirm).trans
      (confirmStart_accepted (c := takenCmd q d s) (s := popCmd q d ds s) hx hp hs hf hpath ha))
  · intro id c x p t s hc hw hx hp hs hl hf hm ht
    exact congrArg Host.Outcome.next (compaction_writes hc hw hx hp hs hl hf hm ht)
  · intro id c x p s hc hw hx hp hs hl
    exact congrArg Host.Outcome.next (compaction_waits hc hw hx hp hs hl)

end Sys2Proof.Proofs
end

section
/-! PROOFS. A refused OBJ_POLICY (09_tiers_and_pool.md, R298, R312): what waited to be brought into meadow goes on behind it. -/

namespace Sys2Proof.Proofs
open Sys2Proof Sys2Proof.Machine Sys2Proof.Laws

/-- An OBJ_POLICY of partition 0 with the undefined operation 3. -/
def undefinedPolicyOp : Desc := 0x3 <<< 96 ||| 0x34

/-- The admin queue has it to start, while column 5, which has been freed, still waits to be brought into meadow. -/
def bringingFreed : State := { State.reset with
  od := [(0x132005, 0)]
  power := { dev := .ready }
  sec := { tenancy := .owned }
  host := { windows := [{ id := 0, cls := 2, bytes := 8192 }] }
  objs := { bring := [.col 5] }
  queues := { qs := (List.replicate 129 {}).set 128 { waiting := [undefinedPolicyOp] } } }

theorem front_bringingFreed : Front 0x34 .admin undefinedPolicyOp [] bringingFreed where
  front := by decide +kernel
  code := by decide +kernel
  may := by decide +kernel
  lands := by decide +kernel
  own := by decide +kernel
  form := by decide +kernel
  soon := fun h => absurd h (by decide)
  clear := by decide +kernel
  turn := by decide +kernel

/-- Once the command has been refused, nothing waits to be brought. -/
theorem bring_after_refusal : (startCmd 0x34 runObjPolicy .admin bringingFreed).objs.bring = [] := by
  decide +kernel

/-- Refutes O31: its last clause has a refused OBJ_POLICY touch no object, but what waits to be brought into meadow goes on behind it
(R312), and a column that has been freed is then no longer waited for. -/
theorem not_objectCommandsAct : ¬ Obligations.ObjectCommandsAct := by
  intro h
  obtain ⟨-, -, -, -, -, -, -, -, -, -, hrefused⟩ := h
  obtain ⟨t, hx, -, honly⟩ := hrefused _ _ _ _ front_bringingFreed (by decide +kernel)
  have hrun : startCmd 0x34 runObjPolicy .admin bringingFreed = t := Host.Outcome.next.inj hx
  have hsame : t.objs = bringingFreed.objs := honly.2.2 .objs (by decide)
  have hbring : bringingFreed.objs.bring = [] := by rw [← hsame, ← hrun, bring_after_refusal]
  cases hbring

end Sys2Proof.Proofs
end
